-- ==== Sys2Proof/Word.lean ====
section
/-! DEFINITION. The words of the machine: bit patterns of the widths the spec names (00 R2, R10), and their plainest arithmetic. -/

namespace Sys2Proof

/-- A scalar register, an address, a 64-bit CSR (06 R114). -/
abbrev Word := BitVec 64
/-- One lane of a vector register, one local-store word (06 R114, 11 R217). -/
abbrev Lane := BitVec 32
/-- One byte of memory. -/
abbrev Byte := BitVec 8

/-- The 64-bit word of a natural number, wrapped (00 R10 `wrap`). -/
def w64 (n : Nat) : Word := BitVec.ofNat 64 n
/-- The 32-bit word of a natural number, wrapped. -/
def w32 (n : Nat) : Lane := BitVec.ofNat 32 n

/-- `bits(x, h, l)` of 00 R10 as the unsigned field of `n` bits from bit `lo`. -/
def Word.field (x : Word) (lo n : Nat) : Nat := (x.toNat >>> lo) % 2 ^ n

/-- One bit of a 64-bit word. -/
def Word.bit (x : Word) (i : Nat) : Bool := x.getLsbD i

end Sys2Proof
end

