-- ==== Sys2Proof/Config.lean ====
section
/-! DEFINITION. What an implementation fixes and the spec leaves open: free values (no body: nothing can evaluate them), and the panel's figures (01 R28). -/

namespace Sys2Proof.Config

/-- A free 64-bit value, numbered by the step's counter (log entry 7). -/
opaque freeWord : Nat → BitVec 64
/-- A free byte, numbered by the step's counter (log entry 7). -/
opaque freeByte : Nat → BitVec 8
/-- The energy, in µJ, that the tile meters attribute to one gang at one event; the spec gives no figure (15 R318, log entry 10). -/
opaque freeEnergy : Nat → Nat

/-- A word of the SHA-384 measurement of a firmware image: its chunks by offset, its length, the word's index (19 R392, log entry 7). -/
opaque imageHash : List (Nat × List (BitVec 8)) → Nat → Nat → BitVec 64

/-- A word of the SHA-384 hash of the fuse map: its tiles, its cores, the word's index (19 R395, log entry 7). -/
opaque fuseHash : List Nat → List (Nat × Nat) → Nat → BitVec 64

/-- A word of the SHA-384 hash of a log block: its entries as numbers, the word's index (19 R395, log entry 7). -/
opaque blockHash : List (List Nat) → Nat → BitVec 64

/-- Physical tiles of the panel (01 R28). -/
def nPTile : Nat := 3072
/-- The most virtual tiles offered (01 R1, R22). -/
def maxVTile : Nat := 2944
/-- The byte offset of the checkpoint reserve in a local store (11 R217). -/
def lsReserve : Nat := 0x70000
/-- The bytes of a local store (11 R217). -/
def lsSize : Nat := 0x80000
/-- One past the last HBM byte that partitions may map (11 R226). -/
def hbmTop : Nat := 0x145A0BC0000
/-- One past the last HBM byte (11 R226). -/
def hbmEnd : Nat := 0x165A0BC0000
/-- The start of the register window (11 R226, 19 R384). -/
def regBase : Nat := 0x1F000000000
/-- One past the register window (11 R226). -/
def regEnd : Nat := 0x20000000000
/-- A lease period in clk (15 R312). -/
def leasePeriod : Nat := 4194304
/-- A decay period of the ageing counters in clk (17 R360). -/
def decayPeriod : Nat := 2 ^ 42

end Sys2Proof.Config
end

