-- ==== Sys2Proof/Syntax.lean ====
section
/-! DEFINITION. The syntax of the machine: one constructor of `Instr` for each row of spec/opcode_table.json. An instruction row carries its operand fields (06 R106, R107); an event row carries what the event names and what the environment supplies to it. -/

namespace Sys2Proof

/-- `s0`-`s63` (06 R108). -/
abbrev SReg := Fin 64
/-- `v0`-`v31` (06 R108). -/
abbrev VReg := Fin 32
/-- `p0`-`p7` (06 R108). -/
abbrev PReg := Fin 8
/-- `h0`-`h15` (06 R108). -/
abbrev HReg := Fin 16
/-- `q0`-`q7` (06 R108). -/
abbrev QReg := Fin 8
/-- `tid0`-`tid63` (06 R108). -/
abbrev TidN := Fin 64
/-- `a0`-`a7` (06 R108). -/
abbrev AReg := Fin 8

/-- The predicate fields PR and PN of the base word (06 R106, R109). -/
structure Pred where
  reg : PReg
  neg : Bool
  deriving DecidableEq, Repr

/-- The attribute byte (06 R110). -/
structure Attr where
  ord   : BitVec 2
  scope : BitVec 3
  evict : BitVec 3
  deriving DecidableEq, Repr

/-- The modifier prefix (06 R111): `none` in a part means its XEN or SET bit is 0. -/
structure Prefix where
  dhi   : Option (BitVec 16)
  evict : Option (BitVec 3)
  scope : Option (BitVec 3)
  ord   : Option (BitVec 2)
  deriving DecidableEq, Repr

/-- The condition codes of 07 R130. -/
inductive Cond | eq | ne | lt | ge | ltu | geu | tst | tstn
  deriving DecidableEq, Repr

/-- The condition codes of `v.fcmp` (09 R182). -/
inductive FCond | eq | ne | lt | le | gt | ge | un | ord
  deriving DecidableEq, Repr

/-- The modes of `add`, `sub` and `mul` (08 R158). -/
inductive AluMode | wrap | w | ss | us | wss | wus
  deriving DecidableEq, Repr

/-- The kinds of `mulh` (08 R159). -/
inductive MulhKind | ss | uu | su
  deriving DecidableEq, Repr

/-- The element widths of the integer vector instructions (09 R178). -/
inductive VWidth | e32 | e16 | e8
  deriving DecidableEq, Repr

/-- The modes of the integer vector instructions (09 R178): wrap or signed, signed saturate, unsigned. -/
inductive VMode | m0 | ss | us
  deriving DecidableEq, Repr

/-- A rounding field (02 R39). -/
inductive RM | rne | rtz | rup | rdn | stoch | dyn
  deriving DecidableEq, Repr

/-- The patterns of `v.shuf` (09 R183). -/
inductive Shuf | rev | swap | zlo | zhi | even | odd
  deriving DecidableEq, Repr

/-- The lane types of `v.cvt` (09 R186). -/
inductive CvtType | fl | si | ui
  deriving DecidableEq, Repr

/-- The levels of `step` (13 R259). -/
inductive StepLevel | tile | dom | part
  deriving DecidableEq, Repr

/-- The fields of a `rep` other than its count (07 R145). -/
structure RepShape where
  stream : Option QReg
  lenm1  : Fin 32
  wbase  : Fin 32
  wsize  : Fin 64
  deriving DecidableEq, Repr

/-- The operand fields of a lease request (15 R294). -/
structure LeaseArgs where
  s2   : Bool
  dom  : Bool
  trap : Bool
  deriving DecidableEq, Repr

/-- A live range of `cont` (15 R295). -/
structure LiveRange where
  base  : BitVec 7
  pages : BitVec 5
  deriving DecidableEq, Repr

/-- What a soft error strikes (17 R359). -/
inductive SoftTarget
  /-- Bits of a local-store word of a core slot. -/
  | ls (vt slot word : Nat)
  /-- A 32-byte HBM granule. -/
  | hbm (pa : Nat)
  /-- A bit of a word of a physical accumulator. -/
  | acc (vt slot acc row col bit : Nat)
  /-- One bit of a local-store word of a core slot, which ECC corrects. -/
  | lsBit (vt slot : Nat)
  /-- The matrix array of a core slot: its next `mx.mma` has partial sums that disagree with their residues. -/
  | array (vt slot : Nat)
  deriving DecidableEq, Repr

/-- Who writes a register: the host's physical function, or a thread slot of a virtual tile (04 R69, 16 R328). -/
inductive Source | host | thread (vt slot : Nat)
  deriving DecidableEq, Repr

/-- What a device reset finds (19 R391, R393): 0 or the FAIL code 3, 4 or 5 of what fails after the firmware was accepted, and the firmware slots whose image does not verify. -/
structure BootReport where
  code   : Nat
  sigBad : List Nat
  deriving DecidableEq, Repr

/-- A boot in which nothing fails. -/
def BootReport.good : BootReport := { code := 0, sigBad := [] }

/-- One constructor per row of spec/opcode_table.json. -/
inductive Instr where
  -- bring-up
  | deviceReset (fail : BootReport) (snapOk : Bool)
  -- control, loops, repetition, queue registers (07)
  | nop
  | pad
  | br (p : Pred) (off : BitVec 16)
  | brLong (p : Pred) (off : BitVec 32)
  | brReg (p : Pred) (a : SReg)
  | brC (p : Pred) (cc : Cond) (a b : SReg) (off : BitVec 16)
  | brCLong (p : Pred) (cc : Cond) (a b : SReg) (off : BitVec 32)
  | brCImm (p : Pred) (cc : Cond) (a : SReg) (off : BitVec 16) (imm : BitVec 32)
  | call (p : Pred) (d : SReg) (off : BitVec 16)
  | callLong (p : Pred) (d : SReg) (off : BitVec 32)
  | callReg (p : Pred) (d a : SReg)
  | ret (p : Pred) (a : SReg)
  | halt (p : Pred)
  | realign (p : Pred) (a : SReg)
  | realignResume (vt slot : Nat)
  | loop (p : Pred) (a : SReg) (off : BitVec 16)
  | loopImm (p : Pred) (off : BitVec 16) (cnt : BitVec 32)
  | loopEnd (p : Pred)
  | rep (p : Pred) (a : SReg) (sh : RepShape)
  | repImm (p : Pred) (cnt : BitVec 32) (sh : RepShape)
  | qPush (p : Pred) (d : QReg) (a : SReg)
  | qEos (p : Pred) (d : QReg)
  | qPop (p : Pred) (d : SReg) (a : QReg)
  | qPeek (p : Pred) (d : SReg) (a : QReg)
  | qTest (p : Pred) (d : SReg) (a : QReg)
  | fetchRequestServe (vt : Nat)
  -- scalar (08)
  | add (p : Pred) (m : AluMode) (d a b : SReg)
  | sub (p : Pred) (m : AluMode) (d a b : SReg)
  | addImm (p : Pred) (m : AluMode) (d a : SReg) (imm : BitVec 16)
  | addImmLong (p : Pred) (m : AluMode) (d a : SReg) (imm : BitVec 32)
  | subImm (p : Pred) (m : AluMode) (d a : SReg) (imm : BitVec 16)
  | subImmLong (p : Pred) (m : AluMode) (d a : SReg) (imm : BitVec 32)
  | mul (p : Pred) (m : AluMode) (d a b : SReg)
  | mulh (p : Pred) (k : MulhKind) (d a b : SReg)
  | div (p : Pred) (w : Bool) (d a b : SReg)
  | divU (p : Pred) (w : Bool) (d a b : SReg)
  | rem (p : Pred) (w : Bool) (d a b : SReg)
  | remU (p : Pred) (w : Bool) (d a b : SReg)
  | min (p : Pred) (d a b : SReg)
  | max (p : Pred) (d a b : SReg)
  | minU (p : Pred) (d a b : SReg)
  | maxU (p : Pred) (d a b : SReg)
  | abs (p : Pred) (sat : Bool) (d a : SReg)
  | neg (p : Pred) (sat : Bool) (d a : SReg)
  | and (p : Pred) (d a b : SReg)
  | or (p : Pred) (d a b : SReg)
  | xor (p : Pred) (d a b : SReg)
  | andn (p : Pred) (d a b : SReg)
  | not (p : Pred) (d a : SReg)
  | andImm (p : Pred) (d a : SReg) (imm : BitVec 16)
  | andImmLong (p : Pred) (d a : SReg) (imm : BitVec 32)
  | orImm (p : Pred) (d a : SReg) (imm : BitVec 16)
  | orImmLong (p : Pred) (d a : SReg) (imm : BitVec 32)
  | xorImm (p : Pred) (d a : SReg) (imm : BitVec 16)
  | xorImmLong (p : Pred) (d a : SReg) (imm : BitVec 32)
  | shl (p : Pred) (w : Bool) (d a b : SReg)
  | shlImm (p : Pred) (w : Bool) (d a : SReg) (n : BitVec 6)
  | shr (p : Pred) (w : Bool) (d a b : SReg)
  | shrImm (p : Pred) (w : Bool) (d a : SReg) (n : BitVec 6)
  | sar (p : Pred) (w : Bool) (d a b : SReg)
  | sarImm (p : Pred) (w : Bool) (d a : SReg) (n : BitVec 6)
  | rot (p : Pred) (w : Bool) (d a b : SReg)
  | rotImm (p : Pred) (w : Bool) (d a : SReg) (n : BitVec 6)
  | cmpP (p : Pred) (cc : Cond) (d : PReg) (a b : SReg)
  | cmpPImm (p : Pred) (cc : Cond) (d : PReg) (a : SReg) (imm : BitVec 16)
  | cmpPImmLong (p : Pred) (cc : Cond) (d : PReg) (a : SReg) (imm : BitVec 32)
  | cmpS (p : Pred) (cc : Cond) (d a b : SReg)
  | cmpSImm (p : Pred) (cc : Cond) (d a : SReg) (imm : BitVec 16)
  | cmpSImmLong (p : Pred) (cc : Cond) (d a : SReg) (imm : BitVec 32)
  | selP (p : Pred) (d a b : SReg) (c : PReg)
  | selS (p : Pred) (d a b c : SReg)
  | bfX (p : Pred) (sgn : Bool) (d a : SReg) (pos lenm1 : BitVec 6)
  | bfI (p : Pred) (d a : SReg) (pos lenm1 : BitVec 6)
  | clz (p : Pred) (w : Bool) (d a : SReg)
  | ctz (p : Pred) (w : Bool) (d a : SReg)
  | popc (p : Pred) (w : Bool) (d a : SReg)
  | lea (p : Pred) (sh : BitVec 3) (d a b : SReg) (disp : BitVec 16)
  | leaLong (p : Pred) (sh : BitVec 3) (d a b : SReg) (disp : BitVec 32)
  | leaPc (p : Pred) (d : SReg) (off : BitVec 32)
  | li (p : Pred) (d : SReg) (imm : BitVec 32)
  | liLong (p : Pred) (d : SReg) (imm : BitVec 64)
  | pAnd (p : Pred) (d a b : PReg)
  | pOr (p : Pred) (d a b : PReg)
  | pXor (p : Pred) (d a b : PReg)
  | pNot (p : Pred) (d a : PReg)
  | pMov (p : Pred) (d a : PReg)
  | pMovFromScalar (p : Pred) (d : PReg) (a : SReg)
  | pMovToScalar (p : Pred) (d : SReg) (a : PReg)
  | csrRd (p : Pred) (d : SReg) (n : BitVec 12)
  | csrWr (p : Pred) (d a : SReg) (n : BitVec 12)
  | csrSet (p : Pred) (d a : SReg) (n : BitVec 12)
  | csrClr (p : Pred) (d a : SReg) (n : BitVec 12)
  -- vector (09)
  | vAdd (p : Pred) (e : VWidth) (m : VMode) (d a b : VReg)
  | vSub (p : Pred) (e : VWidth) (m : VMode) (d a b : VReg)
  | vMul (p : Pred) (e : VWidth) (m : VMode) (d a b : VReg)
  | vMulh (p : Pred) (e : VWidth) (m : VMode) (d a b : VReg)
  | vMac (p : Pred) (e : VWidth) (m : VMode) (d a b : VReg)
  | vMin (p : Pred) (e : VWidth) (m : VMode) (d a b : VReg)
  | vMax (p : Pred) (e : VWidth) (m : VMode) (d a b : VReg)
  | vAbs (p : Pred) (e : VWidth) (m : VMode) (d a : VReg)
  | vNeg (p : Pred) (e : VWidth) (m : VMode) (d a : VReg)
  | vAddScalar (p : Pred) (e : VWidth) (m : VMode) (d a : VReg) (b : SReg)
  | vSubScalar (p : Pred) (e : VWidth) (m : VMode) (d a : VReg) (b : SReg)
  | vMulScalar (p : Pred) (e : VWidth) (m : VMode) (d a : VReg) (b : SReg)
  | vMulhScalar (p : Pred) (e : VWidth) (m : VMode) (d a : VReg) (b : SReg)
  | vMacScalar (p : Pred) (e : VWidth) (m : VMode) (d a : VReg) (b : SReg)
  | vMinScalar (p : Pred) (e : VWidth) (m : VMode) (d a : VReg) (b : SReg)
  | vMaxScalar (p : Pred) (e : VWidth) (m : VMode) (d a : VReg) (b : SReg)
  | vAddImm (p : Pred) (e : VWidth) (m : VMode) (d a : VReg) (imm : BitVec 16)
  | vAddImmLong (p : Pred) (e : VWidth) (m : VMode) (d a : VReg) (imm : BitVec 32)
  | vSubImm (p : Pred) (e : VWidth) (m : VMode) (d a : VReg) (imm : BitVec 16)
  | vSubImmLong (p : Pred) (e : VWidth) (m : VMode) (d a : VReg) (imm : BitVec 32)
  | vMulImm (p : Pred) (e : VWidth) (m : VMode) (d a : VReg) (imm : BitVec 16)
  | vMulImmLong (p : Pred) (e : VWidth) (m : VMode) (d a : VReg) (imm : BitVec 32)
  | vMinImm (p : Pred) (e : VWidth) (m : VMode) (d a : VReg) (imm : BitVec 16)
  | vMinImmLong (p : Pred) (e : VWidth) (m : VMode) (d a : VReg) (imm : BitVec 32)
  | vMaxImm (p : Pred) (e : VWidth) (m : VMode) (d a : VReg) (imm : BitVec 16)
  | vMaxImmLong (p : Pred) (e : VWidth) (m : VMode) (d a : VReg) (imm : BitVec 32)
  | vAnd (p : Pred) (d a b : VReg)
  | vOr (p : Pred) (d a b : VReg)
  | vXor (p : Pred) (d a b : VReg)
  | vAndn (p : Pred) (d a b : VReg)
  | vNot (p : Pred) (d a : VReg)
  | vShl (p : Pred) (e : VWidth) (d a b : VReg)
  | vShlImm (p : Pred) (e : VWidth) (d a : VReg) (n : BitVec 5)
  | vShr (p : Pred) (e : VWidth) (d a b : VReg)
  | vShrImm (p : Pred) (e : VWidth) (d a : VReg) (n : BitVec 5)
  | vSar (p : Pred) (e : VWidth) (d a b : VReg)
  | vSarImm (p : Pred) (e : VWidth) (d a : VReg) (n : BitVec 5)
  | vRot (p : Pred) (e : VWidth) (d a b : VReg)
  | vRotImm (p : Pred) (e : VWidth) (d a : VReg) (n : BitVec 5)
  | vClz (p : Pred) (e : VWidth) (d a : VReg)
  | vPopc (p : Pred) (e : VWidth) (d a : VReg)
  | vFadd (p : Pred) (rm : RM) (d a b : VReg)
  | vFsub (p : Pred) (rm : RM) (d a b : VReg)
  | vFmul (p : Pred) (rm : RM) (d a b : VReg)
  | vFmin (p : Pred) (d a b : VReg)
  | vFmax (p : Pred) (d a b : VReg)
  | vFaddScalar (p : Pred) (rm : RM) (d a : VReg) (b : SReg)
  | vFsubScalar (p : Pred) (rm : RM) (d a : VReg) (b : SReg)
  | vFmulScalar (p : Pred) (rm : RM) (d a : VReg) (b : SReg)
  | vFminScalar (p : Pred) (d a : VReg) (b : SReg)
  | vFmaxScalar (p : Pred) (d a : VReg) (b : SReg)
  | vFma (p : Pred) (rm : RM) (d a b c : VReg)
  | vFms (p : Pred) (rm : RM) (d a b c : VReg)
  | vFnma (p : Pred) (rm : RM) (d a b c : VReg)
  | vFdiv (p : Pred) (rm : RM) (d a b : VReg)
  | vFsqrt (p : Pred) (rm : RM) (d a : VReg)
  | vFrcp (p : Pred) (rm : RM) (d a : VReg)
  | vFrsq (p : Pred) (rm : RM) (d a : VReg)
  | vFabs (p : Pred) (d a : VReg)
  | vFneg (p : Pred) (d a : VReg)
  | vFcopysign (p : Pred) (d a b : VReg)
  | vFclass (p : Pred) (d a : VReg)
  | vFscale (p : Pred) (rm : RM) (d a b : VReg)
  | vFround (p : Pred) (rm : RM) (d a : VReg)
  | vCmp (p : Pred) (cc : Cond) (d : PReg) (a b : VReg)
  | vCmpScalar (p : Pred) (cc : Cond) (d : PReg) (a : VReg) (b : SReg)
  | vFcmp (p : Pred) (cc : FCond) (d : PReg) (a b : VReg)
  | vFcmpScalar (p : Pred) (cc : FCond) (d : PReg) (a : VReg) (b : SReg)
  | vPerm (p : Pred) (d a b : VReg)
  | vPerm2 (p : Pred) (d a b c : VReg)
  | vShuf (p : Pred) (k : Shuf) (d a b : VReg)
  | vBcast (p : Pred) (d : VReg) (a : SReg)
  | vBcastLane (p : Pred) (d a : VReg) (k : BitVec 5)
  | vBcastImm (p : Pred) (d : VReg) (imm : BitVec 32)
  | vBcastQ (p : Pred) (d : VReg) (a : QReg)
  | vSlide (p : Pred) (d a b : VReg) (k : BitVec 5)
  | vMov (p : Pred) (d a : VReg)
  | vSel (p : Pred) (d a b : VReg) (c : PReg)
  | vMovToLane (p : Pred) (d : VReg) (a : SReg) (k : BitVec 5)
  | vMovFromLane (p : Pred) (d : SReg) (a : VReg) (k : BitVec 5)
  | vRedAdd (p : Pred) (m : VMode) (d a : VReg)
  | vRedMin (p : Pred) (m : VMode) (d a : VReg)
  | vRedMax (p : Pred) (m : VMode) (d a : VReg)
  | vRedAnd (p : Pred) (d a : VReg)
  | vRedOr (p : Pred) (d a : VReg)
  | vRedXor (p : Pred) (d a : VReg)
  | vRedFadd (p : Pred) (rm : RM) (d a : VReg)
  | vRedFmin (p : Pred) (d a : VReg)
  | vRedFmax (p : Pred) (d a : VReg)
  | vScanAdd (p : Pred) (m : VMode) (d a : VReg)
  | vScanMin (p : Pred) (m : VMode) (d a : VReg)
  | vScanMax (p : Pred) (m : VMode) (d a : VReg)
  | vScanXadd (p : Pred) (m : VMode) (d a : VReg)
  | vScanFadd (p : Pred) (rm : RM) (d a : VReg)
  | vScanFmin (p : Pred) (d a : VReg)
  | vScanFmax (p : Pred) (d a : VReg)
  | vCvtN (p : Pred) (rm : RM) (ty : CvtType) (d a : VReg) (fmt k : BitVec 5)
  | vCvtW (p : Pred) (rm : RM) (ty : CvtType) (d a : VReg) (fmt k : BitVec 5)
  | vLd (p : Pred) (px : Option Prefix) (d : VReg) (a : SReg) (disp : BitVec 16)
  | vLdLong (p : Pred) (px : Option Prefix) (d : VReg) (a : SReg) (disp : BitVec 32)
  | vLdS (p : Pred) (px : Option Prefix) (d : VReg) (a b : SReg) (disp : BitVec 16)
  | vLdSLong (p : Pred) (px : Option Prefix) (d : VReg) (a b : SReg) (disp : BitVec 32)
  | vSt (p : Pred) (px : Option Prefix) (c : VReg) (a : SReg) (disp : BitVec 16)
  | vStLong (p : Pred) (px : Option Prefix) (c : VReg) (a : SReg) (disp : BitVec 32)
  | vStS (p : Pred) (px : Option Prefix) (c : VReg) (a b : SReg) (disp : BitVec 16)
  | vStSLong (p : Pred) (px : Option Prefix) (c : VReg) (a b : SReg) (disp : BitVec 32)
  | vLdQ (p : Pred) (px : Option Prefix) (d : VReg) (a : QReg) (disp : BitVec 16)
  | vLdQLong (p : Pred) (px : Option Prefix) (d : VReg) (a : QReg) (disp : BitVec 32)
  | vLdQS (p : Pred) (px : Option Prefix) (d : VReg) (a : QReg) (b : SReg) (disp : BitVec 16)
  | vLdQSLong (p : Pred) (px : Option Prefix) (d : VReg) (a : QReg) (b : SReg) (disp : BitVec 32)
  | vStQ (p : Pred) (px : Option Prefix) (c : VReg) (a : QReg) (disp : BitVec 16)
  | vStQLong (p : Pred) (px : Option Prefix) (c : VReg) (a : QReg) (disp : BitVec 32)
  | vStQS (p : Pred) (px : Option Prefix) (c : VReg) (a : QReg) (b : SReg) (disp : BitVec 16)
  | vStQSLong (p : Pred) (px : Option Prefix) (c : VReg) (a : QReg) (b : SReg) (disp : BitVec 32)
  | vGath (p : Pred) (px : Option Prefix) (d : VReg) (a : SReg) (b : VReg) (sh : BitVec 2) (disp : BitVec 16)
  | vScat (p : Pred) (px : Option Prefix) (c : VReg) (a : SReg) (b : VReg) (sh : BitVec 2) (disp : BitVec 16)
  | vTdec (p : Pred) (px : Option Prefix) (rm : RM) (int : Bool) (d : VReg) (t : TidN) (a : SReg)
  | vTdecLong (p : Pred) (px : Option Prefix) (rm : RM) (int : Bool) (d : VReg) (t : TidN) (a : SReg) (axis : BitVec 2) (stp : BitVec 16)
  | vTdecQ (p : Pred) (px : Option Prefix) (rm : RM) (int : Bool) (d : VReg) (t : TidN) (a : QReg)
  | vTdecQLong (p : Pred) (px : Option Prefix) (rm : RM) (int : Bool) (d : VReg) (t : TidN) (a : QReg) (axis : BitVec 2) (stp : BitVec 16)
  | vTenc (p : Pred) (px : Option Prefix) (rm : RM) (int : Bool) (c : VReg) (t : TidN) (a : SReg)
  | vTencLong (p : Pred) (px : Option Prefix) (rm : RM) (int : Bool) (c : VReg) (t : TidN) (a : SReg) (axis : BitVec 2) (stp : BitVec 16)
  | vTencQ (p : Pred) (px : Option Prefix) (rm : RM) (int : Bool) (c : VReg) (t : TidN) (a : QReg)
  | vTencQLong (p : Pred) (px : Option Prefix) (rm : RM) (int : Bool) (c : VReg) (t : TidN) (a : QReg) (axis : BitVec 2) (stp : BitVec 16)
  -- matrix (10)
  | mxMma (p : Pred) (i32 accz : Bool) (d : AReg) (ta tb : TidN) (c : SReg) (nslm1 : BitVec 10) (h : Option HReg)
  | mxMmaLong (p : Pred) (i32 accz : Bool) (d : AReg) (ta tb : TidN) (c : SReg) (nslm1 : BitVec 10) (h : Option HReg) (fa fb : BitVec 16)
  | mxMmaQ (p : Pred) (i32 accz : Bool) (d : AReg) (ta tb : TidN) (c : QReg) (nslm1 : BitVec 10) (h : Option HReg)
  | mxMmaQLong (p : Pred) (i32 accz : Bool) (d : AReg) (ta tb : TidN) (c : QReg) (nslm1 : BitVec 10) (h : Option HReg) (fa fb : BitVec 16)
  | mxPlane (p : Pred) (rm : RM) (ta tb : TidN) (c : SReg) (nb0m1 nb1m1 : BitVec 5) (h : Option HReg)
  | mxPlaneLong (p : Pred) (rm : RM) (ta tb : TidN) (c : SReg) (nb0m1 nb1m1 : BitVec 5) (h : Option HReg) (o0 o1 : BitVec 16)
  | mxPlaneQ (p : Pred) (rm : RM) (ta tb : TidN) (c : QReg) (nb0m1 nb1m1 : BitVec 5) (h : Option HReg)
  | mxPlaneQLong (p : Pred) (rm : RM) (ta tb : TidN) (c : QReg) (nb0m1 nb1m1 : BitVec 5) (h : Option HReg) (o0 o1 : BitVec 16)
  | mxUnplane (p : Pred) (rm : RM) (ta tb : TidN) (c : SReg) (nb0m1 nb1m1 : BitVec 5) (h : Option HReg)
  | mxUnplaneLong (p : Pred) (rm : RM) (ta tb : TidN) (c : SReg) (nb0m1 nb1m1 : BitVec 5) (h : Option HReg) (o0 o1 : BitVec 16)
  | mxUnplaneQ (p : Pred) (rm : RM) (ta tb : TidN) (c : QReg) (nb0m1 nb1m1 : BitVec 5) (h : Option HReg)
  | mxUnplaneQLong (p : Pred) (rm : RM) (ta tb : TidN) (c : QReg) (nb0m1 nb1m1 : BitVec 5) (h : Option HReg) (o0 o1 : BitVec 16)
  | mxSt (p : Pred) (rm : RM) (i32 : Bool) (a : AReg) (tb : TidN) (c : SReg) (h : Option HReg)
  | mxStLong (p : Pred) (rm : RM) (i32 : Bool) (a : AReg) (tb : TidN) (c : SReg) (h : Option HReg) (f2 f3 : BitVec 16)
  | mxStQ (p : Pred) (rm : RM) (i32 : Bool) (a : AReg) (tb : TidN) (c : QReg) (h : Option HReg)
  | mxStQLong (p : Pred) (rm : RM) (i32 : Bool) (a : AReg) (tb : TidN) (c : QReg) (h : Option HReg) (f2 f3 : BitVec 16)
  | mxLd (p : Pred) (d : AReg) (a : SReg) (rows : BitVec 16) (h : Option HReg)
  | mxZero (p : Pred) (d : AReg) (rows : BitVec 16)
  | mxMask (p : Pred) (a : SReg)
  | mxMaskImm (p : Pred) (row col dep : BitVec 16)
  | mxMovToVector (p : Pred) (d : VReg) (a : AReg) (m : BitVec 3)
  | mxMovToAcc (p : Pred) (d : AReg) (a : VReg) (m : BitVec 3)
  | mxScr (p : Pred) (d : SReg)
  | mxScrInj (p : Pred) (a : SReg)
  | mxCommandStart (vt slot : Nat)
  | mxCommandComplete (vt slot : Nat)
  -- local store, global memory, stash, remote stores, copies, futures, distributor (11)
  | ldB (p : Pred) (px : Option Prefix) (d a : SReg) (disp : BitVec 16)
  | ldH (p : Pred) (px : Option Prefix) (d a : SReg) (disp : BitVec 16)
  | ldW (p : Pred) (px : Option Prefix) (d a : SReg) (disp : BitVec 16)
  | ldD (p : Pred) (px : Option Prefix) (d a : SReg) (disp : BitVec 16)
  | ldBs (p : Pred) (px : Option Prefix) (d a : SReg) (disp : BitVec 16)
  | ldHs (p : Pred) (px : Option Prefix) (d a : SReg) (disp : BitVec 16)
  | ldWs (p : Pred) (px : Option Prefix) (d a : SReg) (disp : BitVec 16)
  | stB (p : Pred) (px : Option Prefix) (a b : SReg) (disp : BitVec 16)
  | stH (p : Pred) (px : Option Prefix) (a b : SReg) (disp : BitVec 16)
  | stW (p : Pred) (px : Option Prefix) (a b : SReg) (disp : BitVec 16)
  | stD (p : Pred) (px : Option Prefix) (a b : SReg) (disp : BitVec 16)
  | gldB (p : Pred) (at' : Attr) (d a : SReg) (disp : BitVec 24)
  | gldH (p : Pred) (at' : Attr) (d a : SReg) (disp : BitVec 24)
  | gldW (p : Pred) (at' : Attr) (d a : SReg) (disp : BitVec 24)
  | gldD (p : Pred) (at' : Attr) (d a : SReg) (disp : BitVec 24)
  | gldBs (p : Pred) (at' : Attr) (d a : SReg) (disp : BitVec 24)
  | gldHs (p : Pred) (at' : Attr) (d a : SReg) (disp : BitVec 24)
  | gldWs (p : Pred) (at' : Attr) (d a : SReg) (disp : BitVec 24)
  | gstB (p : Pred) (at' : Attr) (a b : SReg) (disp : BitVec 24)
  | gstH (p : Pred) (at' : Attr) (a b : SReg) (disp : BitVec 24)
  | gstW (p : Pred) (at' : Attr) (a b : SReg) (disp : BitVec 24)
  | gstD (p : Pred) (at' : Attr) (a b : SReg) (disp : BitVec 24)
  | staMap (p : Pred) (px : Option Prefix) (keep : Bool) (a b : SReg) (e : BitVec 8) (z : BitVec 3)
  | staMapLong (p : Pred) (px : Option Prefix) (keep : Bool) (a b : SReg) (e : BitVec 8) (z : BitVec 3) (disp : BitVec 32)
  | staFill (p : Pred) (px : Option Prefix) (e : BitVec 8) (h : Option HReg)
  | staDrop (p : Pred) (px : Option Prefix) (discard : Bool) (e : BitVec 8)
  | staWb (p : Pred) (px : Option Prefix) (e : BitVec 8) (h : Option HReg)
  | staTest (p : Pred) (px : Option Prefix) (d : SReg) (e : BitVec 8)
  | stashFillComplete (vt slot e : Nat)
  | stashWritebackComplete (vt slot e : Nat)
  | stFarB (p : Pred) (at' : Attr) (a b c : SReg)
  | stFarH (p : Pred) (at' : Attr) (a b c : SReg)
  | stFarW (p : Pred) (at' : Attr) (a b c : SReg)
  | stFarD (p : Pred) (at' : Attr) (a b c : SReg)
  | cpGet (p : Pred) (at' : Attr) (a b : SReg) (len : BitVec 24) (h : Option HReg)
  | cpGetMc (p : Pred) (at' : Attr) (a b : SReg) (len : BitVec 24) (cmask : BitVec 16) (h : Option HReg)
  | cpPut (p : Pred) (at' : Attr) (a b : SReg) (len : BitVec 24) (h : Option HReg)
  | cpDeferGet (p : Pred) (at' : Attr) (a b : SReg) (len : BitVec 24) (h : Option HReg)
  | cpDeferPut (p : Pred) (at' : Attr) (a b : SReg) (len : BitVec 24) (h : Option HReg)
  | cpCvt (p : Pred) (at' : Attr) (rm : RM) (ta tb : TidN) (c : SReg) (n0 n1 : BitVec 16) (h : Option HReg)
  | copyComplete (vt id : Nat)
  | futWait (p : Pred) (d : SReg) (a : HReg)
  | futTest (p : Pred) (d : SReg) (a : HReg)
  | futPass (p : Pred) (d a : HReg) (t : BitVec 2)
  | futCancel (p : Pred) (a : HReg)
  | asyncFaultFreeze (vt slot : Nat)
  | wdAsk (p : Pred) (d : HReg) (a : SReg) (km1 : BitVec 12)
  | wdAskLong (p : Pred) (d : HReg) (a : SReg) (km1 : BitVec 12) (disp : BitVec 32)
  | wdAskComplete (id : Nat)
  -- tags, barriers, supersteps, atomics, waiters, signals (13)
  | tgLd (p : Pred) (px : Option Prefix) (take : Bool) (d a : SReg) (disp : BitVec 16)
  | tgSt (p : Pred) (px : Option Prefix) (a b : SReg) (disp : BitVec 16)
  | tgSet (p : Pred) (px : Option Prefix) (d a : SReg) (disp : BitVec 16)
  | tgClr (p : Pred) (px : Option Prefix) (d a : SReg) (disp : BitVec 16)
  | tagWaitRetest (vt slot : Nat)
  | barArr (p : Pred) (d : SReg)
  | barWait (p : Pred)
  | barWaitGen (p : Pred) (a : SReg)
  | barTest (p : Pred) (d a : SReg)
  | barrierPhaseComplete (vt bar : Nat)
  | step (lvl : StepLevel)
  | dataMovementPhase (lvl : StepLevel) (gang vt : Nat)
  | checkpointCommit (vt : Nat)
  | phaseRelease (lvl : StepLevel) (gang vt : Nat)
  | fence (p : Pred) (at' : Attr)
  | atSwap (p : Pred) (at' : Attr) (dw : Bool) (d a b : SReg) (disp : BitVec 24)
  | atCas (p : Pred) (at' : Attr) (dw : Bool) (d a b c : SReg) (disp : BitVec 24)
  | atAdd (p : Pred) (at' : Attr) (dw : Bool) (d a b : SReg) (disp : BitVec 24)
  | atAnd (p : Pred) (at' : Attr) (dw : Bool) (d a b : SReg) (disp : BitVec 24)
  | atOr (p : Pred) (at' : Attr) (dw : Bool) (d a b : SReg) (disp : BitVec 24)
  | atXor (p : Pred) (at' : Attr) (dw : Bool) (d a b : SReg) (disp : BitVec 24)
  | atMin (p : Pred) (at' : Attr) (dw : Bool) (d a b : SReg) (disp : BitVec 24)
  | atMax (p : Pred) (at' : Attr) (dw : Bool) (d a b : SReg) (disp : BitVec 24)
  | atMinu (p : Pred) (at' : Attr) (dw : Bool) (d a b : SReg) (disp : BitVec 24)
  | atMaxu (p : Pred) (at' : Attr) (dw : Bool) (d a b : SReg) (disp : BitVec 24)
  | atFadd (p : Pred) (at' : Attr) (d a b : SReg) (disp : BitVec 24)
  | redAdd (p : Pred) (at' : Attr) (dw : Bool) (a b : SReg) (disp : BitVec 24)
  | redAnd (p : Pred) (at' : Attr) (dw : Bool) (a b : SReg) (disp : BitVec 24)
  | redOr (p : Pred) (at' : Attr) (dw : Bool) (a b : SReg) (disp : BitVec 24)
  | redXor (p : Pred) (at' : Attr) (dw : Bool) (a b : SReg) (disp : BitVec 24)
  | redMin (p : Pred) (at' : Attr) (dw : Bool) (a b : SReg) (disp : BitVec 24)
  | redMax (p : Pred) (at' : Attr) (dw : Bool) (a b : SReg) (disp : BitVec 24)
  | redMinu (p : Pred) (at' : Attr) (dw : Bool) (a b : SReg) (disp : BitVec 24)
  | redMaxu (p : Pred) (at' : Attr) (dw : Bool) (a b : SReg) (disp : BitVec 24)
  | redFadd (p : Pred) (at' : Attr) (a b : SReg) (disp : BitVec 24)
  | reductionPerform (id : Nat)
  | wqWait (p : Pred) (at' : Attr) (d a b : SReg) (disp : BitVec 24)
  | wqWake (p : Pred) (at' : Attr) (d a b : SReg) (c : Option SReg) (disp : BitVec 24)
  | sigSend (p : Pred) (a b : SReg)
  | sigTake (p : Pred) (poll : Bool) (d : SReg)
  | signalDelivery (vt slot : Nat)
  | allAsleepTrap (part : Nat)
  | permitAudit (link found : Nat) (tileA tileB : Nat) (parts : List Nat)
  -- budgets, leases (15)
  | cont (yield : Bool) (lives : BitVec 32) (livev : BitVec 16) (r0 r1 r2 r3 : LiveRange)
  | saveComplete (gang : Nat)
  | spawn (p : Pred) (d a b : SReg) (disp : BitVec 32)
  | budAdd (p : Pred) (mem : Bool) (d a : SReg)
  | budGive (p : Pred) (mem : Bool) (d a b : SReg)
  | budgetFault (vt slot : Nat)
  | graceDecay (vt slot : Nat)
  | leaseReq (p : Pred) (l : LeaseArgs) (a : SReg)
  | leaseReqImm (p : Pred) (l : LeaseArgs) (dur : BitVec 16)
  | leaseEnd (p : Pred)
  | leaseTest (p : Pred) (d : SReg)
  | leasePeriodEnd (gang : Nat)
  | zoneHardLimit (zone melt : Nat)
  | zoneRefreezeChange (zone melt : Nat)
  -- faults (16)
  | trap (p : Pred) (a : SReg) (code : BitVec 16)
  | supResume (p : Pred) (d a b : SReg)
  | supRestart (p : Pred) (alt : Bool) (d a b : SReg)
  | supAbort (p : Pred) (gang : Bool) (d a b : SReg) (detail : BitVec 8)
  | heldPacketWrite (vt slot : Nat)
  | watchdogTick (gang : Nat)
  | watchdogExpiry (gang : Nat)
  -- silicon (17)
  | scrRun (p : Pred) (full : Bool) (d : HReg) (a b : SReg)
  | scrStat (p : Pred) (d a : SReg)
  | scrTestComplete (id : Nat) (failMask margMask : BitVec 16)
  | testLeaveComplete (vt : Nat)
  | infieldTestComplete (ptile : Nat) (failCores : BitVec 16) (marg : Nat) (logicFail : Bool)
  | routineRotation
  | forcedRotation (vt : Nat)
  | rotationQuiescent (vt : Nat)
  | drainTimeout (vt : Nat)
  | stateCopyComplete (vt : Nat)
  | stateCopyError (vt : Nat) (atTarget : Bool)
  | tableUpdateCommit (vt : Nat)
  | tableUpdateReject (vt ptile : Nat)
  | replay (vt : Nat) (counter : Nat)
  | journalFold (vt slot : Nat)
  | retentionEntry (ptile : Nat)
  | ageingDecay
  | ageingSnapshot
  -- queues and dispatch (04, 05)
  | doorbell (qid : Nat) (val : BitVec 32)
  | queueCreate (src : Source) (q0 arg1 : Word)
  | queueDestroy (src : Source) (qid : Nat)
  | queueRestart (src : Source) (qid : Nat)
  | queueCredit (src : Source) (qid : Nat) (arg1 arg2 : Word)
  | queueClose (qid : Nat)
  | recordRead (qid : Nat)
  | seqRetry (qid : Nat)
  | dependenceReread (qid : Nat)
  | selectionRound
  | recordReserving (qid : Nat)
  | bind (vt : Nat) (rec : List Word) (bindRec : List Word)
  | release (vt : Nat) (bindRec : List Word)
  | preempt (vt : Nat) (bindRec : List Word)
  | scrubComplete (vt slot : Nat)
  | gangRetire (gang : Nat)
  | translationInvalidate
  -- registers of the driver (05, 11, 15, 16, 19)
  | partitionDescriptorWrite (part : Nat) (val : Word)
  | savePoolWrite (part : Nat) (size : Bool) (val : Word)
  | faultRingWrite (part : Nat) (size : Bool) (val : Word)
  | frheadWrite (part : Nat) (val : BitVec 32)
  | drain (part : Nat)
  | reset (part : Nat)
  | undrain (part : Nat)
  | debugWindowWrite (src : Source) (off width : Nat) (val : Word)
  | sepiaClr (vt slot : Nat)
  | eventStreamWrite (part which : Nat) (val : Word)
  | evheadWrite (part : Nat) (val : BitVec 32)
  | pcSample (vt slot : Nat)
  | registerWrite (src : Source) (off width : Nat) (val : Word)
  | bar2Read (addr width : Nat)
  | bar2Write (addr : Nat) (data : List Byte)
  -- ports, firmware, environment (19)
  | portLinkUp (port : Nat) (peer : BitVec 24)
  | portRingEnable (port ring : Nat) (val : Word)
  | portDoorbell (port ring : Nat) (val : BitVec 32)
  | descriptorStart (port ring : Nat)
  | descriptorComplete (port ring : Nat) (ok : Bool)
  | inboundWrite (port : Nat) (spart rpart : Nat) (dst : Word) (data : List Byte) (rdone : Word)
  | firmwareChunkWrite
  | firmwareCommit (storeOk : Bool)
  | attestation
  | attestationReportReady
  | hbmTempRead (stack : Nat) (temp : Option Nat)
  | sliceFailure (edge pc : Nat)
  | copyCommandStart (vt : Nat)
  | patrolScrub (vt slot : Nat)
  | softError (t : SoftTarget)
  | portLinkDown (port : Nat)
  deriving DecidableEq, Repr

end Sys2Proof
end

