-- ==== Sys2Proof/Machine/State.lean ====
section
/-! DEFINITION. The state of the machine as plain data: the whole panel, its memories, its dispatch and its outside registers, and the machine right after reset. -/

namespace Sys2Proof.Machine

/-- Why a step stops. No instruction and no event of the table stops the machine: a thread's faults freeze the thread (16 R319). -/
inductive Fault
  /-- Raised by a meaning of an instruction row run with no thread slot behind `State.cur`. Safe: no run of `step` reaches it. -/
  | noThread
  deriving DecidableEq, Repr

/-- No meaning for an instruction. -/
inductive Refusal
  /-- Raised by an arm of `exec` that has no meaning yet. Safe: the machine stops. -/
  | notModelled (mnemonic : String)
  deriving DecidableEq, Repr

/-- A sparse memory: address and byte, addresses rising, no entry equal to what an unlisted address reads as. -/
abbrev Memory := List Host.Cell

/-- The fault causes of 16 R322. -/
inductive Cause
  | illegal | fetchSplit | capability | tensor | format | align | lsRange | memErr | translation
  | stash | future | queue | loop | accRange | poison | barrier | tileRange | rankRange | budget
  | trap | watchdog | allAsleep | lostPermit | leaseExpiry | unbacked | replay
  deriving DecidableEq, Repr

/-- The access kinds of 11 R223, numbered as 16 R321 numbers them. -/
inductive AccKind | fetch | read | write | fill | writeBack | copy | distributor
  deriving DecidableEq, Repr

/-- What a fault packet says of its fault (16 R321, R322). -/
structure FaultInfo where
  cause : Cause
  addr  : Word := 0
  info  : Word := 0
  sub   : Nat := 0
  kind  : AccKind := .fetch
  tidn  : Nat := 0
  async : Bool := false
  fetch : Bool := false
  deriving DecidableEq, Repr

/-- The statuses of a completed handle (11 R240). -/
inductive HStatus | ok | poison | cancelled | fault
  deriving DecidableEq, Repr

/-- A future handle (11 R240). PENDING holds the number of the command it waits for and whether that is a deferred copy; COMPLETE keeps beside its word what a packet from FAULT needs, the access kind and the tensor identifier (16 R321). -/
inductive Handle
  | empty
  | pending (cmd : Nat) (deferred : Bool)
  | complete (st : HStatus) (val : BitVec 60) (kind : AccKind) (tidn : Nat := 0)
  deriving DecidableEq, Repr

/-- An entry of a queue register (07 R139). -/
inductive QEntry
  | val (w : Word)
  | eos
  deriving DecidableEq, Repr

/-- An entry of the loop stack (07 R133, R134). -/
structure LoopEntry where
  start : Word
  fin   : Word
  count : BitVec 32
  deriving DecidableEq, Repr

/-- One captured body instruction with its address and length, and the words that a packet shows of it (07 R146, 16 R322). -/
structure BodyInstr where
  ins  : Instr
  addr : Word
  len  : Nat
  words : Word × Word
  deriving DecidableEq, Repr

/-- The running repetition buffer (07 R145-R149). `tested` says that the stream test of the iteration is done; `rot` is the rotation offset. -/
structure RepState where
  body   : List BodyInstr
  count  : Nat
  iter   : Nat
  idx    : Nat
  tested : Bool
  wbase  : Nat
  wsize  : Nat
  rot    : Nat
  stream : Option QReg
  sregs  : Vector Word 64
  deriving DecidableEq, Repr

/-- The state of a thread slot (05 R93). -/
inductive SlotState | free | scrub | bound | run | frozen | saving | halted
  deriving DecidableEq, Repr

/-- Where a thread waits (13 R260, 07 R127), a tag wait with the tag it waits for: the sleeps, `realign`, a push on a full queue register, and every other wait by its stall code of 19 R382. -/
inductive WaitKind
  | none
  | tag (addr : Nat) (full : Bool)
  | bar
  | step
  | wq (pa : Nat)
  | sig
  | realign (members : List Nat)
  | push (queue : Nat)
  | stall (code : Nat)
  deriving DecidableEq, Repr

/-- A signal in a mailbox or a send queue (13 R276, R277). -/
structure Signal where
  srank : Nat
  sthr  : Nat
  data  : BitVec 32
  deriving DecidableEq, Repr

/-- A signal waiting in a core's send queue. -/
structure OutSignal where
  sig   : Signal
  spart : Nat
  sgang : Nat
  vt    : Nat
  slot  : Nat
  deriving DecidableEq, Repr

/-- A held IO store (11 R228): its virtual address and the offset in the register window that it was translated to. -/
structure IoStore where
  va    : Nat
  off   : Nat
  width : Nat
  val   : Word
  deriving DecidableEq, Repr

/-- A queued remote store (11 R233). -/
structure RemoteStore where
  slot  : Nat
  gang  : Nat
  srank : Nat
  trank : Nat
  addr  : Nat
  width : Nat
  val   : Word
  deriving DecidableEq, Repr

/-- A tensor-identifier entry as captured at issue (03 R57, R58). -/
structure TidEntry where
  num    : Nat
  fmt    : Nat
  planes : Bool
  global : Bool
  bmap   : Bool
  saxis  : Bool
  valid  : Bool
  resv   : Bool
  d0 : Nat
  d1 : Nat
  d2 : Nat
  d3 : Nat
  s1 : Nat
  s2 : Nat
  s3 : Nat
  base   : Nat
  sbase  : Nat
  srow   : Nat
  bmbase : Nat
  deriving DecidableEq, Repr

/-- What a copy command does (11 R235-R238). -/
inductive CopyOp
  | get (slots : List Nat)
  | put
  | cvt (a b : TidEntry) (i0 i1 i2 i3 n0 n1 : Nat) (mode : Nat) (satc : Bool) (seed : Word)
  deriving DecidableEq, Repr

/-- A copy command (11 R234). -/
structure CopyCmd where
  id      : Nat
  op      : CopyOp
  slot    : Nat
  gang    : Nat
  asid    : Nat
  part    : Nat
  localA  : Nat
  globalA : Nat
  len     : Nat
  hasH    : Bool
  running : Bool
  issued  : Nat
  bytes   : Nat
  deriving DecidableEq, Repr

/-- What a matrix command does (10 R193). Accumulators are named physically. -/
inductive MxOp
  | mma (i32 accz : Bool) (acc : Nat) (a b : TidEntry) (row0 col0 dep0 nsl fa fb : Nat)
  | plane (un : Bool) (a b : TidEntry) (row0 col0 face nb0 nb1 o0 o1 : Nat)
  | st (i32 : Bool) (acc : Nat) (b : TidEntry) (row0 col0 f2 f3 : Nat)
  | ld (acc addr rows : Nat)
  | zero (acc rows : Nat)
  | movV (vd acc m : Nat)
  | movA (acc m : Nat) (lanes : List Lane)
  deriving DecidableEq, Repr

/-- The outcome of a run matrix command, delivered at its completion (10 R195, R213). -/
structure MxResult where
  st    : HStatus
  flags : BitVec 6
  val   : BitVec 60
  info  : FaultInfo
  deriving DecidableEq, Repr

/-- A queued or running matrix command with what it captured at issue (10 R194). -/
structure MxCmd where
  id     : Nat
  op     : MxOp
  slot   : Nat
  gang   : Nat
  hasH   : Bool
  mrow   : BitVec 16
  mcol   : BitVec 16
  mdep   : BitVec 16
  mode   : Nat
  satc   : Bool
  seed   : Word
  inj    : Option Nat
  issued : Nat
  units  : Nat
  done   : Option MxResult
  deriving DecidableEq, Repr

/-- The states of a valid stash entry (11 R230). -/
inductive StashState | empty | filling | ready | draining
  deriving DecidableEq, Repr

/-- A valid stash entry (11 R229); `ro` holds the virtual pages that its fill found not writable. -/
structure Stash where
  num    : Nat
  owner  : Nat
  st     : StashState
  lbase  : Nat
  gbase  : Nat
  size   : Nat
  z      : Nat
  keep   : Bool
  evict  : BitVec 3
  dirty  : List Nat
  cmd    : Option Nat
  fillBy : Option Nat
  ro     : List Nat
  deriving DecidableEq, Repr

/-- One accumulator: 256 words in row-major order, poison per row (10 R197), and the residue modulo 3 that was recorded of each word when it was written (10 R215). -/
structure Acc where
  words  : List Lane
  poison : List Nat
  res    : List Nat
  deriving DecidableEq, Repr

/-- An entry of the sepia ring (12 R253). -/
structure SepiaEntry where
  srank : Nat
  sthr  : Nat
  width : Nat
  addr  : Nat
  clk   : Nat
  deriving DecidableEq, Repr

/-- A core slot of a virtual tile (moves with it: 17 R343). `mismatch` counts the screening mismatches that no replay has answered (17 R360); `sampleClk` and `sampleThr` tell of its last sample (19 R382). -/
structure Core where
  vt        : Nat
  slot      : Nat
  ls        : Memory
  full      : List Nat
  bad       : List Nat
  wrote     : List Nat
  gran      : List Nat
  acc       : Vector Acc 8
  stash     : List Stash
  remoteQ   : List RemoteStore
  sendQ     : List OutSignal
  mxq       : List MxCmd
  mxStop    : Bool
  arrayBad  : Bool
  sepia     : List SepiaEntry
  sepiaLost : Nat
  sepiaNext : Nat
  mismatch  : Nat
  sampleClk : Nat
  sampleThr : Nat
  deriving DecidableEq, Repr

/-- A bundle in a thread's fetch buffer: its address and its 32 bytes, or the fault its translation met (07 R124, R126); `ahead` says that control had not reached it when it was fetched. -/
structure Bundle where
  addr  : Nat
  bytes : List Byte
  fault : Option FaultInfo
  ahead : Bool
  deriving DecidableEq, Repr

/-- An outstanding fetch request with its age (07 R124). -/
structure FetchReq where
  addr : Nat
  age  : Nat
  deriving DecidableEq, Repr

/-- A fault packet's eight 64-bit words, low word first (16 R321). -/
abbrev Packet := List Word

/-- A thread slot's waiter node: the header's physical address and the next waiter, as VTILE × 64 + thread slot (13 R273). -/
structure WqNode where
  header : Nat
  next   : Option Nat
  deriving DecidableEq, Repr

/-- The access of one lane of a vector instruction that has not been applied yet (09 R188, 12 R246): a store of a value at an address, or a load from an address into a lane of a vector register. -/
inductive LaneOp | store (addr : Nat) (val : Lane) | load (addr : Nat) (reg : VReg) (lane : Fin 32)
  deriving DecidableEq, Repr

/-- A hardware thread slot of a virtual tile. `halts` says that the save record it was restored from is HALTED (15 R303), `stepSeq` how many gangs had been released at its arrival (13 R267), `conted` that it has executed a `cont` (17 R352); `headClk` and `seqClk` are the age stamps of its two heads, `scalClk` and `vecClk` the clk of its last issue on each port (08 R152); `poked` the words, by their offset, that the debug window holds for places not in use: the counts of a sequencer that does not run, loop entries from DEPTH on, queue entries from COUNT on or marked EOS, mailbox entries beyond a gap (16 R327, R328); `lanes` the lanes of its last vector local-store access that have not been applied yet, ascending (09 R188, 12 R246). -/
structure Thread where
  vt       : Nat
  slot     : Nat
  st       : SlotState
  gang     : Nat
  gslot    : Nat
  pc       : Word
  s        : Vector Word 64
  v        : Vector (Vector Lane 32) 32
  p        : Vector (BitVec 32) 8
  h        : Vector Handle 16
  q        : Vector (List QEntry) 8
  loops    : List LoopEntry
  rep      : Option RepState
  bic      : Nat
  bmc      : Nat
  grace    : Nat
  gcause   : Nat
  ingrace  : Bool
  pend     : Bool
  resumes  : Nat
  resumed  : Bool
  lives    : BitVec 32
  livev    : BitVec 16
  rng      : List (Nat × Nat)
  heldBic  : Nat
  heldBmc  : Nat
  memctl   : BitVec 8
  rmode    : BitVec 6
  fflags   : BitVec 6
  seed     : Word
  tidbase  : Nat
  mrow     : BitVec 16
  mcol     : BitVec 16
  mdep     : BitVec 16
  injpl    : BitVec 5
  injarm   : Bool
  fbuf     : List Bundle
  freq     : Option FetchReq
  wait     : WaitKind
  since    : Nat
  woken    : Option Nat
  mailbox  : List Signal
  node     : Option WqNode
  ioHeld   : List IoStore
  deferred : List CopyCmd
  asyncF   : Option FaultInfo
  cause    : Option Cause
  pktHeld  : Option Packet
  bodyF    : Bool
  pktSeq   : Nat
  barGen   : Option (BitVec 16)
  stepArr  : Option StepLevel
  stepSeq  : Nat
  conted   : Bool
  stepRel  : Bool
  runBic   : Nat
  runBmc   : Nat
  spanClk  : Nat
  halts    : Bool
  headClk  : Nat
  seqClk   : Nat
  scalClk  : Nat
  vecClk   : Nat
  poked    : List (Nat × Word)
  lanes    : List LaneOp
  deriving DecidableEq, Repr

/-- A tile barrier (13 R263). -/
structure Bar where
  num : Nat
  gen : BitVec 16
  arr : List Nat
  deriving DecidableEq, Repr

/-- A table entry that a tile's translation cache holds (11 R224): its address space, its level as `walk` counts them, the bits of the virtual address from that level up, and its word. -/
structure TlbEntry where
  asid  : Nat
  level : Nat
  key   : Nat
  word  : Word
  deriving DecidableEq, Repr

/-- A bundle in a tile's fetch cache (07 R125): its physical address, the clk at which it was read, and its bytes. -/
structure CodeLine where
  pa    : Nat
  clk   : Nat
  bytes : List Byte
  deriving DecidableEq, Repr

/-- An entry of the VTILE translation table with the tile state that follows the VTILE (01 R22). -/
structure VTile where
  vt      : Nat
  ptile   : Nat
  slots   : List (Option Nat)
  ranks   : List (Option Nat)
  backed  : Bool
  amber   : Bool
  bars    : List Bar
  copies  : List CopyCmd
  tlb     : List TlbEntry
  icache  : List CodeLine
  deriving DecidableEq, Repr

/-- The service states of a physical tile (01 R17). -/
inductive Service | white | amber | grey | black
  deriving DecidableEq, Repr

/-- The counters of the ageing word (17 R360), each with the clk of its last change. -/
structure Ageing where
  scrm  : Nat
  cse   : Nat
  ret   : Nat
  marg  : Nat
  lostp : Nat
  clks  : List Nat
  deriving DecidableEq, Repr

/-- The screening status of a physical core (10 R216). -/
structure Screen where
  core   : Nat
  mism   : Nat
  injok  : Nat
  lastok : Bool
  deriving DecidableEq, Repr

/-- A physical tile (01 R20). `lastTest` and `passed` tell of its last in-field test, `votes` whether its router votes, `retained` that its local store is in retention, `attempts` and `notBefore` of abandoned routine rotations, `greyClk` since when it is GREY, `routine` that it went GREY for a routine test (17 R339-R346, R358). -/
structure PTile where
  num      : Nat
  fusebad  : Bool
  cores    : List Nat
  service  : Service
  ageing   : Ageing
  screens  : List Screen
  lastTest : Nat
  passed   : Bool
  votes    : Bool
  retained : Bool
  attempts : Nat
  notBefore : Nat
  greyClk  : Nat
  routine  : Bool
  deriving DecidableEq, Repr

/-- What an entry of the field retirement log retires (01 R21). -/
inductive LogEntry | tile (p : Nat) | core (p c : Nat) | unknown
  deriving DecidableEq, Repr

/-- A block of the field retirement log (01 R21): `valid` says that both signatures verify. -/
structure LogBlock where
  valid   : Bool
  entries : List LogEntry
  deriving DecidableEq, Repr

/-- The states of a rotation (17 R340). -/
inductive RotState | drain | copy | remap | resume
  deriving DecidableEq, Repr

/-- A rotation, forced move or replay in progress (17 R340, R356). A replay that a fault asked for counts `events` on ageing counter `counter` when it commits (17 R356, R360). `again`: its target was lost in REMAP and it waits for one of the 8 places to copy onto the new one (17 R339, R345). -/
structure Rotation where
  vt      : Nat
  source  : Nat
  target  : Nat
  st      : RotState
  forced  : Bool
  isReplay : Bool
  preempted : Bool
  since   : Nat
  noVote  : List Nat
  counter : Nat
  events  : Nat
  again   : Bool := false
  deriving DecidableEq, Repr

/-- What a table update other than a remap changes (17 R344): a virtual tile becomes unbacked, a tile goes BLACK, or the slots of cores of a tile that a core test has retired become vacant (01 R23, 17 R348). -/
inductive TableChange | unbacked (vt : Nat) | black (p : Nat) | vacant (p : Nat) (cores : List Nat)
  deriving DecidableEq, Repr

/-- A staged table update other than a remap (17 R344), with the routers whose vote it does without (17 R345). -/
structure TableUpdate where
  change : TableChange
  noVote : List Nat
  deriving DecidableEq, Repr

/-- A snapshot of the ageing words (17 R362): `valid` says that both signatures verify. -/
structure Snapshot where
  valid : Bool
  words : List (Nat × Ageing)
  deriving DecidableEq, Repr

/-- A write of the host to the debug window that its router holds (17 R342). -/
structure WindowWrite where
  off   : Nat
  width : Nat
  val   : Word
  deriving DecidableEq, Repr

/-- A core test started by `scr.run` (17 R348), with the core slot whose handle it completes; `decided` holds its value once its result is known and the vacancy of failed cores is yet to be committed, `fails` those physical cores (17 R344, R349). -/
structure CoreTest where
  id   : Nat
  vt   : Nat
  mask : List Nat
  full : Bool
  cmd  : Nat
  byVt : Nat
  byCs : Nat
  decided : Option (BitVec 60) := none
  fails : List Nat := []
  deriving DecidableEq, Repr

/-- The states of a lease (15 R312). -/
inductive LeaseState | none | pending | active | ending | refused
  deriving DecidableEq, Repr

/-- A gang's lease (15 R312). `remain` holds the requested duration while PENDING; `clk` is when its current period began. -/
structure Lease where
  st     : LeaseState
  level  : Nat
  dom    : Bool
  trap   : Bool
  reason : Nat
  remain : Nat
  gti    : Nat
  vt     : Nat
  clk    : Nat
  deriving DecidableEq, Repr

/-- The bind record of a gang on one tile (05 R91), decoded. -/
structure GangTile where
  vt    : Nat
  vtidx : Nat
  cmask : List Nat
  tmask : List Nat
  barid : Nat
  gslot : Nat
  amask : List (List Nat)
  lsb   : List Nat
  raw   : List Word
  deriving DecidableEq, Repr

/-- Where a task record came from and what it resumes (15 R302, R304); `leftI` and `leftM` are the budget that the record of a spawned child holds while it is not bound: what its `spawn` paid, or what its last save recorded (15 R305). -/
structure TaskSrc where
  task    : List Word
  parent  : Option (Nat × Nat × Nat)
  bics    : List Nat
  bmcs    : List Nat
  debitI  : Nat
  debitM  : Nat
  resv    : Option (Nat × Nat)
  leftI   : Nat
  leftM   : Nat
  deriving DecidableEq, Repr

/-- A thread record that the save engine has written of a gang that yields, with the budgets it holds (15 R296, R300). -/
structure SavedRec where
  vt    : Nat
  slot  : Nat
  bic   : Nat
  bmc   : Nat
  bytes : List Byte
  deriving DecidableEq, Repr

/-- A gang: bound, released, saving or retiring (05 R93). `doneBic` to `runBmc` hold what its aborted threads left and were charged (15 R305, 19 R376). `wdtClk` is the clk from which the watchdog's next tick is counted (16 R334). -/
structure Gang where
  id       : Nat
  domid    : Nat
  qid      : Nat
  part     : Nat
  asid     : Nat
  pvtbase  : Nat
  pvtcnt   : Nat
  vtbase   : Nat
  tiles    : List GangTile
  task     : List Word
  src      : TaskSrc
  released : Bool
  clkStart : Nat
  relSeq   : Nat
  lease    : Lease
  wdtLeft  : Nat
  wdtClk   : Nat
  wdtStop  : Bool
  yielding : Bool
  reason   : Nat
  resumes  : Nat
  abortSt  : Option (Nat × Nat)
  moved    : List Nat
  replayed : Bool
  mxBusy   : Nat
  energy   : Nat
  doneBic  : Nat
  doneBmc  : Nat
  runBic   : Nat
  runBmc   : Nat
  wbLost   : Bool
  saved    : List SavedRec
  deriving DecidableEq, Repr

/-- A superstep boundary whose data-movement phase has run and whose release is pending (12 R251). -/
structure Boundary where
  lvl  : StepLevel
  gang : Nat
  vt   : Nat
  parts : List (Nat × Nat)
  ckpt : List Nat
  deriving DecidableEq, Repr

/-- An entry of the spawn list (15 R304). -/
structure Spawned where
  vt   : Nat
  slot : Nat
  gang : Nat
  qid  : Nat
  task : List Word
  deriving DecidableEq, Repr

/-- A record of a journal (17 R353, R354): in device-reserved HBM or in the partner's reserve, its offset there, its bytes and its GEN. -/
structure CkptRec where
  hbm  : Bool
  off  : Nat
  len  : Nat
  gen  : Nat
  deriving DecidableEq, Repr

/-- The checkpoint of one core slot (17 R352-R355): its active base image, if any (`true` is B), with its GEN; its last GEN, its journal's records, the bytes of its journal and of those the ones in the partner's reserve; what base and journal make together; and the children its threads still held. -/
structure CkptCore where
  slot    : Nat
  base    : Option Bool
  baseGen : Nat
  recs    : List CkptRec
  gen     : Nat
  used    : Nat
  journal : Nat
  core    : Core
  threads : List Thread
  spawns  : List Spawned
  deriving DecidableEq, Repr

/-- The checkpoint of a virtual tile (17 R351-R355); `gangs` holds the gangs it covers, each with its WDT.LEFT. -/
structure Ckpt where
  vt      : Nat
  gen     : Nat
  cores   : List CkptCore
  bars    : List Bar
  gangs   : List (Nat × Nat)
  deriving DecidableEq, Repr

/-- The states of a queue (04 R68). -/
inductive QState | disabled | opened | closing | stalled
  deriving DecidableEq, Repr

/-- Where a staged record stands (05 R85). -/
inductive StageState | seqWait (tries : Nat) | depWait (due : Bool) | ready (clk : Nat)
  deriving DecidableEq, Repr

/-- A staged record (05 R85); `mate` is the gang of a record of the other intensity that was placed where this one fits beside it (05 R90), `displaced` the gangs, each with its virtual tile, that it has had pre-empted as a reserving record (05 R87). -/
structure Staged where
  src      : TaskSrc
  st       : StageState
  reserving : Bool
  gang     : Option Nat
  mate     : Option Nat := none
  displaced : List (Nat × Nat) := []
  deriving DecidableEq, Repr

/-- A work queue and its control block (04 R68), its stage place, resume list and classifier (04 R78, 05 R90). -/
structure Queue where
  qid       : Nat
  state     : QState
  ringbase  : Word
  ringlog2  : Nat
  head      : BitVec 32
  tail      : BitVec 32
  part      : Nat
  capmask   : Nat
  priomax   : Nat
  inflight  : Nat
  acbic     : Nat
  acbmc     : Nat
  energy    : Nat
  discards  : BitVec 32
  rejects   : BitVec 32
  resume    : List TaskSrc
  staged    : Option Staged
  cls       : Nat
  clst      : Nat
  clsm      : Nat
  deriving DecidableEq, Repr

/-- A partition: its entry and its control block in the panel register space (05 R83, 15 R301, 16 R324, R326, R335, 19 R379, R382, R383). -/
structure Partition where
  num      : Nat
  valid    : Bool
  weight   : Nat
  pvtcnt   : Nat
  pvtbase  : Nat
  asid     : Nat
  spbase   : Nat
  spsize   : Nat
  spresv   : List (Nat × Nat)
  frbase   : Nat
  frsize   : Nat
  recres   : Nat
  drained  : Bool
  evbase   : Nat
  evsize   : Nat
  evmask   : Nat
  sampctl  : Nat
  frhead   : BitVec 32
  frtail   : BitVec 32
  supv     : Option (Nat × Nat)
  lostcnt  : Nat
  ringoff  : Bool
  lostMark : Bool
  pktSeq   : BitVec 32
  evhead   : BitVec 32
  evtail   : BitVec 32
  evlost   : Nat
  evLostMark : Bool
  counters : List Nat
  resetting : Bool
  deriving DecidableEq, Repr

/-- A memory-side operation that has retired and waits at its base logic (13 R271, 11 R242). -/
structure MemOp where
  id    : Nat
  vt    : Nat
  slot  : Nat
  gang  : Nat
  part  : Nat
  asid  : Nat
  va    : Nat
  pa    : Nat
  op    : Nat
  wide  : Bool
  val   : Word
  k     : Nat
  deriving DecidableEq, Repr

/-- A zone of the Ochre store (15 R311). -/
structure Zone where
  num      : Nat
  melt     : Nat
  refreeze : Bool
  deriving DecidableEq, Repr

/-- An HBM stack's words (19 R396). -/
structure Stack where
  num    : Nat
  temp   : Nat
  step   : Nat
  steps  : BitVec 32
  capclk : Word
  capFrom : Nat
  deriving DecidableEq, Repr

/-- A send ring of a Gorfy port (19 R389). -/
structure PortRing where
  num   : Nat
  base  : Word
  cfg   : Word
  head  : BitVec 32
  tail  : BitVec 32
  done  : BitVec 32
  errs  : BitVec 32
  desc  : Option (List Word)
  data  : List Byte
  deriving DecidableEq, Repr

/-- A Gorfy port (19 R389). -/
structure Port where
  num      : Nat
  up       : Bool
  retry    : Bool
  peer     : BitVec 24
  downClk  : Nat
  rings    : List PortRing
  pairings : List (Nat × Word)
  deriving DecidableEq, Repr

/-- A housekeeping-log entry: NUM, KIND, PART and eight words (19 R385, R386). -/
structure HkEntry where
  num  : Nat
  kind : Nat
  part : Nat
  data : List Word
  deriving DecidableEq, Repr

/-- A firmware slot of the non-volatile store (19 R393, R394): `none` version is an unreadable header. -/
structure FwSlot where
  version : Option Nat
  length  : Nat
  chunks  : List (Nat × List Byte)
  deriving DecidableEq, Repr

/-- The firmware-update words (19 R394). `busy` is 1 while a chunk runs, 2 while a commit does; `storeBad` says that the store reports an error for a chunk. -/
structure Firmware where
  busy    : Nat
  slots   : List FwSlot
  running : Nat
  slot    : Nat
  result  : Nat
  upoff   : BitVec 32
  uplen   : BitVec 32
  window  : List (Nat × Byte)
  storeBad : Bool
  deriving DecidableEq, Repr

/-- The attestation block (19 R395). -/
structure Attest where
  busy   : Bool
  nonce  : List (Nat × Byte)
  report : List Word
  deriving DecidableEq, Repr

/-- The queue command block (04 R69): `busy` while a command runs, `src` who started it. -/
structure QCmd where
  q0     : Word
  q1     : Word
  q2     : Word
  result : Nat
  busy   : Bool
  src    : Source
  deriving DecidableEq, Repr

/-- The translation-invalidate words (11 R225). -/
structure TInv where
  t0     : Word
  t1     : Word
  t2     : Word
  result : Nat
  busy   : Bool
  deriving DecidableEq, Repr

/-- A reply to a host read of HBM (19 R387). -/
structure HostRead where
  addr : Nat
  data : List Byte
  deriving DecidableEq, Repr

/-- What moves next (the model's own, log entry 2): a thread's scalar stream, its sequencer, an event of the table, time, the write of a SAVING thread's record (15 R296), a tile's caches (a translation is kept or dropped, 11 R224; a fetched bundle is dropped, 07 R125), the oldest held window write whose tile is reached again (17 R342), a port's link layer, which retries or not (19 R389), ballast, whose energy is metered (15 R318), the non-volatile store, which takes chunks or not (19 R394), a reset, which enters its next phase (19 R391), the queue command that runs (04 R69), or the next lane of a vector store (09 R188). -/
inductive Turn
  | issue (vt slot : Nat)
  | body (vt slot : Nat)
  | event (i : Instr)
  | elapse (n : Nat)
  | saved (vt slot : Nat)
  | cache (vt asid va : Nat)
  | uncache (vt asid va : Nat)
  | evict (vt pa : Nat)
  | window
  | linkRetry (port : Nat) (on : Bool)
  | ballast
  | storeFault (on : Bool)
  | boot
  | command
  | lane (vt slot : Nat)
  deriving DecidableEq, Repr

/-- The thread slot whose instruction `exec` runs, and whether its sequencer issues (the model's own). -/
structure Cur where
  vt   : Nat
  slot : Nat
  body : Bool
  deriving DecidableEq, Repr

/-- The whole machine. `turns` holds, by level, the partition whose turn it is and the records bound in it; `servedQ` the queue last served of each partition (05 R86); `heldBinds` the BIND records held at the routers for a virtual tile (05 R101), `heldPre` the PREEMPTs, gang and virtual tile, held for a tile that is AMBER (05 R92, 17 R342), `windowHeld` the host's window writes held there (17 R342); `bootReport` and `bootSnap` what the reset under way finds (19 R391). `updates` holds the staged table updates other than remaps (17 R344), `snapClk` the clk of the last snapshot (17 R362), `audits` the period of each link's last permit audit (13 R279). -/
structure State where
  clk        : Nat
  phase      : Nat
  failCode   : Nat
  bootReport : BootReport
  bootSnap   : Bool
  serial     : Word
  fwVersion  : BitVec 32
  fwRollback : BitVec 32
  fwMeasure  : List Word
  nvtile     : Nat
  nrank      : Nat
  fuseTiles  : List Nat
  fuseCores  : List (Nat × Nat)
  retireLog  : List LogBlock
  snapshots  : List Snapshot
  snapClk    : Nat
  tiles      : List PTile
  vtiles     : List VTile
  rotations  : List Rotation
  updates    : List TableUpdate
  tests      : List CoreTest
  ckpts      : List Ckpt
  threads    : List Thread
  cores      : List Core
  gangs      : List Gang
  bounds     : List Boundary
  queues     : List Queue
  parts      : List Partition
  qcmd       : QCmd
  turns      : List (Nat × Nat)
  lastStaged : Nat
  servedQ    : List (Nat × Nat)
  heldBinds  : List (Nat × List Word × List Word)
  heldPre    : List (Nat × Nat)
  windowHeld : List WindowWrite
  audits     : List (Nat × Nat)
  lastServed : List (Nat × Nat)
  gangSeq    : Nat
  relSeq     : Nat
  spawns     : List Spawned
  hbm        : Memory
  hbmBad     : List Nat
  roots      : List (Nat × Word)
  tinv       : TInv
  memOps     : List MemOp
  uncached   : List (Nat × Nat)
  zones      : List Zone
  hbmStacks  : List Stack
  hklog      : List HkEntry
  hktail     : Nat
  hklost     : Nat
  hkUnits    : Nat
  hkBytes    : Nat
  hkUj       : Nat
  schedUj    : Nat
  msix       : List Nat
  hostReads  : List HostRead
  ports      : List Port
  fw         : Firmware
  att        : Attest
  nextCmd    : Nat
  fresh      : Nat
  cur        : Cur
  agenda     : List Turn
  deriving DecidableEq, Repr

/-- A fresh accumulator: every word +0 with its residue, no poison (05 R95). -/
def Acc.fresh : Acc := { words := List.replicate 256 0, poison := [], res := List.replicate 256 0 }

/-- An unbound core slot: nothing written, nothing queued. -/
def Core.fresh (vt slot : Nat) : Core :=
  { vt := vt, slot := slot, ls := [], full := [], bad := [], wrote := [], gran := [],
    acc := Vector.replicate 8 Acc.fresh, stash := [], remoteQ := [], sendQ := [], mxq := [],
    mxStop := false, arrayBad := false, sepia := [], sepiaLost := 0, sepiaNext := 0,
    mismatch := 0, sampleClk := 0, sampleThr := 3 }

/-- A FREE thread slot, every field at its reset value (05 R93, R95; log entry 4). -/
def Thread.fresh (vt slot : Nat) : Thread :=
  { vt := vt, slot := slot, st := .free, gang := 0, gslot := 0, pc := 0,
    s := Vector.replicate 64 0, v := Vector.replicate 32 (Vector.replicate 32 0),
    p := (Vector.replicate 8 0).set 0 (BitVec.allOnes 32), h := Vector.replicate 16 .empty,
    q := Vector.replicate 8 [], loops := [], rep := none, bic := 0, bmc := 0, grace := 0,
    gcause := 0, ingrace := false, pend := false, resumes := 0, resumed := false,
    lives := 0, livev := 0, rng := [], heldBic := 0, heldBmc := 0, memctl := 0, rmode := 0, fflags := 0,
    seed := 0, tidbase := 0, mrow := BitVec.allOnes 16, mcol := BitVec.allOnes 16,
    mdep := BitVec.allOnes 16, injpl := 0, injarm := false, fbuf := [], freq := none,
    wait := .none, since := 0, woken := none, mailbox := [], node := none, ioHeld := [],
    deferred := [], asyncF := none, cause := none, pktHeld := none, bodyF := false, pktSeq := 0,
    barGen := none, stepArr := none, stepSeq := 0, conted := false, stepRel := false, runBic := 0, runBmc := 0, spanClk := 0,
    halts := false, headClk := 0, seqClk := 0, scalClk := 0, vecClk := 0, poked := [], lanes := [] }

/-- A thread slot that becomes FREE at a clk (05 R94); `since` is that clk (17 R358). -/
def Thread.freed (vt slot clk : Nat) : Thread := { Thread.fresh vt slot with since := clk }

/-- A partition entry at reset: every field zero (05 R83). -/
def Partition.fresh (n : Nat) : Partition :=
  { num := n, valid := false, weight := 0, pvtcnt := 0, pvtbase := 0, asid := 0, spbase := 0,
    spsize := 0, spresv := [], frbase := 0, frsize := 0, recres := 0, drained := false,
    evbase := 0, evsize := 0, evmask := 0, sampctl := 0, frhead := 0, frtail := 0, supv := none,
    lostcnt := 0, ringoff := false, lostMark := false, pktSeq := 0, evhead := 0, evtail := 0,
    evlost := 0, evLostMark := false, counters := List.replicate 12 0, resetting := false }

/-- A queue at reset: every field of its control block zero, so DISABLED (04 R68). -/
def Queue.fresh (q : Nat) : Queue :=
  { qid := q, state := .disabled, ringbase := 0, ringlog2 := 0, head := 0, tail := 0, part := 0,
    capmask := 0, priomax := 0, inflight := 0, acbic := 0, acbmc := 0, energy := 0,
    discards := 0, rejects := 0, resume := [], staged := none, cls := 0, clst := 0, clsm := 0 }

/-- A lease in NONE (15 R312). -/
def Lease.fresh : Lease :=
  { st := .none, level := 0, dom := false, trap := false, reason := 0, remain := 0, gti := 0, vt := 0, clk := 0 }

/-- A Gorfy port at reset (19 R389). -/
def Port.fresh (n : Nat) : Port :=
  { num := n, up := false, retry := false, peer := 0, downClk := 0, rings := [], pairings := [] }

/-- A send ring at reset (19 R389). -/
def PortRing.fresh (n : Nat) : PortRing :=
  { num := n, base := 0, cfg := 0, head := 0, tail := 0, done := 0, errs := 0, desc := none, data := [] }

/-- A zone before anything is sensed (15 R311; log entry 6). -/
def Zone.fresh (n : Nat) : Zone := { num := n, melt := 0, refreeze := false }

/-- An HBM stack at reset (19 R396). -/
def Stack.fresh (n : Nat) : Stack :=
  { num := n, temp := 0, step := 0, steps := 0, capclk := 0, capFrom := 0 }

/-- Counters at zero (17 R362). -/
def Ageing.zero : Ageing :=
  { scrm := 0, cse := 0, ret := 0, marg := 0, lostp := 0, clks := [0, 0, 0, 0, 0] }

/-- The machine right after reset: PHASE RESET, every register at the value of its Reset column, no tile mapped, no queue open, no thread bound, nothing in memory (19 R391, 04 R68, 05 R83). -/
def State.reset : State :=
  { clk := 0, phase := 0, failCode := 0, bootReport := BootReport.good, bootSnap := true, serial := 0, fwVersion := 0, fwRollback := 0,
    fwMeasure := List.replicate 6 0, nvtile := 0, nrank := 0, fuseTiles := [], fuseCores := [],
    retireLog := [], snapshots := [], snapClk := 0, tiles := [], vtiles := [], rotations := [], updates := [], tests := [],
    ckpts := [], threads := [], cores := [], gangs := [], bounds := [], queues := [], parts := [],
    qcmd := { q0 := 0, q1 := 0, q2 := 0, result := 0, busy := false, src := .host }, turns := [], lastStaged := 0, servedQ := [], heldBinds := [], heldPre := [],
    windowHeld := [], audits := [],
    lastServed := [], gangSeq := 1, relSeq := 0, spawns := [], hbm := [], hbmBad := [], roots := [],
    tinv := { t0 := 0, t1 := 0, t2 := 0, result := 0, busy := false }, memOps := [], uncached := [], zones := [],
    hbmStacks := [], hklog := [], hktail := 0, hklost := 0, hkUnits := 0, hkBytes := 0, hkUj := 0,
    schedUj := 0, msix := [], hostReads := [], ports := [],
    fw := { slots := [{ version := some 0, length := 0, chunks := [] }, { version := none, length := 0, chunks := [] }],
            busy := 0, running := 0, slot := 0, result := 0, upoff := 0, uplen := 0, window := [], storeBad := false },
    att := { busy := false, nonce := [], report := [] }, nextCmd := 1, fresh := 0,
    cur := { vt := 0, slot := 0, body := false }, agenda := [] }

end Sys2Proof.Machine
end

