-- ==== Sys2Proof/Machine/Access.lean ====
section
/-! DEFINITION. The places of the state: a thread slot, a core slot, a gang, a queue, a partition and the panel's tables, each found by its number and changed in one place. -/

namespace Sys2Proof.Machine

/-- What a meaning answers. -/
abbrev Out := Host.Outcome State Fault Refusal

/-- Changes the first element that `is` holds of. -/
def modFirst {α : Type} (is : α → Bool) (f : α → α) : List α → List α
  | [] => []
  | x :: r => if is x then f x :: r else x :: modFirst is f r

/-- Changes the first element that `is` holds of, or puts the changed default at the end. -/
def upsert {α : Type} (is : α → Bool) (d : α) (f : α → α) : List α → List α
  | [] => [f d]
  | x :: r => if is x then f x :: r else x :: upsert is d f r

/-- The `n`-th element, or a default. -/
def nth {α : Type} (l : List α) (n : Nat) (d : α) : α := (l[n]?).getD d

/-- Puts `x` in place `n` of a list. -/
def setNth {α : Type} (l : List α) (n : Nat) (x : α) : List α := l.set n x

/-- Insertion without repeats at the end. -/
def insertNew {α : Type} [BEq α] (x : α) (l : List α) : List α := if l.contains x then l else l ++ [x]

/-- Insertion into a rising list of numbers. -/
def insertNat (x : Nat) : List Nat → List Nat
  | [] => [x]
  | y :: r => if x < y then x :: y :: r else if x = y then y :: r else y :: insertNat x r

/-- Joins numbers into a rising list. -/
def unionNat (l m : List Nat) : List Nat := l.foldl (fun acc x => insertNat x acc) m

/-- Insertion into a list sorted by `le`, behind the elements that equal it. -/
def insertBy {α : Type} (le : α → α → Bool) (x : α) : List α → List α
  | [] => [x]
  | y :: r => if le y x then y :: insertBy le x r else x :: y :: r

/-- The list sorted by `le`, equal elements in their order. -/
def sortBy {α : Type} (le : α → α → Bool) (l : List α) : List α := l.foldl (fun acc x => insertBy le x acc) []

/-- The positions of the set bits of a number below `n`, ascending. -/
def bitsOf (x n : Nat) : List Nat := (List.range n).filter fun i => x.testBit i

/-- The number whose set bits are these positions. -/
def ofBits (l : List Nat) : Nat := l.foldl (fun acc i => acc ||| 2 ^ i) 0

/-- A bit as a number. -/
def b2n (b : Bool) : Nat := if b then 1 else 0

/-! Threads. -/

/-- The thread stands at this slot. -/
def Thread.isAt (t : Thread) (vt slot : Nat) : Bool := t.vt == vt && t.slot == slot

/-- The core slot of a thread slot (05 R93). -/
def Thread.cslot (t : Thread) : Nat := t.slot / 4

/-- The hardware thread position of a thread slot (05 R93). -/
def Thread.thr (t : Thread) : Nat := t.slot % 4

/-- The record of a thread slot, none where no gang has ever held it. -/
def State.thread? (s : State) (vt slot : Nat) : Option Thread := s.threads.find? fun t => t.isAt vt slot

/-- The thread slot; one never held is FREE (log entry 4). -/
def State.thread (s : State) (vt slot : Nat) : Thread := (s.thread? vt slot).getD (Thread.fresh vt slot)

/-- Changes a thread slot's record where there is one. -/
def State.modThread (s : State) (vt slot : Nat) (f : Thread → Thread) : State :=
  { s with threads := modFirst (fun t => t.isAt vt slot) f s.threads }

/-- Puts a thread record in its place, new or old. -/
def State.putThread (s : State) (t : Thread) : State :=
  { s with threads := upsert (fun u => u.isAt t.vt t.slot) t (fun _ => t) s.threads }

/-- The thread whose instruction runs. -/
def State.curThread? (s : State) : Option Thread := s.thread? s.cur.vt s.cur.slot

/-- Changes the thread whose instruction runs. -/
def State.modCur (s : State) (f : Thread → Thread) : State := s.modThread s.cur.vt s.cur.slot f

/-- The slots a gang's threads hold: those whose GANGID is its own (05 R93). -/
def State.gangThreads (s : State) (g : Nat) : List Thread := s.threads.filter fun t => t.gang == g && t.st != .free

/-! Cores, tiles and gangs. -/

/-- The core stands at this slot of this tile. -/
def Core.isAt (c : Core) (vt slot : Nat) : Bool := c.vt == vt && c.slot == slot

/-- The core slot; one that nothing has touched is fresh. -/
def State.core (s : State) (vt cs : Nat) : Core :=
  (s.cores.find? fun c => c.isAt vt cs).getD (Core.fresh vt cs)

/-- Changes a core slot. -/
def State.modCore (s : State) (vt cs : Nat) (f : Core → Core) : State :=
  { s with cores := upsert (fun c => c.isAt vt cs) (Core.fresh vt cs) f s.cores }

/-- The entry of a VTILE. -/
def State.vtile? (s : State) (v : Nat) : Option VTile := s.vtiles.find? fun t => t.vt == v

/-- Changes the entry of a VTILE. -/
def State.modVTile (s : State) (v : Nat) (f : VTile → VTile) : State :=
  { s with vtiles := modFirst (fun t => t.vt == v) f s.vtiles }

/-- The virtual tile is AMBER (17 R342). -/
def State.isAmber (s : State) (v : Nat) : Bool := (s.vtile? v).any fun t => t.amber

/-- The virtual tile's rotation has committed and waits for the next release of its threads (17 R340). -/
def State.resuming (s : State) (v : Nat) : Bool := s.rotations.any fun r => r.vt == v && r.st == .resume

/-- Traffic to the virtual tile is held: it is AMBER and its rotation has not committed (17 R342). -/
def State.trafficHeld (s : State) (v : Nat) : Bool := s.isAmber v && !s.resuming v

/-- The virtual tile becomes unbacked once the staged update commits (17 R344). -/
def State.unbacking (s : State) (v : Nat) : Bool := s.updates.any fun u => u.change == .unbacked v

/-- The physical tile. -/
def State.ptile? (s : State) (p : Nat) : Option PTile := s.tiles.find? fun t => t.num == p

/-- The virtual tile that a physical tile carries: the one the routers translate to it or, while a rotation has it AMBER, the one being moved, as source or target (01 R17). -/
def State.carried (s : State) (p : Nat) : Option Nat :=
  match s.vtiles.find? fun v => v.backed && v.ptile == p with
  | some v => some v.vt
  | none =>
    if (s.ptile? p).any fun t => t.service == .amber then
      (s.rotations.find? fun r => (r.source == p || r.target == p) && r.st != .drain).map (·.vt)
    else none

/-- Changes a physical tile. -/
def State.modPTile (s : State) (p : Nat) (f : PTile → PTile) : State :=
  { s with tiles := modFirst (fun t => t.num == p) f s.tiles }

/-- The gang with this GANGID. -/
def State.gang? (s : State) (g : Nat) : Option Gang := s.gangs.find? fun x => x.id == g

/-- Changes a gang. -/
def State.modGang (s : State) (g : Nat) (f : Gang → Gang) : State :=
  { s with gangs := modFirst (fun x => x.id == g) f s.gangs }

/-- The gang's bind record on a tile. -/
def Gang.tile? (g : Gang) (vt : Nat) : Option GangTile := g.tiles.find? fun t => t.vt == vt

/-- The gang of a thread. -/
def State.gangOf (s : State) (t : Thread) : Option Gang := s.gang? t.gang

/-- A field of at most 64 bits of a 128-byte task record or of any list of 64-bit words: bits [lo+n-1:lo] (04 R66). -/
def wordsField (l : List Word) (lo n : Nat) : Nat :=
  ((nth l (lo / 64) 0).toNat >>> (lo % 64) + (nth l (lo / 64 + 1) 0).toNat <<< (64 - lo % 64)) % 2 ^ n

/-! The fields of a task record (04 R66). -/

def recCode (r : List Word) : Nat := wordsField r 0 64
def recArgs (r : List Word) : Nat := wordsField r 64 64
def recHint (r : List Word) : Nat := wordsField r 128 64
def recTidimg (r : List Word) : Nat := wordsField r 192 64
def recCompl (r : List Word) : Nat := wordsField r 256 64
def recWaitaddr (r : List Word) : Nat := wordsField r 320 64
def recNotify0 (r : List Word) : Nat := wordsField r 384 64
def recNotify1 (r : List Word) : Nat := wordsField r 448 64
def recBic (r : List Word) : Nat := wordsField r 512 48
def recBmc (r : List Word) : Nat := wordsField r 576 48
def recNvt (r : List Word) : Nat := wordsField r 640 12
def recNcore (r : List Word) : Nat := wordsField r 656 5
def recNthr (r : List Word) : Nat := wordsField r 661 3
def recGrace (r : List Word) : Nat := wordsField r 672 13
def recPrio (r : List Word) : Nat := wordsField r 688 3
def recCaps (r : List Word) : Nat := wordsField r 696 4
def recLsreq (r : List Word) : Nat := wordsField r 704 10
def recNacc (r : List Word) : Nat := wordsField r 714 4
def recWdt (r : List Word) : Nat := wordsField r 736 32
def recUsertag (r : List Word) : Nat := wordsField r 768 64
def recVersion (r : List Word) : Nat := wordsField r 832 8
def recResume (r : List Word) : Bool := wordsField r 840 1 == 1
def recIrq (r : List Word) : Bool := wordsField r 841 1 == 1
def recMsivec (r : List Word) : Nat := wordsField r 848 16
def recSaveptr (r : List Word) : Nat := wordsField r 896 64
def recSeq (r : List Word) : Nat := wordsField r 992 32

/-- The 4 KiB units of a thread's allocation, ceil(LSREQ / 4) (05 R95). -/
def recUnits (r : List Word) : Nat := (recLsreq r + 3) / 4

/-! Queues, partitions, zones, HBM stacks and ports: an entry nothing has written reads as at reset. -/

/-- The queue. -/
def State.queue (s : State) (q : Nat) : Queue := (s.queues.find? fun x => x.qid == q).getD (Queue.fresh q)

/-- Changes a queue. -/
def State.modQueue (s : State) (q : Nat) (f : Queue → Queue) : State :=
  { s with queues := upsert (fun x => x.qid == q) (Queue.fresh q) f s.queues }

/-- The partition. -/
def State.part (s : State) (p : Nat) : Partition := (s.parts.find? fun x => x.num == p).getD (Partition.fresh p)

/-- Changes a partition. -/
def State.modPart (s : State) (p : Nat) (f : Partition → Partition) : State :=
  { s with parts := upsert (fun x => x.num == p) (Partition.fresh p) f s.parts }

/-- The zone of a field die. -/
def State.zone (s : State) (z : Nat) : Zone := (s.zones.find? fun x => x.num == z).getD (Zone.fresh z)

/-- Changes a zone. -/
def State.modZone (s : State) (z : Nat) (f : Zone → Zone) : State :=
  { s with zones := upsert (fun x => x.num == z) (Zone.fresh z) f s.zones }

/-- The HBM stack. -/
def State.stack (s : State) (n : Nat) : Stack := (s.hbmStacks.find? fun x => x.num == n).getD (Stack.fresh n)

/-- Changes an HBM stack. -/
def State.modStack (s : State) (n : Nat) (f : Stack → Stack) : State :=
  { s with hbmStacks := upsert (fun x => x.num == n) (Stack.fresh n) f s.hbmStacks }

/-- The Gorfy port. -/
def State.port (s : State) (n : Nat) : Port := (s.ports.find? fun x => x.num == n).getD (Port.fresh n)

/-- Changes a Gorfy port. -/
def State.modPort (s : State) (n : Nat) (f : Port → Port) : State :=
  { s with ports := upsert (fun x => x.num == n) (Port.fresh n) f s.ports }

/-- A send ring of a port. -/
def Port.ring (p : Port) (n : Nat) : PortRing := (p.rings.find? fun x => x.num == n).getD (PortRing.fresh n)

/-- Changes a send ring. -/
def Port.modRing (p : Port) (n : Nat) (f : PortRing → PortRing) : Port :=
  { p with rings := upsert (fun x => x.num == n) (PortRing.fresh n) f p.rings }

/-! Ranks, tiles and partitions as threads name them (01 R22-R27). -/

/-- The rank of a core slot, none where it is vacant. -/
def State.rankOf (s : State) (vt cs : Nat) : Option Nat :=
  match s.vtile? vt with
  | none => none
  | some v => (nth v.ranks cs none)

/-- The physical core that a core slot maps to, none where it is vacant (01 R22). -/
def State.pcoreOf (s : State) (vt cs : Nat) : Option Nat :=
  match s.vtile? vt with
  | none => none
  | some v => nth v.slots cs none

/-- The physical tile that carries a VTILE. -/
def State.ptileOf (s : State) (vt : Nat) : Nat :=
  match s.vtile? vt with
  | none => 0
  | some v => v.ptile

/-- The tile injects nothing: its router casts no vote in the move of its own virtual tile, which is under way (17 R345). -/
def State.mute (s : State) (vt : Nat) : Bool := s.trafficHeld vt && s.tiles.any fun p => p.num == s.ptileOf vt && !p.votes

/-- The edge die and the tile x that a virtual tile is homed by at its current position (01 R13, R14). -/
def State.homeTile (s : State) (vt : Nat) : Nat × Nat :=
  let p := s.ptileOf vt
  let row := p / 64 / 6
  let col := p / 64 % 6
  ((if row < 4 then col else 6 + col), p % 8)

/-- The HBM stack that holds a virtual tile's home channels (01 R13, R14). -/
def State.homeStack (s : State) (vt : Nat) : Nat := let h := s.homeTile vt; 2 * h.1 + h.2 / 4

/-- An HBM cap is in force on a home channel of a gang that is bound in a partition (19 R383, R396). -/
def State.capped (s : State) (part : Nat) : Bool :=
  s.gangs.any fun g => g.part == part && g.tiles.any fun k => 2 ≤ (s.stack (s.homeStack k.vt)).step

/-- `n` clk pass: counter 11 of each partition counts them while a cap is in force on a home channel of one of its gangs (19 R383). -/
def State.tick (s : State) (n : Nat) : State :=
  { s with
    clk := s.clk + n
    parts := if s.hbmStacks.any fun x => 2 ≤ x.step then
        s.parts.map fun (p : Partition) =>
          if s.capped p.num then { p with counters := setNth p.counters 11 ((nth p.counters 11 0 + n) % 2 ^ 64) } else p
      else s.parts }

/-- Where a slot list holds a rank. -/
def findRank (r : Nat) : List (Option Nat) → Nat → Option Nat
  | [], _ => none
  | x :: l, i => if x == some r then some i else findRank r l (i + 1)

/-- The core slot of a rank that is not vacant (01 R22, R24). A rank on an unbacked virtual tile is still named: R24 refuses a vacant rank and one at or beyond NRANK alone, and does not speak of that case (log entry 50). -/
def State.rankPlace (s : State) (r : Nat) : Option (Nat × Nat) :=
  s.vtiles.findSome? fun v =>
    match findRank r v.ranks 0 with
    | none => none
    | some i => if (nth v.slots i none).isSome then some (v.vt, i) else none

/-- The VTILE lies in the partition's range (05 R83). -/
def Partition.holds (p : Partition) (vt : Nat) : Bool := p.pvtbase ≤ vt && vt < p.pvtbase + p.pvtcnt

/-- The partition of a thread, by its gang. -/
def State.partNum (s : State) (t : Thread) : Nat :=
  match s.gangOf t with
  | none => 0
  | some g => g.part

/-- The partition whose range holds a virtual tile (05 R83). -/
def State.partAt (s : State) (vt : Nat) : Nat :=
  match s.parts.find? fun p => p.valid && p.holds vt with
  | none => 0
  | some p => p.num

/-- The address space of a thread (11 R222). -/
def State.asidOf (s : State) (t : Thread) : Nat :=
  match s.gangOf t with
  | none => 0
  | some g => g.asid

/-- A capability bit of a gang's record: 0 TOPUP, 1 SPRINT, 2 SUPERVISE, 3 SCREEN (04 R67). -/
def Gang.cap (g : Gang) (c : Nat) : Bool := (wordsField g.task 696 4).testBit c

/-- Whether a thread's gang has a capability. -/
def State.hasCap (s : State) (t : Thread) (c : Nat) : Bool :=
  match s.gangOf t with
  | none => false
  | some g => g.cap c

end Sys2Proof.Machine
end

