-- ==== Sys2Proof/Machine/Mem.lean ====
section
/-! DEFINITION. Memory as sorted bytes: a local store, the HBM behind the panel's physical addresses, full/empty tags and error marks (11 R217-R219, R226, R398). -/

namespace Sys2Proof.Machine

/-- What a byte that nothing has written reads as (05 R95 for a local store; log entry 3 for HBM). -/
def unwritten : Byte := 0

/-- The canonical form: addresses strictly rising, no entry equal to what an unlisted address reads as. -/
def Memory.wfFrom : Nat → Memory → Bool
  | _, [] => true
  | lo, (a, b) :: r => lo ≤ a && b != unwritten && Memory.wfFrom (a + 1) r

/-- The canonical form of a memory. -/
def Memory.wf (m : Memory) : Bool := Memory.wfFrom 0 m

/-- The byte at an address. -/
def Memory.byte : Memory → Nat → Byte
  | [], _ => unwritten
  | (k, b) :: r, a => if k = a then b else if a < k then unwritten else Memory.byte r a

/-- Writes one byte; writing what an unlisted byte reads as removes the entry. -/
def Memory.put : Memory → Nat → Byte → Memory
  | [], a, b => if b = unwritten then [] else [(a, b)]
  | (k, v) :: r, a, b =>
    if a < k then (if b = unwritten then (k, v) :: r else (a, b) :: (k, v) :: r)
    else if k = a then (if b = unwritten then r else (a, b) :: r)
    else (k, v) :: Memory.put r a b

/-- Writes bytes from an address up. -/
def Memory.putBytes (m : Memory) (a : Nat) : List Byte → Memory
  | [] => m
  | b :: r => Memory.putBytes (m.put a b) (a + 1) r

/-- `n` bytes from an address up. -/
def Memory.bytes (m : Memory) (a n : Nat) : List Byte := (List.range n).map fun i => m.byte (a + i)

/-- The bytes outside [lo, hi) alone. -/
def Memory.clear (m : Memory) (lo hi : Nat) : Memory := m.filter fun c => c.1 < lo || hi ≤ c.1

/-- The little-endian number of bytes, lowest first (00 R2). -/
def bytesNat : List Byte → Nat
  | [] => 0
  | b :: r => b.toNat + 256 * bytesNat r

/-- `n` bytes of a number, lowest first. -/
def natBytes : Nat → Nat → List Byte
  | 0, _ => []
  | n + 1, x => BitVec.ofNat 8 x :: natBytes n (x / 256)

/-- `n` bytes as a number. -/
def Memory.read (m : Memory) (a n : Nat) : Nat := bytesNat (m.bytes a n)

/-- Writes the low `n` bytes of a number. -/
def Memory.write (m : Memory) (a n x : Nat) : Memory := m.putBytes a (natBytes n x)

/-- Bytes as 64-bit words, lowest first; a last part-word is filled with zeros. -/
def bytesWords : Nat → List Byte → List Word
  | 0, _ => []
  | n + 1, l => w64 (bytesNat (l.take 8)) :: bytesWords n (l.drop 8)

/-- The bytes of 64-bit words. -/
def wordsBytes : List Word → List Byte
  | [] => []
  | w :: r => natBytes 8 w.toNat ++ wordsBytes r

/-- The aligned units of `g` bytes that `n` bytes from `a` touch. -/
def unitsOf (g a n : Nat) : List Nat :=
  if n = 0 then [] else (List.range ((a + n - 1) / g - a / g + 1)).map fun i => a / g + i

/-- The aligned units of `g` bytes that `n` bytes from `a` cover whole. -/
def wholeUnits (g a n : Nat) : List Nat :=
  (unitsOf g a n).filter fun u => a ≤ u * g && u * g + g ≤ a + n

/-! The local store of a core slot (11 R217-R219). -/

/-- Marks the words that `n` bytes from `a` touch FULL, clears the errors of the words they cover (11 R219, R398), and keeps the words written since the last release (12 R252) and the 256-byte granules written since the last checkpoint copy (17 R352). -/
def Core.touchWords (c : Core) (a n : Nat) : Core :=
  { c with
    full := unionNat (unitsOf 4 a n) c.full
    wrote := unionNat (unitsOf 4 a n) c.wrote
    gran := unionNat (unitsOf 256 a n) c.gran
    bad := c.bad.filter fun w => !(wholeUnits 4 a n).contains w }

/-- Writes bytes into the local store. -/
def Core.putLs (c : Core) (a : Nat) (bs : List Byte) : Core :=
  { c with ls := c.ls.putBytes a bs }.touchWords a bs.length

/-- The low bytes of a number, written into the local store. -/
def Core.writeLs (c : Core) (a n x : Nat) : Core := c.putLs a (natBytes n x)

/-- `n` bytes of the local store as a number. -/
def Core.readLs (c : Core) (a n : Nat) : Nat := c.ls.read a n

/-- The lowest local word in error among those that `n` bytes from `a` touch (11 R398). -/
def Core.badWord (c : Core) (a n : Nat) : Option Nat := (unitsOf 4 a n).find? fun w => c.bad.contains w

/-- Sets or clears the tag of a word (13 R261); its granule has been written since the last checkpoint (17 R352). -/
def Core.setTag (c : Core) (w : Nat) (t : Bool) : Core :=
  { c with full := if t then insertNat w c.full else c.full.filter fun x => x != w, gran := insertNat (w / 64) c.gran }

/-! The HBM (11 R226, R398). -/

/-- Writes bytes at a physical address; a granule covered whole loses its error. -/
def State.putHbm (s : State) (pa : Nat) (bs : List Byte) : State :=
  { s with
    hbm := s.hbm.putBytes pa bs
    hbmBad := s.hbmBad.filter fun g => !(wholeUnits 32 pa bs.length).contains g }

/-- The lowest HBM granule in error among those that `n` bytes from `pa` touch. -/
def State.badGran (s : State) (pa n : Nat) : Option Nat := (unitsOf 32 pa n).find? fun g => s.hbmBad.contains g

end Sys2Proof.Machine
end

