-- ==== Sys2Proof/Machine/Translate.lean ====
section
/-! DEFINITION. Global addresses: the four-level walk, the subcodes of a failed translation, and what the physical address reaches (11 R222-R226). A tile may use table entries that its translation cache holds (11 R224, log entry 12). -/

namespace Sys2Proof.Machine

/-- Where a translated address lies: its physical address and the MS, IO, W and X bits of its leaf (11 R222). -/
structure Mapped where
  pa : Nat
  ms : Bool
  io : Bool
  w  : Bool
  x  : Bool
  deriving DecidableEq, Repr

/-- The outcome of a translation: a place, or the subcode of 11 R223. -/
inductive Trans
  | ok (m : Mapped)
  | err (sub : Nat)
  deriving DecidableEq, Repr

/-- A table address lies in HBM. -/
def tableReadable (pa : Nat) : Bool := pa + 4096 ≤ Config.hbmEnd

/-- The walk from a table at `level`, where 4 is the first level and 1 the fourth (11 R222); `held` gives the entries that a cache holds, by level and upper address bits. -/
def walk (m : Memory) (held : Nat → Nat → Option Word) (va : Nat) : Nat → Nat → Trans
  | 0, _ => .err 2
  | level + 1, table =>
    let shift := 12 + 9 * level
    let c := held (level + 1) (va >>> shift)
    if c.isNone && !tableReadable table then .err 6 else
    let e : Word := c.getD (w64 (m.read (table + 8 * ((va >>> shift) % 512)) 8))
    let leaf := e.bit 5
    let frame := e.field 12 40 * 4096
    if !e.bit 0 then .err 1
    else if e.field 52 12 != 0 || e.field 8 4 != 0 || e.field 3 2 != 0 then .err 2
    else if leaf then
      if level = 3 then .err 2
      else if frame % 2 ^ shift != 0 then .err 2
      else .ok { pa := frame + va % 2 ^ shift, ms := e.bit 6, io := e.bit 7, w := e.bit 1, x := e.bit 2 }
    else if level = 0 then .err 2
    else walk m held va level frame

/-- The root word of an address space (11 R222). -/
def State.root (s : State) (asid : Nat) : Word :=
  match s.roots.find? fun r => r.1 == asid with
  | none => 0
  | some r => r.2

/-- What an access needs of its page. -/
structure Need where
  suits : Bool → Bool → Bool
  write : Bool
  fetch : Bool

/-- A plain read or write on any page but one in the register window reached through no IO leaf. -/
def needAny (write : Bool) : Need := { suits := fun _ _ => true, write := write, fetch := false }
/-- A page with MS = 0 and IO = 0. -/
def needPlain (write : Bool) : Need := { suits := fun ms io => !ms && !io, write := write, fetch := false }
/-- A page with MS = 1 and IO = 0. -/
def needSide (write : Bool) : Need := { suits := fun ms io => ms && !io, write := write, fetch := false }
/-- A page a bundle is fetched from. -/
def needFetch : Need := { suits := fun ms io => !ms && !io, write := false, fetch := true }

/-- Where an address is translated: its address space, and the tile whose cache the translation may use; the controllers of the panel use none. -/
structure Space where
  asid : Nat
  tile : Option Nat
  deriving DecidableEq, Repr

/-- An address space as the panel's controllers translate it. -/
def Space.panel (asid : Nat) : Space := { asid := asid, tile := none }

/-- An address space as a tile translates it. -/
def Space.onTile (asid vt : Nat) : Space := { asid := asid, tile := some vt }

/-- The address space of a thread, translated on its tile (11 R222, R224). -/
def State.spaceOf (s : State) (t : Thread) : Space := .onTile (s.asidOf t) t.vt

/-- The table entry that a tile's cache holds for a level and the address bits from there up (11 R224). -/
def State.held (s : State) (sp : Space) (level key : Nat) : Option Word :=
  ((sp.tile.bind s.vtile?).bind fun v => v.tlb.find? fun e => e.asid == sp.asid && e.level == level && e.key == key).map (·.word)

/-- The translation of a virtual address, with the subcodes of 11 R223 in their order. -/
def State.translate (s : State) (sp : Space) (va : Nat) (n : Need) : Trans :=
  if va ≥ 2 ^ 48 then .err 0 else
  let r := s.root sp.asid
  if !r.bit 0 then .err 1 else
  match walk s.hbm (s.held sp) va 4 (r.field 12 40 * 4096) with
  | .err e => .err e
  | .ok m =>
    let inWindow := Config.regBase ≤ m.pa && m.pa < Config.regEnd
    if !(m.pa < Config.hbmTop || inWindow) then .err 6
    else if m.io != inWindow || !n.suits m.ms m.io then .err 5
    else if n.write && !m.w then .err 3
    else if n.fetch && !m.x then .err 4
    else .ok m

/-- The fault of a failed translation (11 R223, 16 R322). -/
def transFault (va : Nat) (kind : AccKind) (sub : Nat) : FaultInfo :=
  { cause := .translation, addr := w64 va, sub := sub, kind := kind }

/-- A little-endian read of ordinary memory by the device's own engines: `n` bytes that may pass a page edge, or the fault. -/
def State.readVirt (s : State) (sp : Space) (n : Need) (va : Nat) : Nat → List Byte → Except Nat (List Byte)
  | 0, acc => .ok acc.reverse
  | k + 1, acc =>
    match s.translate sp va n with
    | .err e => .error e
    | .ok m => s.readVirt sp n (va + 1) k (s.hbm.byte m.pa :: acc)

/-- Writes bytes from a virtual address up, a byte at a time, until one does not translate. -/
def State.writeVirt (s : State) (sp : Space) (n : Need) (va : Nat) : List Byte → Except Nat State
  | [] => .ok s
  | b :: r =>
    match s.translate sp va n with
    | .err e => .error e
    | .ok m => (s.putHbm m.pa [b]).writeVirt sp n (va + 1) r

/-- Whether every page that `n` bytes touch can be reached. -/
def State.checkVirt (s : State) (sp : Space) (nd : Need) (va n : Nat) : Option (Nat × Nat) :=
  (unitsOf 4096 va n).findSome? fun p =>
    match s.translate sp (max va (p * 4096)) nd with
    | .err e => some (max va (p * 4096), e)
    | .ok _ => none

/-- 64-byte, 128-byte and other aligned structures that lie in one page: written as one unit, or the fault. -/
def State.writePage (s : State) (sp : Space) (nd : Need) (va : Nat) (bs : List Byte) : Except Nat State :=
  match s.translate sp va nd with
  | .err e => .error e
  | .ok m => .ok (s.putHbm m.pa bs)

/-- A structure that lies in one page, read as one unit. -/
def State.readPage (s : State) (sp : Space) (nd : Need) (va n : Nat) : Except Nat (List Byte) :=
  match s.translate sp va nd with
  | .err e => .error e
  | .ok m => .ok (s.hbm.bytes m.pa n)

/-! What dispatch re-reads (04 R76). -/

/-- A queue's staged record waits on a word that `n` bytes from `pa` touch. -/
def State.waitsOn (s : State) (q : Queue) (pa n : Nat) : Bool :=
  match q.staged with
  | none => false
  | some r =>
    r.st == .depWait false &&
      match s.translate (.panel (s.part q.part).asid) (recWaitaddr r.src.task) (needSide false) with
      | .ok m => m.pa < pa + n && pa < m.pa + 4
      | .err _ => false

/-- Dispatch has to read the WAITADDR word of the queue's staged record again, if that record waits on one. -/
def Queue.rereadDue (q : Queue) : Queue :=
  match q.staged with
  | none => q
  | some r =>
    match r.st with
    | .depWait _ => { q with staged := some { r with st := .depWait true } }
    | _ => q

/-- A thread or an engine of the panel has written `n` bytes at a physical address: the WAITADDR words among them are read again. -/
def State.noteWrite (s : State) (pa n : Nat) : State :=
  { s with queues := s.queues.map fun q => if s.waitsOn q pa n then q.rereadDue else q }

/-- The low bytes of a number, written at a physical address by a thread or an engine of the panel. -/
def State.writeHbm (s : State) (pa n x : Nat) : State := (s.putHbm pa (natBytes n x)).noteWrite pa n

/-! The translation cache of a tile (11 R224, R225). -/

/-- The valid entries that a walk reads on the way to an address. -/
def pathOf (m : Memory) (asid va : Nat) : Nat → Nat → List TlbEntry
  | 0, _ => []
  | level + 1, table =>
    let shift := 12 + 9 * level
    let e : Word := w64 (m.read (table + 8 * ((va >>> shift) % 512)) 8)
    if !tableReadable table || !e.bit 0 then []
    else
      { asid := asid, level := level + 1, key := va >>> shift, word := e } ::
        (if e.bit 5 then [] else pathOf m asid va level (e.field 12 40 * 4096))

/-- A tile caches the entries on the way to an address as the tables hold them now. -/
def State.cachePath (s : State) (vt asid va : Nat) : State :=
  let r := s.root asid
  let l := if r.bit 0 && va < 2 ^ 48 then pathOf s.hbm asid va 4 (r.field 12 40 * 4096) else []
  s.modVTile vt fun v => { v with tlb := l ++ v.tlb.filter fun e => !(l.any fun x => x.asid == e.asid && x.level == e.level && x.key == e.key) }

/-- The bytes that an entry maps meet [va, va + n). -/
def TlbEntry.meets (e : TlbEntry) (va n : Nat) : Bool :=
  let size := 2 ^ (3 + 9 * e.level)
  e.key * size < va + n && va < (e.key + 1) * size

/-- Every tile drops the entries of an address space that meet a range (11 R225). -/
def State.dropCached (s : State) (asid va n : Nat) : State :=
  { s with vtiles := s.vtiles.map fun (v : VTile) => { v with tlb := v.tlb.filter fun e => !(e.asid == asid && e.meets va n) } }

/-- The home of an HBM address: edge die, pseudo-channel, slice (11 R226). -/
def homeOf (pa : Nat) : Nat × Nat × Nat :=
  let f := pa / 4096
  let g := f % 96
  let e := g / 8
  let x := g % 8
  let k := 16 * x + 8 * ((f / 96) % 2) + (pa >>> 9) % 8
  (e, k, 2 * k + (pa >>> 8) % 2)

end Sys2Proof.Machine
end

