-- ==== Sys2Proof/Machine/Ops.lean ====
section
/-! DEFINITION. The named operations every instruction shares: reports, charges, taking a fault and returning from one, and the issue and retirement of an instruction. -/

namespace Sys2Proof.Machine

/-! The housekeeping log (19 R385, R386) and the event streams (19 R379-R381). -/

/-- Writes an entry into the housekeeping log; a full ring loses its oldest entry. -/
def State.hkPut (s : State) (kind part : Nat) (data : List Word) : State :=
  { s with
    hklog := (if s.hklog.length < 4096 then s.hklog else s.hklog.drop 1) ++
      [{ num := s.hktail, kind := kind, part := part, data := data }]
    hklost := if s.hklog.length < 4096 then s.hklost else min (s.hklost + 1) 0xFFFF
    hktail := s.hktail + 1 }

/-- A host notice: MSI-X vector 0 after the entry (19 R385). -/
def State.notice (s : State) : State := { s with msix := s.msix ++ [0] }

/-- The four words of an event record (19 R380). -/
def eventWords (type : Nat) (lost : Bool) (sub gang clk : Nat) (p0 p1 : Word) : List Word :=
  [w64 (type + b2n lost * 256 + (sub % 65536) * 65536 + gang * 2 ^ 32), w64 clk, p0, p1]

/-- An event that only the log receives (19 R386); partition 0xFF where none is concerned. -/
def State.hkEvent (s : State) (sub part : Nat) (p0 p1 : Word) : State :=
  s.hkPut 3 part (eventWords 0x0B false sub 0 s.clk p0 p1 ++ List.replicate 4 0)

/-- A free value for the model (log entry 7): the counter that names it moves on. -/
def State.freshWord (s : State) : State × Word :=
  ({ s with fresh := s.fresh + 1 }, Config.freeWord s.fresh)

/-- A report of an event to which 19 R386 gives no SUB code: its SUB, P0 and P1 are free values (log entry 27). -/
def State.hkReport (s : State) : State :=
  let f (k : Nat) : Word := Config.freeWord (s.fresh + k)
  ({ s with fresh := s.fresh + 3 } : State).hkEvent ((f 0).toNat % 65536) 0xFF (f 1) (f 2)

/-- The address space of a partition's rings and pools. -/
def Partition.space (p : Partition) : Space := .panel p.asid

/-- Energy of the device housekeeping account. -/
def State.hkEnergy (s : State) : State := { s with hkUj := s.hkUj + Config.freeEnergy s.fresh, fresh := s.fresh + 1 }

/-- Writes a record into a partition's event stream, if its type is enabled (19 R379, R380); the write's energy goes to the device housekeeping account. -/
def State.event (s : State) (part type sub gang : Nat) (p0 p1 : Word) : State :=
  let p := s.part part
  if !(7 ≤ type && type ≤ 9) && !(p.evmask.testBit type) then s
  else if p.evsize = 0 || (p.evtail - p.evhead).toNat = p.evsize then
    s.modPart part fun q => { q with evlost := min (q.evlost + 1) 0xFFFFFFFF, evLostMark := true }
  else
    let va := p.evbase * 4096 + 32 * (p.evtail.toNat % p.evsize)
    match s.writePage p.space (needPlain true) va
        (wordsBytes (eventWords type p.evLostMark sub gang s.clk p0 p1)) with
    | .error _ =>
      (s.modPart part fun q => { q with evsize := 0, evlost := min (q.evlost + 1) 0xFFFFFFFF, evLostMark := true }).hkEvent
        8 part (w64 part) 1
    | .ok s' => (s'.modPart part fun q => { q with evtail := q.evtail + 1, evLostMark := false }).hkEnergy

/-- Adds to a counter of a partition (19 R383). -/
def State.count (s : State) (part k n : Nat) : State :=
  s.modPart part fun p => { p with counters := setNth p.counters k ((nth p.counters k 0 + n) % 2 ^ 64) }

/-! Waiter queues: LINK and the waiter nodes (13 R273, R275). -/

/-- LINK of a header: HEAD, TAIL and COUNT (13 R273). -/
structure Link where
  head  : Nat
  tail  : Nat
  count : Nat
  deriving DecidableEq, Repr

/-- LINK of the header at a physical address. -/
def State.link (s : State) (pa : Nat) : Link :=
  let w := s.hbm.read (pa + 8) 8
  { head := w / 2 ^ 46, tail := w / 2 ^ 28 % 2 ^ 18, count := w / 2 ^ 10 % 2 ^ 18 }

/-- Writes LINK; an empty queue has LINK zero. -/
def State.setLink (s : State) (pa : Nat) (l : Link) : State :=
  s.writeHbm (pa + 8) 8 (if l.count = 0 then 0 else l.head * 2 ^ 46 + l.tail * 2 ^ 28 + l.count * 2 ^ 10)

/-- The chain of waiters from a slot, as long as every node records this header; none where one does not. -/
def State.chain (s : State) (pa : Nat) : Nat → Nat → Option (List Nat)
  | 0, _ => some []
  | n + 1, at' =>
    match (s.thread (at' / 64) (at' % 64)).node with
    | none => none
    | some d =>
      if d.header ≠ pa then none
      else
        match n, d.next with
        | 0, none => some [at']
        | 0, some _ => none
        | _ + 1, none => none
        | _ + 1, some nx =>
          match s.chain pa n nx with
          | none => none
          | some r => some (at' :: r)

/-- The waiters of a header in order, or none where LINK and the nodes do not agree (13 R275). -/
def State.waiters (s : State) (pa : Nat) : Option (List Nat) :=
  let w := s.hbm.read (pa + 8) 8
  if w = 0 then some []
  else
    let l := s.link pa
    if w % 2 ^ 10 ≠ 0 || l.count = 0 then none
    else
      match s.chain pa l.count l.head with
      | none => none
      | some c => if c.getLast? = some l.tail then some c else none

/-- Sets the waiter nodes of a chain to name each its successor. -/
def State.setChain (s : State) (pa : Nat) : List Nat → State
  | [] => s
  | a :: r => (s.modThread (a / 64) (a % 64) fun t => { t with node := some { header := pa, next := r.head? } }).setChain pa r

/-- Makes these waiters, in order, the queue of a header. -/
def State.setWaiters (s : State) (pa : Nat) (l : List Nat) : State :=
  (s.setChain pa l).setLink pa { head := l.headD 0, tail := l.getLastD 0, count := l.length }

/-- The waiters of a header; where LINK does not agree with the nodes it is written as zero and reported, and the queue is empty (13 R275). -/
def State.repairWaiters (s : State) (pa va part : Nat) : State × List Nat :=
  match s.waiters pa with
  | some l => (s, l)
  | none =>
    let s := s.writeHbm (pa + 8) 8 0
    let s := s.event part 0x09 4 0 (w64 va) 0
    (s.hkPut 3 part (eventWords 0x09 false 4 0 s.clk (w64 va) 0 ++ List.replicate 4 0), [])

/-- Unlinks a thread's waiter node (13 R273). -/
def State.unlinkWq (s : State) (vt slot : Nat) : State :=
  match (s.thread vt slot).node with
  | none => s
  | some d =>
    let s1 :=
      match s.waiters d.header with
      | none => s
      | some l => s.setWaiters d.header (l.filter fun a => a != vt * 64 + slot)
    s1.modThread vt slot fun t => { t with node := none }

/-! Charges (15 R287-R292). -/

/-- The largest budget of a thread and account of a queue: bits [63:48] of BIC and BMC are reserved and read 0 (00 R9, 15 R286). -/
def budgetMax : Nat := 2 ^ 48 - 1

/-- The thread is asleep in `wq.wait` or `sig.take`. -/
def Thread.inWaiter (t : Thread) : Bool :=
  match t.wait with
  | .wq _ => true
  | .sig => true
  | _ => false

/-- Takes `x` units from GRACE; too little sets PEND (15 R288). -/
def Thread.takeGrace (t : Thread) (x : Nat) : Thread :=
  if x > t.grace then { t with grace := 0, pend := true } else { t with grace := t.grace - x }

/-- What `charge(u, b)` of 15 R288 does to the budgets. -/
def Thread.debit (t : Thread) (u b : Nat) : Thread :=
  if t.ingrace then t.takeGrace (u + (b + 63) / 64)
  else if u ≤ t.bic ∧ b ≤ t.bmc then { t with bic := t.bic - u, bmc := t.bmc - b }
  else
    let x := (u - t.bic) + ((b - t.bmc) + 63) / 64
    { t with gcause := if u > t.bic then 1 else 2, bic := t.bic - u, bmc := t.bmc - b, ingrace := true }.takeGrace x

/-- The units that a charge takes from BIC and GRACE: what exceeds GRACE is charged nowhere (15 R288). -/
def Thread.unitsOf (t : Thread) (u b : Nat) : Nat := (t.bic - (t.debit u b).bic) + (t.grace - (t.debit u b).grace)

/-- The bytes that a charge takes from BMC: the others are charged as units of grace (15 R288). -/
def Thread.bytesOf (t : Thread) (u b : Nat) : Nat := t.bmc - (t.debit u b).bmc

/-- `charge(u, b)` of 15 R288; a completion record counts what was charged (19 R376). -/
def Thread.charge (t : Thread) (u b : Nat) : Thread :=
  { t.debit u b with runBic := t.runBic + t.unitsOf u b, runBmc := t.runBmc + t.bytesOf u b }

/-- Ends a sleep in `wq.wait` or `sig.take` INTERRUPTED (13 R260); one that a wake or a signal has ended already is no sleep. -/
def State.interrupt (s : State) (vt slot : Nat) : State :=
  let t := s.thread vt slot
  match t.wait, t.woken, t.mailbox with
  | .wq _, none, _ => (s.unlinkWq vt slot).modThread vt slot fun t => { t with woken := some 2 }
  | .sig, none, [] => s.modThread vt slot fun t => { t with woken := some 0 }
  | _, _, _ => s

/-- Charges a thread, counts for its partition, and wakes it where it enters grace asleep in a waiter (15 R288, 13 R260, 19 R383). -/
def State.charge (s : State) (vt slot u b : Nat) : State :=
  if u = 0 ∧ b = 0 then s
  else
    let t := s.thread vt slot
    let t' := t.charge u b
    let s := s.modThread vt slot fun t => { t.charge u b with spanClk := s.clk }
    let p := s.partNum t
    let s := (s.count p 0 (t.unitsOf u b)).count p 1 (t.bytesOf u b)
    if t'.ingrace && !t.ingrace then s.interrupt vt slot else s

/-! Fault packets (16 R321, R322, R324, R325). -/

/-- The number of a cause (16 R322). -/
def Cause.code : Cause → Nat
  | .illegal => 0x01 | .fetchSplit => 0x02 | .capability => 0x03 | .tensor => 0x04
  | .format => 0x05 | .align => 0x06 | .lsRange => 0x07 | .memErr => 0x08
  | .translation => 0x09 | .stash => 0x0A | .future => 0x0B | .queue => 0x0C
  | .loop => 0x0D | .accRange => 0x0E | .poison => 0x0F | .barrier => 0x10
  | .tileRange => 0x11 | .rankRange => 0x12 | .budget => 0x13 | .trap => 0x14
  | .watchdog => 0x15 | .allAsleep => 0x16 | .lostPermit => 0x17 | .leaseExpiry => 0x18
  | .unbacked => 0x19 | .replay => 0x1A

/-- The cause of a number, for a handle that holds FAULT (11 R240). -/
def Cause.ofCode (n : Nat) : Cause :=
  match n with
  | 0x01 => .illegal | 0x02 => .fetchSplit | 0x03 => .capability | 0x04 => .tensor
  | 0x05 => .format | 0x06 => .align | 0x07 => .lsRange | 0x08 => .memErr
  | 0x09 => .translation | 0x0A => .stash | 0x0B => .future | 0x0C => .queue
  | 0x0D => .loop | 0x0E => .accRange | 0x0F => .poison | 0x10 => .barrier
  | 0x11 => .tileRange | 0x12 => .rankRange | 0x13 => .budget | 0x14 => .trap
  | 0x15 => .watchdog | 0x16 => .allAsleep | 0x17 => .lostPermit | 0x18 => .leaseExpiry
  | 0x19 => .unbacked | _ => .replay

/-- The number of an access kind (16 R321). -/
def AccKind.code : AccKind → Nat
  | .fetch => 0 | .read => 1 | .write => 2 | .fill => 3 | .writeBack => 4 | .copy => 5 | .distributor => 6

/-- FLAGS of a packet, from bit 32: FROZE, BODY, ASYNC, FETCH, LOST, SUPV (16 R321). -/
def packetFlags (froze body async fetch supv : Bool) : Nat :=
  b2n froze + 2 * b2n body + 4 * b2n async + 8 * b2n fetch + 32 * b2n supv

/-- The identity of a thread in words 2 and 3 of a packet (16 R321). -/
def State.packetWho (s : State) (t : Thread) : Word × Word :=
  let (g, dom, q) := match s.gangOf t with
    | none => (t.gang, 0, 0)
    | some x => (x.id, x.domid, x.qid)
  (w64 (g + dom * 2 ^ 32 + q * 2 ^ 48),
   w64 ((s.rankOf t.vt t.cslot).getD 0 + t.thr * 2 ^ 16 + t.cslot * 2 ^ 20 + t.vt * 2 ^ 24 +
     s.ptileOf t.vt * 2 ^ 36 + (s.pcoreOf t.vt t.cslot).getD 0 * 2 ^ 48))

/-- The eight words of a packet (16 R321). -/
def packetWords (f : FaultInfo) (flags iter : Nat) (seq : BitVec 32) (who : Word × Word) (pc : Word) (clk : Nat) : Packet :=
  [w64 (1 + f.cause.code * 2 ^ 8 + f.sub * 2 ^ 16 + f.kind.code * 2 ^ 20 + f.tidn * 2 ^ 24 + flags * 2 ^ 32),
   w64 (seq.toNat + iter * 2 ^ 32), who.1, who.2, pc, f.addr, f.info, w64 clk]

/-- Sets LOST in a packet (16 R325). -/
def markLost (p : Packet) : Packet :=
  match p with
  | [] => []
  | w :: r => (w ||| w64 (2 ^ 36)) :: r

/-- Puts a signal into a mailbox; one that is full, or on a virtual tile whose traffic is held (17 R342), lets it wait in the send queue of the target's core (13 R276). -/
def State.deliverDevice (s : State) (part vt slot : Nat) (sig : Signal) : State :=
  if (s.thread vt slot).mailbox.length < 8 && !s.trafficHeld vt then
    s.modThread vt slot fun t => { t with mailbox := t.mailbox ++ [sig] }
  else
    s.modCore vt (slot / 4) fun c =>
      { c with sendQ := c.sendQ ++ [{ sig := sig, spart := part, sgang := 0, vt := vt, slot := slot }] }

/-- One signal from the device to the partition's supervisor, where it has one (16 R324). -/
def State.notifySupervisor (s : State) (part : Nat) : State :=
  let p := s.part part
  match p.supv with
  | none => s
  | some (vt, slot) => s.deliverDevice part vt slot { srank := 0xFFFF, sthr := 0, data := p.frtail }

/-- Writes a packet into the partition's fault ring, which has room, or into the log where the write faults (16 R324, R325). -/
def State.writeRing (s : State) (part : Nat) (p : Packet) : State :=
  let q := s.part part
  let p := if q.lostMark then markLost p else p
  match s.writePage q.space (needPlain true) (q.frbase * 4096 + 64 * (q.frtail.toNat % q.frsize)) (wordsBytes p) with
  | .error _ =>
    (((s.modPart part fun x => { x with ringoff := true }).hkPut 1 part p).notice).hkEvent 8 part (w64 part) 0
  | .ok s' =>
    (s'.modPart part fun x => { x with frtail := x.frtail + 1, lostMark := false }).notifySupervisor part

/-- The ring takes packets: it has a size and is not off (16 R325). -/
def Partition.ringOn (p : Partition) : Bool := p.frsize != 0 && !p.ringoff

/-- The ring is full (16 R325). -/
def Partition.ringFull (p : Partition) : Bool := (p.frtail - p.frhead).toNat = p.frsize

/-- A packet of a thread goes where 16 R325 sends it: the log for a SUPERVISE gang or without a ring, the slot while the ring is full, else the ring. -/
def State.deliverPacket (s : State) (part : Nat) (hold : Option (Nat × Nat)) (supv : Bool) (p : Packet) : State :=
  let q := s.part part
  if supv || !q.ringOn then (s.hkPut 1 part p).notice
  else if q.ringFull then
    match hold with
    | some (vt, slot) => s.modThread vt slot fun t => { t with pktHeld := some p }
    | none => s.modPart part fun x => { x with lostcnt := min (x.lostcnt + 1) 0xFFFFFFFF, lostMark := true }
  else s.writeRing part p

/-- Takes the partition's next packet number (16 R321) and counts the packet (19 R383). -/
def State.nextPacket (s : State) (part : Nat) : State × BitVec 32 :=
  (((s.modPart part fun q => { q with pktSeq := q.pktSeq + 1 }).count part 10 1), (s.part part).pktSeq)

/-- A packet that freezes nothing, named for a thread or for none (16 R322). -/
def State.packetOnly (s : State) (part : Nat) (who : Option Thread) (supv : Bool) (f : FaultInfo) (toHost : Bool) : State :=
  let (s, seq) := s.nextPacket part
  let w := match who with
    | none => (0, 0)
    | some t => s.packetWho t
  let pc := match who with
    | none => 0
    | some t => t.pc
  let p := packetWords f (packetFlags false false f.async f.fetch supv) 0 seq w pc s.clk
  if toHost then (s.hkPut 1 part p).notice else s.deliverPacket part none supv p

/-- TAKING A FAULT (16 R319-R325): the thread freezes where it stands with its PC kept, a wait ends (a queued `wq.wait` leaves its queue, 13 R260), and one packet is formed with the address `pc`. A thread that is not in RUN raises nothing (16 R320). -/
def State.freeze (s : State) (vt slot : Nat) (f : FaultInfo) (pc : Word) (body : Bool) : State :=
  let t := s.thread vt slot
  if t.st ≠ .run then s
  else
    let s := s.unlinkWq vt slot
    let part := s.partNum t
    let supv := s.hasCap t 2
    let iter := if body then (match t.rep with | none => 0 | some r => r.iter) else 0
    let (s, seq) := s.nextPacket part
    let p := packetWords f (packetFlags true body f.async f.fetch supv) iter seq (s.packetWho t) pc s.clk
    let s := s.modThread vt slot fun t =>
      { t with st := .frozen, cause := some f.cause, wait := .none, woken := none, bodyF := body, pktSeq := seq.toNat }
    s.deliverPacket part (some (vt, slot)) supv p

/-- A thread that has left RUN drops out of every `realign` that waits for it, and does not come back into it (07 R127). -/
def State.unrealign (s : State) (vt slot : Nat) : State :=
  { s with threads := s.threads.map fun (u : Thread) =>
      match u.wait with
      | .realign l => if u.vt == vt then { u with wait := .realign (l.filter fun n => n != slot) } else u
      | _ => u }

/-- A word of a signal as a mailbox entry: none where bit 63 is 0 (13 R277). -/
def Signal.ofWord (x : Word) : Option Signal :=
  if x.bit 63 then some { srank := x.field 32 16, sthr := x.field 48 2, data := x.extractLsb' 0 32 } else none

/-- The word that the debug window holds for a place of a thread that is not in use (16 R327). -/
def Thread.pokedAt (t : Thread) (o : Nat) : Option Word := (t.poked.find? fun x => x.1 == o).map (·.2)

/-- The mailbox entries written beyond a gap, in their order. -/
def Thread.pokedMail (t : Thread) : List Signal :=
  (List.range 8).filterMap fun m => (t.pokedAt (0x840 + 8 * m)).bind Signal.ofWord

/-- RETURNING FROM A FAULT (16 R331, R292): the thread goes to RUN at its PC with no budget fault pending, a packet still held is dropped and the next carries LOST, a new span of grace begins, and its code is fetched anew (log entry 35). -/
def State.resumeThread (s : State) (vt slot : Nat) : State :=
  let t := s.thread vt slot
  let s :=
    if t.pktHeld.isSome then
      s.modPart (s.partNum t) fun q => { q with lostcnt := min (q.lostcnt + 1) 0xFFFFFFFF, lostMark := true }
    else s
  (s.unrealign vt slot).modThread vt slot fun t =>
    { t with st := .run, pend := false, pktHeld := none, cause := none, bodyF := false, wait := .none,
             woken := none, spanClk := s.clk, fbuf := [], freq := none, headClk := s.clk + 1, mailbox := (t.mailbox ++ t.pokedMail).take 8, poked := [] }

/-! Issue and retirement. -/

/-- How an instruction issues: its length in bytes, its predicate and whether each lane takes its own bit of it (06 R109), the capability it needs (06 R113), whether the scalar stream issues it beside a running sequencer (07 R148), and whether it precedes a pending budget fault (15 R292). -/
structure Form where
  len  : Nat
  pred : Pred
  lane : Bool
  cap  : Option Nat
  free : Bool
  wins : Bool
  deriving DecidableEq, Repr

/-- What the body of an instruction answers: it completes with a charge, it transfers control, it waits in a state that may record an arrival, it faults, or it has taken its thread out of RUN in a state that is final. -/
inductive Res
  | done (s : State) (units bytes : Nat)
  | jump (s : State) (pc : Word) (units : Nat)
  | wait (s : State) (w : WaitKind)
  | fault (f : FaultInfo)
  | left (s : State)

/-- The sequential successor of an instruction (07 R128). -/
def nextPc (a : Word) (n : Nat) : Word :=
  let x := a + w64 n
  if x.toNat % 32 = 28 then x + 4 else x

/-- The predicate register's value: `p0` reads all ones (06 R108). -/
def Thread.preg (t : Thread) (r : PReg) : BitVec 32 := if r = 0 then BitVec.allOnes 32 else t.p[r]

/-- The predicate, inverted under PN (06 R109). -/
def Thread.predMask (t : Thread) (p : Pred) : BitVec 32 := if p.neg then ~~~ (t.preg p.reg) else t.preg p.reg

/-- The instruction that the running sequencer issues next. -/
def Thread.bodyInstr (t : Thread) : Option BodyInstr :=
  match t.rep with
  | none => none
  | some r => r.body[r.idx]?

/-- The address of the instruction at issue: the PC, or the body instruction's own address (07 R149). -/
def Thread.issuePc (t : Thread) (body : Bool) : Word :=
  if body then (match t.bodyInstr with | none => t.pc | some b => b.addr) else t.pc

/-- The word of a bundle at an offset, and the prefix before it: INFO and ADDR of a packet of cause ILLEGAL (16 R322). -/
def wordsIn (bytes : List Byte) (o : Nat) : Word × Word :=
  let at' (o : Nat) : Word := w64 (bytesNat ((bytes.drop o).take 8))
  let w := at' o
  if w.toNat % 4 = 3 then (w, at' (o + 8)) else (0, w)

/-- The words a packet of cause ILLEGAL shows for the instruction at an address: ADDR and INFO (16 R322). -/
def Thread.wordsAt (t : Thread) (pc : Word) : Word × Word :=
  match t.fbuf.find? fun b => b.addr == pc.toNat / 32 * 32 with
  | none => (0, 0)
  | some b => wordsIn b.bytes (pc.toNat % 32)

/-- An operand rule that names ILLEGAL (16 R322). -/
def State.illegal (s : State) : FaultInfo :=
  let t := s.thread s.cur.vt s.cur.slot
  let w := if s.cur.body then (match t.bodyInstr with | none => (0, 0) | some b => b.words) else t.wordsAt t.pc
  { cause := .illegal, addr := w.1, info := w.2 }

/-- The CONT CSR (15 R290). -/
def Thread.cont (t : Thread) : Word :=
  w64 (b2n t.resumed + b2n t.pend * 2 ^ 4 + b2n t.ingrace * 2 ^ 5 + t.gcause * 2 ^ 6 + t.resumes * 2 ^ 48)

/-- The queue register that an instruction pops as a source (07 R140). -/
def Instr.popped (i : Instr) : Option QReg :=
  match i with
  | .vBcastQ _ _ a => some a
  | .vLdQ _ _ _ a _ => some a
  | .vLdQLong _ _ _ a _ => some a
  | .vLdQS _ _ _ a _ _ => some a
  | .vLdQSLong _ _ _ a _ _ => some a
  | .vStQ _ _ _ a _ => some a
  | .vStQLong _ _ _ a _ => some a
  | .vStQS _ _ _ a _ _ => some a
  | .vStQSLong _ _ _ a _ _ => some a
  | .vTdecQ _ _ _ _ _ _ a => some a
  | .vTdecQLong _ _ _ _ _ _ a _ _ => some a
  | .vTencQ _ _ _ _ _ _ a => some a
  | .vTencQLong _ _ _ _ _ _ a _ _ => some a
  | .mxMmaQ _ _ _ _ _ _ c _ _ => some c
  | .mxMmaQLong _ _ _ _ _ _ c _ _ _ _ => some c
  | .mxPlaneQ _ _ _ _ c _ _ _ => some c
  | .mxPlaneQLong _ _ _ _ c _ _ _ _ _ => some c
  | .mxUnplaneQ _ _ _ _ c _ _ _ => some c
  | .mxUnplaneQLong _ _ _ _ c _ _ _ _ _ => some c
  | .mxStQ _ _ _ _ _ c _ => some c
  | .mxStQLong _ _ _ _ _ c _ _ _ => some c
  | _ => none

/-- The predicate that excludes an instruction with a queue source as a whole (06 R109): a matrix command; a vector instruction takes its predicate lane by lane. -/
def Instr.gate (i : Instr) : Option Pred :=
  match i with
  | .mxMmaQ p _ _ _ _ _ _ _ _ => some p
  | .mxMmaQLong p _ _ _ _ _ _ _ _ _ _ => some p
  | .mxPlaneQ p _ _ _ _ _ _ _ => some p
  | .mxPlaneQLong p _ _ _ _ _ _ _ _ _ => some p
  | .mxUnplaneQ p _ _ _ _ _ _ _ => some p
  | .mxUnplaneQLong p _ _ _ _ _ _ _ _ _ => some p
  | .mxStQ p _ _ _ _ _ _ => some p
  | .mxStQLong p _ _ _ _ _ _ _ _ => some p
  | _ => none

/-- The queue that an instruction pops when it issues now: none where its predicate excludes it (06 R109, 07 R140). -/
def Thread.pops (t : Thread) (i : Instr) : Option QReg :=
  (Instr.popped i).filter fun _ => match Instr.gate i with | none => true | some p => (t.predMask p).getLsbD 0

/-- A queue register has room for an entry (07 R139, R141). -/
def Thread.hasRoom (t : Thread) (n : Nat) : Bool := ((t.q.toList[n]?).getD []).length < 8

/-- The empty queue that the running sequencer waits on (07 R144, R147): its stream queue before an iteration, or its next instruction's source where no EOS ends the run first. -/
def Thread.starved (t : Thread) : Option QReg :=
  match t.rep with
  | none => none
  | some r =>
    let test := if r.idx = 0 ∧ !r.tested then r.stream else none
    let src := match r.body[r.idx]? with
      | none => none
      | some b => t.pops b.ins
    match test with
    | some q =>
      (match t.q[q] with
       | [] => some q
       | .eos :: _ => none
       | .val _ :: _ => src.filter fun x => t.q[x].isEmpty)
    | none => src.filter fun x => t.q[x].isEmpty

/-- The sequencer moves past the instruction it has issued (07 R147). -/
def Thread.advanceBody (t : Thread) : Thread :=
  match t.rep with
  | none => t
  | some r =>
    if r.idx + 1 < r.body.length then { t with rep := some { r with idx := r.idx + 1 } }
    else if r.iter + 1 < r.count then
      { t with rep := some { r with idx := 0, iter := r.iter + 1, tested := false, rot := (r.rot + 1) % max 1 r.wsize } }
    else { t with rep := none }

/-- The instruction retires: the thread moves past it and waits no more. -/
def Thread.retire (t : Thread) (body : Bool) (pc : Word) : Thread :=
  if body then t.advanceBody else { t with pc := pc, wait := .none, woken := none }

/-- A wait begins or goes on; the clk of its beginning is kept. -/
def Thread.setWait (t : Thread) (w : WaitKind) (clk : Nat) : Thread :=
  if t.wait = w then t else { t with wait := w, since := clk }

/-- The scalar stream waits: it does so, or the thread is deadlocked against its own sequencer and faults QUEUE (07 R144). INFO names the queue that the scalar stream's instruction waits for: the full one of a push, also where the body waits on another (log entry 15). -/
def State.scalarWait (s : State) (w : WaitKind) : State :=
  let t := s.thread s.cur.vt s.cur.slot
  let q : Option Nat :=
    match w, t.starved with
    | .stall 11, some e => some e.val
    | .push f, some e => if f = e.val then none else some f
    | _, _ => none
  match q with
  | some n => s.freeze s.cur.vt s.cur.slot { cause := .queue, info := w64 n } t.pc false
  | none => s.modCur fun t => t.setWait w s.clk

/-- The sequencer waits: nothing changes, or the thread is deadlocked and faults QUEUE at the scalar stream's waiting instruction (07 R144); a push whose queue has room again waits no more. -/
def State.bodyWait (s : State) : State :=
  let t := s.thread s.cur.vt s.cur.slot
  let q : Option Nat :=
    match t.wait, t.starved with
    | .stall 11, some e => some e.val
    | .push f, some e => if f = e.val || t.hasRoom f then none else some f
    | _, _ => none
  match q with
  | some n => s.freeze s.cur.vt s.cur.slot { cause := .queue, info := w64 n } t.pc false
  | none => s

/-- What an instruction's answer makes of the state. -/
def State.finish (s : State) (f : Form) (pc : Word) (r : Res) : State :=
  match r with
  | .done s' u b => (s'.charge s.cur.vt s.cur.slot u b).modCur fun t => t.retire s.cur.body (nextPc pc f.len)
  | .jump s' t u => (s'.charge s.cur.vt s.cur.slot u 0).modCur fun x => x.retire s.cur.body t
  | .wait s' w => if s.cur.body then s'.bodyWait else s'.scalarWait w
  | .fault i => s.freeze s.cur.vt s.cur.slot i pc s.cur.body
  | .left s' => s'

/-- ISSUE (06 R113, R109, 07 R148, 15 R292, 11 R240): a thread not in RUN issues nothing; a pending budget fault precedes every check; an asynchronous fault with no handle freezes at the next instruction; the scalar stream waits for a running sequencer; the capability, then the predicate, then the instruction's own checks. -/
def State.issue (s : State) (f : Form) (body : State → Thread → Res) : Out :=
  match s.curThread? with
  | none => .fault .noThread
  | some t =>
    let pc := t.issuePc s.cur.body
    .next <|
      if t.st ≠ .run then s
      else if t.pend && !f.wins then
        s.freeze t.vt t.slot { cause := .budget, info := t.cont } pc s.cur.body
      else
        match t.asyncF with
        | some a => (s.modCur fun t => { t with asyncF := none }).freeze t.vt t.slot a pc s.cur.body
        | none =>
          if !s.cur.body && t.rep.isSome && !f.free then s.scalarWait (.stall 11)
          else
            match f.cap.filter fun c => !s.hasCap t c with
            | some c => s.freeze t.vt t.slot { cause := .capability, info := w64 c } pc s.cur.body
            | none =>
              if !f.lane && !(t.predMask f.pred).getLsbD 0 then s.finish f pc (.done s 1 0)
              else s.finish f pc (body s t)

/-- An instruction of OPC 0x00-0x08, 0xA8 or 0xA9 that issues beside a running sequencer (07 R148). -/
def Form.beside (len : Nat) (p : Pred) : Form :=
  { len := len, pred := p, lane := false, cap := none, free := true, wins := false }

/-- A scalar instruction of OPC 0x20-0x2C: beside a running sequencer it issues only where it names no predicate register but `p0`; `named` lists its predicate operands (07 R148). -/
def Form.scalar (len : Nat) (p : Pred) (named : List PReg) : Form :=
  { len := len, pred := p, lane := false, cap := none,
    free := p.reg == 0 && named.all fun r => r == 0, wins := false }

/-- An instruction that waits for a running sequencer (07 R148). -/
def Form.blocked (len : Nat) (p : Pred) : Form :=
  { len := len, pred := p, lane := false, cap := none, free := false, wins := false }

/-- A lane-wise vector instruction (06 R109). -/
def Form.lanes (len : Nat) (p : Pred) : Form :=
  { len := len, pred := p, lane := true, cap := none, free := false, wins := false }

end Sys2Proof.Machine
end

