-- ==== Sys2Proof/Machine/Flags.lean ====
section
/-! DEFINITION. FFLAGS and the flag rules: each flag is ORed in at retirement (02 R48, R49), and the saturations of 08 R158 and 09 R178 set SATURATE. -/

namespace Sys2Proof.Machine

/-- A set of FFLAGS bits (02 R48). -/
abbrev FFlags := BitVec 6

def flagInexact : FFlags := 1
def flagUnderflow : FFlags := 2
def flagOverflow : FFlags := 4
def flagDivzero : FFlags := 8
def flagInvalid : FFlags := 16
def flagSaturate : FFlags := 32

/-- A flag where a condition holds. -/
def flagIf (c : Bool) (f : FFlags) : FFlags := if c then f else 0

/-- ORs flags into FFLAGS (02 R49). -/
def Thread.orFlags (t : Thread) (f : FFlags) : Thread := { t with fflags := t.fflags ||| f }

/-- A value clamped into a range, with SATURATE where the clamp acts (00 R10). -/
def clamp (x lo hi : Int) : Int × FFlags :=
  if x < lo then (lo, flagSaturate) else if x > hi then (hi, flagSaturate) else (x, 0)

/-- `saturate` into `w` signed bits. -/
def clampS (w : Nat) (x : Int) : Int × FFlags := clamp x (-(2 ^ (w - 1) : Nat)) ((2 ^ (w - 1) : Nat) - 1)

/-- `saturate` into `w` unsigned bits. -/
def clampU (w : Nat) (x : Int) : Int × FFlags := clamp x 0 ((2 ^ w : Nat) - 1)

end Sys2Proof.Machine
end

