-- ==== Sys2Proof/Machine/Operands.lean ====
section
/-! DEFINITION. The operands of an instruction: scalar registers as read at issue or as captured by a repetition buffer, vector registers through its rotating window, predicates, immediates, displacements and queue sources (06 R108-R112, 07 R140, R146, R147, 08 R155, 09 R189). -/

namespace Sys2Proof.Machine

/-- A scalar register: `s0` reads zero (06 R108); a body instruction reads the value captured at its `rep` (07 R146). -/
def Thread.sreg (t : Thread) (body : Bool) (r : SReg) : Word :=
  if r = 0 then 0
  else if body then (match t.rep with | none => t.s[r] | some x => x.sregs[r])
  else t.s[r]

/-- Writes a scalar register; a write to `s0` is discarded (06 R108). -/
def Thread.setS (t : Thread) (r : SReg) (x : Word) : Thread := if r = 0 then t else { t with s := t.s.set r x }

/-- Writes a predicate register; a write to `p0` is discarded (06 R108). -/
def Thread.setP (t : Thread) (r : PReg) (x : BitVec 32) : Thread := if r = 0 then t else { t with p := t.p.set r x }

/-- The physical register that a vector name means at a rotation offset, which is the iteration's number modulo the window's size (07 R147). -/
def rotateName (wbase wsize rot n : Nat) : Nat :=
  if wsize ≤ 1 ∨ n < wbase ∨ wbase + wsize ≤ n then n
  else wbase + (n - wbase + (wsize - rot % wsize)) % wsize

/-- The vector register a name means for this issue (07 R147). -/
def Thread.vname (t : Thread) (body : Bool) (r : VReg) : VReg :=
  if body then
    match t.rep with
    | none => r
    | some x => ⟨rotateName x.wbase x.wsize x.rot r.val % 32, Nat.mod_lt _ (by decide)⟩
  else r

/-- The lanes of a vector register. -/
def Thread.vreg (t : Thread) (body : Bool) (r : VReg) : Vector Lane 32 := t.v[t.vname body r]

/-- Writes the active lanes of a vector register; the others keep their values (06 R109). -/
def Thread.setV (t : Thread) (body : Bool) (r : VReg) (mask : BitVec 32) (f : Fin 32 → Lane) : Thread :=
  let k := t.vname body r
  { t with v := t.v.set k (Vector.ofFn fun i => if mask.getLsbD i.val then f i else (t.v[k])[i]) }

/-- IMM16 sign-extended (08 R155). -/
def imm16 (i : BitVec 16) : Word := i.signExtend 64
/-- IMM32 sign-extended (08 R155). -/
def imm32 (i : BitVec 32) : Word := i.signExtend 64
/-- A signed 24-bit displacement (11 R228, 13 R259). -/
def imm24 (i : BitVec 24) : Word := i.signExtend 64

/-- The displacement of a P instruction: IMM16, or 32 bits under a prefix with XEN (06 R111). -/
def dispOf (px : Option Prefix) (d : BitVec 16) : Word :=
  match px with
  | some q => (match q.dhi with | some hi => (hi ++ d : BitVec 32).signExtend 64 | none => d.signExtend 64)
  | none => d.signExtend 64

/-- The length of a P instruction with or without its prefix (06 R112). -/
def plen (px : Option Prefix) (n : Nat) : Nat := if px.isSome then 8 + n else n

/-- The eviction priority of a stash access: the prefix's, or MEMCTL's (06 R111, 11 R221). -/
def evictOf (t : Thread) (px : Option Prefix) : BitVec 3 :=
  match px with
  | some q => q.evict.getD (t.memctl.extractLsb' 0 3)
  | none => t.memctl.extractLsb' 0 3

/-- The target of a direct transfer (07 R128). -/
def target (pc : Word) (off : Word) : Word := pc + 4 * off

/-- The entry that an instruction pops as a source (07 R140): a value, nothing yet, or EOS. -/
inductive Pop
  | value (w : Word) (t : Thread)
  | empty
  | eos

/-- Pops the head of a queue register. -/
def Thread.pop (t : Thread) (q : QReg) : Pop :=
  match t.q[q] with
  | [] => .empty
  | .eos :: _ => .eos
  | .val w :: r => .value w { t with q := t.q.set q r }

/-- The fault of an EOS met as a source, or of an empty queue read by `q.pop` (07 R140, R142). -/
def queueFault (q : QReg) : FaultInfo := { cause := .queue, info := w64 q.val }

/-- An instruction that only changes the thread: `f` gives the thread after it, charged `u` units. -/
def State.onThread (s : State) (f : Form) (u : Nat) (g : Thread → Thread) : Out :=
  s.issue f fun s _ => .done (s.modCur g) u 0

/-- A scalar instruction with one result (08 R156): charged 1 unit, writing `d` and ORing flags. -/
def State.scalar (s : State) (f : Form) (d : SReg) (g : Thread → Word × FFlags) : Out :=
  s.onThread f 1 fun t => (t.setS d (g t).1).orFlags (g t).2

/-- A vector instruction on the active lanes, counted among the partition's vector issues where it completes (06 R109, 19 R383). -/
def State.vector (s : State) (f : Form) (g : State → Thread → Bool → BitVec 32 → Res) : Out :=
  s.issue f fun s t =>
    match g s t s.cur.body (t.predMask f.pred) with
    | .done s' u b => .done (s'.count (s.partNum t) 3 1) u b
    | r => r

/-- A lane-wise result: each active lane of `d` gets `g`, flags of the active lanes are ORed. -/
def lanesOr (mask : BitVec 32) (g : Fin 32 → FFlags) : FFlags :=
  (List.finRange 32).foldl (fun a i => if mask.getLsbD i.val then a ||| g i else a) 0

end Sys2Proof.Machine
end

