-- ==== Sys2Proof/Machine/Handles.lean ====
section
/-! DEFINITION. Future handles (11 R240) and the engine work of a thread that `halt`, `cont` and `step` wait for (07 R132, 10 R196). -/

namespace Sys2Proof.Machine

/-- The value a FAULT handle holds (11 R240). -/
def faultValue (f : FaultInfo) : BitVec 60 :=
  BitVec.ofNat 60 (f.cause.code + (f.sub % 16) * 2 ^ 8 + (f.addr.toNat % 2 ^ 48) * 2 ^ 12)

/-- The fault a FAULT handle gives when an instruction meets it (11 R240). -/
def handleFault (k : Nat) (v : BitVec 60) (kind : AccKind) (tidn : Nat) : FaultInfo :=
  { cause := Cause.ofCode (v.toNat % 256), sub := v.toNat / 256 % 16, addr := w64 (v.toNat / 4096),
    info := w64 k, kind := kind, tidn := tidn, async := true }

/-- The fault of the lowest-numbered handle that holds FAULT. -/
def Thread.handleFault? (t : Thread) : Option FaultInfo :=
  (List.finRange 16).findSome? fun k =>
    match t.h[k] with
    | .complete .fault v kind n => some (handleFault k.val v kind n)
    | _ => none

/-- A handle is PENDING on something other than a deferred copy (11 R240). -/
def Thread.pendingHandle (t : Thread) : Bool :=
  (List.finRange 16).any fun k =>
    match t.h[k] with
    | .pending _ false => true
    | _ => false

/-- A matrix command of the thread is queued or running (10 R196). -/
def State.mxBusy (s : State) (t : Thread) : Bool := (s.core t.vt t.cslot).mxq.any fun c => c.slot == t.slot && c.gang == t.gang

/-- A copy of the thread waits in its tile's queue or runs. -/
def State.copyBusy (s : State) (t : Thread) : Bool :=
  match s.vtile? t.vt with
  | none => false
  | some v => v.copies.any fun c => c.slot == t.slot && c.gang == t.gang

/-- A stash entry of the thread fills or drains. -/
def State.stashBusy (s : State) (t : Thread) : Bool :=
  (s.core t.vt t.cslot).stash.any fun e => e.owner == t.slot && (e.st == .filling || e.st == .draining)

/-- A query of the thread waits at a work distributor; operation 32 of a memory-side operation is `wd.ask`. -/
def State.askBusy (s : State) (t : Thread) : Bool :=
  s.memOps.any fun m => m.vt == t.vt && m.slot == t.slot && m.gang == t.gang && m.op == 32

/-- An engine command of the thread other than a deferred copy has neither completed nor been cancelled (07 R132). -/
def State.engineBusy (s : State) (t : Thread) : Bool :=
  s.mxBusy t || s.copyBusy t || s.stashBusy t || s.askBusy t || t.pendingHandle

/-- A fresh number for a command. -/
def State.newCmd (s : State) : State × Nat := ({ s with nextCmd := s.nextCmd + 1 }, s.nextCmd)

/-- Every handle of a core that waits for a command completes; a handle may have been passed to another thread of the core (11 R241). -/
def completeHandles (h : Vector Handle 16) (cmd : Nat) (st : HStatus) (val : BitVec 60) (kind : AccKind) (tidn : Nat) : Vector Handle 16 :=
  h.map fun x =>
    match x with
    | .pending c _ => if c = cmd then .complete st val kind tidn else x
    | y => y

/-- Some handle of the core waits for the command. -/
def State.handleWaits (s : State) (vt cs cmd : Nat) : Bool :=
  s.threads.any fun t => t.vt == vt && t.cslot == cs && t.h.toList.any fun x =>
    match x with
    | .pending c _ => c == cmd
    | _ => false

/-- Completes the handle of a command on a core. -/
def State.completeCmd (s : State) (vt cs cmd : Nat) (st : HStatus) (val : BitVec 60) (kind : AccKind) (tidn : Nat := 0) : State :=
  { s with threads := s.threads.map fun t =>
      if t.vt == vt && t.cslot == cs then { t with h := completeHandles t.h cmd st val kind tidn } else t }

/-- A command of a thread completed FAULT with no handle named: the thread freezes at its next instruction, or at once where it waits or sleeps (11 R240). -/
def State.asyncFault (s : State) (vt slot : Nat) (f : FaultInfo) : State :=
  let f := { f with async := true, info := 0xFF }
  let t := s.thread vt slot
  if t.st == .run && t.wait != .none then s.freeze vt slot f t.pc false
  else s.modThread vt slot fun t => if t.asyncF.isNone then { t with asyncF := some f } else t

/-- What a command's handle is at issue: free, PENDING (the command waits), or holding FAULT (the command faults) (11 R240). -/
inductive HandleUse
  | free
  | wait
  | fault (f : FaultInfo)

/-- The check of a handle that a command names. -/
def Thread.useHandle (t : Thread) (h : Option HReg) : HandleUse :=
  match h with
  | none => .free
  | some k =>
    match t.h[k] with
    | .pending _ _ => .wait
    | .complete .fault v kind n => .fault (handleFault k.val v kind n)
    | _ => .free

/-- Sets a handle. -/
def Thread.setH (t : Thread) (h : Option HReg) (x : Handle) : Thread :=
  match h with
  | none => t
  | some k => { t with h := t.h.set k x }

end Sys2Proof.Machine
end

