-- ==== Sys2Proof/WellFormed.lean ====
section
/-! DEFINITION. Which instructions have an encoding: the ranges and field values that the rows of the encoding tables admit (06 R108-R113 and the encoding rule of each chapter). An event row has no encoding, so nothing is asked of it. -/

namespace Sys2Proof

/-- PR = 0 with PN = 1 is a predicate misuse (06 R109). -/
def Pred.wf (p : Pred) : Bool := !(p.reg == 0 && p.neg)

/-- SCOPE 7 is no scope (06 R110). -/
def Attr.wf (a : Attr) : Bool := a.scope != 7

/-- A `fence` needs an ordering and has no eviction priority (13 R259). -/
def Attr.fenceWf (a : Attr) : Bool := a.scope != 7 && a.ord != 0 && a.evict == 0

/-- A prefix's scope is not 7, and XEN stands only before the 64-bit forms of 06 R112. -/
def prefixWf (px : Option Prefix) (xen : Bool) : Bool :=
  match px with
  | none => true
  | some q => q.scope != some 7 && (xen || q.dhi.isNone)

/-- The bits of an element (09 R178). -/
def VWidth.bits : VWidth → Nat
  | .e32 => 32
  | .e16 => 16
  | .e8 => 8

/-- The window of a `rep` (07 R145). -/
def RepShape.wf (r : RepShape) : Bool :=
  r.wbase.val + r.wsize.val ≤ 32 && (r.wsize != 0 || r.wbase == 0)

/-- The element width in bits of a format that `v.cvt` accepts, and 0 for one it does not (09 R186). -/
def cvtBits (fmt : Nat) : Nat :=
  match fmt with
  | 0 => 32 | 3 => 32
  | 1 => 16 | 2 => 16 | 26 => 16
  | 4 => 8 | 5 => 8 | 21 => 8 | 22 => 8
  | 6 => 6 | 7 => 6
  | 8 => 4 | 23 => 4 | 24 => 4
  | 25 => 2 | 29 => 2
  | 27 => 1 | 28 => 1
  | _ => 0

/-- FMT is no block format and K names a slice of the register (09 R186). -/
def cvtWf (fmt k : Nat) : Bool := cvtBits fmt != 0 && k < 32 / cvtBits fmt

/-- The allocated CSR numbers (06 R115). -/
def csrAllocated (n : Nat) : Bool :=
  [0x000, 0x001, 0x002, 0x003, 0x004, 0x005, 0x008, 0x009, 0x010, 0x011, 0x012, 0x013, 0x014, 0x015,
   0x020, 0x021, 0x022, 0x023, 0x024, 0x028, 0x030, 0x031].contains n

/-- The lengths of a copy command (11 R235). -/
def copyLenWf (len : Nat) : Bool := len != 0 && len % 4 == 0 && len ≤ 458752

/-- The instruction has an encoding. -/
def Instr.wf (i : Instr) : Bool :=
  match i with
  | .deviceReset _ _ => true
  | .nop => true
  | .pad => true
  | .br p _ => p.wf
  | .brLong p _ => p.wf
  | .brReg p _ => p.wf
  | .brC p _ _ _ _ => p.wf
  | .brCLong p _ _ _ _ => p.wf
  | .brCImm p _ _ _ _ => p.wf
  | .call p _ _ => p.wf
  | .callLong p _ _ => p.wf
  | .callReg p _ _ => p.wf
  | .ret p _ => p.wf
  | .halt p => p.wf
  | .realign p _ => p.wf
  | .realignResume _ _ => true
  | .loop p _ off => p.wf && decide (8 ≤ 4 * off.toInt)
  | .loopImm p off _ => p.wf && decide (12 ≤ 4 * off.toInt)
  | .loopEnd p => p.wf
  | .rep p _ sh => p.wf && sh.wf
  | .repImm p _ sh => p.wf && sh.wf
  | .qPush p _ _ => p.wf
  | .qEos p _ => p.wf
  | .qPop p _ _ => p.wf
  | .qPeek p _ _ => p.wf
  | .qTest p _ _ => p.wf
  | .fetchRequestServe _ => true
  | .add p _ _ _ _ => p.wf
  | .sub p _ _ _ _ => p.wf
  | .addImm p _ _ _ _ => p.wf
  | .addImmLong p _ _ _ _ => p.wf
  | .subImm p _ _ _ _ => p.wf
  | .subImmLong p _ _ _ _ => p.wf
  | .mul p _ _ _ _ => p.wf
  | .mulh p _ _ _ _ => p.wf
  | .div p _ _ _ _ => p.wf
  | .divU p _ _ _ _ => p.wf
  | .rem p _ _ _ _ => p.wf
  | .remU p _ _ _ _ => p.wf
  | .min p _ _ _ => p.wf
  | .max p _ _ _ => p.wf
  | .minU p _ _ _ => p.wf
  | .maxU p _ _ _ => p.wf
  | .abs p _ _ _ => p.wf
  | .neg p _ _ _ => p.wf
  | .and p _ _ _ => p.wf
  | .or p _ _ _ => p.wf
  | .xor p _ _ _ => p.wf
  | .andn p _ _ _ => p.wf
  | .not p _ _ => p.wf
  | .andImm p _ _ _ => p.wf
  | .andImmLong p _ _ _ => p.wf
  | .orImm p _ _ _ => p.wf
  | .orImmLong p _ _ _ => p.wf
  | .xorImm p _ _ _ => p.wf
  | .xorImmLong p _ _ _ => p.wf
  | .shl p _ _ _ _ => p.wf
  | .shlImm p w _ _ n => p.wf && (!w || n.toNat < 32)
  | .shr p _ _ _ _ => p.wf
  | .shrImm p w _ _ n => p.wf && (!w || n.toNat < 32)
  | .sar p _ _ _ _ => p.wf
  | .sarImm p w _ _ n => p.wf && (!w || n.toNat < 32)
  | .rot p _ _ _ _ => p.wf
  | .rotImm p w _ _ n => p.wf && (!w || n.toNat < 32)
  | .cmpP p _ _ _ _ => p.wf
  | .cmpPImm p _ _ _ _ => p.wf
  | .cmpPImmLong p _ _ _ _ => p.wf
  | .cmpS p _ _ _ _ => p.wf
  | .cmpSImm p _ _ _ _ => p.wf
  | .cmpSImmLong p _ _ _ _ => p.wf
  | .selP p _ _ _ _ => p.wf
  | .selS p _ _ _ _ => p.wf
  | .bfX p _ _ _ pos lenm1 => p.wf && pos.toNat + lenm1.toNat < 64
  | .bfI p _ _ pos lenm1 => p.wf && pos.toNat + lenm1.toNat < 64
  | .clz p _ _ _ => p.wf
  | .ctz p _ _ _ => p.wf
  | .popc p _ _ _ => p.wf
  | .lea p _ _ _ _ _ => p.wf
  | .leaLong p _ _ _ _ _ => p.wf
  | .leaPc p _ _ => p.wf
  | .li p _ _ => p.wf
  | .liLong p _ _ => p.wf
  | .pAnd p _ _ _ => p.wf
  | .pOr p _ _ _ => p.wf
  | .pXor p _ _ _ => p.wf
  | .pNot p _ _ => p.wf
  | .pMov p _ _ => p.wf
  | .pMovFromScalar p _ _ => p.wf
  | .pMovToScalar p _ _ => p.wf
  | .csrRd p _ n => p.wf && csrAllocated n.toNat
  | .csrWr p _ _ n => p.wf && csrAllocated n.toNat
  | .csrSet p _ _ n => p.wf && csrAllocated n.toNat
  | .csrClr p _ _ n => p.wf && csrAllocated n.toNat
  | .vAdd p _ _ _ _ _ => p.wf
  | .vSub p _ _ _ _ _ => p.wf
  | .vMul p _ _ _ _ _ => p.wf
  | .vMulh p _ m _ _ _ => p.wf && m != .ss
  | .vMac p _ _ _ _ _ => p.wf
  | .vMin p _ m _ _ _ => p.wf && m != .ss
  | .vMax p _ m _ _ _ => p.wf && m != .ss
  | .vAbs p _ m _ _ => p.wf && m != .us
  | .vNeg p _ m _ _ => p.wf && m != .us
  | .vAddScalar p _ _ _ _ _ => p.wf
  | .vSubScalar p _ _ _ _ _ => p.wf
  | .vMulScalar p _ _ _ _ _ => p.wf
  | .vMulhScalar p _ m _ _ _ => p.wf && m != .ss
  | .vMacScalar p _ _ _ _ _ => p.wf
  | .vMinScalar p _ m _ _ _ => p.wf && m != .ss
  | .vMaxScalar p _ m _ _ _ => p.wf && m != .ss
  | .vAddImm p _ _ _ _ _ => p.wf
  | .vAddImmLong p _ _ _ _ _ => p.wf
  | .vSubImm p _ _ _ _ _ => p.wf
  | .vSubImmLong p _ _ _ _ _ => p.wf
  | .vMulImm p _ _ _ _ _ => p.wf
  | .vMulImmLong p _ _ _ _ _ => p.wf
  | .vMinImm p _ m _ _ _ => p.wf && m != .ss
  | .vMinImmLong p _ m _ _ _ => p.wf && m != .ss
  | .vMaxImm p _ m _ _ _ => p.wf && m != .ss
  | .vMaxImmLong p _ m _ _ _ => p.wf && m != .ss
  | .vAnd p _ _ _ => p.wf
  | .vOr p _ _ _ => p.wf
  | .vXor p _ _ _ => p.wf
  | .vAndn p _ _ _ => p.wf
  | .vNot p _ _ => p.wf
  | .vShl p _ _ _ _ => p.wf
  | .vShlImm p e _ _ n => p.wf && n.toNat < e.bits
  | .vShr p _ _ _ _ => p.wf
  | .vShrImm p e _ _ n => p.wf && n.toNat < e.bits
  | .vSar p _ _ _ _ => p.wf
  | .vSarImm p e _ _ n => p.wf && n.toNat < e.bits
  | .vRot p _ _ _ _ => p.wf
  | .vRotImm p e _ _ n => p.wf && n.toNat < e.bits
  | .vClz p _ _ _ => p.wf
  | .vPopc p _ _ _ => p.wf
  | .vFadd p _ _ _ _ => p.wf
  | .vFsub p _ _ _ _ => p.wf
  | .vFmul p _ _ _ _ => p.wf
  | .vFmin p _ _ _ => p.wf
  | .vFmax p _ _ _ => p.wf
  | .vFaddScalar p _ _ _ _ => p.wf
  | .vFsubScalar p _ _ _ _ => p.wf
  | .vFmulScalar p _ _ _ _ => p.wf
  | .vFminScalar p _ _ _ => p.wf
  | .vFmaxScalar p _ _ _ => p.wf
  | .vFma p _ _ _ _ _ => p.wf
  | .vFms p _ _ _ _ _ => p.wf
  | .vFnma p _ _ _ _ _ => p.wf
  | .vFdiv p _ _ _ _ => p.wf
  | .vFsqrt p _ _ _ => p.wf
  | .vFrcp p _ _ _ => p.wf
  | .vFrsq p _ _ _ => p.wf
  | .vFabs p _ _ => p.wf
  | .vFneg p _ _ => p.wf
  | .vFcopysign p _ _ _ => p.wf
  | .vFclass p _ _ => p.wf
  | .vFscale p _ _ _ _ => p.wf
  | .vFround p _ _ _ => p.wf
  | .vCmp p _ _ _ _ => p.wf
  | .vCmpScalar p _ _ _ _ => p.wf
  | .vFcmp p _ _ _ _ => p.wf
  | .vFcmpScalar p _ _ _ _ => p.wf
  | .vPerm p _ _ _ => p.wf
  | .vPerm2 p _ _ _ _ => p.wf
  | .vShuf p k _ _ b => p.wf && ((k != .rev && k != .swap) || b == 0)
  | .vBcast p _ _ => p.wf
  | .vBcastLane p _ _ _ => p.wf
  | .vBcastImm p _ _ => p.wf
  | .vBcastQ p _ _ => p.wf
  | .vSlide p _ _ _ _ => p.wf
  | .vMov p _ _ => p.wf
  | .vSel p _ _ _ _ => p.wf
  | .vMovToLane p _ _ _ => p.wf
  | .vMovFromLane p _ _ _ => p.wf
  | .vRedAdd p _ _ _ => p.wf
  | .vRedMin p m _ _ => p.wf && m != .ss
  | .vRedMax p m _ _ => p.wf && m != .ss
  | .vRedAnd p _ _ => p.wf
  | .vRedOr p _ _ => p.wf
  | .vRedXor p _ _ => p.wf
  | .vRedFadd p _ _ _ => p.wf
  | .vRedFmin p _ _ => p.wf
  | .vRedFmax p _ _ => p.wf
  | .vScanAdd p _ _ _ => p.wf
  | .vScanMin p m _ _ => p.wf && m != .ss
  | .vScanMax p m _ _ => p.wf && m != .ss
  | .vScanXadd p _ _ _ => p.wf
  | .vScanFadd p _ _ _ => p.wf
  | .vScanFmin p _ _ => p.wf
  | .vScanFmax p _ _ => p.wf
  | .vCvtN p _ _ _ _ fmt k => p.wf && cvtWf fmt.toNat k.toNat
  | .vCvtW p _ _ _ _ fmt k => p.wf && cvtWf fmt.toNat k.toNat
  | .vLd p px _ _ _ => p.wf && prefixWf px true
  | .vLdLong p px _ _ _ => p.wf && prefixWf px false
  | .vLdS p px _ _ _ _ => p.wf && prefixWf px true
  | .vLdSLong p px _ _ _ _ => p.wf && prefixWf px false
  | .vSt p px _ _ _ => p.wf && prefixWf px true
  | .vStLong p px _ _ _ => p.wf && prefixWf px false
  | .vStS p px _ _ _ _ => p.wf && prefixWf px true
  | .vStSLong p px _ _ _ _ => p.wf && prefixWf px false
  | .vLdQ p px _ _ _ => p.wf && prefixWf px true
  | .vLdQLong p px _ _ _ => p.wf && prefixWf px false
  | .vLdQS p px _ _ _ _ => p.wf && prefixWf px true
  | .vLdQSLong p px _ _ _ _ => p.wf && prefixWf px false
  | .vStQ p px _ _ _ => p.wf && prefixWf px true
  | .vStQLong p px _ _ _ => p.wf && prefixWf px false
  | .vStQS p px _ _ _ _ => p.wf && prefixWf px true
  | .vStQSLong p px _ _ _ _ => p.wf && prefixWf px false
  | .vGath p px _ _ _ _ _ => p.wf && prefixWf px true
  | .vScat p px _ _ _ _ _ => p.wf && prefixWf px true
  | .vTdec p px _ _ _ _ _ => p.wf && prefixWf px false
  | .vTdecLong p px _ _ _ _ _ _ _ => p.wf && prefixWf px false
  | .vTdecQ p px _ _ _ _ _ => p.wf && prefixWf px false
  | .vTdecQLong p px _ _ _ _ _ _ _ => p.wf && prefixWf px false
  | .vTenc p px _ _ _ _ _ => p.wf && prefixWf px false
  | .vTencLong p px _ _ _ _ _ _ _ => p.wf && prefixWf px false
  | .vTencQ p px _ _ _ _ _ => p.wf && prefixWf px false
  | .vTencQLong p px _ _ _ _ _ _ _ => p.wf && prefixWf px false
  | .mxMma p _ _ _ _ _ _ _ _ => p.wf
  | .mxMmaLong p _ _ _ _ _ _ _ _ _ _ => p.wf
  | .mxMmaQ p _ _ _ _ _ _ _ _ => p.wf
  | .mxMmaQLong p _ _ _ _ _ _ _ _ _ _ => p.wf
  | .mxPlane p _ _ _ _ _ _ _ => p.wf
  | .mxPlaneLong p _ _ _ _ _ _ _ _ _ => p.wf
  | .mxPlaneQ p _ _ _ _ _ _ _ => p.wf
  | .mxPlaneQLong p _ _ _ _ _ _ _ _ _ => p.wf
  | .mxUnplane p _ _ _ _ _ _ _ => p.wf
  | .mxUnplaneLong p _ _ _ _ _ _ _ _ _ => p.wf
  | .mxUnplaneQ p _ _ _ _ _ _ _ => p.wf
  | .mxUnplaneQLong p _ _ _ _ _ _ _ _ _ => p.wf
  | .mxSt p _ _ _ _ _ _ => p.wf
  | .mxStLong p _ _ _ _ _ _ _ _ => p.wf
  | .mxStQ p _ _ _ _ _ _ => p.wf
  | .mxStQLong p _ _ _ _ _ _ _ _ => p.wf
  | .mxLd p _ _ _ _ => p.wf
  | .mxZero p _ _ => p.wf
  | .mxMask p _ => p.wf
  | .mxMaskImm p _ _ _ => p.wf
  | .mxMovToVector p _ _ _ => p.wf
  | .mxMovToAcc p _ _ _ => p.wf
  | .mxScr p _ => p.wf
  | .mxScrInj p _ => p.wf
  | .mxCommandStart _ _ => true
  | .mxCommandComplete _ _ => true
  | .ldB p px _ _ _ => p.wf && prefixWf px true
  | .ldH p px _ _ _ => p.wf && prefixWf px true
  | .ldW p px _ _ _ => p.wf && prefixWf px true
  | .ldD p px _ _ _ => p.wf && prefixWf px true
  | .ldBs p px _ _ _ => p.wf && prefixWf px true
  | .ldHs p px _ _ _ => p.wf && prefixWf px true
  | .ldWs p px _ _ _ => p.wf && prefixWf px true
  | .stB p px _ _ _ => p.wf && prefixWf px true
  | .stH p px _ _ _ => p.wf && prefixWf px true
  | .stW p px _ _ _ => p.wf && prefixWf px true
  | .stD p px _ _ _ => p.wf && prefixWf px true
  | .gldB p at' _ _ _ => p.wf && at'.wf
  | .gldH p at' _ _ _ => p.wf && at'.wf
  | .gldW p at' _ _ _ => p.wf && at'.wf
  | .gldD p at' _ _ _ => p.wf && at'.wf
  | .gldBs p at' _ _ _ => p.wf && at'.wf
  | .gldHs p at' _ _ _ => p.wf && at'.wf
  | .gldWs p at' _ _ _ => p.wf && at'.wf
  | .gstB p at' _ _ _ => p.wf && at'.wf
  | .gstH p at' _ _ _ => p.wf && at'.wf
  | .gstW p at' _ _ _ => p.wf && at'.wf
  | .gstD p at' _ _ _ => p.wf && at'.wf
  | .staMap p px _ _ _ _ _ => p.wf && prefixWf px false
  | .staMapLong p px _ _ _ _ _ _ => p.wf && prefixWf px false
  | .staFill p px _ _ => p.wf && prefixWf px false
  | .staDrop p px _ _ => p.wf && prefixWf px false
  | .staWb p px _ _ => p.wf && prefixWf px false
  | .staTest p px _ _ => p.wf && prefixWf px false
  | .stashFillComplete _ _ _ => true
  | .stashWritebackComplete _ _ _ => true
  | .stFarB p at' _ _ _ => p.wf && at'.wf
  | .stFarH p at' _ _ _ => p.wf && at'.wf
  | .stFarW p at' _ _ _ => p.wf && at'.wf
  | .stFarD p at' _ _ _ => p.wf && at'.wf
  | .cpGet p at' _ _ len _ => p.wf && at'.wf && copyLenWf len.toNat
  | .cpGetMc p at' _ _ len cmask _ => p.wf && at'.wf && copyLenWf len.toNat && cmask != 0
  | .cpPut p at' _ _ len _ => p.wf && at'.wf && copyLenWf len.toNat
  | .cpDeferGet p at' _ _ len _ => p.wf && at'.wf && copyLenWf len.toNat
  | .cpDeferPut p at' _ _ len _ => p.wf && at'.wf && copyLenWf len.toNat
  | .cpCvt p at' _ _ _ _ n0 n1 _ => p.wf && at'.wf && n0 != 0 && n1 != 0
  | .copyComplete _ _ => true
  | .futWait p _ _ => p.wf
  | .futTest p _ _ => p.wf
  | .futPass p _ _ _ => p.wf
  | .futCancel p _ => p.wf
  | .asyncFaultFreeze _ _ => true
  | .wdAsk p _ _ _ => p.wf
  | .wdAskLong p _ _ _ _ => p.wf
  | .wdAskComplete _ => true
  | .tgLd p px _ _ _ _ => p.wf && prefixWf px true
  | .tgSt p px _ _ _ => p.wf && prefixWf px true
  | .tgSet p px _ _ _ => p.wf && prefixWf px true
  | .tgClr p px _ _ _ => p.wf && prefixWf px true
  | .tagWaitRetest _ _ => true
  | .barArr p _ => p.wf
  | .barWait p => p.wf
  | .barWaitGen p _ => p.wf
  | .barTest p _ _ => p.wf
  | .barrierPhaseComplete _ _ => true
  | .step _ => true
  | .dataMovementPhase _ _ _ => true
  | .checkpointCommit _ => true
  | .phaseRelease _ _ _ => true
  | .fence p at' => p.wf && at'.fenceWf
  | .atSwap p at' _ _ _ _ _ => p.wf && at'.wf
  | .atCas p at' _ _ _ _ _ _ => p.wf && at'.wf
  | .atAdd p at' _ _ _ _ _ => p.wf && at'.wf
  | .atAnd p at' _ _ _ _ _ => p.wf && at'.wf
  | .atOr p at' _ _ _ _ _ => p.wf && at'.wf
  | .atXor p at' _ _ _ _ _ => p.wf && at'.wf
  | .atMin p at' _ _ _ _ _ => p.wf && at'.wf
  | .atMax p at' _ _ _ _ _ => p.wf && at'.wf
  | .atMinu p at' _ _ _ _ _ => p.wf && at'.wf
  | .atMaxu p at' _ _ _ _ _ => p.wf && at'.wf
  | .atFadd p at' _ _ _ _ => p.wf && at'.wf
  | .redAdd p at' _ _ _ _ => p.wf && at'.wf
  | .redAnd p at' _ _ _ _ => p.wf && at'.wf
  | .redOr p at' _ _ _ _ => p.wf && at'.wf
  | .redXor p at' _ _ _ _ => p.wf && at'.wf
  | .redMin p at' _ _ _ _ => p.wf && at'.wf
  | .redMax p at' _ _ _ _ => p.wf && at'.wf
  | .redMinu p at' _ _ _ _ => p.wf && at'.wf
  | .redMaxu p at' _ _ _ _ => p.wf && at'.wf
  | .redFadd p at' _ _ _ => p.wf && at'.wf
  | .reductionPerform _ => true
  | .wqWait p at' _ _ _ _ => p.wf && at'.wf
  | .wqWake p at' _ _ _ _ _ => p.wf && at'.wf
  | .sigSend p _ _ => p.wf
  | .sigTake p _ _ => p.wf
  | .signalDelivery _ _ => true
  | .allAsleepTrap _ => true
  | .permitAudit _ _ _ _ _ => true
  | .cont _ _ _ _ _ _ _ => true
  | .saveComplete _ => true
  | .spawn p _ _ _ _ => p.wf
  | .budAdd p _ _ _ => p.wf
  | .budGive p _ _ _ _ => p.wf
  | .budgetFault _ _ => true
  | .graceDecay _ _ => true
  | .leaseReq p _ _ => p.wf
  | .leaseReqImm p _ _ => p.wf
  | .leaseEnd p => p.wf
  | .leaseTest p _ => p.wf
  | .leasePeriodEnd _ => true
  | .zoneHardLimit _ _ => true
  | .zoneRefreezeChange _ _ => true
  | .trap p _ _ => p.wf
  | .supResume p _ _ _ => p.wf
  | .supRestart p _ _ _ _ => p.wf
  | .supAbort p _ _ _ _ _ => p.wf
  | .heldPacketWrite _ _ => true
  | .watchdogTick _ => true
  | .watchdogExpiry _ => true
  | .scrRun p _ _ _ _ => p.wf
  | .scrStat p _ _ => p.wf
  | .scrTestComplete _ _ _ => true
  | .testLeaveComplete _ => true
  | .infieldTestComplete _ _ _ _ => true
  | .routineRotation => true
  | .forcedRotation _ => true
  | .rotationQuiescent _ => true
  | .drainTimeout _ => true
  | .stateCopyComplete _ => true
  | .stateCopyError _ _ => true
  | .tableUpdateCommit _ => true
  | .tableUpdateReject _ _ => true
  | .replay _ _ => true
  | .journalFold _ _ => true
  | .retentionEntry _ => true
  | .ageingDecay => true
  | .ageingSnapshot => true
  | .doorbell _ _ => true
  | .queueCreate _ _ _ => true
  | .queueDestroy _ _ => true
  | .queueRestart _ _ => true
  | .queueCredit _ _ _ _ => true
  | .queueClose _ => true
  | .recordRead _ => true
  | .seqRetry _ => true
  | .dependenceReread _ => true
  | .selectionRound => true
  | .recordReserving _ => true
  | .bind _ _ _ => true
  | .release _ _ => true
  | .preempt _ _ => true
  | .scrubComplete _ _ => true
  | .gangRetire _ => true
  | .translationInvalidate => true
  | .partitionDescriptorWrite _ _ => true
  | .savePoolWrite _ _ _ => true
  | .faultRingWrite _ _ _ => true
  | .frheadWrite _ _ => true
  | .drain _ => true
  | .reset _ => true
  | .undrain _ => true
  | .debugWindowWrite _ _ _ _ => true
  | .sepiaClr _ _ => true
  | .eventStreamWrite _ _ _ => true
  | .evheadWrite _ _ => true
  | .pcSample _ _ => true
  | .registerWrite _ _ _ _ => true
  | .bar2Read _ _ => true
  | .bar2Write _ _ => true
  | .portLinkUp _ _ => true
  | .portRingEnable _ _ _ => true
  | .portDoorbell _ _ _ => true
  | .descriptorStart _ _ => true
  | .descriptorComplete _ _ _ => true
  | .inboundWrite _ _ _ _ _ _ => true
  | .firmwareChunkWrite => true
  | .firmwareCommit _ => true
  | .attestation => true
  | .attestationReportReady => true
  | .hbmTempRead _ _ => true
  | .sliceFailure _ _ => true
  | .copyCommandStart _ => true
  | .patrolScrub _ _ => true
  | .softError _ => true
  | .portLinkDown _ => true

end Sys2Proof
end

