-- ==== Sys2Proof/Decode.lean ====
section
/-! DEFINITION. Instruction words: the base word's fields and the words that follow it, the encoder written from the encoding tables of the chapters, and the decoder: it names the one candidate of an OPC and FN and accepts it when its encoding is the very word, so that an unused or reserved field that is not zero makes the word ILLEGAL (06 R106, R113). -/

namespace Sys2Proof

/-- The fields of the base word (06 R106). -/
structure Fields where
  imm : BitVec 16
  x   : BitVec 4
  pn  : BitVec 1
  pr  : BitVec 3
  c   : BitVec 6
  b   : BitVec 6
  a   : BitVec 6
  d   : BitVec 6
  fn  : BitVec 6
  opc : BitVec 8
  len : BitVec 2
  deriving DecidableEq, Repr

/-- What follows the base word (06 R107). -/
inductive Ext
  | none
  | w32 (w : BitVec 32)
  | w64 (w : BitVec 64)
  deriving DecidableEq, Repr

/-- The base word of its fields (06 R106). -/
def Fields.pack (f : Fields) : BitVec 64 :=
  f.imm ++ f.x ++ f.pn ++ f.pr ++ f.c ++ f.b ++ f.a ++ f.d ++ f.fn ++ f.opc ++ f.len

/-- The fields of a base word (06 R106). -/
def Fields.unpack (w : BitVec 64) : Fields :=
  { imm := w.extractLsb' 48 16, x := w.extractLsb' 44 4, pn := w.extractLsb' 43 1,
    pr := w.extractLsb' 40 3, c := w.extractLsb' 34 6, b := w.extractLsb' 28 6,
    a := w.extractLsb' 22 6, d := w.extractLsb' 16 6, fn := w.extractLsb' 10 6,
    opc := w.extractLsb' 2 8, len := w.extractLsb' 0 2 }

/-- LEN of a form (06 R102). -/
def Ext.len : Ext → BitVec 2
  | .none => 0
  | .w32 _ => 1
  | .w64 _ => 2

/-- An instruction's words before they are laid out: base fields, what follows, and its prefix. -/
structure Enc where
  f  : Fields
  e  : Ext
  px : Option Prefix
  deriving DecidableEq, Repr

/-! The fields of each kind of operand (06 R108). -/

def encB (b : Bool) : BitVec 1 := BitVec.ofBool b
def encS (r : Fin 64) : BitVec 6 := BitVec.ofNat 6 r.val
def decS (f : BitVec 6) : Fin 64 := ⟨f.toNat, f.isLt⟩
def encV (r : Fin 32) : BitVec 6 := BitVec.ofNat 6 r.val
def decV (f : BitVec 6) : Fin 32 := ⟨f.toNat % 32, Nat.mod_lt _ (by decide)⟩
def encH (r : Fin 16) : BitVec 6 := BitVec.ofNat 6 r.val
def decH (f : BitVec 6) : Fin 16 := ⟨f.toNat % 16, Nat.mod_lt _ (by decide)⟩
def encP (r : Fin 8) : BitVec 6 := BitVec.ofNat 6 r.val
def decP (f : BitVec 6) : Fin 8 := ⟨f.toNat % 8, Nat.mod_lt _ (by decide)⟩
def encQ (r : Fin 8) : BitVec 6 := BitVec.ofNat 6 r.val
def decQ (f : BitVec 6) : Fin 8 := ⟨f.toNat % 8, Nat.mod_lt _ (by decide)⟩
def encOptH (h : Option HReg) : BitVec 6 := match h with | none => 0 | some r => encH r
def encHasH (h : Option HReg) : BitVec 4 := match h with | none => 0 | some _ => 1
def decOptH (f : BitVec 6) (hen : Bool) : Option HReg := if hen then some (decH f) else none
def encOptS (h : Option SReg) : BitVec 6 := match h with | none => 0 | some r => encS r
def encHasS (h : Option SReg) : BitVec 4 := match h with | none => 0 | some _ => 1
def decOptS (f : BitVec 6) (hen : Bool) : Option SReg := if hen then some (decS f) else none
/-- IMM16 [15:10] of a matrix command: bit 15 zero, HEN, handle number (10 R201). -/
def encHen (h : Option HReg) : BitVec 6 := match h with | none => 0 | some r => BitVec.ofNat 6 (16 + r.val)
def decHen (f : BitVec 6) : Option HReg := if f.getLsbD 4 then some (decH f) else none

/-! The X sub-field (06 R106) as each chapter reads it. -/

def encBit (b : Bool) : BitVec 4 := if b then 1 else 0
/-- Bit 1 and bit 0 of X. -/
def encShift (w imm : Bool) : BitVec 4 := (0 : BitVec 2) ++ encB w ++ encB imm

/-- 07 R130. -/
def encCond : Cond → BitVec 4
  | .eq => 0 | .ne => 1 | .lt => 2 | .ge => 3 | .ltu => 4 | .geu => 5 | .tst => 6 | .tstn => 7
def decCond (x : BitVec 4) : Cond :=
  match x.toNat with
  | 0 => .eq | 1 => .ne | 2 => .lt | 3 => .ge | 4 => .ltu | 5 => .geu | 6 => .tst | _ => .tstn

/-- 09 R182. -/
def encFCond : FCond → BitVec 4
  | .eq => 0 | .ne => 1 | .lt => 2 | .le => 3 | .gt => 4 | .ge => 5 | .un => 6 | .ord => 7
def decFCond (x : BitVec 4) : FCond :=
  match x.toNat with
  | 0 => .eq | 1 => .ne | 2 => .lt | 3 => .le | 4 => .gt | 5 => .ge | 6 => .un | _ => .ord

/-- 08 R158. -/
def encAlu : AluMode → BitVec 4
  | .wrap => 0 | .w => 1 | .ss => 2 | .us => 3 | .wss => 4 | .wus => 5
def decAlu (x : BitVec 4) : AluMode :=
  match x.toNat with
  | 0 => .wrap | 1 => .w | 2 => .ss | 3 => .us | 4 => .wss | _ => .wus

/-- 08 R159. -/
def encMulh : MulhKind → BitVec 4
  | .ss => 0 | .uu => 1 | .su => 2
def decMulh (x : BitVec 4) : MulhKind :=
  match x.toNat with
  | 0 => .ss | 1 => .uu | _ => .su

/-- 09 R178, X[3:2]. -/
def encVw : VWidth → BitVec 2
  | .e32 => 0 | .e16 => 1 | .e8 => 2
def decVw (x : BitVec 2) : VWidth :=
  match x.toNat with
  | 0 => .e32 | 1 => .e16 | _ => .e8

/-- 09 R178, X[1:0]. -/
def encVm : VMode → BitVec 2
  | .m0 => 0 | .ss => 1 | .us => 2
def decVm (x : BitVec 2) : VMode :=
  match x.toNat with
  | 0 => .m0 | 1 => .ss | _ => .us

/-- 02 R39. -/
def encRM : RM → BitVec 3
  | .rne => 0 | .rtz => 1 | .rup => 2 | .rdn => 3 | .stoch => 4 | .dyn => 7
def decRM (x : BitVec 3) : RM :=
  match x.toNat with
  | 0 => .rne | 1 => .rtz | 2 => .rup | 3 => .rdn | 4 => .stoch | _ => .dyn

/-- 09 R183. -/
def encShuf : Shuf → BitVec 4
  | .rev => 0 | .swap => 1 | .zlo => 2 | .zhi => 3 | .even => 4 | .odd => 5
def decShuf (x : BitVec 4) : Shuf :=
  match x.toNat with
  | 0 => .rev | 1 => .swap | 2 => .zlo | 3 => .zhi | 4 => .even | _ => .odd

/-- 09 R186, TYPE. -/
def encTy : CvtType → BitVec 2
  | .fl => 0 | .si => 1 | .ui => 2
def decTy (x : BitVec 2) : CvtType :=
  match x.toNat with
  | 0 => .fl | 1 => .si | _ => .ui

/-- 13 R259. -/
def encLvl : StepLevel → BitVec 4
  | .tile => 1 | .dom => 2 | .part => 3
def decLvl (x : BitVec 4) : StepLevel :=
  match x.toNat with
  | 1 => .tile | 2 => .dom | _ => .part

/-- 15 R294: level in [1:0], scope in [2], TRAP in [3]. -/
def encLease (l : LeaseArgs) : BitVec 4 :=
  encB l.trap ++ encB l.dom ++ encB l.s2 ++ encB (!l.s2)
def decLease (x : BitVec 4) : LeaseArgs :=
  { s2 := x.getLsbD 1, dom := x.getLsbD 2, trap := x.getLsbD 3 }

/-- X of `rep`: SMODE and QS (07 R145). -/
def encRepX (r : RepShape) : BitVec 4 :=
  match r.stream with
  | none => 0
  | some q => BitVec.ofNat 4 (8 + q.val)
/-- IMM16 of `rep`: WSIZE, WBASE, LENM1 (07 R145). -/
def encRepI (r : RepShape) : BitVec 16 :=
  BitVec.ofNat 6 r.wsize.val ++ BitVec.ofNat 5 r.wbase.val ++ BitVec.ofNat 5 r.lenm1.val
def decRep (x : BitVec 4) (imm : BitVec 16) : RepShape :=
  { stream := if x.getLsbD 3 then some ⟨x.toNat % 8, Nat.mod_lt _ (by decide)⟩ else none,
    lenm1 := ⟨(imm.extractLsb' 0 5).toNat, (imm.extractLsb' 0 5).isLt⟩,
    wbase := ⟨(imm.extractLsb' 5 5).toNat, (imm.extractLsb' 5 5).isLt⟩,
    wsize := ⟨(imm.extractLsb' 10 6).toNat, (imm.extractLsb' 10 6).isLt⟩ }

/-- The attribute byte (06 R110). -/
def encAttr (a : Attr) : BitVec 8 := a.ord ++ a.scope ++ a.evict
def decAttr (w : BitVec 8) : Attr :=
  { ord := w.extractLsb' 6 2, scope := w.extractLsb' 3 3, evict := w.extractLsb' 0 3 }

/-- A live range of `cont` (15 R295). -/
def encRng (r : LiveRange) : BitVec 12 := r.pages ++ r.base
def decRng (w : BitVec 12) : LiveRange := { base := w.extractLsb' 0 7, pages := w.extractLsb' 7 5 }

/-- The predicate of a base word. -/
def Fields.pred (f : Fields) : Pred := { reg := ⟨f.pr.toNat, f.pr.isLt⟩, neg := f.pn.getLsbD 0 }

/-- `p0`, not negated: the predicate of every instruction marked U (06 R109). -/
def Pred.always : Pred := { reg := 0, neg := false }

/-- The words of an instruction from its OPC, FN, predicate, X, D, A, B, C, IMM16, what follows, and prefix. -/
def mkEnc (opc fn : Nat) (p : Pred) (x : BitVec 4) (d a b c : BitVec 6) (imm : BitVec 16) (e : Ext)
    (px : Option Prefix) : Enc :=
  { f := { imm := imm, x := x, pn := encB p.neg, pr := BitVec.ofNat 3 p.reg.val, c := c, b := b, a := a,
           d := d, fn := BitVec.ofNat 6 fn, opc := BitVec.ofNat 8 opc, len := e.len },
    e := e, px := px }

/-- The encoding of an instruction row by the tables of 07 R128, R145, 08 R157, 09 R177, R186, R190, 10 R201, 11 R220, R228, R229, R232, R233, R235, R241, R242, 13 R259, 15 R294, R295, 16 R329 and 17 R347. An event row has none. -/
def Instr.enc (i : Instr) : Option Enc :=
  match i with
  | .nop => some (mkEnc 0x00 0 Pred.always 0 0 0 0 0 0 .none .none)
  | .pad => some (mkEnc 0x00 1 Pred.always 0 0 0 0 0 0 .none .none)
  | .br p off => some (mkEnc 0x01 0 p 0 0 0 0 0 off .none .none)
  | .brLong p off => some (mkEnc 0x01 0 p 0 0 0 0 0 0 (.w32 off) .none)
  | .brReg p a => some (mkEnc 0x01 1 p 0 0 (encS a) 0 0 0 .none .none)
  | .brC p cc a b off => some (mkEnc 0x02 0 p (encCond cc) 0 (encS a) (encS b) 0 off .none .none)
  | .brCLong p cc a b off => some (mkEnc 0x02 0 p (encCond cc) 0 (encS a) (encS b) 0 0 (.w32 off) .none)
  | .brCImm p cc a off imm => some (mkEnc 0x02 1 p (encCond cc) 0 (encS a) 0 0 off (.w32 imm) .none)
  | .call p d off => some (mkEnc 0x03 0 p 0 (encS d) 0 0 0 off .none .none)
  | .callLong p d off => some (mkEnc 0x03 0 p 0 (encS d) 0 0 0 0 (.w32 off) .none)
  | .callReg p d a => some (mkEnc 0x03 1 p 0 (encS d) (encS a) 0 0 0 .none .none)
  | .ret p a => some (mkEnc 0x03 2 p 0 0 (encS a) 0 0 0 .none .none)
  | .halt p => some (mkEnc 0x04 0 p 0 0 0 0 0 0 .none .none)
  | .realign p a => some (mkEnc 0x05 0 p 0 0 (encS a) 0 0 0 .none .none)
  | .loop p a off => some (mkEnc 0x06 0 p 0 0 (encS a) 0 0 off .none .none)
  | .loopImm p off cnt => some (mkEnc 0x06 1 p 0 0 0 0 0 off (.w32 cnt) .none)
  | .loopEnd p => some (mkEnc 0x06 2 p 0 0 0 0 0 0 .none .none)
  | .rep p a sh => some (mkEnc 0x07 0 p (encRepX sh) 0 (encS a) 0 0 (encRepI sh) .none .none)
  | .repImm p cnt sh => some (mkEnc 0x07 1 p (encRepX sh) 0 0 0 0 (encRepI sh) (.w32 cnt) .none)
  | .qPush p d a => some (mkEnc 0x08 0 p 0 (encQ d) (encS a) 0 0 0 .none .none)
  | .qEos p d => some (mkEnc 0x08 1 p 0 (encQ d) 0 0 0 0 .none .none)
  | .qPop p d a => some (mkEnc 0x08 2 p 0 (encS d) (encQ a) 0 0 0 .none .none)
  | .qPeek p d a => some (mkEnc 0x08 3 p 0 (encS d) (encQ a) 0 0 0 .none .none)
  | .qTest p d a => some (mkEnc 0x08 4 p 0 (encS d) (encQ a) 0 0 0 .none .none)
  | .add p m d a b => some (mkEnc 0x20 0 p (encAlu m) (encS d) (encS a) (encS b) 0 0 .none .none)
  | .sub p m d a b => some (mkEnc 0x20 1 p (encAlu m) (encS d) (encS a) (encS b) 0 0 .none .none)
  | .addImm p m d a imm => some (mkEnc 0x20 2 p (encAlu m) (encS d) (encS a) 0 0 imm .none .none)
  | .addImmLong p m d a imm => some (mkEnc 0x20 2 p (encAlu m) (encS d) (encS a) 0 0 0 (.w32 imm) .none)
  | .subImm p m d a imm => some (mkEnc 0x20 3 p (encAlu m) (encS d) (encS a) 0 0 imm .none .none)
  | .subImmLong p m d a imm => some (mkEnc 0x20 3 p (encAlu m) (encS d) (encS a) 0 0 0 (.w32 imm) .none)
  | .mul p m d a b => some (mkEnc 0x21 0 p (encAlu m) (encS d) (encS a) (encS b) 0 0 .none .none)
  | .mulh p k d a b => some (mkEnc 0x21 1 p (encMulh k) (encS d) (encS a) (encS b) 0 0 .none .none)
  | .div p w d a b => some (mkEnc 0x22 0 p (encBit w) (encS d) (encS a) (encS b) 0 0 .none .none)
  | .divU p w d a b => some (mkEnc 0x22 1 p (encBit w) (encS d) (encS a) (encS b) 0 0 .none .none)
  | .rem p w d a b => some (mkEnc 0x22 2 p (encBit w) (encS d) (encS a) (encS b) 0 0 .none .none)
  | .remU p w d a b => some (mkEnc 0x22 3 p (encBit w) (encS d) (encS a) (encS b) 0 0 .none .none)
  | .min p d a b => some (mkEnc 0x23 0 p 0 (encS d) (encS a) (encS b) 0 0 .none .none)
  | .max p d a b => some (mkEnc 0x23 1 p 0 (encS d) (encS a) (encS b) 0 0 .none .none)
  | .minU p d a b => some (mkEnc 0x23 2 p 0 (encS d) (encS a) (encS b) 0 0 .none .none)
  | .maxU p d a b => some (mkEnc 0x23 3 p 0 (encS d) (encS a) (encS b) 0 0 .none .none)
  | .abs p sat d a => some (mkEnc 0x23 4 p (encBit sat) (encS d) (encS a) 0 0 0 .none .none)
  | .neg p sat d a => some (mkEnc 0x23 5 p (encBit sat) (encS d) (encS a) 0 0 0 .none .none)
  | .and p d a b => some (mkEnc 0x24 0 p 0 (encS d) (encS a) (encS b) 0 0 .none .none)
  | .or p d a b => some (mkEnc 0x24 1 p 0 (encS d) (encS a) (encS b) 0 0 .none .none)
  | .xor p d a b => some (mkEnc 0x24 2 p 0 (encS d) (encS a) (encS b) 0 0 .none .none)
  | .andn p d a b => some (mkEnc 0x24 3 p 0 (encS d) (encS a) (encS b) 0 0 .none .none)
  | .not p d a => some (mkEnc 0x24 4 p 0 (encS d) (encS a) 0 0 0 .none .none)
  | .andImm p d a imm => some (mkEnc 0x24 5 p 0 (encS d) (encS a) 0 0 imm .none .none)
  | .andImmLong p d a imm => some (mkEnc 0x24 5 p 0 (encS d) (encS a) 0 0 0 (.w32 imm) .none)
  | .orImm p d a imm => some (mkEnc 0x24 6 p 0 (encS d) (encS a) 0 0 imm .none .none)
  | .orImmLong p d a imm => some (mkEnc 0x24 6 p 0 (encS d) (encS a) 0 0 0 (.w32 imm) .none)
  | .xorImm p d a imm => some (mkEnc 0x24 7 p 0 (encS d) (encS a) 0 0 imm .none .none)
  | .xorImmLong p d a imm => some (mkEnc 0x24 7 p 0 (encS d) (encS a) 0 0 0 (.w32 imm) .none)
  | .shl p w d a b => some (mkEnc 0x25 0 p (encShift w false) (encS d) (encS a) (encS b) 0 0 .none .none)
  | .shlImm p w d a n => some (mkEnc 0x25 0 p (encShift w true) (encS d) (encS a) 0 0 ((0 : BitVec 10) ++ n) .none .none)
  | .shr p w d a b => some (mkEnc 0x25 1 p (encShift w false) (encS d) (encS a) (encS b) 0 0 .none .none)
  | .shrImm p w d a n => some (mkEnc 0x25 1 p (encShift w true) (encS d) (encS a) 0 0 ((0 : BitVec 10) ++ n) .none .none)
  | .sar p w d a b => some (mkEnc 0x25 2 p (encShift w false) (encS d) (encS a) (encS b) 0 0 .none .none)
  | .sarImm p w d a n => some (mkEnc 0x25 2 p (encShift w true) (encS d) (encS a) 0 0 ((0 : BitVec 10) ++ n) .none .none)
  | .rot p w d a b => some (mkEnc 0x25 3 p (encShift w false) (encS d) (encS a) (encS b) 0 0 .none .none)
  | .rotImm p w d a n => some (mkEnc 0x25 3 p (encShift w true) (encS d) (encS a) 0 0 ((0 : BitVec 10) ++ n) .none .none)
  | .cmpP p cc d a b => some (mkEnc 0x26 0 p (encCond cc) (encP d) (encS a) (encS b) 0 0 .none .none)
  | .cmpPImm p cc d a imm => some (mkEnc 0x26 1 p (encCond cc) (encP d) (encS a) 0 0 imm .none .none)
  | .cmpPImmLong p cc d a imm => some (mkEnc 0x26 1 p (encCond cc) (encP d) (encS a) 0 0 0 (.w32 imm) .none)
  | .cmpS p cc d a b => some (mkEnc 0x26 2 p (encCond cc) (encS d) (encS a) (encS b) 0 0 .none .none)
  | .cmpSImm p cc d a imm => some (mkEnc 0x26 3 p (encCond cc) (encS d) (encS a) 0 0 imm .none .none)
  | .cmpSImmLong p cc d a imm => some (mkEnc 0x26 3 p (encCond cc) (encS d) (encS a) 0 0 0 (.w32 imm) .none)
  | .selP p d a b c => some (mkEnc 0x27 0 p 0 (encS d) (encS a) (encS b) (encP c) 0 .none .none)
  | .selS p d a b c => some (mkEnc 0x27 1 p 0 (encS d) (encS a) (encS b) (encS c) 0 .none .none)
  | .bfX p sgn d a pos lenm1 => some (mkEnc 0x28 0 p (encBit sgn) (encS d) (encS a) 0 0 ((0 : BitVec 4) ++ lenm1 ++ pos) .none .none)
  | .bfI p d a pos lenm1 => some (mkEnc 0x28 1 p 0 (encS d) (encS a) 0 0 ((0 : BitVec 4) ++ lenm1 ++ pos) .none .none)
  | .clz p w d a => some (mkEnc 0x28 2 p (encBit w) (encS d) (encS a) 0 0 0 .none .none)
  | .ctz p w d a => some (mkEnc 0x28 3 p (encBit w) (encS d) (encS a) 0 0 0 .none .none)
  | .popc p w d a => some (mkEnc 0x28 4 p (encBit w) (encS d) (encS a) 0 0 0 .none .none)
  | .lea p sh d a b disp => some (mkEnc 0x29 0 p ((0 : BitVec 1) ++ sh) (encS d) (encS a) (encS b) 0 disp .none .none)
  | .leaLong p sh d a b disp => some (mkEnc 0x29 0 p ((0 : BitVec 1) ++ sh) (encS d) (encS a) (encS b) 0 0 (.w32 disp) .none)
  | .leaPc p d off => some (mkEnc 0x29 1 p 0 (encS d) 0 0 0 0 (.w32 off) .none)
  | .li p d imm => some (mkEnc 0x2C 0 p 0 (encS d) 0 0 0 0 (.w32 imm) .none)
  | .liLong p d imm => some (mkEnc 0x2C 0 p 0 (encS d) 0 0 0 0 (.w64 imm) .none)
  | .pAnd p d a b => some (mkEnc 0x2A 0 p 0 (encP d) (encP a) (encP b) 0 0 .none .none)
  | .pOr p d a b => some (mkEnc 0x2A 1 p 0 (encP d) (encP a) (encP b) 0 0 .none .none)
  | .pXor p d a b => some (mkEnc 0x2A 2 p 0 (encP d) (encP a) (encP b) 0 0 .none .none)
  | .pNot p d a => some (mkEnc 0x2A 3 p 0 (encP d) (encP a) 0 0 0 .none .none)
  | .pMov p d a => some (mkEnc 0x2A 4 p 0 (encP d) (encP a) 0 0 0 .none .none)
  | .pMovFromScalar p d a => some (mkEnc 0x2A 5 p 0 (encP d) (encS a) 0 0 0 .none .none)
  | .pMovToScalar p d a => some (mkEnc 0x2A 6 p 0 (encS d) (encP a) 0 0 0 .none .none)
  | .csrRd p d n => some (mkEnc 0x2B 0 p 0 (encS d) 0 0 0 ((0 : BitVec 4) ++ n) .none .none)
  | .csrWr p d a n => some (mkEnc 0x2B 1 p 0 (encS d) (encS a) 0 0 ((0 : BitVec 4) ++ n) .none .none)
  | .csrSet p d a n => some (mkEnc 0x2B 2 p 0 (encS d) (encS a) 0 0 ((0 : BitVec 4) ++ n) .none .none)
  | .csrClr p d a n => some (mkEnc 0x2B 3 p 0 (encS d) (encS a) 0 0 ((0 : BitVec 4) ++ n) .none .none)
  | .vAdd p e m d a b => some (mkEnc 0x50 0 p (encVw e ++ encVm m) (encV d) (encV a) (encV b) 0 0 .none .none)
  | .vSub p e m d a b => some (mkEnc 0x50 1 p (encVw e ++ encVm m) (encV d) (encV a) (encV b) 0 0 .none .none)
  | .vMul p e m d a b => some (mkEnc 0x50 2 p (encVw e ++ encVm m) (encV d) (encV a) (encV b) 0 0 .none .none)
  | .vMulh p e m d a b => some (mkEnc 0x50 3 p (encVw e ++ encVm m) (encV d) (encV a) (encV b) 0 0 .none .none)
  | .vMac p e m d a b => some (mkEnc 0x50 4 p (encVw e ++ encVm m) (encV d) (encV a) (encV b) 0 0 .none .none)
  | .vMin p e m d a b => some (mkEnc 0x50 5 p (encVw e ++ encVm m) (encV d) (encV a) (encV b) 0 0 .none .none)
  | .vMax p e m d a b => some (mkEnc 0x50 6 p (encVw e ++ encVm m) (encV d) (encV a) (encV b) 0 0 .none .none)
  | .vAbs p e m d a => some (mkEnc 0x50 7 p (encVw e ++ encVm m) (encV d) (encV a) 0 0 0 .none .none)
  | .vNeg p e m d a => some (mkEnc 0x50 8 p (encVw e ++ encVm m) (encV d) (encV a) 0 0 0 .none .none)
  | .vAddScalar p e m d a b => some (mkEnc 0x51 0 p (encVw e ++ encVm m) (encV d) (encV a) (encS b) 0 0 .none .none)
  | .vSubScalar p e m d a b => some (mkEnc 0x51 1 p (encVw e ++ encVm m) (encV d) (encV a) (encS b) 0 0 .none .none)
  | .vMulScalar p e m d a b => some (mkEnc 0x51 2 p (encVw e ++ encVm m) (encV d) (encV a) (encS b) 0 0 .none .none)
  | .vMulhScalar p e m d a b => some (mkEnc 0x51 3 p (encVw e ++ encVm m) (encV d) (encV a) (encS b) 0 0 .none .none)
  | .vMacScalar p e m d a b => some (mkEnc 0x51 4 p (encVw e ++ encVm m) (encV d) (encV a) (encS b) 0 0 .none .none)
  | .vMinScalar p e m d a b => some (mkEnc 0x51 5 p (encVw e ++ encVm m) (encV d) (encV a) (encS b) 0 0 .none .none)
  | .vMaxScalar p e m d a b => some (mkEnc 0x51 6 p (encVw e ++ encVm m) (encV d) (encV a) (encS b) 0 0 .none .none)
  | .vAddImm p e m d a imm => some (mkEnc 0x52 0 p (encVw e ++ encVm m) (encV d) (encV a) 0 0 imm .none .none)
  | .vAddImmLong p e m d a imm => some (mkEnc 0x52 0 p (encVw e ++ encVm m) (encV d) (encV a) 0 0 0 (.w32 imm) .none)
  | .vSubImm p e m d a imm => some (mkEnc 0x52 1 p (encVw e ++ encVm m) (encV d) (encV a) 0 0 imm .none .none)
  | .vSubImmLong p e m d a imm => some (mkEnc 0x52 1 p (encVw e ++ encVm m) (encV d) (encV a) 0 0 0 (.w32 imm) .none)
  | .vMulImm p e m d a imm => some (mkEnc 0x52 2 p (encVw e ++ encVm m) (encV d) (encV a) 0 0 imm .none .none)
  | .vMulImmLong p e m d a imm => some (mkEnc 0x52 2 p (encVw e ++ encVm m) (encV d) (encV a) 0 0 0 (.w32 imm) .none)
  | .vMinImm p e m d a imm => some (mkEnc 0x52 5 p (encVw e ++ encVm m) (encV d) (encV a) 0 0 imm .none .none)
  | .vMinImmLong p e m d a imm => some (mkEnc 0x52 5 p (encVw e ++ encVm m) (encV d) (encV a) 0 0 0 (.w32 imm) .none)
  | .vMaxImm p e m d a imm => some (mkEnc 0x52 6 p (encVw e ++ encVm m) (encV d) (encV a) 0 0 imm .none .none)
  | .vMaxImmLong p e m d a imm => some (mkEnc 0x52 6 p (encVw e ++ encVm m) (encV d) (encV a) 0 0 0 (.w32 imm) .none)
  | .vAnd p d a b => some (mkEnc 0x54 0 p 0 (encV d) (encV a) (encV b) 0 0 .none .none)
  | .vOr p d a b => some (mkEnc 0x54 1 p 0 (encV d) (encV a) (encV b) 0 0 .none .none)
  | .vXor p d a b => some (mkEnc 0x54 2 p 0 (encV d) (encV a) (encV b) 0 0 .none .none)
  | .vAndn p d a b => some (mkEnc 0x54 3 p 0 (encV d) (encV a) (encV b) 0 0 .none .none)
  | .vNot p d a => some (mkEnc 0x54 4 p 0 (encV d) (encV a) 0 0 0 .none .none)
  | .vShl p e d a b => some (mkEnc 0x55 0 p (encVw e ++ (0 : BitVec 2)) (encV d) (encV a) (encV b) 0 0 .none .none)
  | .vShlImm p e d a n => some (mkEnc 0x55 0 p (encVw e ++ (1 : BitVec 2)) (encV d) (encV a) 0 0 ((0 : BitVec 11) ++ n) .none .none)
  | .vShr p e d a b => some (mkEnc 0x55 1 p (encVw e ++ (0 : BitVec 2)) (encV d) (encV a) (encV b) 0 0 .none .none)
  | .vShrImm p e d a n => some (mkEnc 0x55 1 p (encVw e ++ (1 : BitVec 2)) (encV d) (encV a) 0 0 ((0 : BitVec 11) ++ n) .none .none)
  | .vSar p e d a b => some (mkEnc 0x55 2 p (encVw e ++ (0 : BitVec 2)) (encV d) (encV a) (encV b) 0 0 .none .none)
  | .vSarImm p e d a n => some (mkEnc 0x55 2 p (encVw e ++ (1 : BitVec 2)) (encV d) (encV a) 0 0 ((0 : BitVec 11) ++ n) .none .none)
  | .vRot p e d a b => some (mkEnc 0x55 3 p (encVw e ++ (0 : BitVec 2)) (encV d) (encV a) (encV b) 0 0 .none .none)
  | .vRotImm p e d a n => some (mkEnc 0x55 3 p (encVw e ++ (1 : BitVec 2)) (encV d) (encV a) 0 0 ((0 : BitVec 11) ++ n) .none .none)
  | .vClz p e d a => some (mkEnc 0x55 4 p (encVw e ++ (0 : BitVec 2)) (encV d) (encV a) 0 0 0 .none .none)
  | .vPopc p e d a => some (mkEnc 0x55 5 p (encVw e ++ (0 : BitVec 2)) (encV d) (encV a) 0 0 0 .none .none)
  | .vFadd p rm d a b => some (mkEnc 0x56 0 p ((0 : BitVec 1) ++ encRM rm) (encV d) (encV a) (encV b) 0 0 .none .none)
  | .vFsub p rm d a b => some (mkEnc 0x56 1 p ((0 : BitVec 1) ++ encRM rm) (encV d) (encV a) (encV b) 0 0 .none .none)
  | .vFmul p rm d a b => some (mkEnc 0x56 2 p ((0 : BitVec 1) ++ encRM rm) (encV d) (encV a) (encV b) 0 0 .none .none)
  | .vFmin p d a b => some (mkEnc 0x56 3 p 0 (encV d) (encV a) (encV b) 0 0 .none .none)
  | .vFmax p d a b => some (mkEnc 0x56 4 p 0 (encV d) (encV a) (encV b) 0 0 .none .none)
  | .vFaddScalar p rm d a b => some (mkEnc 0x57 0 p ((0 : BitVec 1) ++ encRM rm) (encV d) (encV a) (encS b) 0 0 .none .none)
  | .vFsubScalar p rm d a b => some (mkEnc 0x57 1 p ((0 : BitVec 1) ++ encRM rm) (encV d) (encV a) (encS b) 0 0 .none .none)
  | .vFmulScalar p rm d a b => some (mkEnc 0x57 2 p ((0 : BitVec 1) ++ encRM rm) (encV d) (encV a) (encS b) 0 0 .none .none)
  | .vFminScalar p d a b => some (mkEnc 0x57 3 p 0 (encV d) (encV a) (encS b) 0 0 .none .none)
  | .vFmaxScalar p d a b => some (mkEnc 0x57 4 p 0 (encV d) (encV a) (encS b) 0 0 .none .none)
  | .vFma p rm d a b c => some (mkEnc 0x58 0 p ((0 : BitVec 1) ++ encRM rm) (encV d) (encV a) (encV b) (encV c) 0 .none .none)
  | .vFms p rm d a b c => some (mkEnc 0x58 1 p ((0 : BitVec 1) ++ encRM rm) (encV d) (encV a) (encV b) (encV c) 0 .none .none)
  | .vFnma p rm d a b c => some (mkEnc 0x58 2 p ((0 : BitVec 1) ++ encRM rm) (encV d) (encV a) (encV b) (encV c) 0 .none .none)
  | .vFdiv p rm d a b => some (mkEnc 0x59 0 p ((0 : BitVec 1) ++ encRM rm) (encV d) (encV a) (encV b) 0 0 .none .none)
  | .vFsqrt p rm d a => some (mkEnc 0x59 1 p ((0 : BitVec 1) ++ encRM rm) (encV d) (encV a) 0 0 0 .none .none)
  | .vFrcp p rm d a => some (mkEnc 0x59 2 p ((0 : BitVec 1) ++ encRM rm) (encV d) (encV a) 0 0 0 .none .none)
  | .vFrsq p rm d a => some (mkEnc 0x59 3 p ((0 : BitVec 1) ++ encRM rm) (encV d) (encV a) 0 0 0 .none .none)
  | .vFabs p d a => some (mkEnc 0x5A 0 p 0 (encV d) (encV a) 0 0 0 .none .none)
  | .vFneg p d a => some (mkEnc 0x5A 1 p 0 (encV d) (encV a) 0 0 0 .none .none)
  | .vFcopysign p d a b => some (mkEnc 0x5A 2 p 0 (encV d) (encV a) (encV b) 0 0 .none .none)
  | .vFclass p d a => some (mkEnc 0x5A 3 p 0 (encV d) (encV a) 0 0 0 .none .none)
  | .vFscale p rm d a b => some (mkEnc 0x5B 0 p ((0 : BitVec 1) ++ encRM rm) (encV d) (encV a) (encV b) 0 0 .none .none)
  | .vFround p rm d a => some (mkEnc 0x5B 1 p ((0 : BitVec 1) ++ encRM rm) (encV d) (encV a) 0 0 0 .none .none)
  | .vCmp p cc d a b => some (mkEnc 0x5C 0 p (encCond cc) (encP d) (encV a) (encV b) 0 0 .none .none)
  | .vCmpScalar p cc d a b => some (mkEnc 0x5C 1 p (encCond cc) (encP d) (encV a) (encS b) 0 0 .none .none)
  | .vFcmp p cc d a b => some (mkEnc 0x5D 0 p (encFCond cc) (encP d) (encV a) (encV b) 0 0 .none .none)
  | .vFcmpScalar p cc d a b => some (mkEnc 0x5D 1 p (encFCond cc) (encP d) (encV a) (encS b) 0 0 .none .none)
  | .vPerm p d a b => some (mkEnc 0x5E 0 p 0 (encV d) (encV a) (encV b) 0 0 .none .none)
  | .vPerm2 p d a b c => some (mkEnc 0x5E 1 p 0 (encV d) (encV a) (encV b) (encV c) 0 .none .none)
  | .vShuf p k d a b => some (mkEnc 0x5F 0 p (encShuf k) (encV d) (encV a) (encV b) 0 0 .none .none)
  | .vBcast p d a => some (mkEnc 0x60 0 p 0 (encV d) (encS a) 0 0 0 .none .none)
  | .vBcastLane p d a k => some (mkEnc 0x60 1 p 0 (encV d) (encV a) 0 0 ((0 : BitVec 11) ++ k) .none .none)
  | .vBcastImm p d imm => some (mkEnc 0x60 2 p 0 (encV d) 0 0 0 0 (.w32 imm) .none)
  | .vBcastQ p d a => some (mkEnc 0x60 3 p 0 (encV d) (encQ a) 0 0 0 .none .none)
  | .vSlide p d a b k => some (mkEnc 0x61 0 p 0 (encV d) (encV a) (encV b) 0 ((0 : BitVec 11) ++ k) .none .none)
  | .vMov p d a => some (mkEnc 0x61 1 p 0 (encV d) (encV a) 0 0 0 .none .none)
  | .vSel p d a b c => some (mkEnc 0x61 2 p 0 (encV d) (encV a) (encV b) (encP c) 0 .none .none)
  | .vMovToLane p d a k => some (mkEnc 0x61 3 p 0 (encV d) (encS a) 0 0 ((0 : BitVec 11) ++ k) .none .none)
  | .vMovFromLane p d a k => some (mkEnc 0x61 4 p 0 (encS d) (encV a) 0 0 ((0 : BitVec 11) ++ k) .none .none)
  | .vRedAdd p m d a => some (mkEnc 0x62 0 p ((0 : BitVec 2) ++ encVm m) (encV d) (encV a) 0 0 0 .none .none)
  | .vRedMin p m d a => some (mkEnc 0x62 1 p ((0 : BitVec 2) ++ encVm m) (encV d) (encV a) 0 0 0 .none .none)
  | .vRedMax p m d a => some (mkEnc 0x62 2 p ((0 : BitVec 2) ++ encVm m) (encV d) (encV a) 0 0 0 .none .none)
  | .vRedAnd p d a => some (mkEnc 0x62 3 p 0 (encV d) (encV a) 0 0 0 .none .none)
  | .vRedOr p d a => some (mkEnc 0x62 4 p 0 (encV d) (encV a) 0 0 0 .none .none)
  | .vRedXor p d a => some (mkEnc 0x62 5 p 0 (encV d) (encV a) 0 0 0 .none .none)
  | .vRedFadd p rm d a => some (mkEnc 0x63 0 p ((0 : BitVec 1) ++ encRM rm) (encV d) (encV a) 0 0 0 .none .none)
  | .vRedFmin p d a => some (mkEnc 0x63 1 p 0 (encV d) (encV a) 0 0 0 .none .none)
  | .vRedFmax p d a => some (mkEnc 0x63 2 p 0 (encV d) (encV a) 0 0 0 .none .none)
  | .vScanAdd p m d a => some (mkEnc 0x64 0 p ((0 : BitVec 2) ++ encVm m) (encV d) (encV a) 0 0 0 .none .none)
  | .vScanMin p m d a => some (mkEnc 0x64 1 p ((0 : BitVec 2) ++ encVm m) (encV d) (encV a) 0 0 0 .none .none)
  | .vScanMax p m d a => some (mkEnc 0x64 2 p ((0 : BitVec 2) ++ encVm m) (encV d) (encV a) 0 0 0 .none .none)
  | .vScanXadd p m d a => some (mkEnc 0x64 3 p ((0 : BitVec 2) ++ encVm m) (encV d) (encV a) 0 0 0 .none .none)
  | .vScanFadd p rm d a => some (mkEnc 0x65 0 p ((0 : BitVec 1) ++ encRM rm) (encV d) (encV a) 0 0 0 .none .none)
  | .vScanFmin p d a => some (mkEnc 0x65 1 p 0 (encV d) (encV a) 0 0 0 .none .none)
  | .vScanFmax p d a => some (mkEnc 0x65 2 p 0 (encV d) (encV a) 0 0 0 .none .none)
  | .vCvtN p rm ty d a fmt k => some (mkEnc 0x66 0 p ((0 : BitVec 1) ++ encRM rm) (encV d) (encV a) 0 0 ((0 : BitVec 4) ++ encTy ty ++ k ++ fmt) .none .none)
  | .vCvtW p rm ty d a fmt k => some (mkEnc 0x67 0 p ((0 : BitVec 1) ++ encRM rm) (encV d) (encV a) 0 0 ((0 : BitVec 4) ++ encTy ty ++ k ++ fmt) .none .none)
  | .vLd p px d a disp => some (mkEnc 0x68 0 p 0 (encV d) (encS a) 0 0 disp .none px)
  | .vLdLong p px d a disp => some (mkEnc 0x68 0 p 0 (encV d) (encS a) 0 0 0 (.w32 disp) px)
  | .vLdS p px d a b disp => some (mkEnc 0x68 1 p 0 (encV d) (encS a) (encS b) 0 disp .none px)
  | .vLdSLong p px d a b disp => some (mkEnc 0x68 1 p 0 (encV d) (encS a) (encS b) 0 0 (.w32 disp) px)
  | .vSt p px c a disp => some (mkEnc 0x69 0 p 0 0 (encS a) 0 (encV c) disp .none px)
  | .vStLong p px c a disp => some (mkEnc 0x69 0 p 0 0 (encS a) 0 (encV c) 0 (.w32 disp) px)
  | .vStS p px c a b disp => some (mkEnc 0x69 1 p 0 0 (encS a) (encS b) (encV c) disp .none px)
  | .vStSLong p px c a b disp => some (mkEnc 0x69 1 p 0 0 (encS a) (encS b) (encV c) 0 (.w32 disp) px)
  | .vLdQ p px d a disp => some (mkEnc 0x6A 0 p 0 (encV d) (encQ a) 0 0 disp .none px)
  | .vLdQLong p px d a disp => some (mkEnc 0x6A 0 p 0 (encV d) (encQ a) 0 0 0 (.w32 disp) px)
  | .vLdQS p px d a b disp => some (mkEnc 0x6A 1 p 0 (encV d) (encQ a) (encS b) 0 disp .none px)
  | .vLdQSLong p px d a b disp => some (mkEnc 0x6A 1 p 0 (encV d) (encQ a) (encS b) 0 0 (.w32 disp) px)
  | .vStQ p px c a disp => some (mkEnc 0x6B 0 p 0 0 (encQ a) 0 (encV c) disp .none px)
  | .vStQLong p px c a disp => some (mkEnc 0x6B 0 p 0 0 (encQ a) 0 (encV c) 0 (.w32 disp) px)
  | .vStQS p px c a b disp => some (mkEnc 0x6B 1 p 0 0 (encQ a) (encS b) (encV c) disp .none px)
  | .vStQSLong p px c a b disp => some (mkEnc 0x6B 1 p 0 0 (encQ a) (encS b) (encV c) 0 (.w32 disp) px)
  | .vGath p px d a b sh disp => some (mkEnc 0x6C 0 p ((0 : BitVec 2) ++ sh) (encV d) (encS a) (encV b) 0 disp .none px)
  | .vScat p px c a b sh disp => some (mkEnc 0x6D 0 p ((0 : BitVec 2) ++ sh) 0 (encS a) (encV b) (encV c) disp .none px)
  | .vTdec p px rm int d t a => some (mkEnc 0x6E 0 p ((0 : BitVec 1) ++ encRM rm) (encV d) (encS a) (encS t) 0 ((0 : BitVec 15) ++ encB int) .none px)
  | .vTdecLong p px rm int d t a axis stp => some (mkEnc 0x6E 0 p ((0 : BitVec 1) ++ encRM rm) (encV d) (encS a) (encS t) 0 ((0 : BitVec 15) ++ encB int) (.w32 (stp ++ (0 : BitVec 14) ++ axis)) px)
  | .vTdecQ p px rm int d t a => some (mkEnc 0x6E 1 p ((0 : BitVec 1) ++ encRM rm) (encV d) (encQ a) (encS t) 0 ((0 : BitVec 15) ++ encB int) .none px)
  | .vTdecQLong p px rm int d t a axis stp => some (mkEnc 0x6E 1 p ((0 : BitVec 1) ++ encRM rm) (encV d) (encQ a) (encS t) 0 ((0 : BitVec 15) ++ encB int) (.w32 (stp ++ (0 : BitVec 14) ++ axis)) px)
  | .vTenc p px rm int c t a => some (mkEnc 0x6F 0 p ((0 : BitVec 1) ++ encRM rm) 0 (encS a) (encS t) (encV c) ((0 : BitVec 15) ++ encB int) .none px)
  | .vTencLong p px rm int c t a axis stp => some (mkEnc 0x6F 0 p ((0 : BitVec 1) ++ encRM rm) 0 (encS a) (encS t) (encV c) ((0 : BitVec 15) ++ encB int) (.w32 (stp ++ (0 : BitVec 14) ++ axis)) px)
  | .vTencQ p px rm int c t a => some (mkEnc 0x6F 1 p ((0 : BitVec 1) ++ encRM rm) 0 (encQ a) (encS t) (encV c) ((0 : BitVec 15) ++ encB int) .none px)
  | .vTencQLong p px rm int c t a axis stp => some (mkEnc 0x6F 1 p ((0 : BitVec 1) ++ encRM rm) 0 (encQ a) (encS t) (encV c) ((0 : BitVec 15) ++ encB int) (.w32 (stp ++ (0 : BitVec 14) ++ axis)) px)
  | .mxMma p i32 accz d ta tb c nslm1 h => some (mkEnc 0x90 0 p (encShift accz i32) (encP d) (encS ta) (encS tb) (encS c) (encHen h ++ nslm1) .none .none)
  | .mxMmaLong p i32 accz d ta tb c nslm1 h fa fb => some (mkEnc 0x90 0 p (encShift accz i32) (encP d) (encS ta) (encS tb) (encS c) (encHen h ++ nslm1) (.w32 (fb ++ fa)) .none)
  | .mxMmaQ p i32 accz d ta tb c nslm1 h => some (mkEnc 0x90 1 p (encShift accz i32) (encP d) (encS ta) (encS tb) (encQ c) (encHen h ++ nslm1) .none .none)
  | .mxMmaQLong p i32 accz d ta tb c nslm1 h fa fb => some (mkEnc 0x90 1 p (encShift accz i32) (encP d) (encS ta) (encS tb) (encQ c) (encHen h ++ nslm1) (.w32 (fb ++ fa)) .none)
  | .mxPlane p rm ta tb c nb0m1 nb1m1 h => some (mkEnc 0x91 0 p ((0 : BitVec 1) ++ encRM rm) 0 (encS ta) (encS tb) (encS c) (encHen h ++ nb1m1 ++ nb0m1) .none .none)
  | .mxPlaneLong p rm ta tb c nb0m1 nb1m1 h o0 o1 => some (mkEnc 0x91 0 p ((0 : BitVec 1) ++ encRM rm) 0 (encS ta) (encS tb) (encS c) (encHen h ++ nb1m1 ++ nb0m1) (.w32 (o1 ++ o0)) .none)
  | .mxPlaneQ p rm ta tb c nb0m1 nb1m1 h => some (mkEnc 0x91 1 p ((0 : BitVec 1) ++ encRM rm) 0 (encS ta) (encS tb) (encQ c) (encHen h ++ nb1m1 ++ nb0m1) .none .none)
  | .mxPlaneQLong p rm ta tb c nb0m1 nb1m1 h o0 o1 => some (mkEnc 0x91 1 p ((0 : BitVec 1) ++ encRM rm) 0 (encS ta) (encS tb) (encQ c) (encHen h ++ nb1m1 ++ nb0m1) (.w32 (o1 ++ o0)) .none)
  | .mxUnplane p rm ta tb c nb0m1 nb1m1 h => some (mkEnc 0x92 0 p ((0 : BitVec 1) ++ encRM rm) 0 (encS ta) (encS tb) (encS c) (encHen h ++ nb1m1 ++ nb0m1) .none .none)
  | .mxUnplaneLong p rm ta tb c nb0m1 nb1m1 h o0 o1 => some (mkEnc 0x92 0 p ((0 : BitVec 1) ++ encRM rm) 0 (encS ta) (encS tb) (encS c) (encHen h ++ nb1m1 ++ nb0m1) (.w32 (o1 ++ o0)) .none)
  | .mxUnplaneQ p rm ta tb c nb0m1 nb1m1 h => some (mkEnc 0x92 1 p ((0 : BitVec 1) ++ encRM rm) 0 (encS ta) (encS tb) (encQ c) (encHen h ++ nb1m1 ++ nb0m1) .none .none)
  | .mxUnplaneQLong p rm ta tb c nb0m1 nb1m1 h o0 o1 => some (mkEnc 0x92 1 p ((0 : BitVec 1) ++ encRM rm) 0 (encS ta) (encS tb) (encQ c) (encHen h ++ nb1m1 ++ nb0m1) (.w32 (o1 ++ o0)) .none)
  | .mxSt p rm i32 a tb c h => some (mkEnc 0x93 0 p (encB i32 ++ encRM rm) 0 (encP a) (encS tb) (encS c) (encHen h ++ (0 : BitVec 10)) .none .none)
  | .mxStLong p rm i32 a tb c h f2 f3 => some (mkEnc 0x93 0 p (encB i32 ++ encRM rm) 0 (encP a) (encS tb) (encS c) (encHen h ++ (0 : BitVec 10)) (.w32 (f3 ++ f2)) .none)
  | .mxStQ p rm i32 a tb c h => some (mkEnc 0x93 1 p (encB i32 ++ encRM rm) 0 (encP a) (encS tb) (encQ c) (encHen h ++ (0 : BitVec 10)) .none .none)
  | .mxStQLong p rm i32 a tb c h f2 f3 => some (mkEnc 0x93 1 p (encB i32 ++ encRM rm) 0 (encP a) (encS tb) (encQ c) (encHen h ++ (0 : BitVec 10)) (.w32 (f3 ++ f2)) .none)
  | .mxLd p d a rows h => some (mkEnc 0x94 0 p (encHasH h) (encP d) (encS a) 0 (encOptH h) rows .none .none)
  | .mxZero p d rows => some (mkEnc 0x95 0 p 0 (encP d) 0 0 0 rows .none .none)
  | .mxMask p a => some (mkEnc 0x96 0 p 0 0 (encS a) 0 0 0 .none .none)
  | .mxMaskImm p row col dep => some (mkEnc 0x96 1 p 0 0 0 0 0 dep (.w32 (col ++ row)) .none)
  | .mxMovToVector p d a m => some (mkEnc 0x97 0 p 0 (encV d) (encP a) 0 0 ((0 : BitVec 13) ++ m) .none .none)
  | .mxMovToAcc p d a m => some (mkEnc 0x97 1 p 0 (encP d) (encV a) 0 0 ((0 : BitVec 13) ++ m) .none .none)
  | .mxScr p d => some (mkEnc 0x98 0 p 0 (encS d) 0 0 0 0 .none .none)
  | .mxScrInj p a => some (mkEnc 0x98 1 p 0 0 (encS a) 0 0 0 .none .none)
  | .ldB p px d a disp => some (mkEnc 0xA8 0 p 0 (encS d) (encS a) 0 0 disp .none px)
  | .ldH p px d a disp => some (mkEnc 0xA8 1 p 0 (encS d) (encS a) 0 0 disp .none px)
  | .ldW p px d a disp => some (mkEnc 0xA8 2 p 0 (encS d) (encS a) 0 0 disp .none px)
  | .ldD p px d a disp => some (mkEnc 0xA8 3 p 0 (encS d) (encS a) 0 0 disp .none px)
  | .ldBs p px d a disp => some (mkEnc 0xA8 4 p 0 (encS d) (encS a) 0 0 disp .none px)
  | .ldHs p px d a disp => some (mkEnc 0xA8 5 p 0 (encS d) (encS a) 0 0 disp .none px)
  | .ldWs p px d a disp => some (mkEnc 0xA8 6 p 0 (encS d) (encS a) 0 0 disp .none px)
  | .stB p px a b disp => some (mkEnc 0xA9 0 p 0 0 (encS a) (encS b) 0 disp .none px)
  | .stH p px a b disp => some (mkEnc 0xA9 1 p 0 0 (encS a) (encS b) 0 disp .none px)
  | .stW p px a b disp => some (mkEnc 0xA9 2 p 0 0 (encS a) (encS b) 0 disp .none px)
  | .stD p px a b disp => some (mkEnc 0xA9 3 p 0 0 (encS a) (encS b) 0 disp .none px)
  | .gldB p at' d a disp => some (mkEnc 0xAA 0 p 0 (encS d) (encS a) 0 0 0 (.w32 (disp ++ encAttr at')) .none)
  | .gldH p at' d a disp => some (mkEnc 0xAA 1 p 0 (encS d) (encS a) 0 0 0 (.w32 (disp ++ encAttr at')) .none)
  | .gldW p at' d a disp => some (mkEnc 0xAA 2 p 0 (encS d) (encS a) 0 0 0 (.w32 (disp ++ encAttr at')) .none)
  | .gldD p at' d a disp => some (mkEnc 0xAA 3 p 0 (encS d) (encS a) 0 0 0 (.w32 (disp ++ encAttr at')) .none)
  | .gldBs p at' d a disp => some (mkEnc 0xAA 4 p 0 (encS d) (encS a) 0 0 0 (.w32 (disp ++ encAttr at')) .none)
  | .gldHs p at' d a disp => some (mkEnc 0xAA 5 p 0 (encS d) (encS a) 0 0 0 (.w32 (disp ++ encAttr at')) .none)
  | .gldWs p at' d a disp => some (mkEnc 0xAA 6 p 0 (encS d) (encS a) 0 0 0 (.w32 (disp ++ encAttr at')) .none)
  | .gstB p at' a b disp => some (mkEnc 0xAA 8 p 0 0 (encS a) (encS b) 0 0 (.w32 (disp ++ encAttr at')) .none)
  | .gstH p at' a b disp => some (mkEnc 0xAA 9 p 0 0 (encS a) (encS b) 0 0 (.w32 (disp ++ encAttr at')) .none)
  | .gstW p at' a b disp => some (mkEnc 0xAA 10 p 0 0 (encS a) (encS b) 0 0 (.w32 (disp ++ encAttr at')) .none)
  | .gstD p at' a b disp => some (mkEnc 0xAA 11 p 0 0 (encS a) (encS b) 0 0 (.w32 (disp ++ encAttr at')) .none)
  | .staMap p px keep a b e z => some (mkEnc 0xAB 0 p (encBit keep) 0 (encS a) (encS b) 0 ((0 : BitVec 5) ++ z ++ e) .none px)
  | .staMapLong p px keep a b e z disp => some (mkEnc 0xAB 0 p (encBit keep) 0 (encS a) (encS b) 0 ((0 : BitVec 5) ++ z ++ e) (.w32 disp) px)
  | .staFill p px e h => some (mkEnc 0xAB 1 p (encHasH h) (encOptH h) 0 0 0 ((0 : BitVec 8) ++ e) .none px)
  | .staDrop p px discard e => some (mkEnc 0xAB 2 p (encBit discard) 0 0 0 0 ((0 : BitVec 8) ++ e) .none px)
  | .staWb p px e h => some (mkEnc 0xAB 3 p (encHasH h) (encOptH h) 0 0 0 ((0 : BitVec 8) ++ e) .none px)
  | .staTest p px d e => some (mkEnc 0xAB 4 p 0 (encS d) 0 0 0 ((0 : BitVec 8) ++ e) .none px)
  | .stFarB p at' a b c => some (mkEnc 0xAC 0 p 0 0 (encS a) (encS b) (encS c) 0 (.w32 ((0 : BitVec 24) ++ encAttr at')) .none)
  | .stFarH p at' a b c => some (mkEnc 0xAC 1 p 0 0 (encS a) (encS b) (encS c) 0 (.w32 ((0 : BitVec 24) ++ encAttr at')) .none)
  | .stFarW p at' a b c => some (mkEnc 0xAC 2 p 0 0 (encS a) (encS b) (encS c) 0 (.w32 ((0 : BitVec 24) ++ encAttr at')) .none)
  | .stFarD p at' a b c => some (mkEnc 0xAC 3 p 0 0 (encS a) (encS b) (encS c) 0 (.w32 ((0 : BitVec 24) ++ encAttr at')) .none)
  | .cpGet p at' a b len h => some (mkEnc 0xAD 0 p (encHasH h) (encOptH h) (encS a) (encS b) 0 0 (.w32 (len ++ encAttr at')) .none)
  | .cpGetMc p at' a b len cmask h => some (mkEnc 0xAD 0 p (encHasH h) (encOptH h) (encS a) (encS b) 0 0 (.w64 ((0 : BitVec 16) ++ cmask ++ len ++ encAttr at')) .none)
  | .cpPut p at' a b len h => some (mkEnc 0xAD 1 p (encHasH h) (encOptH h) (encS a) (encS b) 0 0 (.w32 (len ++ encAttr at')) .none)
  | .cpDeferGet p at' a b len h => some (mkEnc 0xAD 2 p (encHasH h) (encOptH h) (encS a) (encS b) 0 0 (.w32 (len ++ encAttr at')) .none)
  | .cpDeferPut p at' a b len h => some (mkEnc 0xAD 2 p (encHasH h ||| 2) (encOptH h) (encS a) (encS b) 0 0 (.w32 (len ++ encAttr at')) .none)
  | .cpCvt p at' rm ta tb c n0 n1 h => some (mkEnc 0xAD 3 p (encHasH h) (encOptH h) (encS ta) (encS tb) (encS c) 0 (.w64 (n1 ++ n0 ++ (0 : BitVec 21) ++ encRM rm ++ encAttr at')) .none)
  | .futWait p d a => some (mkEnc 0xAE 0 p 0 (encS d) (encH a) 0 0 0 .none .none)
  | .futTest p d a => some (mkEnc 0xAE 1 p 0 (encS d) (encH a) 0 0 0 .none .none)
  | .futPass p d a t => some (mkEnc 0xAE 2 p 0 (encH d) (encH a) 0 0 ((0 : BitVec 14) ++ t) .none .none)
  | .futCancel p a => some (mkEnc 0xAE 3 p 0 0 (encH a) 0 0 0 .none .none)
  | .wdAsk p d a km1 => some (mkEnc 0xAF 0 p 0 (encH d) (encS a) 0 0 ((0 : BitVec 4) ++ km1) .none .none)
  | .wdAskLong p d a km1 disp => some (mkEnc 0xAF 0 p 0 (encH d) (encS a) 0 0 ((0 : BitVec 4) ++ km1) (.w32 disp) .none)
  | .tgLd p px take d a disp => some (mkEnc 0xC0 0 p (encBit take) (encS d) (encS a) 0 0 disp .none px)
  | .tgSt p px a b disp => some (mkEnc 0xC0 1 p 0 0 (encS a) (encS b) 0 disp .none px)
  | .tgSet p px d a disp => some (mkEnc 0xC0 2 p 0 (encS d) (encS a) 0 0 disp .none px)
  | .tgClr p px d a disp => some (mkEnc 0xC0 3 p 0 (encS d) (encS a) 0 0 disp .none px)
  | .barArr p d => some (mkEnc 0xC1 0 p 0 (encS d) 0 0 0 0 .none .none)
  | .barWait p => some (mkEnc 0xC1 1 p 1 0 0 0 0 0 .none .none)
  | .barWaitGen p a => some (mkEnc 0xC1 1 p 0 0 (encS a) 0 0 0 .none .none)
  | .barTest p d a => some (mkEnc 0xC1 2 p 0 (encS d) (encS a) 0 0 0 .none .none)
  | .step lvl => some (mkEnc 0xC2 0 Pred.always (encLvl lvl) 0 0 0 0 0 .none .none)
  | .fence p at' => some (mkEnc 0xC3 0 p 0 0 0 0 0 ((0 : BitVec 8) ++ encAttr at') .none .none)
  | .atSwap p at' dw d a b disp => some (mkEnc 0xC4 0 p (encBit dw) (encS d) (encS a) (encS b) 0 0 (.w32 (disp ++ encAttr at')) .none)
  | .atCas p at' dw d a b c disp => some (mkEnc 0xC4 1 p (encBit dw) (encS d) (encS a) (encS b) (encS c) 0 (.w32 (disp ++ encAttr at')) .none)
  | .atAdd p at' dw d a b disp => some (mkEnc 0xC4 2 p (encBit dw) (encS d) (encS a) (encS b) 0 0 (.w32 (disp ++ encAttr at')) .none)
  | .atAnd p at' dw d a b disp => some (mkEnc 0xC4 3 p (encBit dw) (encS d) (encS a) (encS b) 0 0 (.w32 (disp ++ encAttr at')) .none)
  | .atOr p at' dw d a b disp => some (mkEnc 0xC4 4 p (encBit dw) (encS d) (encS a) (encS b) 0 0 (.w32 (disp ++ encAttr at')) .none)
  | .atXor p at' dw d a b disp => some (mkEnc 0xC4 5 p (encBit dw) (encS d) (encS a) (encS b) 0 0 (.w32 (disp ++ encAttr at')) .none)
  | .atMin p at' dw d a b disp => some (mkEnc 0xC4 6 p (encBit dw) (encS d) (encS a) (encS b) 0 0 (.w32 (disp ++ encAttr at')) .none)
  | .atMax p at' dw d a b disp => some (mkEnc 0xC4 7 p (encBit dw) (encS d) (encS a) (encS b) 0 0 (.w32 (disp ++ encAttr at')) .none)
  | .atMinu p at' dw d a b disp => some (mkEnc 0xC4 8 p (encBit dw) (encS d) (encS a) (encS b) 0 0 (.w32 (disp ++ encAttr at')) .none)
  | .atMaxu p at' dw d a b disp => some (mkEnc 0xC4 9 p (encBit dw) (encS d) (encS a) (encS b) 0 0 (.w32 (disp ++ encAttr at')) .none)
  | .atFadd p at' d a b disp => some (mkEnc 0xC4 10 p 0 (encS d) (encS a) (encS b) 0 0 (.w32 (disp ++ encAttr at')) .none)
  | .redAdd p at' dw a b disp => some (mkEnc 0xC5 2 p (encBit dw) 0 (encS a) (encS b) 0 0 (.w32 (disp ++ encAttr at')) .none)
  | .redAnd p at' dw a b disp => some (mkEnc 0xC5 3 p (encBit dw) 0 (encS a) (encS b) 0 0 (.w32 (disp ++ encAttr at')) .none)
  | .redOr p at' dw a b disp => some (mkEnc 0xC5 4 p (encBit dw) 0 (encS a) (encS b) 0 0 (.w32 (disp ++ encAttr at')) .none)
  | .redXor p at' dw a b disp => some (mkEnc 0xC5 5 p (encBit dw) 0 (encS a) (encS b) 0 0 (.w32 (disp ++ encAttr at')) .none)
  | .redMin p at' dw a b disp => some (mkEnc 0xC5 6 p (encBit dw) 0 (encS a) (encS b) 0 0 (.w32 (disp ++ encAttr at')) .none)
  | .redMax p at' dw a b disp => some (mkEnc 0xC5 7 p (encBit dw) 0 (encS a) (encS b) 0 0 (.w32 (disp ++ encAttr at')) .none)
  | .redMinu p at' dw a b disp => some (mkEnc 0xC5 8 p (encBit dw) 0 (encS a) (encS b) 0 0 (.w32 (disp ++ encAttr at')) .none)
  | .redMaxu p at' dw a b disp => some (mkEnc 0xC5 9 p (encBit dw) 0 (encS a) (encS b) 0 0 (.w32 (disp ++ encAttr at')) .none)
  | .redFadd p at' a b disp => some (mkEnc 0xC5 10 p 0 0 (encS a) (encS b) 0 0 (.w32 (disp ++ encAttr at')) .none)
  | .wqWait p at' d a b disp => some (mkEnc 0xC6 0 p 0 (encS d) (encS a) (encS b) 0 0 (.w32 (disp ++ encAttr at')) .none)
  | .wqWake p at' d a b c disp => some (mkEnc 0xC6 1 p (encHasS c) (encS d) (encS a) (encS b) (encOptS c) 0 (.w32 (disp ++ encAttr at')) .none)
  | .sigSend p a b => some (mkEnc 0xC7 0 p 0 0 (encS a) (encS b) 0 0 .none .none)
  | .sigTake p poll d => some (mkEnc 0xC7 1 p (encBit poll) (encS d) 0 0 0 0 .none .none)
  | .cont yield lives livev r0 r1 r2 r3 => some (mkEnc 0xD8 0 Pred.always (encBit yield) ((encRng r2).extractLsb' 0 6) ((encRng r2).extractLsb' 6 6) ((encRng r3).extractLsb' 0 6) ((encRng r3).extractLsb' 6 6) livev (.w64 (lives ++ (0 : BitVec 8) ++ encRng r1 ++ encRng r0)) .none)
  | .spawn p d a b disp => some (mkEnc 0xD9 0 p 0 (encS d) (encS a) (encS b) 0 0 (.w32 disp) .none)
  | .budAdd p mem d a => some (mkEnc 0xDA 0 p (encBit mem) (encS d) (encS a) 0 0 0 .none .none)
  | .budGive p mem d a b => some (mkEnc 0xDA 1 p (encBit mem) (encS d) (encS a) (encS b) 0 0 .none .none)
  | .leaseReq p l a => some (mkEnc 0xDB 0 p (encLease l) 0 (encS a) 0 0 0 .none .none)
  | .leaseReqImm p l dur => some (mkEnc 0xDB 0 p (encLease l) 0 0 0 0 0 (.w32 ((0 : BitVec 16) ++ dur)) .none)
  | .leaseEnd p => some (mkEnc 0xDB 1 p 0 0 0 0 0 0 .none .none)
  | .leaseTest p d => some (mkEnc 0xDB 2 p 0 (encS d) 0 0 0 0 .none .none)
  | .trap p a code => some (mkEnc 0xDC 0 p 0 0 (encS a) 0 0 code .none .none)
  | .supResume p d a b => some (mkEnc 0xDD 0 p 0 (encS d) (encS a) (encS b) 0 0 .none .none)
  | .supRestart p alt d a b => some (mkEnc 0xDD 1 p (encBit alt) (encS d) (encS a) (encS b) 0 0 .none .none)
  | .supAbort p gang d a b detail => some (mkEnc 0xDD 2 p (encBit gang) (encS d) (encS a) (encS b) 0 ((0 : BitVec 8) ++ detail) .none .none)
  | .scrRun p full d a b => some (mkEnc 0xDE 0 p (encBit full) (encH d) (encS a) (encS b) 0 0 .none .none)
  | .scrStat p d a => some (mkEnc 0xDE 1 p 0 (encS d) (encS a) 0 0 0 .none .none)
  | .deviceReset _ _ => none
  | .realignResume _ _ => none
  | .fetchRequestServe _ => none
  | .mxCommandStart _ _ => none
  | .mxCommandComplete _ _ => none
  | .stashFillComplete _ _ _ => none
  | .stashWritebackComplete _ _ _ => none
  | .copyComplete _ _ => none
  | .asyncFaultFreeze _ _ => none
  | .wdAskComplete _ => none
  | .tagWaitRetest _ _ => none
  | .barrierPhaseComplete _ _ => none
  | .dataMovementPhase _ _ _ => none
  | .checkpointCommit _ => none
  | .phaseRelease _ _ _ => none
  | .reductionPerform _ => none
  | .signalDelivery _ _ => none
  | .allAsleepTrap _ => none
  | .permitAudit _ _ _ _ _ => none
  | .saveComplete _ => none
  | .budgetFault _ _ => none
  | .graceDecay _ _ => none
  | .leasePeriodEnd _ => none
  | .zoneHardLimit _ _ => none
  | .zoneRefreezeChange _ _ => none
  | .heldPacketWrite _ _ => none
  | .watchdogTick _ => none
  | .watchdogExpiry _ => none
  | .scrTestComplete _ _ _ => none
  | .testLeaveComplete _ => none
  | .infieldTestComplete _ _ _ _ => none
  | .routineRotation => none
  | .forcedRotation _ => none
  | .rotationQuiescent _ => none
  | .drainTimeout _ => none
  | .stateCopyComplete _ => none
  | .stateCopyError _ _ => none
  | .tableUpdateCommit _ => none
  | .tableUpdateReject _ _ => none
  | .replay _ _ => none
  | .journalFold _ _ => none
  | .retentionEntry _ => none
  | .ageingDecay => none
  | .ageingSnapshot => none
  | .doorbell _ _ => none
  | .queueCreate _ _ _ => none
  | .queueDestroy _ _ => none
  | .queueRestart _ _ => none
  | .queueCredit _ _ _ _ => none
  | .queueClose _ => none
  | .recordRead _ => none
  | .seqRetry _ => none
  | .dependenceReread _ => none
  | .selectionRound => none
  | .recordReserving _ => none
  | .bind _ _ _ => none
  | .release _ _ => none
  | .preempt _ _ => none
  | .scrubComplete _ _ => none
  | .gangRetire _ => none
  | .translationInvalidate => none
  | .partitionDescriptorWrite _ _ => none
  | .savePoolWrite _ _ _ => none
  | .faultRingWrite _ _ _ => none
  | .frheadWrite _ _ => none
  | .drain _ => none
  | .reset _ => none
  | .undrain _ => none
  | .debugWindowWrite _ _ _ _ => none
  | .sepiaClr _ _ => none
  | .eventStreamWrite _ _ _ => none
  | .evheadWrite _ _ => none
  | .pcSample _ _ => none
  | .registerWrite _ _ _ _ => none
  | .bar2Read _ _ => none
  | .bar2Write _ _ => none
  | .portLinkUp _ _ => none
  | .portRingEnable _ _ _ => none
  | .portDoorbell _ _ _ => none
  | .descriptorStart _ _ => none
  | .descriptorComplete _ _ _ => none
  | .inboundWrite _ _ _ _ _ _ => none
  | .firmwareChunkWrite => none
  | .firmwareCommit _ => none
  | .attestation => none
  | .attestationReportReady => none
  | .hbmTempRead _ _ => none
  | .sliceFailure _ _ => none
  | .copyCommandStart _ => none
  | .patrolScrub _ _ => none
  | .softError _ => none
  | .portLinkDown _ => none

/-- The rows of OPC 0x00 (06 R118). -/
def cand00 (f : Fields) (e : Ext) : Option Instr :=
  match f.fn.toNat, e with
  | 0, .none => some (.nop)
  | 1, .none => some (.pad)
  | _, _ => none

/-- The rows of OPC 0x01 (06 R118). -/
def cand01 (f : Fields) (e : Ext) : Option Instr :=
  match f.fn.toNat, e with
  | 0, .none => some (.br f.pred f.imm)
  | 0, .w32 w => some (.brLong f.pred w)
  | 1, .none => some (.brReg f.pred (decS f.a))
  | _, _ => none

/-- The rows of OPC 0x02 (06 R118). -/
def cand02 (f : Fields) (e : Ext) : Option Instr :=
  match f.fn.toNat, e with
  | 0, .none => some (.brC f.pred (decCond f.x) (decS f.a) (decS f.b) f.imm)
  | 0, .w32 w => some (.brCLong f.pred (decCond f.x) (decS f.a) (decS f.b) w)
  | 1, .w32 w => some (.brCImm f.pred (decCond f.x) (decS f.a) f.imm w)
  | _, _ => none

/-- The rows of OPC 0x03 (06 R118). -/
def cand03 (f : Fields) (e : Ext) : Option Instr :=
  match f.fn.toNat, e with
  | 0, .none => some (.call f.pred (decS f.d) f.imm)
  | 0, .w32 w => some (.callLong f.pred (decS f.d) w)
  | 1, .none => some (.callReg f.pred (decS f.d) (decS f.a))
  | 2, .none => some (.ret f.pred (decS f.a))
  | _, _ => none

/-- The rows of OPC 0x04 (06 R118). -/
def cand04 (f : Fields) (e : Ext) : Option Instr :=
  match f.fn.toNat, e with
  | 0, .none => some (.halt f.pred)
  | _, _ => none

/-- The rows of OPC 0x05 (06 R118). -/
def cand05 (f : Fields) (e : Ext) : Option Instr :=
  match f.fn.toNat, e with
  | 0, .none => some (.realign f.pred (decS f.a))
  | _, _ => none

/-- The rows of OPC 0x06 (06 R118). -/
def cand06 (f : Fields) (e : Ext) : Option Instr :=
  match f.fn.toNat, e with
  | 0, .none => some (.loop f.pred (decS f.a) f.imm)
  | 1, .w32 w => some (.loopImm f.pred f.imm w)
  | 2, .none => some (.loopEnd f.pred)
  | _, _ => none

/-- The rows of OPC 0x07 (06 R118). -/
def cand07 (f : Fields) (e : Ext) : Option Instr :=
  match f.fn.toNat, e with
  | 0, .none => some (.rep f.pred (decS f.a) (decRep f.x f.imm))
  | 1, .w32 w => some (.repImm f.pred w (decRep f.x f.imm))
  | _, _ => none

/-- The rows of OPC 0x08 (06 R118). -/
def cand08 (f : Fields) (e : Ext) : Option Instr :=
  match f.fn.toNat, e with
  | 0, .none => some (.qPush f.pred (decQ f.d) (decS f.a))
  | 1, .none => some (.qEos f.pred (decQ f.d))
  | 2, .none => some (.qPop f.pred (decS f.d) (decQ f.a))
  | 3, .none => some (.qPeek f.pred (decS f.d) (decQ f.a))
  | 4, .none => some (.qTest f.pred (decS f.d) (decQ f.a))
  | _, _ => none

/-- The rows of OPC 0x20 (06 R118). -/
def cand20 (f : Fields) (e : Ext) : Option Instr :=
  match f.fn.toNat, e with
  | 0, .none => some (.add f.pred (decAlu f.x) (decS f.d) (decS f.a) (decS f.b))
  | 1, .none => some (.sub f.pred (decAlu f.x) (decS f.d) (decS f.a) (decS f.b))
  | 2, .none => some (.addImm f.pred (decAlu f.x) (decS f.d) (decS f.a) f.imm)
  | 2, .w32 w => some (.addImmLong f.pred (decAlu f.x) (decS f.d) (decS f.a) w)
  | 3, .none => some (.subImm f.pred (decAlu f.x) (decS f.d) (decS f.a) f.imm)
  | 3, .w32 w => some (.subImmLong f.pred (decAlu f.x) (decS f.d) (decS f.a) w)
  | _, _ => none

/-- The rows of OPC 0x21 (06 R118). -/
def cand21 (f : Fields) (e : Ext) : Option Instr :=
  match f.fn.toNat, e with
  | 0, .none => some (.mul f.pred (decAlu f.x) (decS f.d) (decS f.a) (decS f.b))
  | 1, .none => some (.mulh f.pred (decMulh f.x) (decS f.d) (decS f.a) (decS f.b))
  | _, _ => none

/-- The rows of OPC 0x22 (06 R118). -/
def cand22 (f : Fields) (e : Ext) : Option Instr :=
  match f.fn.toNat, e with
  | 0, .none => some (.div f.pred (f.x.getLsbD 0) (decS f.d) (decS f.a) (decS f.b))
  | 1, .none => some (.divU f.pred (f.x.getLsbD 0) (decS f.d) (decS f.a) (decS f.b))
  | 2, .none => some (.rem f.pred (f.x.getLsbD 0) (decS f.d) (decS f.a) (decS f.b))
  | 3, .none => some (.remU f.pred (f.x.getLsbD 0) (decS f.d) (decS f.a) (decS f.b))
  | _, _ => none

/-- The rows of OPC 0x23 (06 R118). -/
def cand23 (f : Fields) (e : Ext) : Option Instr :=
  match f.fn.toNat, e with
  | 0, .none => some (.min f.pred (decS f.d) (decS f.a) (decS f.b))
  | 1, .none => some (.max f.pred (decS f.d) (decS f.a) (decS f.b))
  | 2, .none => some (.minU f.pred (decS f.d) (decS f.a) (decS f.b))
  | 3, .none => some (.maxU f.pred (decS f.d) (decS f.a) (decS f.b))
  | 4, .none => some (.abs f.pred (f.x.getLsbD 0) (decS f.d) (decS f.a))
  | 5, .none => some (.neg f.pred (f.x.getLsbD 0) (decS f.d) (decS f.a))
  | _, _ => none

/-- The rows of OPC 0x24 (06 R118). -/
def cand24 (f : Fields) (e : Ext) : Option Instr :=
  match f.fn.toNat, e with
  | 0, .none => some (.and f.pred (decS f.d) (decS f.a) (decS f.b))
  | 1, .none => some (.or f.pred (decS f.d) (decS f.a) (decS f.b))
  | 2, .none => some (.xor f.pred (decS f.d) (decS f.a) (decS f.b))
  | 3, .none => some (.andn f.pred (decS f.d) (decS f.a) (decS f.b))
  | 4, .none => some (.not f.pred (decS f.d) (decS f.a))
  | 5, .none => some (.andImm f.pred (decS f.d) (decS f.a) f.imm)
  | 5, .w32 w => some (.andImmLong f.pred (decS f.d) (decS f.a) w)
  | 6, .none => some (.orImm f.pred (decS f.d) (decS f.a) f.imm)
  | 6, .w32 w => some (.orImmLong f.pred (decS f.d) (decS f.a) w)
  | 7, .none => some (.xorImm f.pred (decS f.d) (decS f.a) f.imm)
  | 7, .w32 w => some (.xorImmLong f.pred (decS f.d) (decS f.a) w)
  | _, _ => none

/-- The rows of OPC 0x25 (06 R118). -/
def cand25 (f : Fields) (e : Ext) : Option Instr :=
  match f.fn.toNat, e with
  | 0, .none => some (if f.x.getLsbD 0 = false then .shl f.pred (f.x.getLsbD 1) (decS f.d) (decS f.a) (decS f.b) else .shlImm f.pred (f.x.getLsbD 1) (decS f.d) (decS f.a) (f.imm.extractLsb' 0 6))
  | 1, .none => some (if f.x.getLsbD 0 = false then .shr f.pred (f.x.getLsbD 1) (decS f.d) (decS f.a) (decS f.b) else .shrImm f.pred (f.x.getLsbD 1) (decS f.d) (decS f.a) (f.imm.extractLsb' 0 6))
  | 2, .none => some (if f.x.getLsbD 0 = false then .sar f.pred (f.x.getLsbD 1) (decS f.d) (decS f.a) (decS f.b) else .sarImm f.pred (f.x.getLsbD 1) (decS f.d) (decS f.a) (f.imm.extractLsb' 0 6))
  | 3, .none => some (if f.x.getLsbD 0 = false then .rot f.pred (f.x.getLsbD 1) (decS f.d) (decS f.a) (decS f.b) else .rotImm f.pred (f.x.getLsbD 1) (decS f.d) (decS f.a) (f.imm.extractLsb' 0 6))
  | _, _ => none

/-- The rows of OPC 0x26 (06 R118). -/
def cand26 (f : Fields) (e : Ext) : Option Instr :=
  match f.fn.toNat, e with
  | 0, .none => some (.cmpP f.pred (decCond f.x) (decP f.d) (decS f.a) (decS f.b))
  | 1, .none => some (.cmpPImm f.pred (decCond f.x) (decP f.d) (decS f.a) f.imm)
  | 1, .w32 w => some (.cmpPImmLong f.pred (decCond f.x) (decP f.d) (decS f.a) w)
  | 2, .none => some (.cmpS f.pred (decCond f.x) (decS f.d) (decS f.a) (decS f.b))
  | 3, .none => some (.cmpSImm f.pred (decCond f.x) (decS f.d) (decS f.a) f.imm)
  | 3, .w32 w => some (.cmpSImmLong f.pred (decCond f.x) (decS f.d) (decS f.a) w)
  | _, _ => none

/-- The rows of OPC 0x27 (06 R118). -/
def cand27 (f : Fields) (e : Ext) : Option Instr :=
  match f.fn.toNat, e with
  | 0, .none => some (.selP f.pred (decS f.d) (decS f.a) (decS f.b) (decP f.c))
  | 1, .none => some (.selS f.pred (decS f.d) (decS f.a) (decS f.b) (decS f.c))
  | _, _ => none

/-- The rows of OPC 0x28 (06 R118). -/
def cand28 (f : Fields) (e : Ext) : Option Instr :=
  match f.fn.toNat, e with
  | 0, .none => some (.bfX f.pred (f.x.getLsbD 0) (decS f.d) (decS f.a) (f.imm.extractLsb' 0 6) (f.imm.extractLsb' 6 6))
  | 1, .none => some (.bfI f.pred (decS f.d) (decS f.a) (f.imm.extractLsb' 0 6) (f.imm.extractLsb' 6 6))
  | 2, .none => some (.clz f.pred (f.x.getLsbD 0) (decS f.d) (decS f.a))
  | 3, .none => some (.ctz f.pred (f.x.getLsbD 0) (decS f.d) (decS f.a))
  | 4, .none => some (.popc f.pred (f.x.getLsbD 0) (decS f.d) (decS f.a))
  | _, _ => none

/-- The rows of OPC 0x29 (06 R118). -/
def cand29 (f : Fields) (e : Ext) : Option Instr :=
  match f.fn.toNat, e with
  | 0, .none => some (.lea f.pred (f.x.extractLsb' 0 3) (decS f.d) (decS f.a) (decS f.b) f.imm)
  | 0, .w32 w => some (.leaLong f.pred (f.x.extractLsb' 0 3) (decS f.d) (decS f.a) (decS f.b) w)
  | 1, .w32 w => some (.leaPc f.pred (decS f.d) w)
  | _, _ => none

/-- The rows of OPC 0x2A (06 R118). -/
def cand2A (f : Fields) (e : Ext) : Option Instr :=
  match f.fn.toNat, e with
  | 0, .none => some (.pAnd f.pred (decP f.d) (decP f.a) (decP f.b))
  | 1, .none => some (.pOr f.pred (decP f.d) (decP f.a) (decP f.b))
  | 2, .none => some (.pXor f.pred (decP f.d) (decP f.a) (decP f.b))
  | 3, .none => some (.pNot f.pred (decP f.d) (decP f.a))
  | 4, .none => some (.pMov f.pred (decP f.d) (decP f.a))
  | 5, .none => some (.pMovFromScalar f.pred (decP f.d) (decS f.a))
  | 6, .none => some (.pMovToScalar f.pred (decS f.d) (decP f.a))
  | _, _ => none

/-- The rows of OPC 0x2B (06 R118). -/
def cand2B (f : Fields) (e : Ext) : Option Instr :=
  match f.fn.toNat, e with
  | 0, .none => some (.csrRd f.pred (decS f.d) (f.imm.extractLsb' 0 12))
  | 1, .none => some (.csrWr f.pred (decS f.d) (decS f.a) (f.imm.extractLsb' 0 12))
  | 2, .none => some (.csrSet f.pred (decS f.d) (decS f.a) (f.imm.extractLsb' 0 12))
  | 3, .none => some (.csrClr f.pred (decS f.d) (decS f.a) (f.imm.extractLsb' 0 12))
  | _, _ => none

/-- The rows of OPC 0x2C (06 R118). -/
def cand2C (f : Fields) (e : Ext) : Option Instr :=
  match f.fn.toNat, e with
  | 0, .w32 w => some (.li f.pred (decS f.d) w)
  | 0, .w64 w => some (.liLong f.pred (decS f.d) w)
  | _, _ => none

/-- The rows of OPC 0x50 (06 R118). -/
def cand50 (f : Fields) (e : Ext) : Option Instr :=
  match f.fn.toNat, e with
  | 0, .none => some (.vAdd f.pred (decVw (f.x.extractLsb' 2 2)) (decVm (f.x.extractLsb' 0 2)) (decV f.d) (decV f.a) (decV f.b))
  | 1, .none => some (.vSub f.pred (decVw (f.x.extractLsb' 2 2)) (decVm (f.x.extractLsb' 0 2)) (decV f.d) (decV f.a) (decV f.b))
  | 2, .none => some (.vMul f.pred (decVw (f.x.extractLsb' 2 2)) (decVm (f.x.extractLsb' 0 2)) (decV f.d) (decV f.a) (decV f.b))
  | 3, .none => some (.vMulh f.pred (decVw (f.x.extractLsb' 2 2)) (decVm (f.x.extractLsb' 0 2)) (decV f.d) (decV f.a) (decV f.b))
  | 4, .none => some (.vMac f.pred (decVw (f.x.extractLsb' 2 2)) (decVm (f.x.extractLsb' 0 2)) (decV f.d) (decV f.a) (decV f.b))
  | 5, .none => some (.vMin f.pred (decVw (f.x.extractLsb' 2 2)) (decVm (f.x.extractLsb' 0 2)) (decV f.d) (decV f.a) (decV f.b))
  | 6, .none => some (.vMax f.pred (decVw (f.x.extractLsb' 2 2)) (decVm (f.x.extractLsb' 0 2)) (decV f.d) (decV f.a) (decV f.b))
  | 7, .none => some (.vAbs f.pred (decVw (f.x.extractLsb' 2 2)) (decVm (f.x.extractLsb' 0 2)) (decV f.d) (decV f.a))
  | 8, .none => some (.vNeg f.pred (decVw (f.x.extractLsb' 2 2)) (decVm (f.x.extractLsb' 0 2)) (decV f.d) (decV f.a))
  | _, _ => none

/-- The rows of OPC 0x51 (06 R118). -/
def cand51 (f : Fields) (e : Ext) : Option Instr :=
  match f.fn.toNat, e with
  | 0, .none => some (.vAddScalar f.pred (decVw (f.x.extractLsb' 2 2)) (decVm (f.x.extractLsb' 0 2)) (decV f.d) (decV f.a) (decS f.b))
  | 1, .none => some (.vSubScalar f.pred (decVw (f.x.extractLsb' 2 2)) (decVm (f.x.extractLsb' 0 2)) (decV f.d) (decV f.a) (decS f.b))
  | 2, .none => some (.vMulScalar f.pred (decVw (f.x.extractLsb' 2 2)) (decVm (f.x.extractLsb' 0 2)) (decV f.d) (decV f.a) (decS f.b))
  | 3, .none => some (.vMulhScalar f.pred (decVw (f.x.extractLsb' 2 2)) (decVm (f.x.extractLsb' 0 2)) (decV f.d) (decV f.a) (decS f.b))
  | 4, .none => some (.vMacScalar f.pred (decVw (f.x.extractLsb' 2 2)) (decVm (f.x.extractLsb' 0 2)) (decV f.d) (decV f.a) (decS f.b))
  | 5, .none => some (.vMinScalar f.pred (decVw (f.x.extractLsb' 2 2)) (decVm (f.x.extractLsb' 0 2)) (decV f.d) (decV f.a) (decS f.b))
  | 6, .none => some (.vMaxScalar f.pred (decVw (f.x.extractLsb' 2 2)) (decVm (f.x.extractLsb' 0 2)) (decV f.d) (decV f.a) (decS f.b))
  | _, _ => none

/-- The rows of OPC 0x52 (06 R118). -/
def cand52 (f : Fields) (e : Ext) : Option Instr :=
  match f.fn.toNat, e with
  | 0, .none => some (.vAddImm f.pred (decVw (f.x.extractLsb' 2 2)) (decVm (f.x.extractLsb' 0 2)) (decV f.d) (decV f.a) f.imm)
  | 0, .w32 w => some (.vAddImmLong f.pred (decVw (f.x.extractLsb' 2 2)) (decVm (f.x.extractLsb' 0 2)) (decV f.d) (decV f.a) w)
  | 1, .none => some (.vSubImm f.pred (decVw (f.x.extractLsb' 2 2)) (decVm (f.x.extractLsb' 0 2)) (decV f.d) (decV f.a) f.imm)
  | 1, .w32 w => some (.vSubImmLong f.pred (decVw (f.x.extractLsb' 2 2)) (decVm (f.x.extractLsb' 0 2)) (decV f.d) (decV f.a) w)
  | 2, .none => some (.vMulImm f.pred (decVw (f.x.extractLsb' 2 2)) (decVm (f.x.extractLsb' 0 2)) (decV f.d) (decV f.a) f.imm)
  | 2, .w32 w => some (.vMulImmLong f.pred (decVw (f.x.extractLsb' 2 2)) (decVm (f.x.extractLsb' 0 2)) (decV f.d) (decV f.a) w)
  | 5, .none => some (.vMinImm f.pred (decVw (f.x.extractLsb' 2 2)) (decVm (f.x.extractLsb' 0 2)) (decV f.d) (decV f.a) f.imm)
  | 5, .w32 w => some (.vMinImmLong f.pred (decVw (f.x.extractLsb' 2 2)) (decVm (f.x.extractLsb' 0 2)) (decV f.d) (decV f.a) w)
  | 6, .none => some (.vMaxImm f.pred (decVw (f.x.extractLsb' 2 2)) (decVm (f.x.extractLsb' 0 2)) (decV f.d) (decV f.a) f.imm)
  | 6, .w32 w => some (.vMaxImmLong f.pred (decVw (f.x.extractLsb' 2 2)) (decVm (f.x.extractLsb' 0 2)) (decV f.d) (decV f.a) w)
  | _, _ => none

/-- The rows of OPC 0x54 (06 R118). -/
def cand54 (f : Fields) (e : Ext) : Option Instr :=
  match f.fn.toNat, e with
  | 0, .none => some (.vAnd f.pred (decV f.d) (decV f.a) (decV f.b))
  | 1, .none => some (.vOr f.pred (decV f.d) (decV f.a) (decV f.b))
  | 2, .none => some (.vXor f.pred (decV f.d) (decV f.a) (decV f.b))
  | 3, .none => some (.vAndn f.pred (decV f.d) (decV f.a) (decV f.b))
  | 4, .none => some (.vNot f.pred (decV f.d) (decV f.a))
  | _, _ => none

/-- The rows of OPC 0x55 (06 R118). -/
def cand55 (f : Fields) (e : Ext) : Option Instr :=
  match f.fn.toNat, e with
  | 0, .none => some (if f.x.getLsbD 0 = false then .vShl f.pred (decVw (f.x.extractLsb' 2 2)) (decV f.d) (decV f.a) (decV f.b) else .vShlImm f.pred (decVw (f.x.extractLsb' 2 2)) (decV f.d) (decV f.a) (f.imm.extractLsb' 0 5))
  | 1, .none => some (if f.x.getLsbD 0 = false then .vShr f.pred (decVw (f.x.extractLsb' 2 2)) (decV f.d) (decV f.a) (decV f.b) else .vShrImm f.pred (decVw (f.x.extractLsb' 2 2)) (decV f.d) (decV f.a) (f.imm.extractLsb' 0 5))
  | 2, .none => some (if f.x.getLsbD 0 = false then .vSar f.pred (decVw (f.x.extractLsb' 2 2)) (decV f.d) (decV f.a) (decV f.b) else .vSarImm f.pred (decVw (f.x.extractLsb' 2 2)) (decV f.d) (decV f.a) (f.imm.extractLsb' 0 5))
  | 3, .none => some (if f.x.getLsbD 0 = false then .vRot f.pred (decVw (f.x.extractLsb' 2 2)) (decV f.d) (decV f.a) (decV f.b) else .vRotImm f.pred (decVw (f.x.extractLsb' 2 2)) (decV f.d) (decV f.a) (f.imm.extractLsb' 0 5))
  | 4, .none => some (.vClz f.pred (decVw (f.x.extractLsb' 2 2)) (decV f.d) (decV f.a))
  | 5, .none => some (.vPopc f.pred (decVw (f.x.extractLsb' 2 2)) (decV f.d) (decV f.a))
  | _, _ => none

/-- The rows of OPC 0x56 (06 R118). -/
def cand56 (f : Fields) (e : Ext) : Option Instr :=
  match f.fn.toNat, e with
  | 0, .none => some (.vFadd f.pred (decRM (f.x.extractLsb' 0 3)) (decV f.d) (decV f.a) (decV f.b))
  | 1, .none => some (.vFsub f.pred (decRM (f.x.extractLsb' 0 3)) (decV f.d) (decV f.a) (decV f.b))
  | 2, .none => some (.vFmul f.pred (decRM (f.x.extractLsb' 0 3)) (decV f.d) (decV f.a) (decV f.b))
  | 3, .none => some (.vFmin f.pred (decV f.d) (decV f.a) (decV f.b))
  | 4, .none => some (.vFmax f.pred (decV f.d) (decV f.a) (decV f.b))
  | _, _ => none

/-- The rows of OPC 0x57 (06 R118). -/
def cand57 (f : Fields) (e : Ext) : Option Instr :=
  match f.fn.toNat, e with
  | 0, .none => some (.vFaddScalar f.pred (decRM (f.x.extractLsb' 0 3)) (decV f.d) (decV f.a) (decS f.b))
  | 1, .none => some (.vFsubScalar f.pred (decRM (f.x.extractLsb' 0 3)) (decV f.d) (decV f.a) (decS f.b))
  | 2, .none => some (.vFmulScalar f.pred (decRM (f.x.extractLsb' 0 3)) (decV f.d) (decV f.a) (decS f.b))
  | 3, .none => some (.vFminScalar f.pred (decV f.d) (decV f.a) (decS f.b))
  | 4, .none => some (.vFmaxScalar f.pred (decV f.d) (decV f.a) (decS f.b))
  | _, _ => none

/-- The rows of OPC 0x58 (06 R118). -/
def cand58 (f : Fields) (e : Ext) : Option Instr :=
  match f.fn.toNat, e with
  | 0, .none => some (.vFma f.pred (decRM (f.x.extractLsb' 0 3)) (decV f.d) (decV f.a) (decV f.b) (decV f.c))
  | 1, .none => some (.vFms f.pred (decRM (f.x.extractLsb' 0 3)) (decV f.d) (decV f.a) (decV f.b) (decV f.c))
  | 2, .none => some (.vFnma f.pred (decRM (f.x.extractLsb' 0 3)) (decV f.d) (decV f.a) (decV f.b) (decV f.c))
  | _, _ => none

/-- The rows of OPC 0x59 (06 R118). -/
def cand59 (f : Fields) (e : Ext) : Option Instr :=
  match f.fn.toNat, e with
  | 0, .none => some (.vFdiv f.pred (decRM (f.x.extractLsb' 0 3)) (decV f.d) (decV f.a) (decV f.b))
  | 1, .none => some (.vFsqrt f.pred (decRM (f.x.extractLsb' 0 3)) (decV f.d) (decV f.a))
  | 2, .none => some (.vFrcp f.pred (decRM (f.x.extractLsb' 0 3)) (decV f.d) (decV f.a))
  | 3, .none => some (.vFrsq f.pred (decRM (f.x.extractLsb' 0 3)) (decV f.d) (decV f.a))
  | _, _ => none

/-- The rows of OPC 0x5A (06 R118). -/
def cand5A (f : Fields) (e : Ext) : Option Instr :=
  match f.fn.toNat, e with
  | 0, .none => some (.vFabs f.pred (decV f.d) (decV f.a))
  | 1, .none => some (.vFneg f.pred (decV f.d) (decV f.a))
  | 2, .none => some (.vFcopysign f.pred (decV f.d) (decV f.a) (decV f.b))
  | 3, .none => some (.vFclass f.pred (decV f.d) (decV f.a))
  | _, _ => none

/-- The rows of OPC 0x5B (06 R118). -/
def cand5B (f : Fields) (e : Ext) : Option Instr :=
  match f.fn.toNat, e with
  | 0, .none => some (.vFscale f.pred (decRM (f.x.extractLsb' 0 3)) (decV f.d) (decV f.a) (decV f.b))
  | 1, .none => some (.vFround f.pred (decRM (f.x.extractLsb' 0 3)) (decV f.d) (decV f.a))
  | _, _ => none

/-- The rows of OPC 0x5C (06 R118). -/
def cand5C (f : Fields) (e : Ext) : Option Instr :=
  match f.fn.toNat, e with
  | 0, .none => some (.vCmp f.pred (decCond f.x) (decP f.d) (decV f.a) (decV f.b))
  | 1, .none => some (.vCmpScalar f.pred (decCond f.x) (decP f.d) (decV f.a) (decS f.b))
  | _, _ => none

/-- The rows of OPC 0x5D (06 R118). -/
def cand5D (f : Fields) (e : Ext) : Option Instr :=
  match f.fn.toNat, e with
  | 0, .none => some (.vFcmp f.pred (decFCond f.x) (decP f.d) (decV f.a) (decV f.b))
  | 1, .none => some (.vFcmpScalar f.pred (decFCond f.x) (decP f.d) (decV f.a) (decS f.b))
  | _, _ => none

/-- The rows of OPC 0x5E (06 R118). -/
def cand5E (f : Fields) (e : Ext) : Option Instr :=
  match f.fn.toNat, e with
  | 0, .none => some (.vPerm f.pred (decV f.d) (decV f.a) (decV f.b))
  | 1, .none => some (.vPerm2 f.pred (decV f.d) (decV f.a) (decV f.b) (decV f.c))
  | _, _ => none

/-- The rows of OPC 0x5F (06 R118). -/
def cand5F (f : Fields) (e : Ext) : Option Instr :=
  match f.fn.toNat, e with
  | 0, .none => some (.vShuf f.pred (decShuf f.x) (decV f.d) (decV f.a) (decV f.b))
  | _, _ => none

/-- The rows of OPC 0x60 (06 R118). -/
def cand60 (f : Fields) (e : Ext) : Option Instr :=
  match f.fn.toNat, e with
  | 0, .none => some (.vBcast f.pred (decV f.d) (decS f.a))
  | 1, .none => some (.vBcastLane f.pred (decV f.d) (decV f.a) (f.imm.extractLsb' 0 5))
  | 2, .w32 w => some (.vBcastImm f.pred (decV f.d) w)
  | 3, .none => some (.vBcastQ f.pred (decV f.d) (decQ f.a))
  | _, _ => none

/-- The rows of OPC 0x61 (06 R118). -/
def cand61 (f : Fields) (e : Ext) : Option Instr :=
  match f.fn.toNat, e with
  | 0, .none => some (.vSlide f.pred (decV f.d) (decV f.a) (decV f.b) (f.imm.extractLsb' 0 5))
  | 1, .none => some (.vMov f.pred (decV f.d) (decV f.a))
  | 2, .none => some (.vSel f.pred (decV f.d) (decV f.a) (decV f.b) (decP f.c))
  | 3, .none => some (.vMovToLane f.pred (decV f.d) (decS f.a) (f.imm.extractLsb' 0 5))
  | 4, .none => some (.vMovFromLane f.pred (decS f.d) (decV f.a) (f.imm.extractLsb' 0 5))
  | _, _ => none

/-- The rows of OPC 0x62 (06 R118). -/
def cand62 (f : Fields) (e : Ext) : Option Instr :=
  match f.fn.toNat, e with
  | 0, .none => some (.vRedAdd f.pred (decVm (f.x.extractLsb' 0 2)) (decV f.d) (decV f.a))
  | 1, .none => some (.vRedMin f.pred (decVm (f.x.extractLsb' 0 2)) (decV f.d) (decV f.a))
  | 2, .none => some (.vRedMax f.pred (decVm (f.x.extractLsb' 0 2)) (decV f.d) (decV f.a))
  | 3, .none => some (.vRedAnd f.pred (decV f.d) (decV f.a))
  | 4, .none => some (.vRedOr f.pred (decV f.d) (decV f.a))
  | 5, .none => some (.vRedXor f.pred (decV f.d) (decV f.a))
  | _, _ => none

/-- The rows of OPC 0x63 (06 R118). -/
def cand63 (f : Fields) (e : Ext) : Option Instr :=
  match f.fn.toNat, e with
  | 0, .none => some (.vRedFadd f.pred (decRM (f.x.extractLsb' 0 3)) (decV f.d) (decV f.a))
  | 1, .none => some (.vRedFmin f.pred (decV f.d) (decV f.a))
  | 2, .none => some (.vRedFmax f.pred (decV f.d) (decV f.a))
  | _, _ => none

/-- The rows of OPC 0x64 (06 R118). -/
def cand64 (f : Fields) (e : Ext) : Option Instr :=
  match f.fn.toNat, e with
  | 0, .none => some (.vScanAdd f.pred (decVm (f.x.extractLsb' 0 2)) (decV f.d) (decV f.a))
  | 1, .none => some (.vScanMin f.pred (decVm (f.x.extractLsb' 0 2)) (decV f.d) (decV f.a))
  | 2, .none => some (.vScanMax f.pred (decVm (f.x.extractLsb' 0 2)) (decV f.d) (decV f.a))
  | 3, .none => some (.vScanXadd f.pred (decVm (f.x.extractLsb' 0 2)) (decV f.d) (decV f.a))
  | _, _ => none

/-- The rows of OPC 0x65 (06 R118). -/
def cand65 (f : Fields) (e : Ext) : Option Instr :=
  match f.fn.toNat, e with
  | 0, .none => some (.vScanFadd f.pred (decRM (f.x.extractLsb' 0 3)) (decV f.d) (decV f.a))
  | 1, .none => some (.vScanFmin f.pred (decV f.d) (decV f.a))
  | 2, .none => some (.vScanFmax f.pred (decV f.d) (decV f.a))
  | _, _ => none

/-- The rows of OPC 0x66 (06 R118). -/
def cand66 (f : Fields) (e : Ext) : Option Instr :=
  match f.fn.toNat, e with
  | 0, .none => some (.vCvtN f.pred (decRM (f.x.extractLsb' 0 3)) (decTy (f.imm.extractLsb' 10 2)) (decV f.d) (decV f.a) (f.imm.extractLsb' 0 5) (f.imm.extractLsb' 5 5))
  | _, _ => none

/-- The rows of OPC 0x67 (06 R118). -/
def cand67 (f : Fields) (e : Ext) : Option Instr :=
  match f.fn.toNat, e with
  | 0, .none => some (.vCvtW f.pred (decRM (f.x.extractLsb' 0 3)) (decTy (f.imm.extractLsb' 10 2)) (decV f.d) (decV f.a) (f.imm.extractLsb' 0 5) (f.imm.extractLsb' 5 5))
  | _, _ => none

/-- The rows of OPC 0x68 (06 R118). -/
def cand68 (f : Fields) (e : Ext) (px : Option Prefix) : Option Instr :=
  match f.fn.toNat, e with
  | 0, .none => some (.vLd f.pred px (decV f.d) (decS f.a) f.imm)
  | 0, .w32 w => some (.vLdLong f.pred px (decV f.d) (decS f.a) w)
  | 1, .none => some (.vLdS f.pred px (decV f.d) (decS f.a) (decS f.b) f.imm)
  | 1, .w32 w => some (.vLdSLong f.pred px (decV f.d) (decS f.a) (decS f.b) w)
  | _, _ => none

/-- The rows of OPC 0x69 (06 R118). -/
def cand69 (f : Fields) (e : Ext) (px : Option Prefix) : Option Instr :=
  match f.fn.toNat, e with
  | 0, .none => some (.vSt f.pred px (decV f.c) (decS f.a) f.imm)
  | 0, .w32 w => some (.vStLong f.pred px (decV f.c) (decS f.a) w)
  | 1, .none => some (.vStS f.pred px (decV f.c) (decS f.a) (decS f.b) f.imm)
  | 1, .w32 w => some (.vStSLong f.pred px (decV f.c) (decS f.a) (decS f.b) w)
  | _, _ => none

/-- The rows of OPC 0x6A (06 R118). -/
def cand6A (f : Fields) (e : Ext) (px : Option Prefix) : Option Instr :=
  match f.fn.toNat, e with
  | 0, .none => some (.vLdQ f.pred px (decV f.d) (decQ f.a) f.imm)
  | 0, .w32 w => some (.vLdQLong f.pred px (decV f.d) (decQ f.a) w)
  | 1, .none => some (.vLdQS f.pred px (decV f.d) (decQ f.a) (decS f.b) f.imm)
  | 1, .w32 w => some (.vLdQSLong f.pred px (decV f.d) (decQ f.a) (decS f.b) w)
  | _, _ => none

/-- The rows of OPC 0x6B (06 R118). -/
def cand6B (f : Fields) (e : Ext) (px : Option Prefix) : Option Instr :=
  match f.fn.toNat, e with
  | 0, .none => some (.vStQ f.pred px (decV f.c) (decQ f.a) f.imm)
  | 0, .w32 w => some (.vStQLong f.pred px (decV f.c) (decQ f.a) w)
  | 1, .none => some (.vStQS f.pred px (decV f.c) (decQ f.a) (decS f.b) f.imm)
  | 1, .w32 w => some (.vStQSLong f.pred px (decV f.c) (decQ f.a) (decS f.b) w)
  | _, _ => none

/-- The rows of OPC 0x6C (06 R118). -/
def cand6C (f : Fields) (e : Ext) (px : Option Prefix) : Option Instr :=
  match f.fn.toNat, e with
  | 0, .none => some (.vGath f.pred px (decV f.d) (decS f.a) (decV f.b) (f.x.extractLsb' 0 2) f.imm)
  | _, _ => none

/-- The rows of OPC 0x6D (06 R118). -/
def cand6D (f : Fields) (e : Ext) (px : Option Prefix) : Option Instr :=
  match f.fn.toNat, e with
  | 0, .none => some (.vScat f.pred px (decV f.c) (decS f.a) (decV f.b) (f.x.extractLsb' 0 2) f.imm)
  | _, _ => none

/-- The rows of OPC 0x6E (06 R118). -/
def cand6E (f : Fields) (e : Ext) (px : Option Prefix) : Option Instr :=
  match f.fn.toNat, e with
  | 0, .none => some (.vTdec f.pred px (decRM (f.x.extractLsb' 0 3)) (f.imm.getLsbD 0) (decV f.d) (decS f.b) (decS f.a))
  | 0, .w32 w => some (.vTdecLong f.pred px (decRM (f.x.extractLsb' 0 3)) (f.imm.getLsbD 0) (decV f.d) (decS f.b) (decS f.a) (w.extractLsb' 0 2) (w.extractLsb' 16 16))
  | 1, .none => some (.vTdecQ f.pred px (decRM (f.x.extractLsb' 0 3)) (f.imm.getLsbD 0) (decV f.d) (decS f.b) (decQ f.a))
  | 1, .w32 w => some (.vTdecQLong f.pred px (decRM (f.x.extractLsb' 0 3)) (f.imm.getLsbD 0) (decV f.d) (decS f.b) (decQ f.a) (w.extractLsb' 0 2) (w.extractLsb' 16 16))
  | _, _ => none

/-- The rows of OPC 0x6F (06 R118). -/
def cand6F (f : Fields) (e : Ext) (px : Option Prefix) : Option Instr :=
  match f.fn.toNat, e with
  | 0, .none => some (.vTenc f.pred px (decRM (f.x.extractLsb' 0 3)) (f.imm.getLsbD 0) (decV f.c) (decS f.b) (decS f.a))
  | 0, .w32 w => some (.vTencLong f.pred px (decRM (f.x.extractLsb' 0 3)) (f.imm.getLsbD 0) (decV f.c) (decS f.b) (decS f.a) (w.extractLsb' 0 2) (w.extractLsb' 16 16))
  | 1, .none => some (.vTencQ f.pred px (decRM (f.x.extractLsb' 0 3)) (f.imm.getLsbD 0) (decV f.c) (decS f.b) (decQ f.a))
  | 1, .w32 w => some (.vTencQLong f.pred px (decRM (f.x.extractLsb' 0 3)) (f.imm.getLsbD 0) (decV f.c) (decS f.b) (decQ f.a) (w.extractLsb' 0 2) (w.extractLsb' 16 16))
  | _, _ => none

/-- The rows of OPC 0x90 (06 R118). -/
def cand90 (f : Fields) (e : Ext) : Option Instr :=
  match f.fn.toNat, e with
  | 0, .none => some (.mxMma f.pred (f.x.getLsbD 0) (f.x.getLsbD 1) (decP f.d) (decS f.a) (decS f.b) (decS f.c) (f.imm.extractLsb' 0 10) (decHen (f.imm.extractLsb' 10 6)))
  | 0, .w32 w => some (.mxMmaLong f.pred (f.x.getLsbD 0) (f.x.getLsbD 1) (decP f.d) (decS f.a) (decS f.b) (decS f.c) (f.imm.extractLsb' 0 10) (decHen (f.imm.extractLsb' 10 6)) (w.extractLsb' 0 16) (w.extractLsb' 16 16))
  | 1, .none => some (.mxMmaQ f.pred (f.x.getLsbD 0) (f.x.getLsbD 1) (decP f.d) (decS f.a) (decS f.b) (decQ f.c) (f.imm.extractLsb' 0 10) (decHen (f.imm.extractLsb' 10 6)))
  | 1, .w32 w => some (.mxMmaQLong f.pred (f.x.getLsbD 0) (f.x.getLsbD 1) (decP f.d) (decS f.a) (decS f.b) (decQ f.c) (f.imm.extractLsb' 0 10) (decHen (f.imm.extractLsb' 10 6)) (w.extractLsb' 0 16) (w.extractLsb' 16 16))
  | _, _ => none

/-- The rows of OPC 0x91 (06 R118). -/
def cand91 (f : Fields) (e : Ext) : Option Instr :=
  match f.fn.toNat, e with
  | 0, .none => some (.mxPlane f.pred (decRM (f.x.extractLsb' 0 3)) (decS f.a) (decS f.b) (decS f.c) (f.imm.extractLsb' 0 5) (f.imm.extractLsb' 5 5) (decHen (f.imm.extractLsb' 10 6)))
  | 0, .w32 w => some (.mxPlaneLong f.pred (decRM (f.x.extractLsb' 0 3)) (decS f.a) (decS f.b) (decS f.c) (f.imm.extractLsb' 0 5) (f.imm.extractLsb' 5 5) (decHen (f.imm.extractLsb' 10 6)) (w.extractLsb' 0 16) (w.extractLsb' 16 16))
  | 1, .none => some (.mxPlaneQ f.pred (decRM (f.x.extractLsb' 0 3)) (decS f.a) (decS f.b) (decQ f.c) (f.imm.extractLsb' 0 5) (f.imm.extractLsb' 5 5) (decHen (f.imm.extractLsb' 10 6)))
  | 1, .w32 w => some (.mxPlaneQLong f.pred (decRM (f.x.extractLsb' 0 3)) (decS f.a) (decS f.b) (decQ f.c) (f.imm.extractLsb' 0 5) (f.imm.extractLsb' 5 5) (decHen (f.imm.extractLsb' 10 6)) (w.extractLsb' 0 16) (w.extractLsb' 16 16))
  | _, _ => none

/-- The rows of OPC 0x92 (06 R118). -/
def cand92 (f : Fields) (e : Ext) : Option Instr :=
  match f.fn.toNat, e with
  | 0, .none => some (.mxUnplane f.pred (decRM (f.x.extractLsb' 0 3)) (decS f.a) (decS f.b) (decS f.c) (f.imm.extractLsb' 0 5) (f.imm.extractLsb' 5 5) (decHen (f.imm.extractLsb' 10 6)))
  | 0, .w32 w => some (.mxUnplaneLong f.pred (decRM (f.x.extractLsb' 0 3)) (decS f.a) (decS f.b) (decS f.c) (f.imm.extractLsb' 0 5) (f.imm.extractLsb' 5 5) (decHen (f.imm.extractLsb' 10 6)) (w.extractLsb' 0 16) (w.extractLsb' 16 16))
  | 1, .none => some (.mxUnplaneQ f.pred (decRM (f.x.extractLsb' 0 3)) (decS f.a) (decS f.b) (decQ f.c) (f.imm.extractLsb' 0 5) (f.imm.extractLsb' 5 5) (decHen (f.imm.extractLsb' 10 6)))
  | 1, .w32 w => some (.mxUnplaneQLong f.pred (decRM (f.x.extractLsb' 0 3)) (decS f.a) (decS f.b) (decQ f.c) (f.imm.extractLsb' 0 5) (f.imm.extractLsb' 5 5) (decHen (f.imm.extractLsb' 10 6)) (w.extractLsb' 0 16) (w.extractLsb' 16 16))
  | _, _ => none

/-- The rows of OPC 0x93 (06 R118). -/
def cand93 (f : Fields) (e : Ext) : Option Instr :=
  match f.fn.toNat, e with
  | 0, .none => some (.mxSt f.pred (decRM (f.x.extractLsb' 0 3)) (f.x.getLsbD 3) (decP f.a) (decS f.b) (decS f.c) (decHen (f.imm.extractLsb' 10 6)))
  | 0, .w32 w => some (.mxStLong f.pred (decRM (f.x.extractLsb' 0 3)) (f.x.getLsbD 3) (decP f.a) (decS f.b) (decS f.c) (decHen (f.imm.extractLsb' 10 6)) (w.extractLsb' 0 16) (w.extractLsb' 16 16))
  | 1, .none => some (.mxStQ f.pred (decRM (f.x.extractLsb' 0 3)) (f.x.getLsbD 3) (decP f.a) (decS f.b) (decQ f.c) (decHen (f.imm.extractLsb' 10 6)))
  | 1, .w32 w => some (.mxStQLong f.pred (decRM (f.x.extractLsb' 0 3)) (f.x.getLsbD 3) (decP f.a) (decS f.b) (decQ f.c) (decHen (f.imm.extractLsb' 10 6)) (w.extractLsb' 0 16) (w.extractLsb' 16 16))
  | _, _ => none

/-- The rows of OPC 0x94 (06 R118). -/
def cand94 (f : Fields) (e : Ext) : Option Instr :=
  match f.fn.toNat, e with
  | 0, .none => some (.mxLd f.pred (decP f.d) (decS f.a) f.imm (decOptH f.c (f.x.getLsbD 0)))
  | _, _ => none

/-- The rows of OPC 0x95 (06 R118). -/
def cand95 (f : Fields) (e : Ext) : Option Instr :=
  match f.fn.toNat, e with
  | 0, .none => some (.mxZero f.pred (decP f.d) f.imm)
  | _, _ => none

/-- The rows of OPC 0x96 (06 R118). -/
def cand96 (f : Fields) (e : Ext) : Option Instr :=
  match f.fn.toNat, e with
  | 0, .none => some (.mxMask f.pred (decS f.a))
  | 1, .w32 w => some (.mxMaskImm f.pred (w.extractLsb' 0 16) (w.extractLsb' 16 16) f.imm)
  | _, _ => none

/-- The rows of OPC 0x97 (06 R118). -/
def cand97 (f : Fields) (e : Ext) : Option Instr :=
  match f.fn.toNat, e with
  | 0, .none => some (.mxMovToVector f.pred (decV f.d) (decP f.a) (f.imm.extractLsb' 0 3))
  | 1, .none => some (.mxMovToAcc f.pred (decP f.d) (decV f.a) (f.imm.extractLsb' 0 3))
  | _, _ => none

/-- The rows of OPC 0x98 (06 R118). -/
def cand98 (f : Fields) (e : Ext) : Option Instr :=
  match f.fn.toNat, e with
  | 0, .none => some (.mxScr f.pred (decS f.d))
  | 1, .none => some (.mxScrInj f.pred (decS f.a))
  | _, _ => none

/-- The rows of OPC 0xA8 (06 R118). -/
noncomputable def candA8 (f : Fields) (e : Ext) (px : Option Prefix) : Option Instr :=
  match f.fn.toNat, e with
  | 0, .none => some (.ldB f.pred px (decS f.d) (decS f.a) f.imm)
  | 1, .none => some (.ldH f.pred px (decS f.d) (decS f.a) f.imm)
  | 2, .none => some (.ldW f.pred px (decS f.d) (decS f.a) f.imm)
  | 3, .none => some (.ldD f.pred px (decS f.d) (decS f.a) f.imm)
  | 4, .none => some (.ldBs f.pred px (decS f.d) (decS f.a) f.imm)
  | 5, .none => some (.ldHs f.pred px (decS f.d) (decS f.a) f.imm)
  | 6, .none => some (.ldWs f.pred px (decS f.d) (decS f.a) f.imm)
  | _, _ => none

/-- The rows of OPC 0xA9 (06 R118). -/
noncomputable def candA9 (f : Fields) (e : Ext) (px : Option Prefix) : Option Instr :=
  match f.fn.toNat, e with
  | 0, .none => some (.stB f.pred px (decS f.a) (decS f.b) f.imm)
  | 1, .none => some (.stH f.pred px (decS f.a) (decS f.b) f.imm)
  | 2, .none => some (.stW f.pred px (decS f.a) (decS f.b) f.imm)
  | 3, .none => some (.stD f.pred px (decS f.a) (decS f.b) f.imm)
  | _, _ => none

/-- The rows of OPC 0xAA (06 R118). -/
noncomputable def candAA (f : Fields) (e : Ext) : Option Instr :=
  match f.fn.toNat, e with
  | 0, .w32 w => some (.gldB f.pred (decAttr (w.extractLsb' 0 8)) (decS f.d) (decS f.a) (w.extractLsb' 8 24))
  | 1, .w32 w => some (.gldH f.pred (decAttr (w.extractLsb' 0 8)) (decS f.d) (decS f.a) (w.extractLsb' 8 24))
  | 2, .w32 w => some (.gldW f.pred (decAttr (w.extractLsb' 0 8)) (decS f.d) (decS f.a) (w.extractLsb' 8 24))
  | 3, .w32 w => some (.gldD f.pred (decAttr (w.extractLsb' 0 8)) (decS f.d) (decS f.a) (w.extractLsb' 8 24))
  | 4, .w32 w => some (.gldBs f.pred (decAttr (w.extractLsb' 0 8)) (decS f.d) (decS f.a) (w.extractLsb' 8 24))
  | 5, .w32 w => some (.gldHs f.pred (decAttr (w.extractLsb' 0 8)) (decS f.d) (decS f.a) (w.extractLsb' 8 24))
  | 6, .w32 w => some (.gldWs f.pred (decAttr (w.extractLsb' 0 8)) (decS f.d) (decS f.a) (w.extractLsb' 8 24))
  | 8, .w32 w => some (.gstB f.pred (decAttr (w.extractLsb' 0 8)) (decS f.a) (decS f.b) (w.extractLsb' 8 24))
  | 9, .w32 w => some (.gstH f.pred (decAttr (w.extractLsb' 0 8)) (decS f.a) (decS f.b) (w.extractLsb' 8 24))
  | 10, .w32 w => some (.gstW f.pred (decAttr (w.extractLsb' 0 8)) (decS f.a) (decS f.b) (w.extractLsb' 8 24))
  | 11, .w32 w => some (.gstD f.pred (decAttr (w.extractLsb' 0 8)) (decS f.a) (decS f.b) (w.extractLsb' 8 24))
  | _, _ => none

/-- The rows of OPC 0xAB (06 R118). -/
noncomputable def candAB (f : Fields) (e : Ext) (px : Option Prefix) : Option Instr :=
  match f.fn.toNat, e with
  | 0, .none => some (.staMap f.pred px (f.x.getLsbD 0) (decS f.a) (decS f.b) (f.imm.extractLsb' 0 8) (f.imm.extractLsb' 8 3))
  | 0, .w32 w => some (.staMapLong f.pred px (f.x.getLsbD 0) (decS f.a) (decS f.b) (f.imm.extractLsb' 0 8) (f.imm.extractLsb' 8 3) w)
  | 1, .none => some (.staFill f.pred px (f.imm.extractLsb' 0 8) (decOptH f.d (f.x.getLsbD 0)))
  | 2, .none => some (.staDrop f.pred px (f.x.getLsbD 0) (f.imm.extractLsb' 0 8))
  | 3, .none => some (.staWb f.pred px (f.imm.extractLsb' 0 8) (decOptH f.d (f.x.getLsbD 0)))
  | 4, .none => some (.staTest f.pred px (decS f.d) (f.imm.extractLsb' 0 8))
  | _, _ => none

/-- The rows of OPC 0xAC (06 R118). -/
noncomputable def candAC (f : Fields) (e : Ext) : Option Instr :=
  match f.fn.toNat, e with
  | 0, .w32 w => some (.stFarB f.pred (decAttr (w.extractLsb' 0 8)) (decS f.a) (decS f.b) (decS f.c))
  | 1, .w32 w => some (.stFarH f.pred (decAttr (w.extractLsb' 0 8)) (decS f.a) (decS f.b) (decS f.c))
  | 2, .w32 w => some (.stFarW f.pred (decAttr (w.extractLsb' 0 8)) (decS f.a) (decS f.b) (decS f.c))
  | 3, .w32 w => some (.stFarD f.pred (decAttr (w.extractLsb' 0 8)) (decS f.a) (decS f.b) (decS f.c))
  | _, _ => none

/-- The rows of OPC 0xAD (06 R118). -/
noncomputable def candAD (f : Fields) (e : Ext) : Option Instr :=
  match f.fn.toNat, e with
  | 0, .w32 w => some (.cpGet f.pred (decAttr (w.extractLsb' 0 8)) (decS f.a) (decS f.b) (w.extractLsb' 8 24) (decOptH f.d (f.x.getLsbD 0)))
  | 0, .w64 w => some (.cpGetMc f.pred (decAttr (w.extractLsb' 0 8)) (decS f.a) (decS f.b) (w.extractLsb' 8 24) (w.extractLsb' 32 16) (decOptH f.d (f.x.getLsbD 0)))
  | 1, .w32 w => some (.cpPut f.pred (decAttr (w.extractLsb' 0 8)) (decS f.a) (decS f.b) (w.extractLsb' 8 24) (decOptH f.d (f.x.getLsbD 0)))
  | 2, .w32 w => some (if f.x.getLsbD 1 = false then .cpDeferGet f.pred (decAttr (w.extractLsb' 0 8)) (decS f.a) (decS f.b) (w.extractLsb' 8 24) (decOptH f.d (f.x.getLsbD 0)) else .cpDeferPut f.pred (decAttr (w.extractLsb' 0 8)) (decS f.a) (decS f.b) (w.extractLsb' 8 24) (decOptH f.d (f.x.getLsbD 0)))
  | 3, .w64 w => some (.cpCvt f.pred (decAttr (w.extractLsb' 0 8)) (decRM (w.extractLsb' 8 3)) (decS f.a) (decS f.b) (decS f.c) (w.extractLsb' 32 16) (w.extractLsb' 48 16) (decOptH f.d (f.x.getLsbD 0)))
  | _, _ => none

/-- The rows of OPC 0xAE (06 R118). -/
noncomputable def candAE (f : Fields) (e : Ext) : Option Instr :=
  match f.fn.toNat, e with
  | 0, .none => some (.futWait f.pred (decS f.d) (decH f.a))
  | 1, .none => some (.futTest f.pred (decS f.d) (decH f.a))
  | 2, .none => some (.futPass f.pred (decH f.d) (decH f.a) (f.imm.extractLsb' 0 2))
  | 3, .none => some (.futCancel f.pred (decH f.a))
  | _, _ => none

/-- The rows of OPC 0xAF (06 R118). -/
noncomputable def candAF (f : Fields) (e : Ext) : Option Instr :=
  match f.fn.toNat, e with
  | 0, .none => some (.wdAsk f.pred (decH f.d) (decS f.a) (f.imm.extractLsb' 0 12))
  | 0, .w32 w => some (.wdAskLong f.pred (decH f.d) (decS f.a) (f.imm.extractLsb' 0 12) w)
  | _, _ => none

/-- The rows of OPC 0xC0 (06 R118). -/
noncomputable def candC0 (f : Fields) (e : Ext) (px : Option Prefix) : Option Instr :=
  match f.fn.toNat, e with
  | 0, .none => some (.tgLd f.pred px (f.x.getLsbD 0) (decS f.d) (decS f.a) f.imm)
  | 1, .none => some (.tgSt f.pred px (decS f.a) (decS f.b) f.imm)
  | 2, .none => some (.tgSet f.pred px (decS f.d) (decS f.a) f.imm)
  | 3, .none => some (.tgClr f.pred px (decS f.d) (decS f.a) f.imm)
  | _, _ => none

/-- The rows of OPC 0xC1 (06 R118). -/
noncomputable def candC1 (f : Fields) (e : Ext) : Option Instr :=
  match f.fn.toNat, e with
  | 0, .none => some (.barArr f.pred (decS f.d))
  | 1, .none => some (if f.x.getLsbD 0 = true then .barWait f.pred else .barWaitGen f.pred (decS f.a))
  | 2, .none => some (.barTest f.pred (decS f.d) (decS f.a))
  | _, _ => none

/-- The rows of OPC 0xC2 (06 R118). -/
noncomputable def candC2 (f : Fields) (e : Ext) : Option Instr :=
  match f.fn.toNat, e with
  | 0, .none => some (.step (decLvl f.x))
  | _, _ => none

/-- The rows of OPC 0xC3 (06 R118). -/
noncomputable def candC3 (f : Fields) (e : Ext) : Option Instr :=
  match f.fn.toNat, e with
  | 0, .none => some (.fence f.pred (decAttr (f.imm.extractLsb' 0 8)))
  | _, _ => none

/-- The rows of OPC 0xC4 (06 R118). -/
noncomputable def candC4 (f : Fields) (e : Ext) : Option Instr :=
  match f.fn.toNat, e with
  | 0, .w32 w => some (.atSwap f.pred (decAttr (w.extractLsb' 0 8)) (f.x.getLsbD 0) (decS f.d) (decS f.a) (decS f.b) (w.extractLsb' 8 24))
  | 1, .w32 w => some (.atCas f.pred (decAttr (w.extractLsb' 0 8)) (f.x.getLsbD 0) (decS f.d) (decS f.a) (decS f.b) (decS f.c) (w.extractLsb' 8 24))
  | 2, .w32 w => some (.atAdd f.pred (decAttr (w.extractLsb' 0 8)) (f.x.getLsbD 0) (decS f.d) (decS f.a) (decS f.b) (w.extractLsb' 8 24))
  | 3, .w32 w => some (.atAnd f.pred (decAttr (w.extractLsb' 0 8)) (f.x.getLsbD 0) (decS f.d) (decS f.a) (decS f.b) (w.extractLsb' 8 24))
  | 4, .w32 w => some (.atOr f.pred (decAttr (w.extractLsb' 0 8)) (f.x.getLsbD 0) (decS f.d) (decS f.a) (decS f.b) (w.extractLsb' 8 24))
  | 5, .w32 w => some (.atXor f.pred (decAttr (w.extractLsb' 0 8)) (f.x.getLsbD 0) (decS f.d) (decS f.a) (decS f.b) (w.extractLsb' 8 24))
  | 6, .w32 w => some (.atMin f.pred (decAttr (w.extractLsb' 0 8)) (f.x.getLsbD 0) (decS f.d) (decS f.a) (decS f.b) (w.extractLsb' 8 24))
  | 7, .w32 w => some (.atMax f.pred (decAttr (w.extractLsb' 0 8)) (f.x.getLsbD 0) (decS f.d) (decS f.a) (decS f.b) (w.extractLsb' 8 24))
  | 8, .w32 w => some (.atMinu f.pred (decAttr (w.extractLsb' 0 8)) (f.x.getLsbD 0) (decS f.d) (decS f.a) (decS f.b) (w.extractLsb' 8 24))
  | 9, .w32 w => some (.atMaxu f.pred (decAttr (w.extractLsb' 0 8)) (f.x.getLsbD 0) (decS f.d) (decS f.a) (decS f.b) (w.extractLsb' 8 24))
  | 10, .w32 w => some (.atFadd f.pred (decAttr (w.extractLsb' 0 8)) (decS f.d) (decS f.a) (decS f.b) (w.extractLsb' 8 24))
  | _, _ => none

/-- The rows of OPC 0xC5 (06 R118). -/
noncomputable def candC5 (f : Fields) (e : Ext) : Option Instr :=
  match f.fn.toNat, e with
  | 2, .w32 w => some (.redAdd f.pred (decAttr (w.extractLsb' 0 8)) (f.x.getLsbD 0) (decS f.a) (decS f.b) (w.extractLsb' 8 24))
  | 3, .w32 w => some (.redAnd f.pred (decAttr (w.extractLsb' 0 8)) (f.x.getLsbD 0) (decS f.a) (decS f.b) (w.extractLsb' 8 24))
  | 4, .w32 w => some (.redOr f.pred (decAttr (w.extractLsb' 0 8)) (f.x.getLsbD 0) (decS f.a) (decS f.b) (w.extractLsb' 8 24))
  | 5, .w32 w => some (.redXor f.pred (decAttr (w.extractLsb' 0 8)) (f.x.getLsbD 0) (decS f.a) (decS f.b) (w.extractLsb' 8 24))
  | 6, .w32 w => some (.redMin f.pred (decAttr (w.extractLsb' 0 8)) (f.x.getLsbD 0) (decS f.a) (decS f.b) (w.extractLsb' 8 24))
  | 7, .w32 w => some (.redMax f.pred (decAttr (w.extractLsb' 0 8)) (f.x.getLsbD 0) (decS f.a) (decS f.b) (w.extractLsb' 8 24))
  | 8, .w32 w => some (.redMinu f.pred (decAttr (w.extractLsb' 0 8)) (f.x.getLsbD 0) (decS f.a) (decS f.b) (w.extractLsb' 8 24))
  | 9, .w32 w => some (.redMaxu f.pred (decAttr (w.extractLsb' 0 8)) (f.x.getLsbD 0) (decS f.a) (decS f.b) (w.extractLsb' 8 24))
  | 10, .w32 w => some (.redFadd f.pred (decAttr (w.extractLsb' 0 8)) (decS f.a) (decS f.b) (w.extractLsb' 8 24))
  | _, _ => none

/-- The rows of OPC 0xC6 (06 R118). -/
noncomputable def candC6 (f : Fields) (e : Ext) : Option Instr :=
  match f.fn.toNat, e with
  | 0, .w32 w => some (.wqWait f.pred (decAttr (w.extractLsb' 0 8)) (decS f.d) (decS f.a) (decS f.b) (w.extractLsb' 8 24))
  | 1, .w32 w => some (.wqWake f.pred (decAttr (w.extractLsb' 0 8)) (decS f.d) (decS f.a) (decS f.b) (decOptS f.c (f.x.getLsbD 0)) (w.extractLsb' 8 24))
  | _, _ => none

/-- The rows of OPC 0xC7 (06 R118). -/
noncomputable def candC7 (f : Fields) (e : Ext) : Option Instr :=
  match f.fn.toNat, e with
  | 0, .none => some (.sigSend f.pred (decS f.a) (decS f.b))
  | 1, .none => some (.sigTake f.pred (f.x.getLsbD 0) (decS f.d))
  | _, _ => none

/-- The rows of OPC 0xD8 (06 R118). -/
noncomputable def candD8 (f : Fields) (e : Ext) : Option Instr :=
  match f.fn.toNat, e with
  | 0, .w64 w => some (.cont (f.x.getLsbD 0) (w.extractLsb' 32 32) f.imm (decRng (w.extractLsb' 0 12)) (decRng (w.extractLsb' 12 12)) (decRng (f.a ++ f.d)) (decRng (f.c ++ f.b)))
  | _, _ => none

/-- The rows of OPC 0xD9 (06 R118). -/
noncomputable def candD9 (f : Fields) (e : Ext) : Option Instr :=
  match f.fn.toNat, e with
  | 0, .w32 w => some (.spawn f.pred (decS f.d) (decS f.a) (decS f.b) w)
  | _, _ => none

/-- The rows of OPC 0xDA (06 R118). -/
noncomputable def candDA (f : Fields) (e : Ext) : Option Instr :=
  match f.fn.toNat, e with
  | 0, .none => some (.budAdd f.pred (f.x.getLsbD 0) (decS f.d) (decS f.a))
  | 1, .none => some (.budGive f.pred (f.x.getLsbD 0) (decS f.d) (decS f.a) (decS f.b))
  | _, _ => none

/-- The rows of OPC 0xDB (06 R118). -/
noncomputable def candDB (f : Fields) (e : Ext) : Option Instr :=
  match f.fn.toNat, e with
  | 0, .none => some (.leaseReq f.pred (decLease f.x) (decS f.a))
  | 0, .w32 w => some (.leaseReqImm f.pred (decLease f.x) (w.extractLsb' 0 16))
  | 1, .none => some (.leaseEnd f.pred)
  | 2, .none => some (.leaseTest f.pred (decS f.d))
  | _, _ => none

/-- The rows of OPC 0xDC (06 R118). -/
noncomputable def candDC (f : Fields) (e : Ext) : Option Instr :=
  match f.fn.toNat, e with
  | 0, .none => some (.trap f.pred (decS f.a) f.imm)
  | _, _ => none

/-- The rows of OPC 0xDD (06 R118). -/
noncomputable def candDD (f : Fields) (e : Ext) : Option Instr :=
  match f.fn.toNat, e with
  | 0, .none => some (.supResume f.pred (decS f.d) (decS f.a) (decS f.b))
  | 1, .none => some (.supRestart f.pred (f.x.getLsbD 0) (decS f.d) (decS f.a) (decS f.b))
  | 2, .none => some (.supAbort f.pred (f.x.getLsbD 0) (decS f.d) (decS f.a) (decS f.b) (f.imm.extractLsb' 0 8))
  | _, _ => none

/-- The rows of OPC 0xDE (06 R118). -/
noncomputable def candDE (f : Fields) (e : Ext) : Option Instr :=
  match f.fn.toNat, e with
  | 0, .none => some (.scrRun f.pred (f.x.getLsbD 0) (decH f.d) (decS f.a) (decS f.b))
  | 1, .none => some (.scrStat f.pred (decS f.d) (decS f.a))
  | _, _ => none

/-- The candidate among the vector and matrix instructions, which a repetition body may hold (07 R146). -/
def candidateEngine (f : Fields) (e : Ext) (px : Option Prefix) : Option Instr :=
  match f.opc.toNat with
  | 0x50 => cand50 f e
  | 0x51 => cand51 f e
  | 0x52 => cand52 f e
  | 0x54 => cand54 f e
  | 0x55 => cand55 f e
  | 0x56 => cand56 f e
  | 0x57 => cand57 f e
  | 0x58 => cand58 f e
  | 0x59 => cand59 f e
  | 0x5A => cand5A f e
  | 0x5B => cand5B f e
  | 0x5C => cand5C f e
  | 0x5D => cand5D f e
  | 0x5E => cand5E f e
  | 0x5F => cand5F f e
  | 0x60 => cand60 f e
  | 0x61 => cand61 f e
  | 0x62 => cand62 f e
  | 0x63 => cand63 f e
  | 0x64 => cand64 f e
  | 0x65 => cand65 f e
  | 0x66 => cand66 f e
  | 0x67 => cand67 f e
  | 0x68 => cand68 f e px
  | 0x69 => cand69 f e px
  | 0x6A => cand6A f e px
  | 0x6B => cand6B f e px
  | 0x6C => cand6C f e px
  | 0x6D => cand6D f e px
  | 0x6E => cand6E f e px
  | 0x6F => cand6F f e px
  | 0x90 => cand90 f e
  | 0x91 => cand91 f e
  | 0x92 => cand92 f e
  | 0x93 => cand93 f e
  | 0x94 => cand94 f e
  | 0x95 => cand95 f e
  | 0x96 => cand96 f e
  | 0x97 => cand97 f e
  | 0x98 => cand98 f e
  | _ => none

/-- The only instruction whose encoding can be these fields, by its OPC and FN; `decodeEnc` then checks it. -/
noncomputable def candidate (f : Fields) (e : Ext) (px : Option Prefix) : Option Instr :=
  match f.opc.toNat with
  | 0x00 => cand00 f e
  | 0x01 => cand01 f e
  | 0x02 => cand02 f e
  | 0x03 => cand03 f e
  | 0x04 => cand04 f e
  | 0x05 => cand05 f e
  | 0x06 => cand06 f e
  | 0x07 => cand07 f e
  | 0x08 => cand08 f e
  | 0x20 => cand20 f e
  | 0x21 => cand21 f e
  | 0x22 => cand22 f e
  | 0x23 => cand23 f e
  | 0x24 => cand24 f e
  | 0x25 => cand25 f e
  | 0x26 => cand26 f e
  | 0x27 => cand27 f e
  | 0x28 => cand28 f e
  | 0x29 => cand29 f e
  | 0x2A => cand2A f e
  | 0x2B => cand2B f e
  | 0x2C => cand2C f e
  | 0x50 => cand50 f e
  | 0x51 => cand51 f e
  | 0x52 => cand52 f e
  | 0x54 => cand54 f e
  | 0x55 => cand55 f e
  | 0x56 => cand56 f e
  | 0x57 => cand57 f e
  | 0x58 => cand58 f e
  | 0x59 => cand59 f e
  | 0x5A => cand5A f e
  | 0x5B => cand5B f e
  | 0x5C => cand5C f e
  | 0x5D => cand5D f e
  | 0x5E => cand5E f e
  | 0x5F => cand5F f e
  | 0x60 => cand60 f e
  | 0x61 => cand61 f e
  | 0x62 => cand62 f e
  | 0x63 => cand63 f e
  | 0x64 => cand64 f e
  | 0x65 => cand65 f e
  | 0x66 => cand66 f e
  | 0x67 => cand67 f e
  | 0x68 => cand68 f e px
  | 0x69 => cand69 f e px
  | 0x6A => cand6A f e px
  | 0x6B => cand6B f e px
  | 0x6C => cand6C f e px
  | 0x6D => cand6D f e px
  | 0x6E => cand6E f e px
  | 0x6F => cand6F f e px
  | 0x90 => cand90 f e
  | 0x91 => cand91 f e
  | 0x92 => cand92 f e
  | 0x93 => cand93 f e
  | 0x94 => cand94 f e
  | 0x95 => cand95 f e
  | 0x96 => cand96 f e
  | 0x97 => cand97 f e
  | 0x98 => cand98 f e
  | 0xA8 => candA8 f e px
  | 0xA9 => candA9 f e px
  | 0xAA => candAA f e
  | 0xAB => candAB f e px
  | 0xAC => candAC f e
  | 0xAD => candAD f e
  | 0xAE => candAE f e
  | 0xAF => candAF f e
  | 0xC0 => candC0 f e px
  | 0xC1 => candC1 f e
  | 0xC2 => candC2 f e
  | 0xC3 => candC3 f e
  | 0xC4 => candC4 f e
  | 0xC5 => candC5 f e
  | 0xC6 => candC6 f e
  | 0xC7 => candC7 f e
  | 0xD8 => candD8 f e
  | 0xD9 => candD9 f e
  | 0xDA => candDA f e
  | 0xDB => candDB f e
  | 0xDC => candDC f e
  | 0xDD => candDD f e
  | 0xDE => candDE f e
  | _ => none

/-- A candidate is the instruction of these words where its encoding is the very words and its fields are admitted. -/
def accept (w : Enc) (cand : Option Instr) : Option Instr :=
  match cand with
  | none => none
  | some i => if i.enc = some w ∧ i.wf = true then some i else none

/-- The instruction of these words, or none where they are ILLEGAL (06 R113, order 2). -/
noncomputable def decodeEnc (w : Enc) : Option Instr := accept w (candidate w.f w.e w.px)

/-- As `decodeEnc`, for the vector and matrix instructions alone (07 R146). -/
def decodeEngine (w : Enc) : Option Instr := accept w (candidateEngine w.f w.e w.px)

/-- The prefix word (06 R111). -/
def Prefix.enc (q : Prefix) : BitVec 64 :=
  (0 : BitVec 16) ++ q.dhi.getD 0 ++ (0 : BitVec 10) ++ encB q.dhi.isSome ++ encB q.evict.isSome ++
    encB q.scope.isSome ++ encB q.ord.isSome ++ q.evict.getD 0 ++ q.scope.getD 0 ++ q.ord.getD 0 ++
    (1 : BitVec 8) ++ (3 : BitVec 2)

/-- The prefix of a word with LEN 3, or none where the word breaks 06 R111. -/
def Prefix.dec (w : BitVec 64) : Option Prefix :=
  let q : Prefix :=
    { dhi := if w.getLsbD 21 then some (w.extractLsb' 32 16) else none,
      evict := if w.getLsbD 20 then some (w.extractLsb' 15 3) else none,
      scope := if w.getLsbD 19 then some (w.extractLsb' 12 3) else none,
      ord := if w.getLsbD 18 then some (w.extractLsb' 10 2) else none }
  if q.enc = w then some q else none

/-- A 64-bit word as two 32-bit words, the lower first (06 R102). -/
def words32 (w : BitVec 64) : List (BitVec 32) := [w.extractLsb' 0 32, w.extractLsb' 32 32]

/-- The words that follow the base word. -/
def Ext.words : Ext → List (BitVec 32)
  | .none => []
  | .w32 w => [w]
  | .w64 w => words32 w

/-- The 32-bit words of encoded fields, in address order, a prefix first. -/
def Enc.words (w : Enc) : List (BitVec 32) :=
  (match w.px with | none => [] | some q => words32 q.enc) ++ words32 w.f.pack ++ w.e.words

/-- The encoder: the 32-bit words of an instruction in address order; empty for an event. -/
def encode (i : Instr) : List (BitVec 32) :=
  match i.enc with
  | none => []
  | some w => w.words

/-- What a place in a bundle holds: a broken 06 R103, a word that is no instruction (with the word or words a packet shows, 16 R322), or an instruction and its length in bytes. -/
inductive Decoded
  | fetchSplit
  | illegal (addrWord : BitVec 64) (insWord : BitVec 64)
  | ok (i : Instr) (len : Nat)
  deriving DecidableEq, Repr

/-- The instruction without a prefix at the head of the rest of a bundle; `px` stands before it, `pw` is its word, `plen` its bytes, and `dec` reads the fields. -/
def decodeBody (dec : Enc → Option Instr) (px : Option Prefix) (pw : BitVec 64) (plen : Nat) (rest : List (BitVec 32)) : Decoded :=
  match rest with
  | w0 :: w1 :: tail =>
    let base : BitVec 64 := w1 ++ w0
    let shown := if plen = 0 then base else pw
    let f := Fields.unpack base
    let fin (e : Ext) (n : Nat) : Decoded :=
      match dec { f := f, e := e, px := px } with
      | some i => .ok i (plen + n)
      | none => .illegal shown base
    match f.len.toNat, tail with
    | 0, _ => fin .none 8
    | 1, w2 :: _ => fin (.w32 w2) 12
    | 2, w2 :: w3 :: _ => fin (.w64 (w3 ++ w2)) 16
    | 3, _ => .illegal shown base
    | _, _ => .fetchSplit
  | _ => .fetchSplit

/-- The instruction at the head of the rest of a bundle, given as 32-bit words (06 R102, R103, R112, R113). -/
def decodeWordsWith (dec : Enc → Option Instr) (rest : List (BitVec 32)) : Decoded :=
  match rest with
  | w0 :: w1 :: tail =>
    let base : BitVec 64 := w1 ++ w0
    if base.extractLsb' 0 2 = 3 then
      match tail with
      | _ :: _ :: _ =>
        match Prefix.dec base with
        | some q => decodeBody dec (some q) base 8 tail
        | none => match decodeBody dec none base 8 tail with
          | .fetchSplit => .fetchSplit
          | .illegal _ j => .illegal base j
          | .ok _ _ => .illegal base (match tail with | a :: b :: _ => b ++ a | _ => 0)
      | _ => .fetchSplit
    else decodeBody dec none base 0 rest
  | _ => .fetchSplit

/-- Little-endian bytes as 32-bit words; a last part-word is dropped. -/
def bytesToWords : List Byte → List (BitVec 32)
  | b0 :: b1 :: b2 :: b3 :: r => (b3 ++ b2 ++ b1 ++ b0) :: bytesToWords r
  | _ => []

/-- The four bytes of a 32-bit word, lowest first. -/
def wordBytes (w : BitVec 32) : List Byte :=
  [w.extractLsb' 0 8, w.extractLsb' 8 8, w.extractLsb' 16 8, w.extractLsb' 24 8]

/-- The instruction at byte offset `off` of a bundle (06 R103), its fields read by `dec`. -/
def decodeAtWith (dec : Enc → Option Instr) (bundle : List Byte) (off : Nat) : Decoded :=
  if off % 4 ≠ 0 then .fetchSplit else decodeWordsWith dec ((bytesToWords bundle).drop (off / 4))

/-- The instruction at the head of the rest of a bundle. -/
noncomputable def decodeWords (rest : List (BitVec 32)) : Decoded := decodeWordsWith decodeEnc rest

/-- The instruction at byte offset `off` of a bundle (06 R103). -/
noncomputable def decodeAt (bundle : List Byte) (off : Nat) : Decoded := decodeAtWith decodeEnc bundle off

/-- The bytes of an instruction whose bits are `w`, numbered from bit 0 of its first word, laid out from the start of a bundle; every bit above `nbits` is 0. -/
def tableBytes (nbits w : Nat) : List Byte :=
  (List.range 32).map fun k => BitVec.ofNat 8 ((w % 2 ^ nbits) >>> (8 * k))

/-- The instruction the decoder reads from an instruction whose bits are `w`. -/
noncomputable def decodeTableWord (nbits w : Nat) : Option Instr :=
  match decodeAt (tableBytes nbits w) 0 with
  | .ok i _ => some i
  | _ => none

end Sys2Proof
end

