-- ==== Sys2Proof/Machine/Fetch.lean ====
section
/-! DEFINITION. Fetching: the tile's port, a thread's two-bundle buffer, and the bundle that memory gives (07 R124-R126). -/

namespace Sys2Proof.Machine

/-- The address of the bundle that holds an address. -/
def bundleOf (a : Word) : Nat := a.toNat / 32 * 32

/-- The bundle at a physical address that a tile's fetch cache holds and that was read after a clk (07 R125). -/
def State.codeLine (s : State) (sp : Space) (pa since : Nat) : Option CodeLine :=
  (sp.tile.bind s.vtile?).bind fun v => v.icache.find? fun l => l.pa == pa && since < l.clk

/-- A bundle for gangs of which the last was released at `since`: from the fetch cache, or from memory as it stands now (07 R125), a granule with an uncorrectable error included (log entry 74); none where it does not translate. -/
def State.fetchLine (s : State) (sp : Space) (since addr : Nat) : Except Nat CodeLine :=
  match s.translate sp addr needFetch with
  | .err e => .error e
  | .ok m => .ok ((s.codeLine sp m.pa since).getD { pa := m.pa, clk := s.clk, bytes := s.hbm.bytes m.pa 32 })

/-- A bundle, or the fault that its translation met (07 R125, R126). -/
def State.fetchBundle (s : State) (sp : Space) (since addr : Nat) : Bundle :=
  match s.fetchLine sp since addr with
  | .error e => { addr := addr, bytes := [], fault := some { transFault addr .fetch e with fetch := true }, ahead := false }
  | .ok l => { addr := addr, bytes := l.bytes, fault := none, ahead := false }

/-- The bundles of a fetch cache: 64 KiB (07 R125). -/
def codeLines : Nat := 2048

/-- A tile's fetch cache keeps what was fetched; a full one drops its oldest bundle (log entry 61). -/
def State.keepLine (s : State) (vt : Nat) (r : Except Nat CodeLine) : State :=
  match r with
  | .error _ => s
  | .ok l => s.modVTile vt fun v =>
      let c := v.icache.filter fun x => x.pa != l.pa
      { v with icache := (if c.length < codeLines then c else c.drop 1) ++ [l] }

/-- The clk at which a thread's gang was released. -/
def State.startOf (s : State) (t : Thread) : Nat :=
  match s.gangOf t with
  | none => 0
  | some g => g.clkStart

/-- The bundle in a thread's fetch buffer. -/
def Thread.buffered (t : Thread) (addr : Nat) : Option Bundle := t.fbuf.find? fun b => b.addr == addr

/-- The thread asks the port for a bundle: for its PC's where the buffer lacks it or holds the fault of a fetch ahead of control (07 R126), else for the next one where a place is free (07 R124). -/
def Thread.request (t : Thread) (clk : Nat) : Thread :=
  let here := bundleOf t.pc
  let next := (here + 32) % 2 ^ 64
  let t := { t with fbuf := t.fbuf.filter fun b => (b.addr == here && !(b.ahead && b.fault.isSome)) || b.addr == next }
  let want : Option Nat :=
    if (t.buffered here).isNone then some here
    else if (t.buffered next).isNone then some next
    else none
  match want, t.freq with
  | none, _ => { t with freq := none }
  | some a, some r => if r.addr = a then t else { t with freq := some { addr := a, age := clk } }
  | some a, none => { t with freq := some { addr := a, age := clk } }

/-- A thread that may issue: it is in RUN on a virtual tile that is mapped, not AMBER and backed (05 R93, 17 R342). -/
def State.issues (s : State) (vt slot : Nat) : Bool :=
  match s.thread? vt slot, s.vtile? vt with
  | some t, some v => t.st == .run && v.backed && !v.amber
  | _, _ => false

/-- The requests of a tile's threads stand: each thread that may issue asks as soon as its buffer has a free place (07 R124). -/
def State.askFetch (s : State) (vt : Nat) : State :=
  { s with threads := s.threads.map fun u => if u.vt == vt && s.issues u.vt u.slot then u.request s.clk else u }

/-- The thread whose request the port serves next on a tile: the oldest, ties going to the lowest slot after the slot served last (07 R124). -/
def State.nextServed (s : State) (vt : Nat) : Option Thread :=
  let last := match s.lastServed.find? fun x => x.1 == vt with
    | none => 63
    | some x => x.2
  let dist (t : Thread) : Nat := (t.slot + 63 - last) % 64
  (s.threads.filter fun t => t.vt == vt && t.freq.isSome).foldl (fun best t =>
    match best, t.freq with
    | none, _ => some t
    | some b, some r =>
      match b.freq with
      | none => some t
      | some rb => if r.age < rb.age || (r.age = rb.age && dist t < dist b) then some t else some b
    | some b, none => some b) none

/-- The port serves a bundle to every thread of the tile that asks for its address (07 R124). -/
def State.serveFetch (s : State) (vt : Nat) : State :=
  match s.nextServed vt with
  | none => s
  | some t =>
    match t.freq with
    | none => s
    | some r =>
      let group := s.threads.filter fun u => u.vt == vt && u.freq.map (·.addr) == some r.addr
      let since := group.foldl (fun n u => max n (s.startOf u)) 0
      let b := s.fetchBundle (s.spaceOf t) since r.addr
      let s := s.keepLine vt (s.fetchLine (s.spaceOf t) since r.addr)
      { s with
        lastServed := upsert (fun x => x.1 == vt) (vt, t.slot) (fun _ => (vt, t.slot)) s.lastServed
        threads := s.threads.map fun u =>
          if u.vt == vt && u.freq.map (·.addr) == some r.addr then
            ({ u with fbuf := u.fbuf ++ [{ b with ahead := r.addr != bundleOf u.pc }], freq := none }).request s.clk
          else u }

/-- A bundle that control has reached, as the thread has it buffered or as it is fetched now; a fault met ahead of control is met anew (07 R126). -/
def State.bundleFor (s : State) (t : Thread) (addr : Nat) : Bundle :=
  match (t.buffered addr).filter fun b => !(b.ahead && b.fault.isSome) with
  | some b => b
  | none => s.fetchBundle (s.spaceOf t) (s.startOf t) addr

/-- FETCH_REQUEST_SERVE (07 R124): the fetch port of a tile serves the oldest request of its threads. -/
def execFetchRequestServe (vt : Nat) (s : State) : Out := .next ((s.askFetch vt).serveFetch vt)

/-- The instruction writes a scalar register, which no repetition body may hold (07 R146). -/
def Instr.writesScalar (i : Instr) : Bool :=
  match i with
  | .vMovFromLane _ _ _ _ => true
  | .mxScr _ _ => true
  | _ => false

/-- What capturing a body meets: the instructions and the address after them, or a fault. -/
inductive Captured
  | ok (body : List BodyInstr) (after : Word)
  | fault (f : FaultInfo)

/-- The `pad` word (06 R105). -/
def padWord : Nat := 0x400

/-- More words than a capture can look at: the bundles below the first address that does not translate, and the body. -/
def captureFuel : Nat := 2 ^ 44

/-- Captures the next instructions in fetch order; a `pad` is passed over and not counted (07 R146). `fuel` bounds the words looked at; `captureFuel` never runs out. -/
def State.capture (s : State) (t : Thread) (illegal : FaultInfo) : Nat → Nat → Word → List BodyInstr → Captured
  | 0, _, _, _ => .fault illegal
  | fuel + 1, n, pc, acc =>
    if n = 0 then .ok acc.reverse pc
    else
      let b := s.bundleFor t (bundleOf pc)
      match b.fault with
      | some f => .fault { f with addr := pc }
      | none =>
        let off := pc.toNat % 32
        if off ≤ 24 && bytesNat ((b.bytes.drop off).take 8) = padWord then
          s.capture t illegal fuel n (w64 (bundleOf pc + 32)) acc
        else
          match decodeAtWith decodeEngine b.bytes off with
          | .fetchSplit => .fault { cause := .fetchSplit, addr := pc }
          | .illegal _ _ => .fault illegal
          | .ok i len =>
            if Instr.writesScalar i then .fault illegal
            else s.capture t illegal fuel (n - 1) (nextPc pc len) ({ ins := i, addr := pc, len := len, words := wordsIn b.bytes off } :: acc)

/-- The OPC of a thread's next instruction, behind a prefix that precedes it; a fault met at its fetch is taken on the scalar port. -/
def Thread.headOpc (t : Thread) : Option Nat :=
  match t.buffered (bundleOf t.pc) with
  | none => none
  | some b =>
    let opc (o : Nat) : Nat := bytesNat ((b.bytes.drop o).take 2)
    let w := opc (t.pc.toNat % 32)
    some (if b.fault.isSome then 0 else (if w % 4 = 3 then opc (t.pc.toNat % 32 + 8) else w) / 4 % 256)

/-- The OPCs of the vector port (08 R150). -/
def vectorOpc (n : Nat) : Bool := 0x50 ≤ n && n ≤ 0x98

end Sys2Proof.Machine
end

