-- ==== Sys2Proof/Machine/Control.lean ====
section
/-! DEFINITION. Control: branches, calls, `halt`, `realign`, hardware loops, the repetition buffer and the queue registers (07). -/

namespace Sys2Proof.Machine

/-- `nop` (06 R104). -/
def execNop (s : State) : Out := s.onThread (Form.beside 8 Pred.always) 1 id

/-- `pad` passes control to the start of the next bundle and is charged nothing (06 R105). -/
def execPad (s : State) : Out :=
  s.issue (Form.beside 8 Pred.always) fun s t => .jump s (w64 (bundleOf t.pc + 32)) 0

/-- `loop_leave` of 07 R137; the innermost entry stands first. -/
def loopLeave (a : Word) : List LoopEntry → List LoopEntry
  | [] => []
  | e :: r => if e.start.toNat ≤ a.toNat ∧ a.toNat ≤ e.fin.toNat then e :: r else loopLeave a r

/-- A taken transfer that leaves loops (07 R137). -/
def leaveTo (s : State) (a : Word) : Res :=
  .jump (s.modCur fun t => { t with loops := loopLeave a t.loops }) a 1

/-- `br label` (07 R129). -/
def execBr (p : Pred) (off : BitVec 16) (s : State) : Out :=
  s.issue (Form.beside 8 p) fun s t => leaveTo s (target t.pc (imm16 off))

/-- `br label`, long (07 R129). -/
def execBrLong (p : Pred) (off : BitVec 32) (s : State) : Out :=
  s.issue (Form.beside 12 p) fun s t => leaveTo s (target t.pc (imm32 off))

/-- `br sA` (07 R129). -/
def execBrReg (p : Pred) (a : SReg) (s : State) : Out :=
  s.issue (Form.beside 8 p) fun s t => leaveTo s (t.sreg s.cur.body a)

/-- The conditions of 07 R130 on two 64-bit patterns. -/
def condHolds (cc : Cond) (a b : Word) : Bool :=
  match cc with
  | .eq => a == b
  | .ne => a != b
  | .lt => a.toInt < b.toInt
  | .ge => b.toInt ≤ a.toInt
  | .ltu => a.toNat < b.toNat
  | .geu => b.toNat ≤ a.toNat
  | .tst => (a &&& b) != 0
  | .tstn => (a &&& b) == 0

/-- A compare and branch (07 R130). -/
def branchIf (s : State) (taken : Bool) (a : Word) : Res := if taken then leaveTo s a else .done s 1 0

/-- `br.c.cc sA, sB, label` (07 R130). -/
def execBrC (p : Pred) (cc : Cond) (a b : SReg) (off : BitVec 16) (s : State) : Out :=
  s.issue (Form.beside 8 p) fun s t =>
    branchIf s (condHolds cc (t.sreg s.cur.body a) (t.sreg s.cur.body b)) (target t.pc (imm16 off))

/-- `br.c.cc sA, sB, label`, long (07 R130). -/
def execBrCLong (p : Pred) (cc : Cond) (a b : SReg) (off : BitVec 32) (s : State) : Out :=
  s.issue (Form.beside 12 p) fun s t =>
    branchIf s (condHolds cc (t.sreg s.cur.body a) (t.sreg s.cur.body b)) (target t.pc (imm32 off))

/-- `br.c.cc sA, imm, label` (07 R130). -/
def execBrCImm (p : Pred) (cc : Cond) (a : SReg) (off : BitVec 16) (imm : BitVec 32) (s : State) : Out :=
  s.issue (Form.beside 12 p) fun s t =>
    branchIf s (condHolds cc (t.sreg s.cur.body a) (imm32 imm)) (target t.pc (imm16 off))

/-- A call: the target is known before the link is written (07 R131). -/
def callTo (s : State) (d : SReg) (link a : Word) : Res := .jump (s.modCur fun t => t.setS d link) a 1

/-- `call sD, label` (07 R131). -/
def execCall (p : Pred) (d : SReg) (off : BitVec 16) (s : State) : Out :=
  s.issue (Form.beside 8 p) fun s t => callTo s d (nextPc t.pc 8) (target t.pc (imm16 off))

/-- `call sD, label`, long (07 R131). -/
def execCallLong (p : Pred) (d : SReg) (off : BitVec 32) (s : State) : Out :=
  s.issue (Form.beside 12 p) fun s t => callTo s d (nextPc t.pc 12) (target t.pc (imm32 off))

/-- `call sD, sA` (07 R131). -/
def execCallReg (p : Pred) (d a : SReg) (s : State) : Out :=
  s.issue (Form.beside 8 p) fun s t => callTo s d (nextPc t.pc 8) (t.sreg s.cur.body a)

/-- `ret sA` (07 R131). -/
def execRet (p : Pred) (a : SReg) (s : State) : Out :=
  s.issue (Form.beside 8 p) fun s t => leaveTo s (t.sreg s.cur.body a)

/-- The thread's role of supervisor ends (16 R323). -/
def State.endSupervisor (s : State) (t : Thread) : State :=
  let p := s.partNum t
  if (s.part p).supv = some (t.vt, t.slot) then s.modPart p fun q => { q with supv := none } else s

/-! `realign` (07 R127). -/

/-- The thread slots that DOM2 names on the thread's tile. -/
def GangTile.members (g : GangTile) : List Nat :=
  g.cmask.flatMap fun c => g.tmask.map fun t => 4 * c + t

/-- The member set of a `realign`. -/
def State.realignSet (s : State) (t : Thread) (m : Word) : List Nat :=
  let mask :=
    if m = 0 then
      match (s.gangOf t).bind fun g => g.tile? t.vt with
      | none => []
      | some g => g.members
    else bitsOf m.toNat 64
  mask.filter fun n => n != t.slot && (s.thread t.vt n).gang == t.gang && (s.thread t.vt n).st == .run

/-- The condition of a waiting `realign`. -/
def State.realigned (s : State) (t : Thread) : Bool :=
  match t.wait with
  | .realign l =>
    s.clk - t.since ≥ 256 ||
      l.all fun n =>
        let u := s.thread t.vt n
        u.st != .run || u.gang != t.gang ||
          (match u.wait with | .realign _ => u.pc == t.pc | _ => false)
  | _ => false

/-- The threads of a tile whose `realign` resumes in this clk: all of them at once. -/
def State.realignReady (s : State) (vt : Nat) : List Thread :=
  s.threads.filter fun t => t.vt == vt && t.st == .run && s.realigned t

/-- Retires the `realign` of these threads: each is charged its unit. -/
def State.retireRealign (s : State) : List Thread → State
  | [] => s
  | t :: r => ((s.charge t.vt t.slot 1 0).modThread t.vt t.slot fun t => { t.retire false (nextPc t.pc 8) with headClk := s.clk + 1 }).retireRealign r

/-- `realign` (07 R127). -/
def execRealign (p : Pred) (a : SReg) (s : State) : Out :=
  s.issue (Form.beside 8 p) fun s t =>
    match t.wait with
    | .realign l =>
      if s.realigned t then
        .done (s.retireRealign ((s.realignReady t.vt).filter fun u => u.slot != t.slot)) 1 0
      else .wait s (.realign l)
    | _ =>
      match s.realignSet t (t.sreg s.cur.body a) with
      | [] => .done s 1 0
      | l =>
        let s' := s.modCur fun t => t.setWait (.realign l) s.clk
        if s'.realigned (s'.thread t.vt t.slot) then
          .done (s'.retireRealign ((s'.realignReady t.vt).filter fun u => u.slot != t.slot)) 1 0
        else .wait s (.realign l)

/-- REALIGN_RESUME (07 R127): every thread of the tile whose condition holds resumes, if the named one's does. -/
def execRealignResume (vt slot : Nat) (s : State) : Out :=
  let t := s.thread vt slot
  .next (if t.st == .run && s.realigned t then s.retireRealign (s.realignReady vt) else s)

/-! Hardware loops (07 R133-R138). -/

/-- `loop` with a count (07 R134). -/
def loopOpen (s : State) (t : Thread) (c : Nat) (off : BitVec 16) (len : Nat) : Res :=
  let fin := target t.pc (imm16 off)
  if c ≥ 2 ^ 32 then .fault { cause := .loop, info := w64 c }
  else if c = 0 then .jump s (nextPc fin 8) 1
  else if t.loops.length = 4 then .fault { cause := .loop, info := w64 c }
  else
    .done (s.modCur fun t =>
      { t with loops := { start := nextPc t.pc len, fin := fin, count := BitVec.ofNat 32 (c - 1) } :: t.loops }) 1 0

/-- `loop sA, label` (07 R134). -/
def execLoop (p : Pred) (a : SReg) (off : BitVec 16) (s : State) : Out :=
  s.issue (Form.beside 8 p) fun s t => loopOpen s t (t.sreg s.cur.body a).toNat off 8

/-- `loop imm, label` (07 R134). -/
def execLoopImm (p : Pred) (off : BitVec 16) (cnt : BitVec 32) (s : State) : Out :=
  s.issue (Form.beside 12 p) fun s t => loopOpen s t cnt.toNat off 12

/-- `loop.end` (07 R135). -/
def execLoopEnd (p : Pred) (s : State) : Out :=
  s.issue (Form.beside 8 p) fun s t =>
    match t.loops with
    | [] => .done s 1 0
    | e :: r =>
      if e.fin = t.pc then
        if e.count = 0 then .done (s.modCur fun t => { t with loops := r }) 1 0
        else .jump (s.modCur fun t => { t with loops := { e with count := e.count - 1 } :: r }) e.start 1
      else .done s 1 0

/-! The repetition buffer (07 R145-R149). -/

/-- `rep` with a count: captures the body and goes on after it (07 R146). -/
def repStart (s : State) (t : Thread) (c : Nat) (sh : RepShape) (len : Nat) : Res :=
  if c ≥ 2 ^ 32 then .fault { cause := .loop, info := w64 c }
  else
    match s.capture t s.illegal captureFuel (sh.lenm1.val + 1) (nextPc t.pc len) [] with
    | .fault f => .fault f
    | .ok body after =>
      if c = 0 then .jump s after 1
      else
        .jump (s.modCur fun t =>
          { t with rep := some { body := body, count := c, iter := 0, idx := 0, tested := false,
                                 wbase := sh.wbase.val, wsize := sh.wsize.val, rot := 0, stream := sh.stream, sregs := t.s } }) after 1

/-- `rep` with its count in a register (07 R145). -/
def execRep (p : Pred) (a : SReg) (sh : RepShape) (s : State) : Out :=
  s.issue (Form.blocked 8 p) fun s t => repStart s t (t.sreg s.cur.body a).toNat sh 8

/-- `rep` with an immediate count (07 R145). -/
def execRepImm (p : Pred) (cnt : BitVec 32) (sh : RepShape) (s : State) : Out :=
  s.issue (Form.blocked 12 p) fun s t => repStart s t cnt.toNat sh 12

/-- What the sequencer does before its next instruction: the stream test of an iteration (07 R147). -/
inductive SeqTest
  | ready
  | wait
  | ended (t : Thread)
  | passed (t : Thread)

/-- The stream test of a running sequencer (07 R147). -/
def Thread.seqTest (t : Thread) : SeqTest :=
  match t.rep with
  | none => .ready
  | some r =>
    if r.idx = 0 ∧ !r.tested then
      match r.stream with
      | none => .passed { t with rep := some { r with tested := true } }
      | some q =>
        match t.q[q] with
        | [] => .wait
        | .eos :: rest => .ended { t with q := t.q.set q rest, rep := none }
        | .val _ :: _ => .passed { t with rep := some { r with tested := true } }
    else .ready

/-! Queue registers (07 R139-R144). -/

/-- Appends an entry to a queue register (07 R141). -/
def pushEntry (s : State) (t : Thread) (d : QReg) (e : QEntry) : Res :=
  if t.q[d].length < 8 then .done (s.modCur fun t => { t with q := t.q.set d (t.q[d] ++ [e]) }) 1 0
  else if t.rep.isSome then .wait s (.push d.val)
  else .fault (queueFault d)

/-- `q.push qD, sA` (07 R141). -/
def execQPush (p : Pred) (d : QReg) (a : SReg) (s : State) : Out :=
  s.issue (Form.beside 8 p) fun s t => pushEntry s t d (.val (t.sreg s.cur.body a))

/-- `q.eos qD` (07 R141). -/
def execQEos (p : Pred) (d : QReg) (s : State) : Out :=
  s.issue (Form.beside 8 p) fun s t => pushEntry s t d .eos

/-- The value of an entry as `q.pop` and `q.peek` write it: 0 for EOS (07 R142). -/
def QEntry.word : QEntry → Word
  | .val w => w
  | .eos => 0

/-- `q.pop sD, qA` (07 R142). -/
def execQPop (p : Pred) (d : SReg) (a : QReg) (s : State) : Out :=
  s.issue (Form.beside 8 p) fun s t =>
    match t.q[a] with
    | [] => .fault (queueFault a)
    | e :: r => .done (s.modCur fun t => { t with q := t.q.set a r }.setS d e.word) 1 0

/-- `q.peek sD, qA` (07 R142). -/
def execQPeek (p : Pred) (d : SReg) (a : QReg) (s : State) : Out :=
  s.issue (Form.beside 8 p) fun s t =>
    match t.q[a] with
    | [] => .fault (queueFault a)
    | e :: _ => .done (s.modCur fun t => t.setS d e.word) 1 0

/-- The entry is EOS. -/
def QEntry.isEos : QEntry → Bool
  | .eos => true
  | .val _ => false

/-- The word of `q.test` (07 R143). -/
def queueWord (l : List QEntry) : Word :=
  w64 (l.length + b2n ((l.head?.map QEntry.isEos).getD false) * 16 + b2n (l.any QEntry.isEos) * 32)

/-- `q.test sD, qA` (07 R143). -/
def execQTest (p : Pred) (d : SReg) (a : QReg) (s : State) : Out :=
  s.onThread (Form.beside 8 p) 1 fun t => t.setS d (queueWord t.q[a])

end Sys2Proof.Machine
end

