-- ==== Sys2Proof/Machine/Scalar.lean ====
section
/-! DEFINITION. The scalar instructions (08 R155-R170): each computes exactly, narrows once, writes its destination and ORs its flags. -/

namespace Sys2Proof.Machine

/-- The low 32 bits of a pattern. -/
def lo32 (x : Word) : BitVec 32 := x.extractLsb' 0 32

/-- `add`, `sub` and `mul` under a mode: operands read, exact result, narrowed (08 R158). -/
def aluOp (m : AluMode) (f : Int → Int → Int) (a b : Word) : Word × FFlags :=
  match m with
  | .wrap => (BitVec.ofInt 64 (f a.toInt b.toInt), 0)
  | .w => ((BitVec.ofInt 32 (f a.toInt b.toInt)).signExtend 64, 0)
  | .ss =>
    let r := clampS 64 (f a.toInt b.toInt)
    (BitVec.ofInt 64 r.1, r.2)
  | .us =>
    let r := clampU 64 (f a.toNat b.toNat)
    (BitVec.ofInt 64 r.1, r.2)
  | .wss =>
    let r := clampS 32 (f (lo32 a).toInt (lo32 b).toInt)
    ((BitVec.ofInt 32 r.1).signExtend 64, r.2)
  | .wus =>
    let r := clampU 32 (f (lo32 a).toNat (lo32 b).toNat)
    ((BitVec.ofInt 32 r.1).setWidth 64, r.2)

/-- Bits [127:64] of the exact product (08 R159). -/
def mulHigh (k : MulhKind) (a b : Word) : Word :=
  let x : Int := match k with | .uu => a.toNat | _ => a.toInt
  let y : Int := match k with | .ss => b.toInt | _ => b.toNat
  BitVec.ofInt 64 (x * y / 2 ^ 64)

/-- Quotient and remainder of `div` and `rem` at one width, with the flags of a zero divisor (08 R160). -/
def divide (sgn : Bool) (w : Nat) (a b : BitVec w) : BitVec w × BitVec w × FFlags :=
  if b = 0 then (BitVec.allOnes w, a, if a = 0 then flagInvalid else flagDivzero)
  else if sgn then (BitVec.ofInt w (a.toInt.tdiv b.toInt), BitVec.ofInt w (a.toInt.tmod b.toInt), 0)
  else (a / b, a % b, 0)

/-- The extension of a result of width 32 or 64 (08 R160, R163). -/
def widen (sgn : Bool) {w : Nat} (x : BitVec w) : Word := if sgn then x.signExtend 64 else x.setWidth 64

/-- `div` and `rem`, signed or not, at 64 or 32 bits (08 R160). -/
def divOp (sgn wide32 quot : Bool) (a b : Word) : Word × FFlags :=
  if wide32 then
    let r := divide sgn 32 (lo32 a) (lo32 b)
    (widen sgn (if quot then r.1 else r.2.1), r.2.2)
  else
    let r := divide sgn 64 a b
    (if quot then r.1 else r.2.1, r.2.2)

/-- `abs` and `neg` of a value read signed (08 R161). -/
def unarySat (sat : Bool) (x : Int) : Word × FFlags :=
  if sat then
    let r := clampS 64 x
    (BitVec.ofInt 64 r.1, r.2)
  else (BitVec.ofInt 64 x, 0)

/-- The shifts and the rotation of 08 R163. -/
inductive ShiftOp | shl | shr | sar | rot
  deriving DecidableEq, Repr

/-- A shift at one width by an amount below it. -/
def shiftAt (op : ShiftOp) {w : Nat} (a : BitVec w) (n : Nat) : BitVec w :=
  match op with
  | .shl => a <<< n
  | .shr => a >>> n
  | .sar => a.sshiftRight n
  | .rot => a.rotateRight n

/-- A shift at 64 or 32 bits; the amount is taken modulo the width (08 R163). -/
def shiftOp (op : ShiftOp) (wide32 : Bool) (a : Word) (n : Nat) : Word :=
  if wide32 then
    let r := shiftAt op (lo32 a) (n % 32)
    if op = .shr then r.setWidth 64 else r.signExtend 64
  else shiftAt op a (n % 64)

/-- `bf.x` (08 R166). -/
def fieldOf (sgn : Bool) (a : Word) (pos lenm1 : BitVec 6) : Word :=
  let n := lenm1.toNat + 1
  let f := (a >>> pos.toNat).setWidth n
  if sgn then f.signExtend 64 else f.setWidth 64

/-- `bf.i` (08 R166). -/
def insertField (d a : Word) (pos lenm1 : BitVec 6) : Word :=
  let m : Word := (BitVec.allOnes (lenm1.toNat + 1)).setWidth 64 <<< pos.toNat
  (d &&& ~~~ m) ||| ((a <<< pos.toNat) &&& m)

/-- Leading zeros of the low `w` bits, from the top. -/
def clzAt (x : Word) : Nat → Nat
  | 0 => 0
  | w + 1 => if x.getLsbD w then 0 else clzAt x w + 1

/-- Trailing zeros of the bits from `i` up, `n` of them. -/
def ctzFrom (x : Word) (i : Nat) : Nat → Nat
  | 0 => 0
  | n + 1 => if x.getLsbD i then 0 else ctzFrom x (i + 1) n + 1

/-- Ones among the low `w` bits. -/
def popAt (x : Word) : Nat → Nat
  | 0 => 0
  | w + 1 => b2n (x.getLsbD w) + popAt x w

/-- The width of a count: 64, or 32 with `.w` (08 R167). -/
def countWidth (wide32 : Bool) : Nat := if wide32 then 32 else 64

/-- A result without flags. -/
def plain (x : Word) : Word × FFlags := (x, 0)

/-- The result of a compare in a predicate register (08 R164). -/
def predOf (c : Bool) : BitVec 32 := if c then BitVec.allOnes 32 else 0

/-- `add.m sD, sA, sB` (08 R158). -/
def execAdd (p : Pred) (m : AluMode) (d a b : SReg) (s : State) : Out :=
  s.scalar (Form.scalar 8 p []) d fun t => aluOp m (· + ·) (t.sreg s.cur.body a) (t.sreg s.cur.body b)

/-- `sub.m sD, sA, sB` (08 R158). -/
def execSub (p : Pred) (m : AluMode) (d a b : SReg) (s : State) : Out :=
  s.scalar (Form.scalar 8 p []) d fun t => aluOp m (· - ·) (t.sreg s.cur.body a) (t.sreg s.cur.body b)

/-- `add.m sD, sA, imm` (08 R158). -/
def execAddImm (p : Pred) (m : AluMode) (d a : SReg) (imm : BitVec 16) (s : State) : Out :=
  s.scalar (Form.scalar 8 p []) d fun t => aluOp m (· + ·) (t.sreg s.cur.body a) (imm16 imm)

/-- `add.m sD, sA, imm`, long (08 R158). -/
def execAddImmLong (p : Pred) (m : AluMode) (d a : SReg) (imm : BitVec 32) (s : State) : Out :=
  s.scalar (Form.scalar 12 p []) d fun t => aluOp m (· + ·) (t.sreg s.cur.body a) (imm32 imm)

/-- `sub.m sD, sA, imm` (08 R158). -/
def execSubImm (p : Pred) (m : AluMode) (d a : SReg) (imm : BitVec 16) (s : State) : Out :=
  s.scalar (Form.scalar 8 p []) d fun t => aluOp m (· - ·) (t.sreg s.cur.body a) (imm16 imm)

/-- `sub.m sD, sA, imm`, long (08 R158). -/
def execSubImmLong (p : Pred) (m : AluMode) (d a : SReg) (imm : BitVec 32) (s : State) : Out :=
  s.scalar (Form.scalar 12 p []) d fun t => aluOp m (· - ·) (t.sreg s.cur.body a) (imm32 imm)

/-- `mul.m sD, sA, sB` (08 R158). -/
def execMul (p : Pred) (m : AluMode) (d a b : SReg) (s : State) : Out :=
  s.scalar (Form.scalar 8 p []) d fun t => aluOp m (· * ·) (t.sreg s.cur.body a) (t.sreg s.cur.body b)

/-- `mulh.k sD, sA, sB` (08 R159). -/
def execMulh (p : Pred) (k : MulhKind) (d a b : SReg) (s : State) : Out :=
  s.scalar (Form.scalar 8 p []) d fun t => plain (mulHigh k (t.sreg s.cur.body a) (t.sreg s.cur.body b))

/-- `div` (08 R160). -/
def execDiv (p : Pred) (w : Bool) (d a b : SReg) (s : State) : Out :=
  s.scalar (Form.scalar 8 p []) d fun t => divOp true w true (t.sreg s.cur.body a) (t.sreg s.cur.body b)

/-- `div.u` (08 R160). -/
def execDivU (p : Pred) (w : Bool) (d a b : SReg) (s : State) : Out :=
  s.scalar (Form.scalar 8 p []) d fun t => divOp false w true (t.sreg s.cur.body a) (t.sreg s.cur.body b)

/-- `rem` (08 R160). -/
def execRem (p : Pred) (w : Bool) (d a b : SReg) (s : State) : Out :=
  s.scalar (Form.scalar 8 p []) d fun t => divOp true w false (t.sreg s.cur.body a) (t.sreg s.cur.body b)

/-- `rem.u` (08 R160). -/
def execRemU (p : Pred) (w : Bool) (d a b : SReg) (s : State) : Out :=
  s.scalar (Form.scalar 8 p []) d fun t => divOp false w false (t.sreg s.cur.body a) (t.sreg s.cur.body b)

/-- `min` (08 R161). -/
def execMin (p : Pred) (d a b : SReg) (s : State) : Out :=
  s.scalar (Form.scalar 8 p []) d fun t => plain (if (t.sreg s.cur.body a).toInt ≤ (t.sreg s.cur.body b).toInt then (t.sreg s.cur.body a) else (t.sreg s.cur.body b))

/-- `max` (08 R161). -/
def execMax (p : Pred) (d a b : SReg) (s : State) : Out :=
  s.scalar (Form.scalar 8 p []) d fun t => plain (if (t.sreg s.cur.body a).toInt ≤ (t.sreg s.cur.body b).toInt then (t.sreg s.cur.body b) else (t.sreg s.cur.body a))

/-- `min.u` (08 R161). -/
def execMinU (p : Pred) (d a b : SReg) (s : State) : Out :=
  s.scalar (Form.scalar 8 p []) d fun t => plain (if (t.sreg s.cur.body a).toNat ≤ (t.sreg s.cur.body b).toNat then (t.sreg s.cur.body a) else (t.sreg s.cur.body b))

/-- `max.u` (08 R161). -/
def execMaxU (p : Pred) (d a b : SReg) (s : State) : Out :=
  s.scalar (Form.scalar 8 p []) d fun t => plain (if (t.sreg s.cur.body a).toNat ≤ (t.sreg s.cur.body b).toNat then (t.sreg s.cur.body b) else (t.sreg s.cur.body a))

/-- `abs` (08 R161). -/
def execAbs (p : Pred) (sat : Bool) (d a : SReg) (s : State) : Out :=
  s.scalar (Form.scalar 8 p []) d fun t => unarySat sat ((t.sreg s.cur.body a).toInt.natAbs : Int)

/-- `neg` (08 R161). -/
def execNeg (p : Pred) (sat : Bool) (d a : SReg) (s : State) : Out :=
  s.scalar (Form.scalar 8 p []) d fun t => unarySat sat (-(t.sreg s.cur.body a).toInt)

/-- `and` (08 R162). -/
def execAnd (p : Pred) (d a b : SReg) (s : State) : Out :=
  s.scalar (Form.scalar 8 p []) d fun t => plain ((t.sreg s.cur.body a) &&& (t.sreg s.cur.body b))

/-- `or` (08 R162). -/
def execOr (p : Pred) (d a b : SReg) (s : State) : Out :=
  s.scalar (Form.scalar 8 p []) d fun t => plain ((t.sreg s.cur.body a) ||| (t.sreg s.cur.body b))

/-- `xor` (08 R162). -/
def execXor (p : Pred) (d a b : SReg) (s : State) : Out :=
  s.scalar (Form.scalar 8 p []) d fun t => plain ((t.sreg s.cur.body a) ^^^ (t.sreg s.cur.body b))

/-- `andn` (08 R162). -/
def execAndn (p : Pred) (d a b : SReg) (s : State) : Out :=
  s.scalar (Form.scalar 8 p []) d fun t => plain ((t.sreg s.cur.body a) &&& ~~~ (t.sreg s.cur.body b))

/-- `not` (08 R162). -/
def execNot (p : Pred) (d a : SReg) (s : State) : Out :=
  s.scalar (Form.scalar 8 p []) d fun t => plain (~~~ (t.sreg s.cur.body a))

/-- `and sD, sA, imm` (08 R162). -/
def execAndImm (p : Pred) (d a : SReg) (imm : BitVec 16) (s : State) : Out :=
  s.scalar (Form.scalar 8 p []) d fun t => plain ((t.sreg s.cur.body a) &&& imm16 imm)

/-- `and sD, sA, imm`, long (08 R162). -/
def execAndImmLong (p : Pred) (d a : SReg) (imm : BitVec 32) (s : State) : Out :=
  s.scalar (Form.scalar 12 p []) d fun t => plain ((t.sreg s.cur.body a) &&& imm32 imm)

/-- `or sD, sA, imm` (08 R162). -/
def execOrImm (p : Pred) (d a : SReg) (imm : BitVec 16) (s : State) : Out :=
  s.scalar (Form.scalar 8 p []) d fun t => plain ((t.sreg s.cur.body a) ||| imm16 imm)

/-- `or sD, sA, imm`, long (08 R162). -/
def execOrImmLong (p : Pred) (d a : SReg) (imm : BitVec 32) (s : State) : Out :=
  s.scalar (Form.scalar 12 p []) d fun t => plain ((t.sreg s.cur.body a) ||| imm32 imm)

/-- `xor sD, sA, imm` (08 R162). -/
def execXorImm (p : Pred) (d a : SReg) (imm : BitVec 16) (s : State) : Out :=
  s.scalar (Form.scalar 8 p []) d fun t => plain ((t.sreg s.cur.body a) ^^^ imm16 imm)

/-- `xor sD, sA, imm`, long (08 R162). -/
def execXorImmLong (p : Pred) (d a : SReg) (imm : BitVec 32) (s : State) : Out :=
  s.scalar (Form.scalar 12 p []) d fun t => plain ((t.sreg s.cur.body a) ^^^ imm32 imm)

/-- `shl` by a register (08 R163). -/
def execShl (p : Pred) (w : Bool) (d a b : SReg) (s : State) : Out :=
  s.scalar (Form.scalar 8 p []) d fun t => plain (shiftOp .shl w (t.sreg s.cur.body a) (t.sreg s.cur.body b).toNat)

/-- `shl` by an immediate (08 R163). -/
def execShlImm (p : Pred) (w : Bool) (d a : SReg) (n : BitVec 6) (s : State) : Out :=
  s.scalar (Form.scalar 8 p []) d fun t => plain (shiftOp .shl w (t.sreg s.cur.body a) n.toNat)

/-- `shr` by a register (08 R163). -/
def execShr (p : Pred) (w : Bool) (d a b : SReg) (s : State) : Out :=
  s.scalar (Form.scalar 8 p []) d fun t => plain (shiftOp .shr w (t.sreg s.cur.body a) (t.sreg s.cur.body b).toNat)

/-- `shr` by an immediate (08 R163). -/
def execShrImm (p : Pred) (w : Bool) (d a : SReg) (n : BitVec 6) (s : State) : Out :=
  s.scalar (Form.scalar 8 p []) d fun t => plain (shiftOp .shr w (t.sreg s.cur.body a) n.toNat)

/-- `sar` by a register (08 R163). -/
def execSar (p : Pred) (w : Bool) (d a b : SReg) (s : State) : Out :=
  s.scalar (Form.scalar 8 p []) d fun t => plain (shiftOp .sar w (t.sreg s.cur.body a) (t.sreg s.cur.body b).toNat)

/-- `sar` by an immediate (08 R163). -/
def execSarImm (p : Pred) (w : Bool) (d a : SReg) (n : BitVec 6) (s : State) : Out :=
  s.scalar (Form.scalar 8 p []) d fun t => plain (shiftOp .sar w (t.sreg s.cur.body a) n.toNat)

/-- `rot` by a register (08 R163). -/
def execRot (p : Pred) (w : Bool) (d a b : SReg) (s : State) : Out :=
  s.scalar (Form.scalar 8 p []) d fun t => plain (shiftOp .rot w (t.sreg s.cur.body a) (t.sreg s.cur.body b).toNat)

/-- `rot` by an immediate (08 R163). -/
def execRotImm (p : Pred) (w : Bool) (d a : SReg) (n : BitVec 6) (s : State) : Out :=
  s.scalar (Form.scalar 8 p []) d fun t => plain (shiftOp .rot w (t.sreg s.cur.body a) n.toNat)

/-- `cmp.cc pD, sA, sB` (08 R164). -/
def execCmpP (p : Pred) (cc : Cond) (d : PReg) (a b : SReg) (s : State) : Out :=
  s.onThread (Form.scalar 8 p [d]) 1 fun t => t.setP d (predOf (condHolds cc (t.sreg s.cur.body a) (t.sreg s.cur.body b)))

/-- `cmp.cc pD, sA, imm` (08 R164). -/
def execCmpPImm (p : Pred) (cc : Cond) (d : PReg) (a : SReg) (imm : BitVec 16) (s : State) : Out :=
  s.onThread (Form.scalar 8 p [d]) 1 fun t => t.setP d (predOf (condHolds cc (t.sreg s.cur.body a) (imm16 imm)))

/-- `cmp.cc pD, sA, imm`, long (08 R164). -/
def execCmpPImmLong (p : Pred) (cc : Cond) (d : PReg) (a : SReg) (imm : BitVec 32) (s : State) : Out :=
  s.onThread (Form.scalar 12 p [d]) 1 fun t => t.setP d (predOf (condHolds cc (t.sreg s.cur.body a) (imm32 imm)))

/-- `cmp.cc sD, sA, sB` (08 R164). -/
def execCmpS (p : Pred) (cc : Cond) (d a b : SReg) (s : State) : Out :=
  s.scalar (Form.scalar 8 p []) d fun t => plain (w64 (b2n (condHolds cc (t.sreg s.cur.body a) (t.sreg s.cur.body b))))

/-- `cmp.cc sD, sA, imm` (08 R164). -/
def execCmpSImm (p : Pred) (cc : Cond) (d a : SReg) (imm : BitVec 16) (s : State) : Out :=
  s.scalar (Form.scalar 8 p []) d fun t => plain (w64 (b2n (condHolds cc (t.sreg s.cur.body a) (imm16 imm))))

/-- `cmp.cc sD, sA, imm`, long (08 R164). -/
def execCmpSImmLong (p : Pred) (cc : Cond) (d a : SReg) (imm : BitVec 32) (s : State) : Out :=
  s.scalar (Form.scalar 12 p []) d fun t => plain (w64 (b2n (condHolds cc (t.sreg s.cur.body a) (imm32 imm))))

/-- `sel sD, sA, sB, pC` (08 R165). -/
def execSelP (p : Pred) (d a b : SReg) (c : PReg) (s : State) : Out :=
  s.scalar (Form.scalar 8 p [c]) d fun t => plain (if (t.preg c).getLsbD 0 then (t.sreg s.cur.body a) else (t.sreg s.cur.body b))

/-- `sel sD, sA, sB, sC` (08 R165). -/
def execSelS (p : Pred) (d a b c : SReg) (s : State) : Out :=
  s.scalar (Form.scalar 8 p []) d fun t => plain (if (t.sreg s.cur.body c) = 0 then (t.sreg s.cur.body b) else (t.sreg s.cur.body a))

/-- `bf.x` (08 R166). -/
def execBfX (p : Pred) (sgn : Bool) (d a : SReg) (pos lenm1 : BitVec 6) (s : State) : Out :=
  s.scalar (Form.scalar 8 p []) d fun t => plain (fieldOf sgn (t.sreg s.cur.body a) pos lenm1)

/-- `bf.i` (08 R166). -/
def execBfI (p : Pred) (d a : SReg) (pos lenm1 : BitVec 6) (s : State) : Out :=
  s.scalar (Form.scalar 8 p []) d fun t => plain (insertField (t.sreg s.cur.body d) (t.sreg s.cur.body a) pos lenm1)

/-- `clz` (08 R167). -/
def execClz (p : Pred) (w : Bool) (d a : SReg) (s : State) : Out :=
  s.scalar (Form.scalar 8 p []) d fun t => plain (w64 (clzAt (t.sreg s.cur.body a) (countWidth w)))

/-- `ctz` (08 R167). -/
def execCtz (p : Pred) (w : Bool) (d a : SReg) (s : State) : Out :=
  s.scalar (Form.scalar 8 p []) d fun t => plain (w64 (ctzFrom (t.sreg s.cur.body a) 0 (countWidth w)))

/-- `popc` (08 R167). -/
def execPopc (p : Pred) (w : Bool) (d a : SReg) (s : State) : Out :=
  s.scalar (Form.scalar 8 p []) d fun t => plain (w64 (popAt (t.sreg s.cur.body a) (countWidth w)))

/-- `lea sD, sA, sB, sh, disp` (08 R168). -/
def execLea (p : Pred) (sh : BitVec 3) (d a b : SReg) (disp : BitVec 16) (s : State) : Out :=
  s.scalar (Form.scalar 8 p []) d fun t => plain ((t.sreg s.cur.body a) + (t.sreg s.cur.body b) <<< sh.toNat + imm16 disp)

/-- `lea sD, sA, sB, sh, disp`, long (08 R168). -/
def execLeaLong (p : Pred) (sh : BitVec 3) (d a b : SReg) (disp : BitVec 32) (s : State) : Out :=
  s.scalar (Form.scalar 12 p []) d fun t => plain ((t.sreg s.cur.body a) + (t.sreg s.cur.body b) <<< sh.toNat + imm32 disp)

/-- `lea sD, label` (08 R168). -/
def execLeaPc (p : Pred) (d : SReg) (off : BitVec 32) (s : State) : Out :=
  s.scalar (Form.scalar 12 p []) d fun t => plain (t.pc + imm32 off)

/-- `li sD, imm` (08 R169). -/
def execLi (p : Pred) (d : SReg) (imm : BitVec 32) (s : State) : Out :=
  s.scalar (Form.scalar 12 p []) d fun _ => plain (imm32 imm)

/-- `li sD, imm`, long (08 R169). -/
def execLiLong (p : Pred) (d : SReg) (imm : BitVec 64) (s : State) : Out :=
  s.scalar (Form.scalar 16 p []) d fun _ => plain imm

/-- `p.and pD, pA, pB` (08 R170). -/
def execPAnd (p : Pred) (d a b : PReg) (s : State) : Out :=
  s.onThread (Form.scalar 8 p [d, a, b]) 1 fun t => t.setP d (t.preg a &&& t.preg b)

/-- `p.or pD, pA, pB` (08 R170). -/
def execPOr (p : Pred) (d a b : PReg) (s : State) : Out :=
  s.onThread (Form.scalar 8 p [d, a, b]) 1 fun t => t.setP d (t.preg a ||| t.preg b)

/-- `p.xor pD, pA, pB` (08 R170). -/
def execPXor (p : Pred) (d a b : PReg) (s : State) : Out :=
  s.onThread (Form.scalar 8 p [d, a, b]) 1 fun t => t.setP d (t.preg a ^^^ t.preg b)

/-- `p.not pD, pA` (08 R170). -/
def execPNot (p : Pred) (d a : PReg) (s : State) : Out :=
  s.onThread (Form.scalar 8 p [d, a]) 1 fun t => t.setP d (~~~ t.preg a)

/-- `p.mov pD, pA` (08 R170). -/
def execPMov (p : Pred) (d a : PReg) (s : State) : Out :=
  s.onThread (Form.scalar 8 p [d, a]) 1 fun t => t.setP d (t.preg a)

/-- `p.mov pD, sA` (08 R170). -/
def execPMovFromScalar (p : Pred) (d : PReg) (a : SReg) (s : State) : Out :=
  s.onThread (Form.scalar 8 p [d]) 1 fun t => t.setP d (lo32 (t.sreg s.cur.body a))

/-- `p.mov sD, pA` (08 R170). -/
def execPMovToScalar (p : Pred) (d : SReg) (a : PReg) (s : State) : Out :=
  s.scalar (Form.scalar 8 p [a]) d fun t => plain ((t.preg a).setWidth 64)

end Sys2Proof.Machine
end

