-- ==== Sys2Proof/Machine/Lease.lean ====
section
/-! DEFINITION. Sprint leases and the Ochre store (15 R311-R317). -/

namespace Sys2Proof.Machine

/-- The gang thread index (05 R92). -/
def Gang.gti (g : Gang) (t : Thread) : Nat :=
  match g.tile? t.vt with
  | none => 0
  | some k =>
    (k.vtidx * k.cmask.length + (k.cmask.filter fun c => c < t.cslot).length) * k.tmask.length +
      (k.tmask.filter fun n => n < t.thr).length

/-- The zone of the field die that holds a virtual tile now (01 R13, 15 R311). -/
def State.zoneOf (s : State) (vt : Nat) : Nat := s.ptileOf vt / 64

/-- In-service cores of the tile that carries a virtual tile (15 R313). -/
def State.inService (s : State) (vt : Nat) : Nat :=
  match s.ptile? (s.ptileOf vt) with
  | none => 0
  | some p => p.cores.length

/-- The covered tiles of a gang's lease (15 R313). -/
def Gang.leaseTiles (g : Gang) : List Nat := if g.lease.dom then g.tiles.map (·.vt) else [g.lease.vt]

/-- The zones that hold a covered tile. -/
def State.leaseZones (s : State) (g : Gang) : List Nat := (g.leaseTiles.map s.zoneOf).eraseDups

/-- Covered cores of a lease in a zone. -/
def State.leaseCores (s : State) (g : Gang) (z : Nat) : Nat :=
  (g.leaseTiles.filter fun v => s.zoneOf v = z).foldl (fun n v => n + s.inService v) 0

/-- The melt of `c` cores over `n` periods at a level (15 R314). -/
def leaseMelt (level c n : Nat) : Nat :=
  (c * n * (if level = 1 then 25 else if level = 2 then 73 else 0) + 2 ^ 20 - 1) / 2 ^ 20

/-- The lease holds its reservation: ACTIVE or ENDING. -/
def Lease.holds (l : Lease) : Bool := l.st == .active || l.st == .ending

/-- RESV of a zone, the leases of gang `but` apart (15 R314). -/
def State.resvBut (s : State) (z : Nat) (but : Option Nat) : Nat :=
  s.gangs.foldl (fun n g =>
    if g.lease.holds && some g.id != but then n + leaseMelt g.lease.level (s.leaseCores g z) g.lease.remain else n) 0

/-- RESV of a zone (15 R311). -/
def State.resv (s : State) (z : Nat) : Nat := s.resvBut z none

/-- Cores that a lease of a level covers, each once; `g` counts as a holder. -/
def State.levelCores (s : State) (level : Nat) (g : Gang) : Nat :=
  let tiles := s.gangs.flatMap fun x => if (x.lease.holds || x.id = g.id) && x.lease.level = level then x.leaseTiles else []
  tiles.eraseDups.foldl (fun n v => n + s.inService v) 0

/-- The checks of a lease for `n` periods in these zones, in their order; the first failure's REASON (15 R314). Power is counted in units of 0.01 W. -/
def State.leaseCheckIn (s : State) (g : Gang) (n : Nat) (zs : List Nat) : Option Nat :=
  if zs.any fun z => (s.zone z).refreeze then some 1
  else if zs.any fun z =>
      (s.zone z).melt + s.resvBut z (some g.id) + leaseMelt g.lease.level (s.leaseCores g z) n > 3584 then some 2
  else if 2000000 + 12 * s.levelCores 1 g + 35 * s.levelCores 2 g > 3600000 then some 3
  else none

/-- The checks of a lease in every zone that holds a covered tile. -/
def State.leaseCheck (s : State) (g : Gang) (n : Nat) : Option Nat := s.leaseCheckIn g n (s.leaseZones g)

/-- The zones that covered tiles of a lease have moved into (15 R317). -/
def State.newZones (s : State) (g : Gang) : List Nat := ((g.leaseTiles.filter g.moved.contains).map s.zoneOf).eraseDups

/-- The number of a lease state (15 R312). -/
def LeaseState.code : LeaseState → Nat
  | .none => 0 | .pending => 1 | .active => 2 | .ending => 3 | .refused => 4

/-- The LEASE CSR (15 R312); REMAIN is 0 until the grant. -/
def Lease.word (l : Lease) : Word :=
  w64 (l.st.code + l.level * 16 + b2n l.dom * 64 + b2n l.trap * 128 + l.reason * 2 ^ 16 +
    (if l.st = .pending then 0 else l.remain) * 2 ^ 48)

/-- Sets a gang's lease; a change of its state raises the event of 19 R381. -/
def State.setLease (s : State) (g : Gang) (l : Lease) : State :=
  let s' := s.modGang g.id fun x => { x with lease := l }
  if l.st = g.lease.st then s' else s'.event g.part 0x0A 0 g.id l.word (w64 (s.zone (s.zoneOf l.vt)).melt)

/-- The lowest-ranked thread of a gang. -/
def State.lowestThread (s : State) (g : Nat) : Option Thread :=
  let key (t : Thread) : Nat := (s.rankOf t.vt t.cslot).getD 65536 * 4 + t.thr
  (s.gangThreads g).foldl (fun best t =>
    match best with
    | none => some t
    | some b => if key t < key b then some t else some b) none

/-- The lease-expiry trap: a packet that freezes no thread (15 R315). -/
def State.leaseTrap (s : State) (gid : Nat) : State :=
  match s.gang? gid with
  | none => s
  | some g =>
    if g.lease.trap then
      s.packetOnly g.part (s.lowestThread gid) (g.cap 2) { cause := .leaseExpiry, info := g.lease.word } false
    else s

/-- The lease ends at once with a REASON: REMAIN becomes 0 and the reservation is freed (15 R315-R317). -/
def State.dropLease (s : State) (gid reason : Nat) (trap : Bool) : State :=
  match s.gang? gid with
  | none => s
  | some g =>
    let s := s.setLease g { g.lease with st := .none, reason := reason, remain := 0 }
    if trap then s.leaseTrap gid else s

/-- A gang aborted ends a lease that is not NONE with REASON ENDED (15 R315). -/
def State.abortLease (s : State) (gid : Nat) : State :=
  match s.gang? gid with
  | none => s
  | some g => if g.lease.st = .none then s else s.dropLease gid 4 false

/-- The lease decision of one gang at a release on these tiles (15 R308, R314, R315, R317). -/
def State.decideLease (s : State) (gid : Nat) (tiles : List Nat) : State :=
  match s.gang? gid with
  | none => s
  | some g =>
    match g.lease.st with
    | .pending =>
      match s.leaseCheck g g.lease.remain with
      | none => s.setLease g { g.lease with st := .active, clk := s.clk }
      | some r => s.setLease g { g.lease with st := .refused, reason := r, remain := 0 }
    | .active =>
      if (s.newZones g).isEmpty then s
      else
        match s.leaseCheckIn g g.lease.remain (s.newZones g) with
        | none => s
        | some _ => s.dropLease gid 7 true
    | .ending =>
      if tiles.any fun v => g.leaseTiles.contains v then s.setLease g { g.lease with st := .none } else s
    | _ => s

/-- The lease decisions of a release, in the order of DOMID (15 R314). -/
def State.decideLeases (s : State) (gids tiles : List Nat) : State :=
  let key (g : Nat) : Nat := match s.gang? g with | none => 0 | some x => x.domid
  let order := sortBy (fun a b => key a ≤ key b) gids
  let s := order.foldl (fun s g => s.decideLease g tiles) s
  gids.foldl (fun s g => s.modGang g fun x => { x with moved := [] }) s

/-- An instruction of this chapter: a scalar instruction that needs SPRINT where it says so. -/
def leaseForm (len : Nat) (p : Pred) (sprint : Bool) : Form :=
  { Form.blocked len p with cap := if sprint then some 1 else none }

/-- `lease.req` for a duration (15 R313, R315). -/
def leaseRequest (s : State) (t : Thread) (l : LeaseArgs) (d : Nat) : Res :=
  if d = 0 ∨ d ≥ 2 ^ 16 then .fault s.illegal
  else
    match s.gangOf t with
    | none => .done s 1 0
    | some g =>
      let new : Lease :=
        { st := .pending, level := if l.s2 then 2 else 1, dom := l.dom, trap := l.trap, reason := 0,
          remain := d, gti := g.gti t, vt := t.vt, clk := s.clk }
      let stands := match g.lease.st with
        | .none | .refused => true
        | .pending => g.gti t < g.lease.gti
        | .active | .ending => false
      .done (if stands then s.setLease g new else s) 1 0

/-- `lease.req` with its duration in a register (15 R313). -/
def execLeaseReq (p : Pred) (l : LeaseArgs) (a : SReg) (s : State) : Out :=
  s.issue (leaseForm 8 p true) fun s t => leaseRequest s t l (t.sreg s.cur.body a).toNat

/-- `lease.req` with an immediate duration (15 R313). -/
def execLeaseReqImm (p : Pred) (l : LeaseArgs) (dur : BitVec 16) (s : State) : Out :=
  s.issue (leaseForm 12 p true) fun s t => leaseRequest s t l dur.toNat

/-- `lease.end` (15 R315). -/
def execLeaseEnd (p : Pred) (s : State) : Out :=
  s.issue (leaseForm 8 p false) fun s t =>
    .done (match s.gangOf t with
      | none => s
      | some g =>
        match g.lease.st with
        | .pending => s.setLease g { g.lease with st := .none, reason := 4, remain := 0 }
        | .active => s.setLease g { g.lease with st := .ending, reason := 4 }
        | _ => s) 1 0

/-- The LEASE CSR as a thread reads it (15 R312). -/
def State.leaseWord (s : State) (t : Thread) : Word :=
  match s.gangOf t with
  | none => 0
  | some g => g.lease.word

/-- `lease.test sD` (15 R313). -/
def execLeaseTest (p : Pred) (d : SReg) (s : State) : Out :=
  s.issue (leaseForm 8 p false) fun s t => .done (s.modCur fun u => u.setS d (s.leaseWord t)) 1 0

/-- LEASE_PERIOD_END (15 R315): a period of a gang's ACTIVE lease ends. -/
def execLeasePeriodEnd (gang : Nat) (s : State) : Out :=
  .next <|
    match s.gang? gang with
    | none => s
    | some g =>
      if g.lease.st = .active ∧ g.lease.clk + Config.leasePeriod ≤ s.clk then
        if g.lease.remain > 1 then
          s.setLease g { g.lease with remain := g.lease.remain - 1, clk := g.lease.clk + Config.leasePeriod }
        else (s.setLease g { g.lease with st := .ending, remain := 0, reason := 5 }).leaseTrap gang
      else s

/-- The sensed melt fraction of a zone and the refreeze state it gives (15 R311). -/
def State.senseMelt (s : State) (zone melt : Nat) : State :=
  s.modZone zone fun z =>
    { z with melt := melt, refreeze := if melt > 3584 then true else if melt < 1024 then false else z.refreeze }

/-- What a sensed melt fraction of 0 to 4,096 does: at 3,968 or more every lease that covers a tile of the zone ends at once (15 R311, R316). -/
def State.meltSensed (s : State) (zone melt : Nat) : State :=
  if zone < 48 ∧ melt ≤ 4096 then
    let s := s.senseMelt zone melt
    if melt < 3968 then s
    else s.gangs.foldl (fun s g => if g.lease.holds && (s.leaseZones g).contains zone then s.dropLease g.id 6 true else s) s
  else s

/-- ZONE_REFREEZE_CHANGE (15 R311): the zone senses a melt fraction. -/
def execZoneRefreezeChange (zone melt : Nat) (s : State) : Out := .next (s.meltSensed zone melt)

/-- ZONE_HARD_LIMIT (15 R316): MELT reaches 3,968 or more. -/
def execZoneHardLimit (zone melt : Nat) (s : State) : Out := .next (if 3968 ≤ melt then s.meltSensed zone melt else s)

end Sys2Proof.Machine
end

