-- ==== Sys2Proof/Machine/Csr.lean ====
section
/-! DEFINITION. The control and status registers that `csr.*` names (06 R115, R116, 08 R171-R173): each read as its fields stand, each written field by field. -/

namespace Sys2Proof.Machine

/-- RANK (01 R25). -/
def State.csrRank (s : State) (t : Thread) : Word :=
  w64 ((s.rankOf t.vt t.cslot).getD 0 + t.thr * 2 ^ 16 + s.nrank * 2 ^ 32)

/-- VTILE (01 R26). -/
def State.csrVtile (s : State) (t : Thread) : Word := w64 (t.vt + t.cslot * 2 ^ 12 + s.nvtile * 2 ^ 16)

/-- COORD (01 R13, R27). -/
def State.csrCoord (s : State) (t : Thread) : Word :=
  let p := s.ptileOf t.vt
  w64 ((s.pcoreOf t.vt t.cslot).getD 0 + (p % 64 / 8) * 2 ^ 4 + (p % 8) * 2 ^ 7 + (p / 64 / 6) * 2 ^ 10 +
    (p / 64 % 6) * 2 ^ 13 + p * 2 ^ 16)

/-- DOM2 (05 R98). -/
def State.csrDom2 (s : State) (t : Thread) : Word :=
  match (s.gangOf t).bind fun g => g.tile? t.vt with
  | none => 0
  | some k =>
    w64 ((k.tmask.filter fun n => n < t.thr).length + k.tmask.length * 2 ^ 2 +
      (k.cmask.filter fun n => n < t.cslot).length * 2 ^ 12 + k.cmask.length * 2 ^ 16 +
      ofBits k.tmask * 2 ^ 24 + k.barid * 2 ^ 28 + ofBits k.cmask * 2 ^ 32)

/-- DOM3 (05 R99). -/
def State.csrDom3 (s : State) (t : Thread) : Word :=
  match s.gangOf t with
  | none => 0
  | some g =>
    w64 ((match g.tile? t.vt with | none => 0 | some k => k.vtidx) + g.vtbase * 2 ^ 16 +
      recNvt g.task * 2 ^ 32 + g.domid * 2 ^ 48)

/-- DOM4 (05 R100). -/
def State.csrDom4 (s : State) (t : Thread) : Word :=
  match s.gangOf t with
  | none => 0
  | some g => w64 (g.pvtbase * 2 ^ 16 + g.pvtcnt * 2 ^ 32 + g.part * 2 ^ 48)

/-- MELT (15 R311). -/
def State.csrMelt (s : State) (t : Thread) : Word :=
  let z := s.zone (s.zoneOf t.vt)
  w64 (z.melt + b2n z.refreeze * 2 ^ 13 + s.resv z.num * 2 ^ 16)

/-- WDT (16 R333). -/
def State.csrWdt (s : State) (t : Thread) : Word :=
  match s.gangOf t with
  | none => 0
  | some g => w64 (g.wdtLeft + recWdt g.task * 2 ^ 32)

/-- LCOUNT (07 R133). -/
def Thread.csrLcount (t : Thread) : Word :=
  match t.loops with
  | [] => 0
  | e :: _ => w64 (e.count.toNat + t.loops.length * 2 ^ 32)

/-- A CSR read; numbers as 06 R115 allocates them. -/
def State.csrRead (s : State) (t : Thread) (n : Nat) : Word :=
  match n with
  | 0x000 => w64 t.bic
  | 0x001 => w64 t.bmc
  | 0x002 => w64 t.grace
  | 0x003 => t.cont
  | 0x004 => t.lives.setWidth 64
  | 0x005 => t.livev.setWidth 64
  | 0x008 => s.leaseWord t
  | 0x009 => s.csrMelt t
  | 0x010 => s.csrRank t
  | 0x011 => s.csrVtile t
  | 0x012 => s.csrCoord t
  | 0x013 => s.csrDom2 t
  | 0x014 => s.csrDom3 t
  | 0x015 => s.csrDom4 t
  | 0x020 => t.memctl.setWidth 64
  | 0x021 => t.rmode.setWidth 64
  | 0x022 => t.fflags.setWidth 64
  | 0x023 => t.seed
  | 0x024 => w64 (t.tidbase % 2 ^ 19)
  | 0x028 => t.csrLcount
  | 0x030 => w64 s.clk
  | 0x031 => s.csrWdt t
  | _ => 0

/-- The thread is its partition's supervisor, whose writes SV fields take (00 R8). -/
def State.isSupervisor (s : State) (t : Thread) : Bool := (s.part (s.partNum t)).supv == some (t.vt, t.slot)

/-- A write that 02 R40 or 11 R221 rejects. -/
def csrRejects (n : Nat) (x : Word) : Bool :=
  (n == 0x021 && x.field 0 3 > 4) || (n == 0x020 && x.field 3 3 == 7)

/-- A write of LCOUNT changes the innermost entry (07 R133). -/
def writeCount (x : Word) : List LoopEntry → List LoopEntry
  | [] => []
  | e :: r => { e with count := x.extractLsb' 0 32 } :: r

/-- A CSR write, field by field under the access codes of 00 R8; read-only fields ignore it. -/
def State.csrWrite (s : State) (t : Thread) (n : Nat) (x : Word) : State :=
  match n with
  | 0x000 => if s.isSupervisor t then s.modCur fun t => { t with bic := x.field 0 48 } else s
  | 0x001 => if s.isSupervisor t then s.modCur fun t => { t with bmc := x.field 0 48 } else s
  | 0x002 => if s.isSupervisor t then s.modCur fun t => { t with grace := min (x.field 0 13) 4096 } else s
  | 0x020 => s.modCur fun t => { t with memctl := x.extractLsb' 0 8 }
  | 0x021 => s.modCur fun t => { t with rmode := x.extractLsb' 0 6 }
  | 0x022 => s.modCur fun t => { t with fflags := x.extractLsb' 0 6 }
  | 0x023 => s.modCur fun t => { t with seed := x }
  | 0x024 => s.modCur fun t => { t with tidbase := x.field 12 7 * 4096 }
  | 0x028 => s.modCur fun t => { t with loops := writeCount x t.loops }
  | 0x031 => s.modGang t.gang fun g =>
      { g with wdtLeft := min (x.field 0 32) (recWdt g.task), wdtClk := s.clk, wdtStop := false }
  | _ => s

/-- A `csr.*` instruction that writes `f old` (08 R171). -/
def csrOp (s : State) (t : Thread) (d : SReg) (n : BitVec 12) (f : Word → Word) : Res :=
  let old := s.csrRead t n.toNat
  let new := f old
  if csrRejects n.toNat new then .fault s.illegal
  else .done ((s.csrWrite t n.toNat new).modCur fun t => t.setS d old) 1 0

/-- `csr.rd sD, csr` (08 R171). -/
def execCsrRd (p : Pred) (d : SReg) (n : BitVec 12) (s : State) : Out :=
  s.issue (Form.scalar 8 p []) fun s t => .done (s.modCur fun u => u.setS d (s.csrRead t n.toNat)) 1 0

/-- `csr.wr sD, csr, sA` (08 R171). -/
def execCsrWr (p : Pred) (d a : SReg) (n : BitVec 12) (s : State) : Out :=
  s.issue (Form.blocked 8 p) fun s t => csrOp s t d n fun _ => t.sreg s.cur.body a

/-- `csr.set sD, csr, sA` (08 R171). -/
def execCsrSet (p : Pred) (d a : SReg) (n : BitVec 12) (s : State) : Out :=
  s.issue (Form.blocked 8 p) fun s t => csrOp s t d n fun o => o ||| t.sreg s.cur.body a

/-- `csr.clr sD, csr, sA` (08 R171). -/
def execCsrClr (p : Pred) (d a : SReg) (n : BitVec 12) (s : State) : Out :=
  s.issue (Form.blocked 8 p) fun s t => csrOp s t d n fun o => o &&& ~~~ (t.sreg s.cur.body a)

end Sys2Proof.Machine
end

