-- ==== Sys2Proof/Machine/Numbers.lean ====
section
/-! DEFINITION. Exact values, rounding, the element formats of codes 0-8 and 21-29, conversions and the FP32 operations (02 R29-R34, R39-R44, R50). -/

namespace Sys2Proof.Machine

/-- A value: NaN with its sign and whether it signals, an infinity, or (-1)^neg × m × 2^e; `sticky` adds to m a part strictly between 0 and 1. -/
inductive FVal
  | nan (neg sig : Bool)
  | inf (neg : Bool)
  | fin (neg : Bool) (m : Nat) (e : Int) (sticky : Bool)
  deriving DecidableEq, Repr

/-- A binary floating-point format (02 R29, R31): exponent and fraction bits, bias, and the magnitude codes of the largest finite value, of infinity and of the canonical NaN. -/
structure FFmt where
  ebits : Nat
  fbits : Nat
  bias  : Nat
  top   : Nat
  inf   : Option Nat
  nan   : Option Nat
  deriving DecidableEq, Repr

def fp32 : FFmt := { ebits := 8, fbits := 23, bias := 127, top := 0x7F7FFFFF, inf := some 0x7F800000, nan := some 0x7FC00000 }
def fp16 : FFmt := { ebits := 5, fbits := 10, bias := 15, top := 0x7BFF, inf := some 0x7C00, nan := some 0x7E00 }
def bf16 : FFmt := { ebits := 8, fbits := 7, bias := 127, top := 0x7F7F, inf := some 0x7F80, nan := some 0x7FC0 }
/-- FP19, as the 19 bits [31:13] of its container (02 R30). -/
def fp19 : FFmt := { ebits := 8, fbits := 10, bias := 127, top := 0x3FBFF, inf := some 0x3FC00, nan := some 0x3FE00 }
def e4m3 : FFmt := { ebits := 4, fbits := 3, bias := 7, top := 0x7E, inf := none, nan := some 0x7F }
def e5m2 : FFmt := { ebits := 5, fbits := 2, bias := 15, top := 0x7B, inf := some 0x7C, nan := some 0x7E }
def e3m2 : FFmt := { ebits := 3, fbits := 2, bias := 3, top := 0x1F, inf := none, nan := none }
def e2m3 : FFmt := { ebits := 2, fbits := 3, bias := 1, top := 0x1F, inf := none, nan := none }
def e2m1 : FFmt := { ebits := 2, fbits := 1, bias := 1, top := 0x7, inf := none, nan := none }

/-- The floating-point formats by code (02 R29). -/
def floatFmt (code : Nat) : Option FFmt :=
  match code with
  | 0 => some fp32 | 1 => some fp16 | 2 => some bf16 | 3 => some fp19 | 4 => some e4m3
  | 5 => some e5m2 | 6 => some e3m2 | 7 => some e2m3 | 8 => some e2m1 | _ => none

/-- The integer ranges by code, TRN2 and BIN1 among them (02 R29, R34, R44). -/
def intFmt (code : Nat) : Option (Int × Int) :=
  match code with
  | 21 => some (-128, 127) | 22 => some (0, 255) | 23 => some (-8, 7) | 24 => some (0, 15)
  | 25 => some (-2, 1) | 26 => some (-32768, 32767) | 27 => some (0, 1) | 29 => some (-1, 1) | _ => none

/-- The value of a code of a floating-point format (02 R31, R32). -/
def decodeF (f : FFmt) (x : Nat) : FVal :=
  let neg := x.testBit (f.ebits + f.fbits)
  let mag := x % 2 ^ (f.ebits + f.fbits)
  let ex := mag >>> f.fbits
  let fr := mag % 2 ^ f.fbits
  if f.inf.isSome && ex = 2 ^ f.ebits - 1 then
    if fr = 0 then .inf neg else .nan neg (!fr.testBit (f.fbits - 1))
  else if f.nan = some mag then .nan neg false
  else if ex = 0 then .fin neg fr (1 - f.bias - f.fbits : Int) false
  else .fin neg (2 ^ f.fbits + fr) (ex - f.bias - f.fbits : Int) false

/-- A value that is an integer. -/
def FVal.ofInt (x : Int) : FVal := .fin (x < 0) x.natAbs 0 false

/-- Whether a magnitude n + (rem + sticky) / 2^sh rounds to n + 1 (02 R39, R41). -/
def roundsUp (mode : RM) (neg odd : Bool) (rem sh : Nat) (sticky : Bool) (draw : Nat) : Bool :=
  match mode with
  | .rtz => false
  | .rup => !neg && (rem != 0 || sticky)
  | .rdn => neg && (rem != 0 || sticky)
  | .stoch => (rem <<< 16) >>> sh + draw ≥ 65536
  | _ => if sh = 0 then false else 2 ^ (sh - 1) < rem || (rem = 2 ^ (sh - 1) && (sticky || odd))

/-- The magnitude (m + sticky) × 2^e in units of 2^q, rounded, and whether it is inexact. -/
def quantize (mode : RM) (neg : Bool) (draw m : Nat) (e : Int) (sticky : Bool) (q : Int) : Nat × Bool :=
  if q ≤ e then (m <<< (e - q).toNat, sticky)
  else
    let sh := (q - e).toNat
    let n := m >>> sh
    let rem := m % 2 ^ sh
    (if roundsUp mode neg (n % 2 = 1) rem sh sticky draw then n + 1 else n, rem != 0 || sticky)

/-- A finite overflow gives infinity, not the largest finite value (02 R44). -/
def overflowInf (mode : RM) (neg : Bool) : Bool :=
  match mode with
  | .rtz => false
  | .rup => !neg
  | .rdn => neg
  | _ => true

/-- `encode` of 02 R44 into a floating-point format: the code and its flags. -/
def encodeF (f : FFmt) (mode : RM) (satc : Bool) (draw : Nat) (v : FVal) : Nat × FFlags :=
  let sign (neg : Bool) : Nat := b2n neg <<< (f.ebits + f.fbits)
  match v with
  | .nan neg sig =>
    match f.nan with
    | some c => (c, flagIf sig flagInvalid)
    | none => (sign neg + f.top, flagInvalid)
  | .inf neg =>
    match f.inf with
    | some c => (sign neg + c, 0)
    | none => (sign neg + f.top, flagOverflow ||| flagInexact)
  | .fin neg m e sticky =>
    if m = 0 && !sticky then (sign neg, 0)
    else
      let emin : Int := 1 - f.bias
      let ex : Int := max (e + m.log2) emin
      let r := quantize mode neg draw m e sticky (ex - f.fbits)
      let code := ((ex - emin).toNat <<< f.fbits) + r.1
      if code > f.top then
        (sign neg + (match f.inf with
          | some c => if !satc && overflowInf mode neg then c else f.top
          | none => f.top), flagOverflow ||| flagInexact)
      else
        (sign neg + code, flagIf r.2 flagInexact ||| flagIf (r.2 && code < 2 ^ f.fbits) flagUnderflow)

/-- `encode` of 02 R44 into an integer range. -/
def encodeI (lo hi : Int) (mode : RM) (draw : Nat) (v : FVal) : Int × FFlags :=
  match v with
  | .nan neg _ => (if neg then lo else hi, flagInvalid)
  | .inf neg => (if neg then lo else hi, flagOverflow ||| flagInexact)
  | .fin neg m e sticky =>
    let r := quantize mode neg draw m e sticky 0
    let x : Int := if neg then -(r.1 : Int) else r.1
    if x < lo then (lo, flagOverflow ||| flagInexact)
    else if x > hi then (hi, flagOverflow ||| flagInexact)
    else (x, flagIf r.2 flagInexact)

/-- `encode` of 02 R44 into SGN1. -/
def encodeSgn (v : FVal) : Nat × FFlags :=
  match v with
  | .nan neg _ => (b2n neg, flagInvalid)
  | .inf neg => (b2n neg, flagInexact)
  | .fin neg m e sticky =>
    (b2n neg, flagIf (sticky || !(e ≤ 0 && m = 2 ^ (-e).toNat)) flagInexact)

/-- Storage bits of one element of a code (02 R29, R186). -/
def elemWidth (code : Nat) : Nat :=
  match code with
  | 0 | 3 => 32
  | 1 | 2 | 26 => 16
  | 4 | 5 | 9 | 10 | 14 | 21 | 22 | 31 => 8
  | 6 | 7 | 11 | 12 => 6
  | 8 | 13 | 23 | 24 | 30 => 4
  | 25 | 29 => 2
  | 27 | 28 => 1
  | 15 | 18 => 7
  | 16 | 19 => 5
  | _ => 3

/-- `encode` of 02 R44 into an element of codes 0-8 and 21-29; FP19 fills the upper bits of its container (02 R30). -/
def encodeElem (code : Nat) (mode : RM) (satc : Bool) (draw : Nat) (v : FVal) : Nat × FFlags :=
  if code = 3 then
    let r := encodeF fp19 mode satc draw v
    (r.1 * 2 ^ 13, r.2)
  else
    match floatFmt code with
    | some f => encodeF f mode satc draw v
    | none =>
      match intFmt code with
      | some (lo, hi) =>
        let r := encodeI lo hi mode draw v
        ((r.1 % (2 ^ elemWidth code : Nat)).toNat, r.2)
      | none => encodeSgn v

/-- A pattern of `w` bits read as two's complement. -/
def signedOf (w x : Nat) : Int := if x % 2 ^ w < 2 ^ (w - 1) then (x % 2 ^ w : Nat) else (x % 2 ^ w : Nat) - (2 ^ w : Nat)

/-- The value of an element of codes 0-8 and 21-29, with INVALID for the TRN2 code 10 (02 R34). -/
def decodeElem (code x : Nat) : FVal × FFlags :=
  if code = 3 then (decodeF fp19 (x / 2 ^ 13), 0)
  else
    match floatFmt code with
    | some f => (decodeF f x, 0)
    | none =>
      match code with
      | 21 | 23 | 25 | 26 => (.ofInt (signedOf (elemWidth code) x), 0)
      | 28 => (.ofInt (if x % 2 = 1 then -1 else 1), 0)
      | 29 => if x % 4 = 2 then (.ofInt 0, flagInvalid) else (.ofInt (signedOf 2 x), 0)
      | _ => (.ofInt (x % 2 ^ elemWidth code : Nat), 0)

/-! The generator (02 R41, R42). -/

/-- `next16` of 02 R42: the new state and the draw. -/
def next16 (state : Word) : Word × Nat :=
  let a : Word := if state = 0 then 0x9E3779B97F4A7C15 else state
  let b := a ^^^ (a <<< 13)
  let c := b ^^^ (b >>> 7)
  let d := c ^^^ (c <<< 17)
  (d, d.toNat / 2 ^ 48)

/-- The next `n` draws in order, and the state after them. -/
def draws : Nat → Word → List Nat × Word
  | 0, s => ([], s)
  | n + 1, s =>
    let r := next16 s
    let q := draws n r.1
    (r.2 :: q.1, q.2)

/-- The draws of `n` elements under a mode: none but under STOCH (02 R41). -/
def drawsFor (mode : RM) (n : Nat) (seed : Word) : List Nat × Word :=
  if mode = .stoch then draws n seed else ([], seed)

/-- The mode of a code of RMODE.MODE (02 R39). No instruction leaves a reserved code 5 to 7 there; one that a save block brings is kept as it stands, and DYN reads it as RNE, which the spec does not say (log entry 39). -/
def RM.ofCode (n : Nat) : RM :=
  match n with
  | 1 => .rtz | 2 => .rup | 3 => .rdn | 4 => .stoch | _ => .rne

/-- The code of a mode (02 R39). -/
def RM.code : RM → Nat
  | .rne => 0 | .rtz => 1 | .rup => 2 | .rdn => 3 | .stoch => 4 | .dyn => 7

/-- The mode in force: DYN takes RMODE.MODE (02 R39, R43). -/
def Thread.mode (t : Thread) (rm : RM) : RM :=
  match rm with
  | .dyn => RM.ofCode (t.rmode.toNat % 8)
  | m => m

def Thread.ftz (t : Thread) : Bool := t.rmode.getLsbD 3
def Thread.daz (t : Thread) : Bool := t.rmode.getLsbD 4
def Thread.satc (t : Thread) : Bool := t.rmode.getLsbD 5

/-! Arithmetic on exact values (02 R50, 09 R180). -/

def FVal.isNan : FVal → Bool
  | .nan _ _ => true
  | _ => false

def FVal.isSig : FVal → Bool
  | .nan _ s => s
  | _ => false

def FVal.isInf : FVal → Bool
  | .inf _ => true
  | _ => false

def FVal.sign : FVal → Bool
  | .nan s _ => s
  | .inf s => s
  | .fin s _ _ _ => s

def FVal.isZero : FVal → Bool
  | .fin _ m _ st => m = 0 && !st
  | _ => false

def FVal.negate : FVal → FVal
  | .nan s g => .nan (!s) g
  | .inf s => .inf (!s)
  | .fin s m e st => .fin (!s) m e st

/-- A quiet NaN. -/
def qnan : FVal := .nan false false

/-- The sum of two finite values whose common exponent is exact; an exact zero from unlike signs is -0 under RDN alone (02 R50). -/
def addFin (mode : RM) (s1 : Bool) (m1 : Nat) (e1 : Int) (s2 : Bool) (m2 : Nat) (e2 : Int) : FVal :=
  let e := min e1 e2
  let x : Int := ((m1 <<< (e1 - e).toNat : Nat) : Int)
  let y : Int := ((m2 <<< (e2 - e).toNat : Nat) : Int)
  let z := (if s1 then -x else x) + (if s2 then -y else y)
  if z = 0 then .fin (if s1 = s2 then s1 else mode = .rdn) 0 0 false else .fin (z < 0) z.natAbs e false

/-- Addition. -/
def fadd (mode : RM) (a b : FVal) : FVal × FFlags :=
  match a, b with
  | .nan _ s, y => (qnan, flagIf (s || y.isSig) flagInvalid)
  | _, .nan _ s => (qnan, flagIf s flagInvalid)
  | .inf s, .inf r => if s = r then (.inf s, 0) else (qnan, flagInvalid)
  | .inf s, _ => (.inf s, 0)
  | _, .inf s => (.inf s, 0)
  | .fin s1 m1 e1 _, .fin s2 m2 e2 _ => (addFin mode s1 m1 e1 s2 m2 e2, 0)

/-- Multiplication. -/
def fmul (a b : FVal) : FVal × FFlags :=
  match a, b with
  | .nan _ s, y => (qnan, flagIf (s || y.isSig) flagInvalid)
  | _, .nan _ s => (qnan, flagIf s flagInvalid)
  | .inf s, y => if y.isZero then (qnan, flagInvalid) else (.inf (s != y.sign), 0)
  | x, .inf s => if x.isZero then (qnan, flagInvalid) else (.inf (x.sign != s), 0)
  | .fin s1 m1 e1 _, .fin s2 m2 e2 _ => (.fin (s1 != s2) (m1 * m2) (e1 + e2) false, 0)

/-- Fused multiply-add: Inf × 0 is NaN and INVALID whatever c is. -/
def ffma (mode : RM) (a b c : FVal) : FVal × FFlags :=
  let p := fmul a b
  let r := fadd mode p.1 c
  (r.1, p.2 ||| r.2)

/-- Division, to at least 64 bits of quotient. -/
def fdiv (a b : FVal) : FVal × FFlags :=
  match a, b with
  | .nan _ s, y => (qnan, flagIf (s || y.isSig) flagInvalid)
  | _, .nan _ s => (qnan, flagIf s flagInvalid)
  | .inf s, y => if y.isInf then (qnan, flagInvalid) else (.inf (s != y.sign), 0)
  | x, .inf s => (.fin (x.sign != s) 0 0 false, 0)
  | .fin s1 m1 e1 _, .fin s2 m2 e2 _ =>
    if m2 = 0 then
      if m1 = 0 then (qnan, flagInvalid) else (.inf (s1 != s2), flagDivzero)
    else if m1 = 0 then (.fin (s1 != s2) 0 0 false, 0)
    else
      let k := 64 + m2.log2
      (.fin (s1 != s2) ((m1 <<< k) / m2) (e1 - e2 - k) ((m1 <<< k) % m2 != 0), 0)

/-- The integer square root below 2^n, a bit at a time from the top. -/
def isqrt (x : Nat) : Nat → Nat → Nat
  | 0, r => r
  | n + 1, r => if (r + 2 ^ n) * (r + 2 ^ n) ≤ x then isqrt x n (r + 2 ^ n) else isqrt x n r

/-- A magnitude with an even exponent. -/
def evenExp (m : Nat) (e : Int) : Nat × Int := if e % 2 = 0 then (m, e) else (2 * m, e - 1)

/-- Square root. -/
def fsqrt (a : FVal) : FVal × FFlags :=
  match a with
  | .nan _ s => (qnan, flagIf s flagInvalid)
  | .inf s => if s then (qnan, flagInvalid) else (.inf false, 0)
  | .fin s m e _ =>
    if m = 0 then (.fin s 0 0 false, 0)
    else if s then (qnan, flagInvalid)
    else
      let v := evenExp m e
      let x := v.1 <<< 128
      let r := isqrt x 80 0
      (.fin false r (v.2 / 2 - 64) (r * r != x), 0)

/-- Reciprocal square root. -/
def frsq (a : FVal) : FVal × FFlags :=
  match a with
  | .nan _ s => (qnan, flagIf s flagInvalid)
  | .inf s => if s then (qnan, flagInvalid) else (.fin false 0 0 false, 0)
  | .fin s m e _ =>
    if m = 0 then (.inf s, flagDivzero)
    else if s then (qnan, flagInvalid)
    else
      let v := evenExp m e
      let r := isqrt (2 ^ 200 / v.1) 101 0
      (.fin false r (-100 - v.2 / 2) (r * r * v.1 != 2 ^ 200), 0)

/-- A value scaled by a power of two; a shift beyond 1,000 is past every rounding of FP32 (09 R180). -/
def fscale (a : FVal) (n : Int) : FVal × FFlags :=
  match a with
  | .fin s m e st => (.fin s m (e + max (-1000) (min 1000 n)) st, 0)
  | v => (v, 0)

/-! FP32 lanes under RMODE (02 R33, 09 R176). -/

/-- The pattern of a lane with a subnormal read as zero under DAZ (02 R33). -/
def dazBits (daz : Bool) (x : Lane) : Lane := if daz && x.toNat / 2 ^ 23 % 256 = 0 then x &&& 0x80000000 else x

/-- An FP32 lane read arithmetically. -/
def Thread.fread (t : Thread) (x : Lane) : FVal := decodeF fp32 (dazBits t.daz x).toNat

/-- A value below a format's normals read as zero of its sign (02 R33). The value decides, so an element in planes whose leading bit disagrees with its exponent field (03 R397) is subnormal by what it is worth (log entry 64). -/
def FVal.dazed (f : FFmt) : FVal → FVal
  | .fin n m e st => if e + m.log2 < 1 - (f.bias : Int) then .fin n 0 0 false else .fin n m e st
  | v => v

/-- An element of codes 0-8 and 21-29 read arithmetically: a floating-point one that is subnormal in its format reads as zero of its sign under DAZ (02 R33, log entry 44). -/
def Thread.eread (t : Thread) (code x : Nat) : FVal × FFlags :=
  let r := decodeElem code x
  match floatFmt code with
  | some f => (if t.daz then r.1.dazed f else r.1, r.2)
  | none => r

/-- A rounded result flushed under FTZ: nonzero and below the smallest normal (02 R33). -/
def flush (f : FFmt) (ftz : Bool) (r : Nat × FFlags) : Nat × FFlags :=
  let mag := r.1 % 2 ^ (f.ebits + f.fbits)
  if ftz && mag ≠ 0 && mag < 2 ^ f.fbits then (r.1 - mag, r.2 ||| flagUnderflow ||| flagInexact) else r

/-- An exact result rounded once into FP32 (02 R50). -/
def Thread.fround (t : Thread) (mode : RM) (draw : Nat) (v : FVal × FFlags) : Lane × FFlags :=
  let r := flush fp32 t.ftz (encodeF fp32 mode false draw v.1)
  (w32 r.1, v.2 ||| r.2)

/-- The order of FP32 patterns that puts -0 below +0. -/
def forder (x : Lane) : Int := if x.getLsbD 31 then -((x.toNat % 2 ^ 31 : Nat) : Int) - 1 else (x.toNat : Int)

/-- `v.fmin` and `v.fmax` of two lanes (09 R181). -/
def fminmax (mx : Bool) (a b : Lane) : Lane × FFlags :=
  let x := decodeF fp32 a.toNat
  let y := decodeF fp32 b.toNat
  if x.isNan || y.isNan then (0x7FC00000, flagIf (x.isSig || y.isSig) flagInvalid)
  else (if (forder a ≤ forder b) != mx then a else b, 0)

/-- `v.fclass` of a lane (09 R181). -/
def fclass (x : Lane) : Lane :=
  let mag := x.toNat % 2 ^ 31
  let neg := x.getLsbD 31
  if mag > 0x7F800000 then (if x.getLsbD 22 then 0x200 else 0x100)
  else if mag = 0x7F800000 then (if neg then 0x1 else 0x80)
  else if mag = 0 then (if neg then 0x8 else 0x10)
  else if mag < 2 ^ 23 then (if neg then 0x4 else 0x20)
  else (if neg then 0x2 else 0x40)

/-- The value order of FP32 patterns, -0 equal to +0. -/
def fvalue (x : Lane) : Int := if x.getLsbD 31 then -((x.toNat % 2 ^ 31 : Nat) : Int) else (x.toNat : Int)

/-- `v.fcmp` of two lanes: the outcome and its flag (09 R182). -/
def fcmp (cc : FCond) (a b : Lane) : Bool × FFlags :=
  let x := decodeF fp32 a.toNat
  let y := decodeF fp32 b.toNat
  let un := x.isNan || y.isNan
  let sig := flagIf (x.isSig || y.isSig) flagInvalid
  let anyNan := flagIf un flagInvalid
  match cc with
  | .eq => (!un && fvalue a = fvalue b, sig)
  | .ne => (un || fvalue a ≠ fvalue b, sig)
  | .lt => (!un && fvalue a < fvalue b, anyNan)
  | .le => (!un && fvalue a ≤ fvalue b, anyNan)
  | .gt => (!un && fvalue b < fvalue a, anyNan)
  | .ge => (!un && fvalue b ≤ fvalue a, anyNan)
  | .un => (un, sig)
  | .ord => (!un, sig)

end Sys2Proof.Machine
end

