-- ==== Sys2Proof/Machine/VecInt.lean ====
section
/-! DEFINITION. Vector integer arithmetic, logic, shifts and counts (09 R175-R179). -/

namespace Sys2Proof.Machine

/-- Element `m` of a lane at width `w` (09 R175). -/
def elemAt (w : Nat) (x : Lane) (m : Nat) : Nat := (x.toNat >>> (w * m)) % 2 ^ w

/-- A lane made element by element, with the flags of its elements. -/
def elemwise (w : Nat) (g : Nat → Nat × FFlags) : Lane × FFlags :=
  (List.range (32 / w)).foldl (fun a m => (a.1 ||| w32 (((g m).1 % 2 ^ w) <<< (w * m)), a.2 ||| (g m).2)) (0, 0)

/-- A lane-wise instruction: each active lane of `d` gets its result, the flags of the active lanes are ORed, 2 units are charged (09 R175, R176). -/
def State.laneOp (s : State) (f : Form) (d : VReg) (g : Thread → Bool → Fin 32 → Lane × FFlags) : Out :=
  s.vector f fun s t body mask =>
    let r := Vector.ofFn (g t body)
    .done (s.modCur fun u => (u.setV body d mask fun i => r[i].1).orFlags (lanesOr mask fun i => r[i].2)) 2 0

/-- The operations of OPC 0x50-0x52 (09 R178). -/
inductive VArith | add | sub | mul | mulh | mac | min | max | abs | neg
  deriving DecidableEq, Repr

/-- One element of an integer operation; `d` is the old element of the destination (09 R178). -/
def arithElem (op : VArith) (w : Nat) (m : VMode) (d a b : Nat) : Nat × FFlags :=
  let rd (x : Nat) : Int := if m = .us then (x : Int) else signedOf w x
  let res : Int :=
    match op with
    | .add => rd a + rd b
    | .sub => rd a - rd b
    | .mul => rd a * rd b
    | .mac => rd d + rd a * rd b
    | .mulh => rd a * rd b / (2 ^ w : Nat)
    | .min => if rd a ≤ rd b then rd a else rd b
    | .max => if rd a ≤ rd b then rd b else rd a
    | .abs => (signedOf w a).natAbs
    | .neg => -signedOf w a
  let wrapped := (res % (2 ^ w : Nat)).toNat
  match op with
  | .mulh => (wrapped, 0)
  | .min => (wrapped, 0)
  | .max => (wrapped, 0)
  | _ =>
    match m with
    | .m0 => (wrapped, 0)
    | .ss =>
      let r := clampS w res
      ((r.1 % (2 ^ w : Nat)).toNat, r.2)
    | .us =>
      let r := clampU w res
      (r.1.toNat, r.2)

/-- An integer operation on lanes of vA and an operand that gives each lane a pattern. -/
def State.vArith (s : State) (f : Form) (op : VArith) (e : VWidth) (m : VMode) (d a : VReg)
    (b : Thread → Bool → Fin 32 → Nat → Nat) : Out :=
  s.laneOp f d fun t body i =>
    elemwise e.bits fun k =>
      arithElem op e.bits m (elemAt e.bits (t.vreg body d)[i] k) (elemAt e.bits (t.vreg body a)[i] k) (b t body i k)

/-- The elements of vB. -/
def byVector (e : VWidth) (b : VReg) (t : Thread) (body : Bool) (i : Fin 32) (k : Nat) : Nat :=
  elemAt e.bits (t.vreg body b)[i] k

/-- bits(sB, E - 1, 0) in every element (09 R176). -/
def byScalar (e : VWidth) (b : SReg) (t : Thread) (body : Bool) (_ : Fin 32) (_ : Nat) : Nat :=
  (t.sreg body b).toNat % 2 ^ e.bits

/-- The low bits of a sign-extended immediate in every element (09 R178). -/
def byImm (e : VWidth) (x : Word) (_ : Thread) (_ : Bool) (_ : Fin 32) (_ : Nat) : Nat := x.toNat % 2 ^ e.bits

/-- The element operations of OPC 0x55 (09 R179). -/
inductive VShift | shl | shr | sar | rot
  deriving DecidableEq, Repr

/-- One shifted element; `n` is below the width. -/
def shiftElem (op : VShift) (w a n : Nat) : Nat :=
  match op with
  | .shl => a * 2 ^ n % 2 ^ w
  | .shr => a >>> n
  | .sar => (signedOf w a / (2 ^ n : Nat) % (2 ^ w : Nat)).toNat
  | .rot => (a >>> n + a * 2 ^ (w - n)) % 2 ^ w

/-- A shift by an amount that each element gives. -/
def State.vShiftOp (s : State) (p : Pred) (op : VShift) (e : VWidth) (d a : VReg) (n : Thread → Bool → Fin 32 → Nat → Nat) : Out :=
  s.laneOp (Form.lanes 8 p) d fun t body i =>
    elemwise e.bits fun k => (shiftElem op e.bits (elemAt e.bits (t.vreg body a)[i] k) (n t body i k % e.bits), 0)

/-- Set bits of an element. -/
def popElem (w a : Nat) : Nat := (bitsOf a w).length

/-- Leading zeros of an element (09 R179). -/
def clzElem (w a : Nat) : Nat := if a = 0 then w else w - 1 - a.log2

/-- A bitwise operation on whole lanes (09 R179). -/
def State.vLogic (s : State) (p : Pred) (d a b : VReg) (f : Lane → Lane → Lane) : Out :=
  s.laneOp (Form.lanes 8 p) d fun t body i => (f (t.vreg body a)[i] (t.vreg body b)[i], 0)

/-- `v.add vD, vA, vB` (09 R178). -/
def execVAdd (p : Pred) (e : VWidth) (m : VMode) (d a b : VReg) (s : State) : Out :=
  s.vArith (Form.lanes 8 p) .add e m d a (byVector e b)

/-- `v.sub vD, vA, vB` (09 R178). -/
def execVSub (p : Pred) (e : VWidth) (m : VMode) (d a b : VReg) (s : State) : Out :=
  s.vArith (Form.lanes 8 p) .sub e m d a (byVector e b)

/-- `v.mul vD, vA, vB` (09 R178). -/
def execVMul (p : Pred) (e : VWidth) (m : VMode) (d a b : VReg) (s : State) : Out :=
  s.vArith (Form.lanes 8 p) .mul e m d a (byVector e b)

/-- `v.mulh vD, vA, vB` (09 R178). -/
def execVMulh (p : Pred) (e : VWidth) (m : VMode) (d a b : VReg) (s : State) : Out :=
  s.vArith (Form.lanes 8 p) .mulh e m d a (byVector e b)

/-- `v.mac vD, vA, vB` (09 R178). -/
def execVMac (p : Pred) (e : VWidth) (m : VMode) (d a b : VReg) (s : State) : Out :=
  s.vArith (Form.lanes 8 p) .mac e m d a (byVector e b)

/-- `v.min vD, vA, vB` (09 R178). -/
def execVMin (p : Pred) (e : VWidth) (m : VMode) (d a b : VReg) (s : State) : Out :=
  s.vArith (Form.lanes 8 p) .min e m d a (byVector e b)

/-- `v.max vD, vA, vB` (09 R178). -/
def execVMax (p : Pred) (e : VWidth) (m : VMode) (d a b : VReg) (s : State) : Out :=
  s.vArith (Form.lanes 8 p) .max e m d a (byVector e b)

/-- `v.abs vD, vA` (09 R178). -/
def execVAbs (p : Pred) (e : VWidth) (m : VMode) (d a : VReg) (s : State) : Out :=
  s.vArith (Form.lanes 8 p) .abs e m d a fun _ _ _ _ => 0

/-- `v.neg vD, vA` (09 R178). -/
def execVNeg (p : Pred) (e : VWidth) (m : VMode) (d a : VReg) (s : State) : Out :=
  s.vArith (Form.lanes 8 p) .neg e m d a fun _ _ _ _ => 0

/-- `v.add vD, vA, sB` (09 R178). -/
def execVAddScalar (p : Pred) (e : VWidth) (m : VMode) (d a : VReg) (b : SReg) (s : State) : Out :=
  s.vArith (Form.lanes 8 p) .add e m d a (byScalar e b)

/-- `v.sub vD, vA, sB` (09 R178). -/
def execVSubScalar (p : Pred) (e : VWidth) (m : VMode) (d a : VReg) (b : SReg) (s : State) : Out :=
  s.vArith (Form.lanes 8 p) .sub e m d a (byScalar e b)

/-- `v.mul vD, vA, sB` (09 R178). -/
def execVMulScalar (p : Pred) (e : VWidth) (m : VMode) (d a : VReg) (b : SReg) (s : State) : Out :=
  s.vArith (Form.lanes 8 p) .mul e m d a (byScalar e b)

/-- `v.mulh vD, vA, sB` (09 R178). -/
def execVMulhScalar (p : Pred) (e : VWidth) (m : VMode) (d a : VReg) (b : SReg) (s : State) : Out :=
  s.vArith (Form.lanes 8 p) .mulh e m d a (byScalar e b)

/-- `v.mac vD, vA, sB` (09 R178). -/
def execVMacScalar (p : Pred) (e : VWidth) (m : VMode) (d a : VReg) (b : SReg) (s : State) : Out :=
  s.vArith (Form.lanes 8 p) .mac e m d a (byScalar e b)

/-- `v.min vD, vA, sB` (09 R178). -/
def execVMinScalar (p : Pred) (e : VWidth) (m : VMode) (d a : VReg) (b : SReg) (s : State) : Out :=
  s.vArith (Form.lanes 8 p) .min e m d a (byScalar e b)

/-- `v.max vD, vA, sB` (09 R178). -/
def execVMaxScalar (p : Pred) (e : VWidth) (m : VMode) (d a : VReg) (b : SReg) (s : State) : Out :=
  s.vArith (Form.lanes 8 p) .max e m d a (byScalar e b)

/-- `v.add vD, vA, imm` (09 R178). -/
def execVAddImm (p : Pred) (e : VWidth) (m : VMode) (d a : VReg) (imm : BitVec 16) (s : State) : Out :=
  s.vArith (Form.lanes 8 p) .add e m d a (byImm e (imm16 imm))

/-- `v.add vD, vA, imm`, long (09 R178). -/
def execVAddImmLong (p : Pred) (e : VWidth) (m : VMode) (d a : VReg) (imm : BitVec 32) (s : State) : Out :=
  s.vArith (Form.lanes 12 p) .add e m d a (byImm e (imm32 imm))

/-- `v.sub vD, vA, imm` (09 R178). -/
def execVSubImm (p : Pred) (e : VWidth) (m : VMode) (d a : VReg) (imm : BitVec 16) (s : State) : Out :=
  s.vArith (Form.lanes 8 p) .sub e m d a (byImm e (imm16 imm))

/-- `v.sub vD, vA, imm`, long (09 R178). -/
def execVSubImmLong (p : Pred) (e : VWidth) (m : VMode) (d a : VReg) (imm : BitVec 32) (s : State) : Out :=
  s.vArith (Form.lanes 12 p) .sub e m d a (byImm e (imm32 imm))

/-- `v.mul vD, vA, imm` (09 R178). -/
def execVMulImm (p : Pred) (e : VWidth) (m : VMode) (d a : VReg) (imm : BitVec 16) (s : State) : Out :=
  s.vArith (Form.lanes 8 p) .mul e m d a (byImm e (imm16 imm))

/-- `v.mul vD, vA, imm`, long (09 R178). -/
def execVMulImmLong (p : Pred) (e : VWidth) (m : VMode) (d a : VReg) (imm : BitVec 32) (s : State) : Out :=
  s.vArith (Form.lanes 12 p) .mul e m d a (byImm e (imm32 imm))

/-- `v.min vD, vA, imm` (09 R178). -/
def execVMinImm (p : Pred) (e : VWidth) (m : VMode) (d a : VReg) (imm : BitVec 16) (s : State) : Out :=
  s.vArith (Form.lanes 8 p) .min e m d a (byImm e (imm16 imm))

/-- `v.min vD, vA, imm`, long (09 R178). -/
def execVMinImmLong (p : Pred) (e : VWidth) (m : VMode) (d a : VReg) (imm : BitVec 32) (s : State) : Out :=
  s.vArith (Form.lanes 12 p) .min e m d a (byImm e (imm32 imm))

/-- `v.max vD, vA, imm` (09 R178). -/
def execVMaxImm (p : Pred) (e : VWidth) (m : VMode) (d a : VReg) (imm : BitVec 16) (s : State) : Out :=
  s.vArith (Form.lanes 8 p) .max e m d a (byImm e (imm16 imm))

/-- `v.max vD, vA, imm`, long (09 R178). -/
def execVMaxImmLong (p : Pred) (e : VWidth) (m : VMode) (d a : VReg) (imm : BitVec 32) (s : State) : Out :=
  s.vArith (Form.lanes 12 p) .max e m d a (byImm e (imm32 imm))

/-- `v.and` (09 R179). -/
def execVAnd (p : Pred) (d a b : VReg) (s : State) : Out :=
  s.vLogic p d a b fun x y => x &&& y

/-- `v.or` (09 R179). -/
def execVOr (p : Pred) (d a b : VReg) (s : State) : Out :=
  s.vLogic p d a b fun x y => x ||| y

/-- `v.xor` (09 R179). -/
def execVXor (p : Pred) (d a b : VReg) (s : State) : Out :=
  s.vLogic p d a b fun x y => x ^^^ y

/-- `v.andn` (09 R179). -/
def execVAndn (p : Pred) (d a b : VReg) (s : State) : Out :=
  s.vLogic p d a b fun x y => x &&& ~~~ y

/-- `v.not` (09 R179). -/
def execVNot (p : Pred) (d a : VReg) (s : State) : Out :=
  s.vLogic p d a a fun x _ => ~~~ x

/-- `v.shl vD, vA, vB` (09 R179). -/
def execVShl (p : Pred) (e : VWidth) (d a b : VReg) (s : State) : Out :=
  s.vShiftOp p .shl e d a (byVector e b)

/-- `v.shl vD, vA, n` (09 R179). -/
def execVShlImm (p : Pred) (e : VWidth) (d a : VReg) (n : BitVec 5) (s : State) : Out :=
  s.vShiftOp p .shl e d a fun _ _ _ _ => n.toNat

/-- `v.shr vD, vA, vB` (09 R179). -/
def execVShr (p : Pred) (e : VWidth) (d a b : VReg) (s : State) : Out :=
  s.vShiftOp p .shr e d a (byVector e b)

/-- `v.shr vD, vA, n` (09 R179). -/
def execVShrImm (p : Pred) (e : VWidth) (d a : VReg) (n : BitVec 5) (s : State) : Out :=
  s.vShiftOp p .shr e d a fun _ _ _ _ => n.toNat

/-- `v.sar vD, vA, vB` (09 R179). -/
def execVSar (p : Pred) (e : VWidth) (d a b : VReg) (s : State) : Out :=
  s.vShiftOp p .sar e d a (byVector e b)

/-- `v.sar vD, vA, n` (09 R179). -/
def execVSarImm (p : Pred) (e : VWidth) (d a : VReg) (n : BitVec 5) (s : State) : Out :=
  s.vShiftOp p .sar e d a fun _ _ _ _ => n.toNat

/-- `v.rot vD, vA, vB` (09 R179). -/
def execVRot (p : Pred) (e : VWidth) (d a b : VReg) (s : State) : Out :=
  s.vShiftOp p .rot e d a (byVector e b)

/-- `v.rot vD, vA, n` (09 R179). -/
def execVRotImm (p : Pred) (e : VWidth) (d a : VReg) (n : BitVec 5) (s : State) : Out :=
  s.vShiftOp p .rot e d a fun _ _ _ _ => n.toNat

/-- `v.clz` (09 R179). -/
def execVClz (p : Pred) (e : VWidth) (d a : VReg) (s : State) : Out :=
  s.laneOp (Form.lanes 8 p) d fun t body i =>
    elemwise e.bits fun k => (clzElem e.bits (elemAt e.bits (t.vreg body a)[i] k), 0)

/-- `v.popc` (09 R179). -/
def execVPopc (p : Pred) (e : VWidth) (d a : VReg) (s : State) : Out :=
  s.laneOp (Form.lanes 8 p) d fun t body i =>
    elemwise e.bits fun k => (popElem e.bits (elemAt e.bits (t.vreg body a)[i] k), 0)

end Sys2Proof.Machine
end

