-- ==== Sys2Proof/Machine/VecFloat.lean ====
section
/-! DEFINITION. Vector floating-point arithmetic and comparison in FP32 (09 R180-R182). -/

namespace Sys2Proof.Machine

/-- An FP32 operation that rounds: each lane takes its draw under STOCH, active or not (09 R176, R180). -/
def State.floatOp (s : State) (p : Pred) (rm : RM) (d : VReg)
    (g : Thread → Bool → RM → Fin 32 → FVal × FFlags) : Out :=
  s.vector (Form.lanes 8 p) fun s t body mask =>
    let mode := t.mode rm
    let dr := drawsFor mode 32 t.seed
    let r := Vector.ofFn fun i => t.fround mode (nth dr.1 i.val 0) (g t body mode i)
    .done (s.modCur fun u =>
      { (u.setV body d mask fun i => r[i].1).orFlags (lanesOr mask fun i => r[i].2) with seed := dr.2 }) 2 0

/-- Lane `i` of a vector register, read arithmetically. -/
def Thread.flane (t : Thread) (body : Bool) (a : VReg) (i : Fin 32) : FVal := t.fread (t.vreg body a)[i]

/-- The FP32 broadcast operand bits(sB, 31, 0). -/
def Thread.fscalar (t : Thread) (body : Bool) (b : SReg) : FVal := t.fread (lo32 (t.sreg body b))

/-- A value rounded to an integral value by the mode, with INEXACT where it changes (09 R180). -/
def toIntegral (mode : RM) (draw : Nat) (v : FVal) : FVal × FFlags :=
  match v with
  | .fin s m e st =>
    if m = 0 || 0 ≤ e then (.fin s m e st, 0)
    else
      let r := quantize mode s draw m e st 0
      (.fin s r.1 0 false, flagIf r.2 flagInexact)
  | x => (x, 0)

/-- A comparison: bit n of pD for each active lane n (09 R182). -/
def State.vCompare (s : State) (p : Pred) (d : PReg) (g : Thread → Bool → Fin 32 → Bool × FFlags) : Out :=
  s.vector (Form.lanes 8 p) fun s t body mask =>
    let r := Vector.ofFn (g t body)
    let hits : BitVec 32 := BitVec.ofNat 32 (ofBits ((List.finRange 32).filterMap fun i => if r[i].1 then some i.val else none))
    .done (s.modCur fun u =>
      (u.setP d ((hits &&& mask) ||| (u.preg d &&& ~~~ mask))).orFlags (lanesOr mask fun i => r[i].2)) 2 0

/-- The conditions of 07 R130 on 32-bit lanes. -/
def laneCond (cc : Cond) (a b : Lane) : Bool :=
  match cc with
  | .eq => a == b
  | .ne => a != b
  | .lt => a.toInt < b.toInt
  | .ge => b.toInt ≤ a.toInt
  | .ltu => a.toNat < b.toNat
  | .geu => b.toNat ≤ a.toNat
  | .tst => (a &&& b) != 0
  | .tstn => (a &&& b) == 0

/-- `v.fadd vD, vA, vB` (09 R180). -/
def execVFadd (p : Pred) (rm : RM) (d a b : VReg) (s : State) : Out :=
  s.floatOp p rm d fun t body md i => fadd md (t.flane body a i) (t.flane body b i)

/-- `v.fadd vD, vA, sB` (09 R180). -/
def execVFaddScalar (p : Pred) (rm : RM) (d a : VReg) (b : SReg) (s : State) : Out :=
  s.floatOp p rm d fun t body md i => fadd md (t.flane body a i) (t.fscalar body b)

/-- `v.fsub vD, vA, vB` (09 R180). -/
def execVFsub (p : Pred) (rm : RM) (d a b : VReg) (s : State) : Out :=
  s.floatOp p rm d fun t body md i => fadd md (t.flane body a i) ((t.flane body b i)).negate

/-- `v.fsub vD, vA, sB` (09 R180). -/
def execVFsubScalar (p : Pred) (rm : RM) (d a : VReg) (b : SReg) (s : State) : Out :=
  s.floatOp p rm d fun t body md i => fadd md (t.flane body a i) ((t.fscalar body b)).negate

/-- `v.fmul vD, vA, vB` (09 R180). -/
def execVFmul (p : Pred) (rm : RM) (d a b : VReg) (s : State) : Out :=
  s.floatOp p rm d fun t body _ i => fmul (t.flane body a i) (t.flane body b i)

/-- `v.fmul vD, vA, sB` (09 R180). -/
def execVFmulScalar (p : Pred) (rm : RM) (d a : VReg) (b : SReg) (s : State) : Out :=
  s.floatOp p rm d fun t body _ i => fmul (t.flane body a i) (t.fscalar body b)

/-- `v.fmin vD, vA, vB` (09 R181). -/
def execVFmin (p : Pred) (d a b : VReg) (s : State) : Out :=
  s.laneOp (Form.lanes 8 p) d fun t body i =>
    fminmax false (dazBits t.daz (t.vreg body a)[i]) (dazBits t.daz (t.vreg body b)[i])

/-- `v.fmin vD, vA, sB` (09 R181). -/
def execVFminScalar (p : Pred) (d a : VReg) (b : SReg) (s : State) : Out :=
  s.laneOp (Form.lanes 8 p) d fun t body i =>
    fminmax false (dazBits t.daz (t.vreg body a)[i]) (dazBits t.daz (lo32 (t.sreg body b)))

/-- `v.fmax vD, vA, vB` (09 R181). -/
def execVFmax (p : Pred) (d a b : VReg) (s : State) : Out :=
  s.laneOp (Form.lanes 8 p) d fun t body i =>
    fminmax true (dazBits t.daz (t.vreg body a)[i]) (dazBits t.daz (t.vreg body b)[i])

/-- `v.fmax vD, vA, sB` (09 R181). -/
def execVFmaxScalar (p : Pred) (d a : VReg) (b : SReg) (s : State) : Out :=
  s.laneOp (Form.lanes 8 p) d fun t body i =>
    fminmax true (dazBits t.daz (t.vreg body a)[i]) (dazBits t.daz (lo32 (t.sreg body b)))

/-- `v.fma` (09 R180). -/
def execVFma (p : Pred) (rm : RM) (d a b c : VReg) (s : State) : Out :=
  s.floatOp p rm d fun t body md i => ffma md (t.flane body a i) (t.flane body b i) (t.flane body c i)

/-- `v.fms` (09 R180). -/
def execVFms (p : Pred) (rm : RM) (d a b c : VReg) (s : State) : Out :=
  s.floatOp p rm d fun t body md i => ffma md (t.flane body a i) (t.flane body b i) (t.flane body c i).negate

/-- `v.fnma` (09 R180). -/
def execVFnma (p : Pred) (rm : RM) (d a b c : VReg) (s : State) : Out :=
  s.floatOp p rm d fun t body md i => ffma md (t.flane body a i).negate (t.flane body b i) (t.flane body c i)

/-- `v.fdiv` (09 R180). -/
def execVFdiv (p : Pred) (rm : RM) (d a b : VReg) (s : State) : Out :=
  s.floatOp p rm d fun t body _ i => fdiv (t.flane body a i) (t.flane body b i)

/-- `v.fsqrt` (09 R180). -/
def execVFsqrt (p : Pred) (rm : RM) (d a : VReg) (s : State) : Out :=
  s.floatOp p rm d fun t body _ i => fsqrt (t.flane body a i)

/-- `v.frcp` (09 R180). -/
def execVFrcp (p : Pred) (rm : RM) (d a : VReg) (s : State) : Out :=
  s.floatOp p rm d fun t body _ i => fdiv (.fin false 1 0 false) (t.flane body a i)

/-- `v.frsq` (09 R180). -/
def execVFrsq (p : Pred) (rm : RM) (d a : VReg) (s : State) : Out :=
  s.floatOp p rm d fun t body _ i => frsq (t.flane body a i)

/-- `v.fabs` (09 R181). -/
def execVFabs (p : Pred) (d a : VReg) (s : State) : Out :=
  s.vLogic p d a a fun x _ => x &&& 0x7FFFFFFF

/-- `v.fneg` (09 R181). -/
def execVFneg (p : Pred) (d a : VReg) (s : State) : Out :=
  s.vLogic p d a a fun x _ => x ^^^ 0x80000000

/-- `v.fcopysign` (09 R181). -/
def execVFcopysign (p : Pred) (d a b : VReg) (s : State) : Out :=
  s.vLogic p d a b fun x y => (x &&& 0x7FFFFFFF) ||| (y &&& 0x80000000)

/-- `v.fclass` (09 R181). -/
def execVFclass (p : Pred) (d a : VReg) (s : State) : Out :=
  s.vLogic p d a a fun x _ => fclass x

/-- `v.fscale` (09 R180). -/
def execVFscale (p : Pred) (rm : RM) (d a b : VReg) (s : State) : Out :=
  s.floatOp p rm d fun t body _ i => fscale (t.flane body a i) ((t.vreg body b)[i]).toInt

/-- `v.fround` (09 R180). -/
def execVFround (p : Pred) (rm : RM) (d a : VReg) (s : State) : Out :=
  s.vector (Form.lanes 8 p) fun s t body mask =>
    let mode := t.mode rm
    let dr := drawsFor mode 32 t.seed
    let r := Vector.ofFn fun i : Fin 32 => t.fround .rne 0 (toIntegral mode (nth dr.1 i.val 0) (t.flane body a i))
    .done (s.modCur fun u =>
      { (u.setV body d mask fun i => r[i].1).orFlags (lanesOr mask fun i => r[i].2) with seed := dr.2 }) 2 0

/-- `v.cmp.cc pD, vA, vB` (09 R182). -/
def execVCmp (p : Pred) (cc : Cond) (d : PReg) (a b : VReg) (s : State) : Out :=
  s.vCompare p d fun t body i => (laneCond cc (t.vreg body a)[i] (t.vreg body b)[i], 0)

/-- `v.cmp.cc pD, vA, sB` (09 R182). -/
def execVCmpScalar (p : Pred) (cc : Cond) (d : PReg) (a : VReg) (b : SReg) (s : State) : Out :=
  s.vCompare p d fun t body i => (laneCond cc (t.vreg body a)[i] (lo32 (t.sreg body b)), 0)

/-- `v.fcmp.cc pD, vA, vB` (09 R182). -/
def execVFcmp (p : Pred) (cc : FCond) (d : PReg) (a b : VReg) (s : State) : Out :=
  s.vCompare p d fun t body i =>
    fcmp cc (dazBits t.daz (t.vreg body a)[i]) (dazBits t.daz (t.vreg body b)[i])

/-- `v.fcmp.cc pD, vA, sB` (09 R182). -/
def execVFcmpScalar (p : Pred) (cc : FCond) (d : PReg) (a : VReg) (b : SReg) (s : State) : Out :=
  s.vCompare p d fun t body i =>
    fcmp cc (dazBits t.daz (t.vreg body a)[i]) (dazBits t.daz (lo32 (t.sreg body b)))

end Sys2Proof.Machine
end

