-- ==== Sys2Proof/Machine/VecPerm.lean ====
section
/-! DEFINITION. Permutation, broadcast and moves, reductions, scans and conversions (09 R183-R186). -/

namespace Sys2Proof.Machine

/-- Lane `n` of a vector register, by number. -/
def Thread.laneN (t : Thread) (body : Bool) (a : VReg) (n : Nat) : Lane := (t.vreg body a)[(⟨n % 32, Nat.mod_lt _ (by decide)⟩ : Fin 32)]

/-- A permutation: lane n receives `g n` (09 R183). -/
def State.vPermute (s : State) (len : Nat) (p : Pred) (d : VReg) (g : Thread → Bool → Nat → Lane) : Out :=
  s.laneOp (Form.lanes len p) d fun t body i => (g t body i.val, 0)

/-- The lane that a pattern of `v.shuf` takes (09 R183). -/
def shufLane (k : Shuf) (t : Thread) (body : Bool) (a b : VReg) (n : Nat) : Lane :=
  match k with
  | .rev => t.laneN body a (31 - n)
  | .swap => t.laneN body a (n ^^^ 1)
  | .zlo => if n % 2 = 0 then t.laneN body a (n / 2) else t.laneN body b ((n - 1) / 2)
  | .zhi => if n % 2 = 0 then t.laneN body a (16 + n / 2) else t.laneN body b (16 + (n - 1) / 2)
  | .even => if n < 16 then t.laneN body a (2 * n) else t.laneN body b (2 * n - 32)
  | .odd => if n < 16 then t.laneN body a (2 * n + 1) else t.laneN body b (2 * n - 31)

/-- `v.perm` (09 R183). -/
def execVPerm (p : Pred) (d a b : VReg) (s : State) : Out :=
  s.vPermute 8 p d fun t body n => t.laneN body a ((t.laneN body b n).toNat % 32)

/-- `v.perm2` (09 R183). -/
def execVPerm2 (p : Pred) (d a b c : VReg) (s : State) : Out :=
  s.vPermute 8 p d fun t body n =>
    let i := (t.laneN body b n).toNat % 64
    if i < 32 then t.laneN body a i else t.laneN body c (i - 32)

/-- `v.shuf.pat` (09 R183). -/
def execVShuf (p : Pred) (k : Shuf) (d a b : VReg) (s : State) : Out :=
  s.vPermute 8 p d fun t body n => shufLane k t body a b n

/-- `v.bcast vD, sA` (09 R183). -/
def execVBcast (p : Pred) (d : VReg) (a : SReg) (s : State) : Out :=
  s.vPermute 8 p d fun t body _ => lo32 (t.sreg body a)

/-- `v.bcast vD, vA, k` (09 R183). -/
def execVBcastLane (p : Pred) (d a : VReg) (k : BitVec 5) (s : State) : Out :=
  s.vPermute 8 p d fun t body _ => t.laneN body a k.toNat

/-- `v.bcast vD, imm` (09 R183). -/
def execVBcastImm (p : Pred) (d : VReg) (imm : BitVec 32) (s : State) : Out :=
  s.vPermute 12 p d fun _ _ _ => imm

/-- `v.bcast vD, qA` (09 R183, 07 R140). -/
def execVBcastQ (p : Pred) (d : VReg) (a : QReg) (s : State) : Out :=
  s.vector (Form.lanes 8 p) fun s t body mask =>
    match t.pop a with
    | .empty => .wait s (.stall 10)
    | .eos => .fault (queueFault a)
    | .value w t' => .done ((s.modCur fun _ => t').modCur fun u => u.setV body d mask fun _ => lo32 w) 2 0

/-- `v.slide` (09 R183). -/
def execVSlide (p : Pred) (d a b : VReg) (k : BitVec 5) (s : State) : Out :=
  s.vPermute 8 p d fun t body n =>
    if n + k.toNat < 32 then t.laneN body a (n + k.toNat) else t.laneN body b (n + k.toNat - 32)

/-- `v.mov vD, vA` (09 R183). -/
def execVMov (p : Pred) (d a : VReg) (s : State) : Out :=
  s.vPermute 8 p d fun t body n => t.laneN body a n

/-- `v.sel` (09 R183). -/
def execVSel (p : Pred) (d a b : VReg) (c : PReg) (s : State) : Out :=
  s.vPermute 8 p d fun t body n =>
    if (t.preg c).getLsbD n then t.laneN body a n else t.laneN body b n

/-- `v.mov vD.k, sA` (09 R183). -/
def execVMovToLane (p : Pred) (d : VReg) (a : SReg) (k : BitVec 5) (s : State) : Out :=
  s.vPermute 8 p d fun t body n =>
    if n = k.toNat then lo32 (t.sreg body a) else t.laneN body d n

/-- `v.mov sD, vA.k`: bit k of the predicate decides (09 R183). -/
def execVMovFromLane (p : Pred) (d : SReg) (a : VReg) (k : BitVec 5) (s : State) : Out :=
  s.vector (Form.lanes 8 p) fun s t body mask =>
    .done (if mask.getLsbD k.toNat then s.modCur fun u => u.setS d ((t.laneN body a k.toNat).setWidth 64) else s) 2 0

/-! Reductions and scans (09 R184, R185). -/

/-- The active lanes of a register in ascending order, with their numbers. -/
def activeLanes (mask : BitVec 32) (v : Vector Lane 32) : List (Nat × Lane) :=
  (List.finRange 32).filterMap fun i => if mask.getLsbD i.val then some (i.val, v[i]) else none

/-- The same result in every active lane; with none active nothing is written. -/
def State.vReduce (s : State) (p : Pred) (d a : VReg) (g : Thread → List (Nat × Lane) → Lane × FFlags) : Out :=
  s.vector (Form.lanes 8 p) fun s t body mask =>
    let l := activeLanes mask (t.vreg body a)
    if l.isEmpty then .done s 2 0
    else
      let r := g t l
      .done (s.modCur fun u => (u.setV body d mask fun _ => r.1).orFlags r.2) 2 0

/-- A lane as an integer of a mode: unsigned under mode 10 (09 R184). -/
def laneInt (m : VMode) (x : Lane) : Int := if m = .us then (x.toNat : Int) else x.toInt

/-- An exact integer narrowed to a lane by a mode (09 R184). -/
def narrowLane (m : VMode) (x : Int) : Lane × FFlags :=
  match m with
  | .m0 => (BitVec.ofInt 32 x, 0)
  | .ss =>
    let r := clampS 32 x
    (BitVec.ofInt 32 r.1, r.2)
  | .us =>
    let r := clampU 32 x
    (BitVec.ofInt 32 r.1, r.2)

/-- The smaller or the larger lane of a mode. -/
def pickLane (mx : Bool) (m : VMode) (a b : Lane) : Lane := if (laneInt m a ≤ laneInt m b) != mx then a else b

/-- An operation over the lanes of a list, from its first. -/
def foldLanes (f : Lane → Lane → Lane) : List (Nat × Lane) → Lane
  | [] => 0
  | x :: r => r.foldl (fun a y => f a y.2) x.2

/-- INVALID where an active input lane signals (09 R184). -/
def sigFlags (l : List (Nat × Lane)) : FFlags :=
  flagIf (l.any fun x => (decodeF fp32 x.2.toNat).isSig) flagInvalid

/-- A NaN result is canonical (02 R32). -/
def canonLane (x : Lane) : Lane := if (decodeF fp32 x.toNat).isNan then 0x7FC00000 else x

/-- One level of the tree of `v.red.fadd`: pairs are joined, each node taking its draw (09 R184). -/
def treeLevel (t : Thread) (mode : RM) : List Nat → List (Option Lane) → List (Option Lane × FFlags) × List Nat
  | ds, a :: b :: r =>
    let rest := treeLevel t mode (ds.drop 1) r
    let y : Option Lane × FFlags :=
      match a, b with
      | none, none => (none, 0)
      | some x, none => (some x, 0)
      | none, some x => (some x, 0)
      | some x, some y =>
        let z := t.fround mode (ds.headD 0) (fadd mode (decodeF fp32 x.toNat) (decodeF fp32 y.toNat))
        (some z.1, z.2)
    (y :: rest.1, rest.2)
  | ds, _ => ([], ds)

/-- The levels of the tree. -/
def treeSum (t : Thread) (mode : RM) : Nat → List Nat → List (Option Lane) → FFlags → Option Lane × FFlags
  | 0, _, l, f => ((l.headD none), f)
  | n + 1, ds, l, f =>
    let r := treeLevel t mode ds l
    treeSum t mode n r.2 (r.1.map (·.1)) (r.1.foldl (fun a x => a ||| x.2) f)

/-- A scan: each active lane gets the result over the active lanes so far (09 R185). -/
def State.vScan (s : State) (p : Pred) (d a : VReg) (g : Thread → List (Nat × Lane) → Lane → Lane × FFlags) : Out :=
  s.vector (Form.lanes 8 p) fun s t body mask =>
    let l := activeLanes mask (t.vreg body a)
    let r := Vector.ofFn fun i : Fin 32 => g t (l.filter fun x => x.1 < i.val) (t.vreg body a)[i]
    .done (s.modCur fun u => (u.setV body d mask fun i => r[i].1).orFlags (lanesOr mask fun i => r[i].2)) 2 0

/-- The sums of `v.scan.fadd`, lane by lane (09 R185): the accumulator, the results and the flags. -/
def scanSum (t : Thread) (mode : RM) (mask : BitVec 32) (v : Vector Lane 32) (ds : List Nat) : List (Fin 32) → Option Lane → List (Nat × Lane) → FFlags → List (Nat × Lane) × FFlags
  | [], _, acc, f => (acc, f)
  | i :: r, x, acc, f =>
    if mask.getLsbD i.val then
      let y := dazBits t.daz v[i]
      let z : Lane × FFlags :=
        match x with
        | none => (y, 0)
        | some a => t.fround mode (nth ds i.val 0) (fadd mode (decodeF fp32 a.toNat) (decodeF fp32 y.toNat))
      scanSum t mode mask v ds r (some z.1) (acc ++ [(i.val, canonLane z.1)]) (f ||| z.2)
    else scanSum t mode mask v ds r x acc f

/-- Looks a lane up. -/
def laneOf (l : List (Nat × Lane)) (n : Nat) : Lane :=
  match l.find? fun x => x.1 == n with
  | none => 0
  | some x => x.2

/-- `v.red.add` (09 R184). -/
def execVRedAdd (p : Pred) (m : VMode) (d a : VReg) (s : State) : Out :=
  s.vReduce p d a fun _ l => narrowLane m (l.foldl (fun n x => n + laneInt m x.2) 0)

/-- `v.red.min` (09 R184). -/
def execVRedMin (p : Pred) (m : VMode) (d a : VReg) (s : State) : Out :=
  s.vReduce p d a fun _ l => (foldLanes (pickLane false m) l, 0)

/-- `v.red.max` (09 R184). -/
def execVRedMax (p : Pred) (m : VMode) (d a : VReg) (s : State) : Out :=
  s.vReduce p d a fun _ l => (foldLanes (pickLane true m) l, 0)

/-- `v.red.and` (09 R184). -/
def execVRedAnd (p : Pred) (d a : VReg) (s : State) : Out :=
  s.vReduce p d a fun _ l => (foldLanes (fun x y => x &&& y) l, 0)

/-- `v.red.or` (09 R184). -/
def execVRedOr (p : Pred) (d a : VReg) (s : State) : Out :=
  s.vReduce p d a fun _ l => (foldLanes (fun x y => x ||| y) l, 0)

/-- `v.red.xor` (09 R184). -/
def execVRedXor (p : Pred) (d a : VReg) (s : State) : Out :=
  s.vReduce p d a fun _ l => (foldLanes (fun x y => x ^^^ y) l, 0)

/-- `v.red.fadd` (09 R184): 31 draws under STOCH. -/
def execVRedFadd (p : Pred) (rm : RM) (d a : VReg) (s : State) : Out :=
  s.vector (Form.lanes 8 p) fun s t body mask =>
    let mode := t.mode rm
    let dr := drawsFor mode 31 t.seed
    let v := t.vreg body a
    let xs := (List.finRange 32).map fun i => if mask.getLsbD i.val then some (dazBits t.daz v[i]) else none
    let r := treeSum t mode 5 dr.1 xs (sigFlags (activeLanes mask v))
    .done (s.modCur fun u =>
      let u := { u with seed := dr.2 }
      match r.1 with
      | none => u
      | some x => (u.setV body d mask fun _ => canonLane x).orFlags r.2) 2 0

/-- `v.red.fmin` (09 R184). -/
def execVRedFmin (p : Pred) (d a : VReg) (s : State) : Out :=
  s.vReduce p d a fun t l =>
    (canonLane (foldLanes (fun x y => (fminmax false x y).1) (l.map fun x => (x.1, dazBits t.daz x.2))), sigFlags l)

/-- `v.red.fmax` (09 R184). -/
def execVRedFmax (p : Pred) (d a : VReg) (s : State) : Out :=
  s.vReduce p d a fun t l =>
    (canonLane (foldLanes (fun x y => (fminmax true x y).1) (l.map fun x => (x.1, dazBits t.daz x.2))), sigFlags l)

/-- `v.scan.add` (09 R185). -/
def execVScanAdd (p : Pred) (m : VMode) (d a : VReg) (s : State) : Out :=
  s.vScan p d a fun _ l x => narrowLane m (l.foldl (fun n y => n + laneInt m y.2) (laneInt m x))

/-- `v.scan.min` (09 R185). -/
def execVScanMin (p : Pred) (m : VMode) (d a : VReg) (s : State) : Out :=
  s.vScan p d a fun _ l x => (foldLanes (pickLane false m) (l ++ [(32, x)]), 0)

/-- `v.scan.max` (09 R185). -/
def execVScanMax (p : Pred) (m : VMode) (d a : VReg) (s : State) : Out :=
  s.vScan p d a fun _ l x => (foldLanes (pickLane true m) (l ++ [(32, x)]), 0)

/-- `v.scan.xadd` (09 R185). -/
def execVScanXadd (p : Pred) (m : VMode) (d a : VReg) (s : State) : Out :=
  s.vScan p d a fun _ l _ => narrowLane m (l.foldl (fun n y => n + laneInt m y.2) 0)

/-- `v.scan.fadd` (09 R185): 32 draws under STOCH. -/
def execVScanFadd (p : Pred) (rm : RM) (d a : VReg) (s : State) : Out :=
  s.vector (Form.lanes 8 p) fun s t body mask =>
    let mode := t.mode rm
    let dr := drawsFor mode 32 t.seed
    let v := t.vreg body a
    let r := scanSum t mode mask v dr.1 (List.finRange 32) none [] (sigFlags (activeLanes mask v))
    .done (s.modCur fun u =>
      { (u.setV body d mask fun i => laneOf r.1 i.val).orFlags r.2 with seed := dr.2 }) 2 0

/-- `v.scan.fmin` (09 R185). -/
def execVScanFmin (p : Pred) (d a : VReg) (s : State) : Out :=
  s.vScan p d a fun t l x =>
    (canonLane (foldLanes (fun x y => (fminmax false x y).1) ((l ++ [(32, x)]).map fun (y : Nat × Lane) => (y.1, dazBits t.daz y.2))),
      sigFlags (l ++ [(32, x)]))

/-- `v.scan.fmax` (09 R185). -/
def execVScanFmax (p : Pred) (d a : VReg) (s : State) : Out :=
  s.vScan p d a fun t l x =>
    (canonLane (foldLanes (fun x y => (fminmax true x y).1) ((l ++ [(32, x)]).map fun (y : Nat × Lane) => (y.1, dazBits t.daz y.2))),
      sigFlags (l ++ [(32, x)]))

/-! Conversions (09 R186). -/

/-- The whole register as one number of 1,024 bits, lane 0 lowest. -/
def vecNat (v : Vector Lane 32) : Nat := v.toList.foldr (fun x n => x.toNat + 2 ^ 32 * n) 0

/-- Lane `n` of such a number. -/
def natLane (x n : Nat) : Lane := w32 (x >>> (32 * n))

/-- A lane read as a type (09 R186). -/
def Thread.readType (t : Thread) (ty : CvtType) (x : Lane) : FVal :=
  match ty with
  | .fl => t.fread x
  | .si => .ofInt x.toInt
  | .ui => .ofInt (x.toNat : Int)

/-- The flush of 02 R33 on a result of a floating-point format. -/
def Thread.flushElem (t : Thread) (code : Nat) (r : Nat × FFlags) : Nat × FFlags :=
  if code = 3 then
    let q := flush fp19 t.ftz (r.1 / 2 ^ 13, r.2)
    (q.1 * 2 ^ 13, q.2)
  else
    match floatFmt code with
    | some f => flush f t.ftz r
    | none => r

/-- Elements placed in a bit string from `base`, those of the mask alone. -/
def placeElems (w base : Nat) (mask : BitVec 32) (old : Nat) : List (Fin 32) → (Fin 32 → Nat) → Nat
  | [], _ => old
  | i :: r, g =>
    let at' := base + w * i.val
    let x :=
      if mask.getLsbD i.val then old - ((old >>> at') % 2 ^ w) <<< at' + (g i % 2 ^ w) <<< at' else old
    placeElems w base mask x r g

/-- `v.cvt.n` (09 R186). -/
def execVCvtN (p : Pred) (rm : RM) (ty : CvtType) (d a : VReg) (fmt k : BitVec 5) (s : State) : Out :=
  s.vector (Form.lanes 8 p) fun s t body mask =>
    let mode := t.mode rm
    let dr := drawsFor mode 32 t.seed
    let code := fmt.toNat
    let w := elemWidth code
    let r := Vector.ofFn fun i : Fin 32 =>
      t.flushElem code (encodeElem code mode t.satc (nth dr.1 i.val 0) (t.readType ty (t.vreg body a)[i]))
    let x := placeElems w (32 * w * k.toNat) mask (vecNat (t.vreg body d)) (List.finRange 32) fun i => r[i].1
    .done (s.modCur fun u =>
      { (u.setV body d (BitVec.allOnes 32) fun i => natLane x i.val).orFlags (lanesOr mask fun i => r[i].2) with seed := dr.2 }) 2 0

/-- A value converted into a lane type (09 R186). -/
def widenLane (t : Thread) (ty : CvtType) (mode : RM) (draw : Nat) (v : FVal) : Lane × FFlags :=
  match ty with
  | .fl =>
    let r := flush fp32 t.ftz (encodeF fp32 mode t.satc draw v)
    (w32 r.1, r.2)
  | .si =>
    let r := encodeI (-(2 ^ 31 : Nat)) ((2 ^ 31 : Nat) - 1) mode draw v
    (BitVec.ofInt 32 r.1, r.2)
  | .ui =>
    let r := encodeI 0 ((2 ^ 32 : Nat) - 1) mode draw v
    (BitVec.ofInt 32 r.1, r.2)

/-- `v.cvt.w` (09 R186). -/
def execVCvtW (p : Pred) (rm : RM) (ty : CvtType) (d a : VReg) (fmt k : BitVec 5) (s : State) : Out :=
  s.vector (Form.lanes 8 p) fun s t body mask =>
    let mode := t.mode rm
    let dr := drawsFor mode 32 t.seed
    let code := fmt.toNat
    let w := elemWidth code
    let x := vecNat (t.vreg body a)
    let r := Vector.ofFn fun i : Fin 32 =>
      let e := (x >>> (32 * w * k.toNat + w * i.val)) % 2 ^ w
      let v := t.eread code e
      let q := widenLane t ty mode (nth dr.1 i.val 0) v.1
      ((q.1, v.2 ||| q.2) : Lane × FFlags)
    .done (s.modCur fun u =>
      { (u.setV body d mask fun i => r[i].1).orFlags (lanesOr mask fun i => r[i].2) with seed := dr.2 }) 2 0

end Sys2Proof.Machine
end

