-- ==== Sys2Proof/Machine/MemOps.lean ====
section
/-! DEFINITION. Memory-side operations that have retired and wait at their base logic, and the releases that have them performed (11 R242, 12 R247, R248, 13 R270, R271). -/

namespace Sys2Proof.Machine

/-- The new value of an atomic of width W from the old one, the operand and the expected value (13 R270). -/
def atomicNew (fn : Nat) (wide : Bool) (old b c : Nat) : Nat × FFlags :=
  let w := if wide then 64 else 32
  let so := signedOf w old
  let sb := signedOf w b
  match fn with
  | 0 => (b, 0)
  | 1 => (if old = c then b else old, 0)
  | 2 => ((old + b) % 2 ^ w, 0)
  | 3 => (old &&& b, 0)
  | 4 => (old ||| b, 0)
  | 5 => (old ^^^ b, 0)
  | 6 => (if sb < so then b else old, 0)
  | 7 => (if so < sb then b else old, 0)
  | 8 => (min old b, 0)
  | 9 => (max old b, 0)
  | _ =>
    let r := fadd .rne (decodeF fp32 old) (decodeF fp32 b)
    let e := encodeF fp32 .rne false 0 r.1
    (e.1, r.2 ||| e.2)

/-- The bytes of an atomic's word. -/
def wordBytes (wide : Bool) : Nat := if wide then 8 else 4

/-- A notice that goes to the partition's event stream and to the housekeeping log (13 R271, R275). -/
def State.noticeBoth (s : State) (part sub va : Nat) : State :=
  let s := s.event part 0x09 sub 0 (w64 va) 0
  s.hkPut 3 part (eventWords 0x09 false sub 0 s.clk (w64 va) 0 ++ List.replicate 4 0)

/-- `wd.ask` at its word (11 R242): the value returned and the new word. -/
def distribute (w k : Nat) : Nat × Nat :=
  let n := w % 2 ^ 32
  let lim := w / 2 ^ 32
  if n ≥ lim then (2 ^ 48 + n, w)
  else
    let gr := min k (lim - n)
    (gr * 2 ^ 32 + n, lim * 2 ^ 32 + n + gr)

/-- A waiting memory-side operation is performed (13 R271, 11 R242). -/
def State.perform (s : State) (m : MemOp) : State :=
  let s := { s with memOps := s.memOps.filter fun x => x.id != m.id }
  let n := wordBytes m.wide
  match s.badGran m.pa n with
  | some g =>
    if m.op = 32 then
      s.completeCmd m.vt (m.slot / 4) m.id .fault
        (faultValue { cause := .memErr, addr := w64 (m.va / 4096 * 4096 + g * 32 % 4096), kind := .distributor }) .distributor
    else s.noticeBoth m.part 3 m.va
  | none =>
    if m.op = 32 then
      let r := distribute (s.hbm.read m.pa 8) m.k
      (s.writeHbm m.pa 8 r.2).completeCmd m.vt (m.slot / 4) m.id .ok (BitVec.ofNat 60 r.1) .distributor
    else s.writeHbm m.pa n (atomicNew m.op m.wide (s.hbm.read m.pa n) (m.val.toNat % 2 ^ (8 * n)) 0).1

/-- Performs, in issue order, a thread's waiting operations that `is` holds of. -/
def State.performAll (s : State) (is : MemOp → Bool) : State := (s.memOps.filter is).foldl (fun s m => s.perform m) s

/-- The operation is the thread's own. -/
def MemOp.isOf (m : MemOp) (t : Thread) : Bool := m.vt == t.vt && m.slot == t.slot && m.gang == t.gang

/-- A thread's memory-side operations on one word are applied in issue order: those that wait on the 8-byte words of [pa, pa + n) come first (13 R271). -/
def State.flushWords (s : State) (t : Thread) (pa n : Nat) : State :=
  s.performAll fun m => m.isOf t && (unitsOf 8 pa n).contains (m.pa / 8)

/-- The thread's accesses that wait at a base logic are performed, in issue order: its reductions, and a `wd.ask` that one of them follows on its word; every other `wd.ask` is an engine command, which a release does not wait for (12 R247, 13 R271, log entry 58). -/
def State.settle (s : State) (t : Thread) : State :=
  s.performAll fun m => m.isOf t &&
    (m.op != 32 || s.memOps.any fun x => x.isOf t && x.op != 32 && m.id < x.id && x.pa / 8 == m.pa / 8)

/-- The attributes order the earlier accesses of the thread for another party: ORD is a release and SCOPE is wider than the thread (06 R110, 12 R248). -/
def Attr.releases (a : Attr) : Bool := a.ord.getLsbD 1 && a.scope != 0

/-- The attributes of a local-store or stash access: MEMCTL's, but for those that a prefix sets (06 R110-R112). -/
def Thread.attrOf (t : Thread) (px : Option Prefix) : Attr :=
  { ord := (px.bind fun q => q.ord).getD (t.memctl.extractLsb' 6 2)
    scope := (px.bind fun q => q.scope).getD (t.memctl.extractLsb' 3 3)
    evict := evictOf t px }

/-- The state in which an access with these attributes writes: a release comes after every earlier access of its thread (12 R247). -/
def State.released (s : State) (t : Thread) (a : Attr) : State := if Attr.releases a then s.settle t else s

end Sys2Proof.Machine
end

