-- ==== Sys2Proof/Machine/LocalStore.lean ====
section
/-! DEFINITION. Local-store accesses: the allocations a thread may reach, the checks of 11 R218 in their order, the touch of a stash entry (11 R230), and the scalar loads and stores (11 R220). -/

namespace Sys2Proof.Machine

/-! Allocations and stash entries. -/

/-- The allocations, base and length in bytes, that threads of a gang hold on a core slot (05 R91, 11 R218). -/
def State.allocs (s : State) (gid vt cs : Nat) : List (Nat × Nat) :=
  match s.gang? gid with
  | none => []
  | some g =>
    match g.tile? vt with
    | none => []
    | some k =>
      (List.range 4).filterMap fun n =>
        let t := s.thread vt (4 * cs + n)
        if t.st != .free && t.gang == gid then some (nth k.lsb n 0 * 4096, recUnits g.task * 4096) else none

/-- Every byte of [a, a + n) lies in one of the ranges; `fuel` ranges are joined at most. -/
def covered (l : List (Nat × Nat)) : Nat → Nat → Nat → Bool
  | 0, _, n => n = 0
  | fuel + 1, a, n =>
    if n = 0 then true
    else
      match l.find? fun r => r.1 ≤ a && a < r.1 + r.2 with
      | none => false
      | some r => covered l fuel (max a (r.1 + r.2)) (n - (r.1 + r.2 - a))

/-- The thread may reach [a, a + n) of its core's local store (11 R217, R218). -/
def State.reaches (s : State) (gid vt cs a n : Nat) : Bool :=
  a < 2 ^ 19 && a + n ≤ Config.lsReserve && covered (s.allocs gid vt cs) 5 a n

/-- The entry's local range meets [a, a + n). -/
def Stash.meets (e : Stash) (a n : Nat) : Bool := a < e.lbase + e.size && e.lbase < a + n && n != 0

/-- The global range of the entry meets [a, a + n). -/
def Stash.meetsGlobal (e : Stash) (a n : Nat) : Bool := a < e.gbase + e.size && e.gbase < a + n && n != 0

/-- Changes a stash entry. -/
def Core.modStash (c : Core) (num : Nat) (f : Stash → Stash) : Core :=
  { c with stash := modFirst (fun e => e.num == num) f c.stash }

/-- The valid entry with a number. -/
def Core.entry? (c : Core) (num : Nat) : Option Stash := c.stash.find? fun e => e.num == num

/-- An invalid entry is no longer held. -/
def Core.dropStash (c : Core) (num : Nat) : Core := { c with stash := c.stash.filter fun e => e.num != num }

/-- The thread slot whose stream waits on a fill, with its stream: twice the slot, plus one for the sequencer. -/
def Cur.stream (c : Cur) : Nat := 2 * c.slot + b2n c.body

/-- A fill starts: the entry is FILLING and its owner is charged the entry size (11 R230, R232). -/
def State.startFill (s : State) (vt cs num : Nat) (cmd by' : Option Nat) : State :=
  match (s.core vt cs).entry? num with
  | none => s
  | some e =>
    (s.modCore vt cs fun c => c.modStash num fun e => { e with st := .filling, cmd := cmd, fillBy := by' }).charge
      vt e.owner 0 e.size

/-- A write-back of the dirty bytes starts: DRAINING, charged to the owner (11 R230, R232). -/
def State.startDrain (s : State) (vt cs num : Nat) (cmd : Option Nat) : State :=
  match (s.core vt cs).entry? num with
  | none => s
  | some e =>
    (s.modCore vt cs fun c => c.modStash num fun e => { e with st := .draining, cmd := cmd }).charge
      vt e.owner 0 e.dirty.length

/-- A store to READY entries marks its bytes dirty (11 R230). -/
def Core.markDirty (c : Core) (a n : Nat) : Core :=
  { c with stash := c.stash.map fun e =>
      if e.st == .ready && e.meets a n then
        let lo := max a e.lbase
        let hi := min (a + n) (e.lbase + e.size)
        { e with dirty := unionNat ((List.range (hi - lo)).map fun i => lo - e.lbase + i) e.dirty }
      else e }

/-- A store by a thread or an engine of the core: bytes, tags, errors, dirty marks (11 R219, R230, R398). -/
def Core.store (c : Core) (a : Nat) (bs : List Byte) : Core := (c.putLs a bs).markDirty a bs.length

/-! The checks of 11 R218. -/

/-- One access of an instruction: its address, which may lie beyond every 64-bit one, the width its address must be a multiple of, its bytes, and whether it writes. -/
structure LsAccess where
  addr  : Nat
  width : Nat
  bytes : Nat
  write : Bool
  deriving DecidableEq, Repr

/-- The outcome of the checks. -/
inductive LsCheck
  | ok
  | wait (s : State)
  | fault (f : FaultInfo)

/-- The page of a READY entry that a store may not write, as its fill found it (11 R224, R229): the virtual address. -/
def Stash.readOnlyPage (e : Stash) (a n : Nat) : Option Nat :=
  let lo := e.gbase + (max a e.lbase - e.lbase)
  let hi := e.gbase + (min (a + n) (e.lbase + e.size) - e.lbase)
  ((unitsOf 4096 lo (hi - lo)).find? fun p => e.ro.contains p).map fun p => max lo (p * 4096)

/-- One access, in the order of 11 R218; a touch of an EMPTY entry starts its fill, and the first touch of an entry that fills is the one a failed fill faults (11 R230). -/
def State.lsCheckOne (s : State) (t : Thread) (x : LsAccess) : LsCheck :=
  let a := x.addr
  if x.width ≠ 0 ∧ a % x.width ≠ 0 then .fault { cause := .align, addr := w64 x.addr }
  else if !(s.reaches t.gang t.vt t.cslot a x.bytes) then .fault { cause := .lsRange, addr := w64 x.addr }
  else
    let c := s.core t.vt t.cslot
    let met := c.stash.filter fun e => e.meets a x.bytes
    match met.find? fun e => e.st != .ready with
    | some e =>
      .wait (
        if e.st == .empty then s.startFill t.vt t.cslot e.num none (some s.cur.stream)
        else if e.st == .filling && e.fillBy.isNone then
          s.modCore t.vt t.cslot fun c => c.modStash e.num fun e => { e with fillBy := some s.cur.stream }
        else s)
    | none =>
      let ro := if x.write then met.findSome? fun e => e.readOnlyPage a x.bytes else none
      match ro with
      | some va => .fault (transFault va .write 3)
      | none =>
        if x.write then .ok
        else
          match c.badWord a x.bytes with
          | some w => .fault { cause := .memErr, addr := w64 (4 * w) }
          | none => .ok

/-- Every check of every access is made before any access, in ascending lane order (09 R187). -/
def State.lsCheck (s : State) (t : Thread) : List LsAccess → LsCheck
  | [] => .ok
  | x :: r =>
    match s.lsCheckOne t x with
    | .ok => s.lsCheck t r
    | o => o

/-- Runs the body of an instruction once its accesses pass their checks; a stash wait is stall 12 (19 R382). -/
def State.withLs (s : State) (t : Thread) (l : List LsAccess) (body : Res) : Res :=
  match s.lsCheck t l with
  | .fault f => .fault f
  | .wait s => .wait s (.stall 12)
  | .ok => body

/-- A store by the thread whose instruction runs. -/
def State.storeCur (s : State) (t : Thread) (a : Nat) (bs : List Byte) : State :=
  s.modCore t.vt t.cslot fun c => c.store a bs

/-! Scalar loads and stores (11 R220). -/

/-- A number of `n` bytes extended to 64 bits. -/
def extend (sgn : Bool) (n x : Nat) : Word := if sgn then BitVec.ofInt 64 (signedOf (8 * n) x) else w64 x

/-- A local load of `n` bytes (11 R220). -/
def State.localLoad (s : State) (p : Pred) (px : Option Prefix) (n : Nat) (sgn : Bool) (d a : SReg) (disp : BitVec 16) : Out :=
  s.issue (Form.beside (plen px 8) p) fun s t =>
    let addr := t.sreg s.cur.body a + dispOf px disp
    s.withLs t [{ addr := addr.toNat, width := n, bytes := n, write := false }]
      (.done (s.modCur fun u => u.setS d (extend sgn n ((s.core t.vt t.cslot).readLs addr.toNat n))) 1 0)

/-- A local store of `n` bytes (11 R220); its ordering and scope are those of MEMCTL or of its prefix (06 R110). -/
def State.localStore (s : State) (p : Pred) (px : Option Prefix) (n : Nat) (a b : SReg) (disp : BitVec 16) : Out :=
  s.issue (Form.beside (plen px 8) p) fun s t =>
    let addr := t.sreg s.cur.body a + dispOf px disp
    s.withLs t [{ addr := addr.toNat, width := n, bytes := n, write := true }]
      (.done ((s.released t (t.attrOf px)).storeCur t addr.toNat (natBytes n (t.sreg s.cur.body b).toNat)) 1 0)

/-- `ld.b` (11 R220). -/
def execLdB (p : Pred) (px : Option Prefix) (d a : SReg) (disp : BitVec 16) (s : State) : Out :=
  s.localLoad p px 1 false d a disp

/-- `ld.h` (11 R220). -/
def execLdH (p : Pred) (px : Option Prefix) (d a : SReg) (disp : BitVec 16) (s : State) : Out :=
  s.localLoad p px 2 false d a disp

/-- `ld.w` (11 R220). -/
def execLdW (p : Pred) (px : Option Prefix) (d a : SReg) (disp : BitVec 16) (s : State) : Out :=
  s.localLoad p px 4 false d a disp

/-- `ld.d` (11 R220). -/
def execLdD (p : Pred) (px : Option Prefix) (d a : SReg) (disp : BitVec 16) (s : State) : Out :=
  s.localLoad p px 8 false d a disp

/-- `ld.bs` (11 R220). -/
def execLdBs (p : Pred) (px : Option Prefix) (d a : SReg) (disp : BitVec 16) (s : State) : Out :=
  s.localLoad p px 1 true d a disp

/-- `ld.hs` (11 R220). -/
def execLdHs (p : Pred) (px : Option Prefix) (d a : SReg) (disp : BitVec 16) (s : State) : Out :=
  s.localLoad p px 2 true d a disp

/-- `ld.ws` (11 R220). -/
def execLdWs (p : Pred) (px : Option Prefix) (d a : SReg) (disp : BitVec 16) (s : State) : Out :=
  s.localLoad p px 4 true d a disp

/-- `st.b` (11 R220). -/
def execStB (p : Pred) (px : Option Prefix) (a b : SReg) (disp : BitVec 16) (s : State) : Out :=
  s.localStore p px 1 a b disp

/-- `st.h` (11 R220). -/
def execStH (p : Pred) (px : Option Prefix) (a b : SReg) (disp : BitVec 16) (s : State) : Out :=
  s.localStore p px 2 a b disp

/-- `st.w` (11 R220). -/
def execStW (p : Pred) (px : Option Prefix) (a b : SReg) (disp : BitVec 16) (s : State) : Out :=
  s.localStore p px 4 a b disp

/-- `st.d` (11 R220). -/
def execStD (p : Pred) (px : Option Prefix) (a b : SReg) (disp : BitVec 16) (s : State) : Out :=
  s.localStore p px 8 a b disp

end Sys2Proof.Machine
end

