-- ==== Sys2Proof/Machine/VecMem.lean ====
section
/-! DEFINITION. Vector loads, stores, gathers and scatters (09 R187-R189). -/

namespace Sys2Proof.Machine

/-- The active lanes in ascending order. -/
def lanesOn (mask : BitVec 32) : List (Fin 32) := (List.finRange 32).filter fun i => mask.getLsbD i.val

/-- A vector load from lane addresses (09 R187, R189): its checks are made, and its lanes read one by one, in ascending order, in the one order of the core's accesses (09 R188, 12 R246, log entry 8). -/
def loadLanes (s : State) (t : Thread) (body : Bool) (mask : BitVec 32) (d : VReg) (addr : Fin 32 → Word) : Res :=
  s.withLs t ((lanesOn mask).map fun i => { addr := (addr i).toNat, width := 4, bytes := 4, write := false })
    (.done (s.modCur fun u =>
      { u with lanes := u.lanes ++ (lanesOn mask).map fun i => .load (addr i).toNat (u.vname body d) i }) 2 0)

/-- A vector store: its checks are made and its lanes leave in ascending order, to land one by one, so that another thread of the core can see part of them (09 R188, log entry 8); its ordering and scope are those of MEMCTL or of its prefix (06 R110, 09 R187). -/
def storeLanes (s : State) (t : Thread) (px : Option Prefix) (body : Bool) (mask : BitVec 32) (c : VReg) (addr : Fin 32 → Word) : Res :=
  let v := t.vreg body c
  s.withLs t ((lanesOn mask).map fun i => { addr := (addr i).toNat, width := 4, bytes := 4, write := true })
    (.done ((s.released t (t.attrOf px)).modCur fun u =>
      { u with lanes := u.lanes ++ (lanesOn mask).map fun i => .store (addr i).toNat v[i] }) 2 0)

/-- A lane of a vector register takes a value. -/
def Thread.setLane (t : Thread) (r : VReg) (i : Fin 32) (x : Lane) : Thread := { t with v := t.v.set r ((t.v[r]).set i x) }

/-- The next lane of a thread's vector access is applied (09 R188, 12 R246). -/
def State.landLane (s : State) (vt slot : Nat) : State :=
  match (s.thread vt slot).lanes with
  | [] => s
  | .store a x :: r => (s.modThread vt slot fun t => { t with lanes := r }).modCore vt (slot / 4) fun c => c.store a (natBytes 4 x.toNat)
  | .load a d i :: r =>
    let x := w32 ((s.core vt (slot / 4)).readLs a 4)
    s.modThread vt slot fun t => ({ t with lanes := r } : Thread).setLane d i x

/-- All lanes of a thread that have not been applied are, in order. -/
def State.landThread (s : State) (vt slot : Nat) : State :=
  (s.thread vt slot).lanes.foldl (fun s _ => s.landLane vt slot) s

/-- The lanes of these threads are applied. -/
def State.landWhere (s : State) (f : Thread → Bool) : State :=
  (s.threads.filter fun t => !t.lanes.isEmpty && f t).foldl (fun s t => s.landThread t.vt t.slot) s

/-- Every lane is applied: whatever is no local-store access of a thread finds the vector accesses before it whole. -/
def State.landAll (s : State) : State := s.landWhere fun _ => true

/-- The OPCs of the local-store accesses (09 R187, R190, 11 R220, 13 R261). -/
def localOpc (n : Nat) : Bool := (0x68 ≤ n && n ≤ 0x6F) || n == 0xA8 || n == 0xA9 || n == 0xC0

/-- The state in which a thread's head takes its turn: every lane of a vector store has landed, but where the head is a local-store access those of the core's other threads may still be on their way (09 R188, 12 R246). -/
def State.landFor (s : State) (vt slot : Nat) (body : Bool) : State :=
  let t := s.thread vt slot
  let opc := if body then t.bodyInstr.map fun b => b.words.2.field 2 8 else t.headOpc
  s.landWhere fun u => !(opc.any localOpc && u.vt == vt && u.cslot == slot / 4 && u.slot != slot)

/-- The address of lane n: base + disp + n × stride (09 R189). -/
def strided (base disp stride : Word) (i : Fin 32) : Word := base + disp + w64 i.val * stride

/-- A vector access whose base is an entry popped from a queue register (07 R140, 09 R189). -/
def State.withQueue (s : State) (t : Thread) (a : QReg) (body : State → Thread → Word → Res) : Res :=
  match t.pop a with
  | .empty => .wait s (.stall 10)
  | .eos => .fault (queueFault a)
  | .value w t' =>
    match body (s.modCur fun _ => t') t w with
    | .wait s' k => .wait (s'.modCur fun u => { u with q := t.q }) k
    | r => r

/-- `v.ld` (09 R189). -/
def execVLd (p : Pred) (px : Option Prefix) (d : VReg) (a : SReg) (disp : BitVec 16) (s : State) : Out :=
  s.vector (Form.lanes (plen px 8) p) fun s t body mask =>
    loadLanes s t body mask d (strided (t.sreg body a) (dispOf px disp) (4))

/-- `v.ld`, long (09 R189). -/
def execVLdLong (p : Pred) (px : Option Prefix) (d : VReg) (a : SReg) (disp : BitVec 32) (s : State) : Out :=
  s.vector (Form.lanes (plen px 12) p) fun s t body mask =>
    loadLanes s t body mask d (strided (t.sreg body a) (imm32 disp) (4))

/-- `v.ld.s` (09 R189). -/
def execVLdS (p : Pred) (px : Option Prefix) (d : VReg) (a b : SReg) (disp : BitVec 16) (s : State) : Out :=
  s.vector (Form.lanes (plen px 8) p) fun s t body mask =>
    loadLanes s t body mask d (strided (t.sreg body a) (dispOf px disp) (t.sreg body b))

/-- `v.ld.s`, long (09 R189). -/
def execVLdSLong (p : Pred) (px : Option Prefix) (d : VReg) (a b : SReg) (disp : BitVec 32) (s : State) : Out :=
  s.vector (Form.lanes (plen px 12) p) fun s t body mask =>
    loadLanes s t body mask d (strided (t.sreg body a) (imm32 disp) (t.sreg body b))

/-- `v.ld.q` (09 R189). -/
def execVLdQ (p : Pred) (px : Option Prefix) (d : VReg) (a : QReg) (disp : BitVec 16) (s : State) : Out :=
  s.vector (Form.lanes (plen px 8) p) fun s t body mask =>
    s.withQueue t a fun s t w => loadLanes s t body mask d (strided w (dispOf px disp) (4))

/-- `v.ld.q`, long (09 R189). -/
def execVLdQLong (p : Pred) (px : Option Prefix) (d : VReg) (a : QReg) (disp : BitVec 32) (s : State) : Out :=
  s.vector (Form.lanes (plen px 12) p) fun s t body mask =>
    s.withQueue t a fun s t w => loadLanes s t body mask d (strided w (imm32 disp) (4))

/-- `v.ld.q.s` (09 R189). -/
def execVLdQS (p : Pred) (px : Option Prefix) (d : VReg) (a : QReg) (b : SReg) (disp : BitVec 16) (s : State) : Out :=
  s.vector (Form.lanes (plen px 8) p) fun s t body mask =>
    s.withQueue t a fun s t w => loadLanes s t body mask d (strided w (dispOf px disp) (t.sreg body b))

/-- `v.ld.q.s`, long (09 R189). -/
def execVLdQSLong (p : Pred) (px : Option Prefix) (d : VReg) (a : QReg) (b : SReg) (disp : BitVec 32) (s : State) : Out :=
  s.vector (Form.lanes (plen px 12) p) fun s t body mask =>
    s.withQueue t a fun s t w => loadLanes s t body mask d (strided w (imm32 disp) (t.sreg body b))

/-- `v.st` (09 R189). -/
def execVSt (p : Pred) (px : Option Prefix) (c : VReg) (a : SReg) (disp : BitVec 16) (s : State) : Out :=
  s.vector (Form.lanes (plen px 8) p) fun s t body mask =>
    storeLanes s t px body mask c (strided (t.sreg body a) (dispOf px disp) (4))

/-- `v.st`, long (09 R189). -/
def execVStLong (p : Pred) (px : Option Prefix) (c : VReg) (a : SReg) (disp : BitVec 32) (s : State) : Out :=
  s.vector (Form.lanes (plen px 12) p) fun s t body mask =>
    storeLanes s t px body mask c (strided (t.sreg body a) (imm32 disp) (4))

/-- `v.st.s` (09 R189). -/
def execVStS (p : Pred) (px : Option Prefix) (c : VReg) (a b : SReg) (disp : BitVec 16) (s : State) : Out :=
  s.vector (Form.lanes (plen px 8) p) fun s t body mask =>
    storeLanes s t px body mask c (strided (t.sreg body a) (dispOf px disp) (t.sreg body b))

/-- `v.st.s`, long (09 R189). -/
def execVStSLong (p : Pred) (px : Option Prefix) (c : VReg) (a b : SReg) (disp : BitVec 32) (s : State) : Out :=
  s.vector (Form.lanes (plen px 12) p) fun s t body mask =>
    storeLanes s t px body mask c (strided (t.sreg body a) (imm32 disp) (t.sreg body b))

/-- `v.st.q` (09 R189). -/
def execVStQ (p : Pred) (px : Option Prefix) (c : VReg) (a : QReg) (disp : BitVec 16) (s : State) : Out :=
  s.vector (Form.lanes (plen px 8) p) fun s t body mask =>
    s.withQueue t a fun s t w => storeLanes s t px body mask c (strided w (dispOf px disp) (4))

/-- `v.st.q`, long (09 R189). -/
def execVStQLong (p : Pred) (px : Option Prefix) (c : VReg) (a : QReg) (disp : BitVec 32) (s : State) : Out :=
  s.vector (Form.lanes (plen px 12) p) fun s t body mask =>
    s.withQueue t a fun s t w => storeLanes s t px body mask c (strided w (imm32 disp) (4))

/-- `v.st.q.s` (09 R189). -/
def execVStQS (p : Pred) (px : Option Prefix) (c : VReg) (a : QReg) (b : SReg) (disp : BitVec 16) (s : State) : Out :=
  s.vector (Form.lanes (plen px 8) p) fun s t body mask =>
    s.withQueue t a fun s t w => storeLanes s t px body mask c (strided w (dispOf px disp) (t.sreg body b))

/-- `v.st.q.s`, long (09 R189). -/
def execVStQSLong (p : Pred) (px : Option Prefix) (c : VReg) (a : QReg) (b : SReg) (disp : BitVec 32) (s : State) : Out :=
  s.vector (Form.lanes (plen px 12) p) fun s t body mask =>
    s.withQueue t a fun s t w => storeLanes s t px body mask c (strided w (imm32 disp) (t.sreg body b))

/-- The address of a lane of a gather or scatter (09 R189). -/
def gathered (t : Thread) (body : Bool) (a : SReg) (b : VReg) (sh : BitVec 2) (disp : Word) (i : Fin 32) : Word :=
  t.sreg body a + disp + ((t.vreg body b)[i]).setWidth 64 <<< sh.toNat

/-- `v.gath` (09 R189). -/
def execVGath (p : Pred) (px : Option Prefix) (d : VReg) (a : SReg) (b : VReg) (sh : BitVec 2) (disp : BitVec 16) (s : State) : Out :=
  s.vector (Form.lanes (plen px 8) p) fun s t body mask =>
    loadLanes s t body mask d (gathered t body a b sh (dispOf px disp))

/-- `v.scat` (09 R189). -/
def execVScat (p : Pred) (px : Option Prefix) (c : VReg) (a : SReg) (b : VReg) (sh : BitVec 2) (disp : BitVec 16) (s : State) : Out :=
  s.vector (Form.lanes (plen px 8) p) fun s t body mask =>
    storeLanes s t px body mask c (gathered t body a b sh (dispOf px disp))

end Sys2Proof.Machine
end

