-- ==== Sys2Proof/Machine/Tensor.lean ====
section
/-! DEFINITION. Tensors: the identifier entry and its checks, where an element's bits lie in PACKED and PLANES, scales and exponent streams, and the values read and written there (03 R54-R65, R397; 02 R35-R38, R45-R47). -/

namespace Sys2Proof.Machine

/-! The entry (03 R58). -/

/-- Bits [lo + n - 1 : lo] of a number. -/
def bitField (x lo n : Nat) : Nat := (x >>> lo) % 2 ^ n

/-- An entry from its 64 bytes (03 R58). -/
def TidEntry.parse (num : Nat) (bs : List Byte) : TidEntry :=
  let x := bytesNat bs
  { num := num, fmt := bitField x 0 5, planes := x.testBit 5, global := x.testBit 6, bmap := x.testBit 7,
    saxis := x.testBit 8, valid := x.testBit 15,
    resv := bitField x 9 6 != 0 || bitField x 184 8 != 0 || bitField x 232 24 != 0 || bitField x 296 24 != 0 ||
      bitField x 416 32 != 0,
    d0 := bitField x 16 16, d1 := bitField x 32 16, d2 := bitField x 48 16, d3 := bitField x 168 16,
    s1 := bitField x 128 40, s2 := bitField x 192 40, s3 := bitField x 256 40,
    base := bitField x 64 64, sbase := bitField x 320 64, srow := bitField x 384 32, bmbase := bitField x 448 64 }

def isMx (c : Nat) : Bool := 9 ≤ c && c ≤ 14
def isGs (c : Nat) : Bool := c = 30 || c = 31
def isQxPlain (c : Nat) : Bool := 15 ≤ c && c ≤ 17
def isQxDelta (c : Nat) : Bool := 18 ≤ c && c ≤ 20
def isQx (c : Nat) : Bool := 15 ≤ c && c ≤ 20
/-- Codes whose blocks of 32 share a scale or exponent. -/
def isBlock (c : Nat) : Bool := isMx c || isGs c || isQx c
/-- Codes 21-29, the integers and small sets. -/
def isIntCode (c : Nat) : Bool := 21 ≤ c && c ≤ 29

/-- Magnitude bits of a QX code (02 R37). -/
def qxK (c : Nat) : Nat := match c with | 15 | 18 => 6 | 16 | 19 => 4 | _ => 2

/-- The floating-point format of an element of codes 0-13 (02 R31). -/
def planeFmt (c : Nat) : Option FFmt := if isMx c then floatFmt (c - 5) else floatFmt c

/-- Bytes of a QX block in PACKED (03 R60). -/
def qxSize (c : Nat) : Nat :=
  match c with | 15 => 31 | 16 => 23 | 17 => 15 | 18 => 30 | 19 => 22 | _ => 14

/-- Row bytes in PACKED (03 R60). -/
def TidEntry.rowBytes (e : TidEntry) : Nat :=
  if isQx e.fmt then (e.d0 + 31) / 32 * qxSize e.fmt else (e.d0 * elemWidth e.fmt + 7) / 8

def TidEntry.nb0 (e : TidEntry) : Nat := (e.d0 + 15) / 16
def TidEntry.nb1 (e : TidEntry) : Nat := (e.d1 + 15) / 16

/-- Sign planes (03 R61). -/
def signPlanes (c : Nat) : Nat := if c = 22 || c = 24 || c = 27 then 0 else 1
/-- Exponent planes (03 R61). -/
def expPlanes (c : Nat) : Nat := match planeFmt c with | some f => f.ebits | none => 0
/-- Shift planes (03 R61). -/
def shiftPlanes (c : Nat) : Nat := if isQx c then 2 else 0
/-- Magnitude bits in planes: the figure of 02 R29, a double plane counting two. -/
def magPlanes (c : Nat) : Nat :=
  match planeFmt c with
  | some f => f.fbits + 1
  | none =>
    if isQx c then qxK c
    else match c with
      | 14 | 21 | 22 | 31 => 8 | 23 | 24 | 30 => 4 | 25 => 2 | 26 => 16 | _ => 1

/-- Planes of a group. -/
def planeCount (c : Nat) : Nat := signPlanes c + expPlanes c + shiftPlanes c + magPlanes c
/-- Bytes of a plane group, G (03 R61). -/
def groupBytes (c : Nat) : Nat := 32 * planeCount c

/-- Bytes of one scale at SBASE, 0 where the layout has none apart from a stream (03 R62). -/
def TidEntry.scaleSize (e : TidEntry) : Nat :=
  if isMx e.fmt then 1 else if isGs e.fmt then 2 else if isQxPlain e.fmt && e.planes then 1 else 0

/-- Blocks along the scale axis. -/
def TidEntry.axisBlocks (e : TidEntry) : Nat := ((if e.saxis then e.d1 else e.d0) + 31) / 32

/-- The checks of 03 R59. -/
def TidEntry.ok (e : TidEntry) (writes : Bool) : Bool :=
  let al := if e.planes then 32 else match e.fmt with | 0 | 3 => 4 | 1 | 2 | 26 => 2 | _ => 1
  let sal := if isGs e.fmt then 2 else 1
  e.valid && !e.resv && e.d0 != 0 && e.d1 != 0 && e.d2 != 0 && e.d3 != 0 &&
  (e.planes || (!e.bmap && !e.saxis)) &&
  (e.global || (e.base < 2 ^ 19 && e.sbase < 2 ^ 19 && e.bmbase < 2 ^ 19)) &&
  e.base % al = 0 && e.s1 % al = 0 && e.s2 % al = 0 && e.s3 % al = 0 &&
  e.bmbase % 32 = 0 && e.sbase % sal = 0 && e.srow % sal = 0 &&
  (e.scaleSize = 0 || e.axisBlocks * e.scaleSize ≤ e.srow) &&
  (!isQxDelta e.fmt || (3 * e.axisBlocks + 1) / 2 ≤ e.srow) &&
  (!writes ||
    if e.planes then e.nb0 * groupBytes e.fmt ≤ e.s1 && e.nb1 * e.s1 ≤ e.s2 && e.d2 * e.s2 ≤ e.s3
    else e.rowBytes ≤ e.s1 && e.d1 * e.s1 ≤ e.s2 && e.d2 * e.s2 ≤ e.s3)

/-- An element's index tuple. -/
structure Idx where
  i0 : Nat
  i1 : Nat
  i2 : Nat
  i3 : Nat
  deriving DecidableEq, Repr

/-- The tuple of a 64-bit word: 16 bits each (09 R190). -/
def Idx.ofWord (w : Word) : Idx := { i0 := w.field 0 16, i1 := w.field 16 16, i2 := w.field 32 16, i3 := w.field 48 16 }

/-- The index lies in the extents. -/
def TidEntry.has (e : TidEntry) (i : Idx) : Bool := i.i0 < e.d0 && i.i1 < e.d1 && i.i2 < e.d2 && i.i3 < e.d3

/-- The position of an element along the scale axis. -/
def TidEntry.along (e : TidEntry) (i : Idx) : Nat := if e.saxis then i.i1 else i.i0

/-- The scale row and block of an element (03 R62). -/
def TidEntry.block (e : TidEntry) (i : Idx) : Nat × Nat :=
  ((i.i3 * e.d2 + i.i2) * (if e.saxis then e.d0 else e.d1) + (if e.saxis then i.i0 else i.i1), e.along i / 32)

/-- Where the row of an element begins in PACKED (03 R60). -/
def TidEntry.row (e : TidEntry) (i : Idx) : Nat := e.base + i.i1 * e.s1 + i.i2 * e.s2 + i.i3 * e.s3

/-- Where the plane group of an element begins (03 R61). -/
def TidEntry.group (e : TidEntry) (i : Idx) : Nat :=
  e.base + i.i1 / 16 * e.s1 + i.i0 / 16 * groupBytes e.fmt + i.i2 * e.s2 + i.i3 * e.s3

/-- The bit of an element in a plane (03 R61). -/
def Idx.planeBit (i : Idx) : Nat := 16 * (i.i1 % 16) + i.i0 % 16

/-- The bit address, counted from byte 0, of an element's packed code (03 R60, 02 R37). -/
def TidEntry.packedBit (e : TidEntry) (i : Idx) : Nat :=
  if isQx e.fmt then
    8 * (e.row i + i.i0 / 32 * qxSize e.fmt + (if isQxDelta e.fmt then 2 else 3)) + (qxK e.fmt + 1) * (i.i0 % 32)
  else 8 * e.row i + elemWidth e.fmt * i.i0

/-- The bit address of a quad's shift in a packed block (02 R37). -/
def TidEntry.packedShift (e : TidEntry) (i : Idx) : Nat :=
  8 * (e.row i + i.i0 / 32 * qxSize e.fmt + (if isQxDelta e.fmt then 0 else 1)) + 2 * (i.i0 % 32 / 4)

/-- Where a block's scale lies (03 R62). -/
def TidEntry.scaleAt (e : TidEntry) (r q : Nat) : Nat := e.sbase + r * e.srow + q * e.scaleSize

/-! Reading. `rd` gives the byte at an address. -/

/-- `n` bits from a bit address. -/
def readBits (rd : Nat → Nat) (a n : Nat) : Nat :=
  let k := (a % 8 + n + 7) / 8
  ((List.range k).foldr (fun j x => rd (a / 8 + j) + 256 * x) 0 >>> (a % 8)) % 2 ^ n

/-- Plane bits: `n` planes from plane `k` of a group, least significant first. -/
def readPlanes (rd : Nat → Nat) (group k n bit : Nat) : Nat :=
  (List.range n).foldr (fun j x => readBits rd (8 * (group + 32 * (k + j)) + bit) 1 + 2 * x) 0

/-- What decoding an exponent stream gives: the exponent and the nibbles read, or the bad nibble's number (02 R38). -/
inductive Stream
  | ok (e nibbles : Nat)
  | bad (nibble : Nat)

/-- Decodes blocks from nibble `pos` with the previous exponent (02 R38). -/
def streamGo (rd : Nat → Nat) (base : Nat) : Nat → Nat → Option Nat → Stream
  | 0, pos, prev => .ok (prev.getD 0) pos
  | n + 1, pos, prev =>
    let nib (i : Nat) : Nat := readBits rd (8 * base + 4 * i) 4
    let d := nib pos
    if d = 8 then streamGo rd base n (pos + 3) (some (nib (pos + 1) + 16 * nib (pos + 2)))
    else
      match prev with
      | none => .bad pos
      | some e =>
        if d < 8 then
          if e + d > 255 then .bad pos else streamGo rd base n (pos + 1) (some (e + d))
        else if e < 16 - d then .bad pos
        else streamGo rd base n (pos + 1) (some (e - (16 - d)))

/-- The exponent of block q of row r of a delta-coded tensor (03 R63). -/
def TidEntry.stream (e : TidEntry) (rd : Nat → Nat) (r q : Nat) : Stream :=
  streamGo rd (e.sbase + r * e.srow) (q + 1) 0 none

/-- The byte address of a bad nibble (16 R322). -/
def TidEntry.badNibble (e : TidEntry) (r n : Nat) : Nat := e.sbase + r * e.srow + n / 2

/-- The bytes that hold bits [a, a + n). -/
def bitSpan (a n : Nat) : Nat × Nat := (a / 8, (a % 8 + n + 7) / 8)

/-- A quad's first element along the scale axis (03 R61). -/
def TidEntry.quadLead (e : TidEntry) (i : Idx) : Idx :=
  if e.saxis then { i with i1 := i.i1 / 4 * 4 } else { i with i0 := i.i0 / 4 * 4 }

/-- The byte spans, address and length, of an element's own bits (03 R60, R61). -/
def TidEntry.elemSpans (e : TidEntry) (i : Idx) : List (Nat × Nat) :=
  if e.planes then (List.range (planeCount e.fmt)).map fun k => (e.group i + 32 * k + i.planeBit / 8, 1)
  else if isQx e.fmt then
    [bitSpan (e.packedBit i) (qxK e.fmt + 1), bitSpan (e.packedShift i) 2] ++
      (if isQxPlain e.fmt then [(e.row i + i.i0 / 32 * qxSize e.fmt, 1)] else [])
  else [bitSpan (e.packedBit i) (elemWidth e.fmt)]

/-- The byte spans of the bits that a read of an element takes: its own, but in planes a QX element's shift from the first element of its quad (03 R61). -/
def TidEntry.readSpans (e : TidEntry) (i : Idx) : List (Nat × Nat) :=
  if e.planes then
    let h := signPlanes e.fmt + expPlanes e.fmt
    (List.range (planeCount e.fmt)).map fun k =>
      (e.group i + 32 * k + (if h ≤ k && k < h + shiftPlanes e.fmt then e.quadLead i else i).planeBit / 8, 1)
  else e.elemSpans i

/-- The byte spans of an element's scale and exponent stream (03 R62, R63). -/
def TidEntry.scaleSpans (e : TidEntry) (rd : Nat → Nat) (i : Idx) : List (Nat × Nat) :=
  let rq := e.block i
  if e.scaleSize ≠ 0 then [(e.scaleAt rq.1 rq.2, e.scaleSize)]
  else if isQxDelta e.fmt then
    match e.stream rd rq.1 rq.2 with
    | .ok _ n => [(e.sbase + rq.1 * e.srow, (n + 1) / 2)]
    | .bad n => [(e.sbase + rq.1 * e.srow, n / 2 + 1)]
  else []

/-- The byte spans that a read of an element touches (03 R60-R62). -/
def TidEntry.spans (e : TidEntry) (rd : Nat → Nat) (i : Idx) : List (Nat × Nat) := e.readSpans i ++ e.scaleSpans rd i

/-- The byte spans that writing elements may touch: their own bits, the whole group where it holds pads, scales, and the longest stream of a row (03 R61-R64). -/
def TidEntry.writeSpans (e : TidEntry) (l : List Idx) : List (Nat × Nat) :=
  l.flatMap fun i =>
    let rq := e.block i
    let edge := e.planes && (e.d0 < i.i0 / 16 * 16 + 16 || e.d1 < i.i1 / 16 * 16 + 16)
    (if edge then [(e.group i, groupBytes e.fmt)] else e.elemSpans i) ++
    (if e.scaleSize ≠ 0 then [(e.scaleAt rq.1 rq.2, e.scaleSize)] else []) ++
    (if isQxDelta e.fmt then [(e.sbase + rq.1 * e.srow, (3 * e.axisBlocks + 1) / 2)] else [])

/-- Where the bitmap plane of an element's block lies (03 R65). -/
def TidEntry.bitmapAt (e : TidEntry) (i : Idx) : Nat :=
  e.bmbase + 32 * (((i.i3 * e.d2 + i.i2) * e.nb1 + i.i1 / 16) * e.nb0 + i.i0 / 16)

/-- The element is present (03 R65). -/
def TidEntry.present (e : TidEntry) (rd : Nat → Nat) (i : Idx) : Bool :=
  !e.bmap || readBits rd (8 * e.bitmapAt i + i.planeBit) 1 = 1

/-- An element as stored: its sign, exponent field, shift and magnitude from planes, or its packed code. -/
structure Stored where
  neg  : Bool
  ex   : Nat
  sh   : Nat
  mag  : Nat
  code : Nat
  deriving DecidableEq, Repr

/-- Reads an element's stored bits. -/
def TidEntry.stored (e : TidEntry) (rd : Nat → Nat) (i : Idx) : Stored :=
  if e.planes then
    let g := e.group i
    let b := i.planeBit
    let s := signPlanes e.fmt
    let x := expPlanes e.fmt
    let h := shiftPlanes e.fmt
    { neg := readPlanes rd g 0 s b = 1, ex := readPlanes rd g s x b,
      sh := readPlanes rd g (s + x) h (e.quadLead i).planeBit,
      mag := readPlanes rd g (s + x + h) (magPlanes e.fmt) b, code := 0 }
  else if isQx e.fmt then
    let c := readBits rd (e.packedBit i) (qxK e.fmt + 1)
    { neg := c.testBit (qxK e.fmt), ex := 0, sh := readBits rd (e.packedShift i) 2, mag := c % 2 ^ qxK e.fmt, code := c }
  else
    { neg := false, ex := 0, sh := 0, mag := 0, code := readBits rd (e.packedBit i) (elemWidth e.fmt) }

/-- The value of a floating-point element in planes (03 R397). -/
def planeFloat (f : FFmt) (s : Stored) : FVal :=
  let fr := s.mag % 2 ^ f.fbits
  if f.inf.isSome && s.ex = 2 ^ f.ebits - 1 then
    if fr = 0 then .inf s.neg else .nan s.neg (!fr.testBit (f.fbits - 1))
  else if f.nan.isSome && f.inf.isNone && s.ex = 2 ^ f.ebits - 1 && fr = 2 ^ f.fbits - 1 then .nan s.neg false
  else .fin s.neg s.mag ((max s.ex 1 : Nat) - (f.bias : Int) - f.fbits) false

/-- The unscaled value of an element: codes 0-13 as floating point, MXINT8 and GS as their integers, QX as magnitude alone. An element NaN of MXFP8 E5M2 (code 10) with its top fraction bit clear is signalling, as one of code 5 is, though 02 R32 does not name code 10 (log entry 64). An integer in planes is read from its sign and magnitude as they stand, also where no code gives them: with magnitude 0 it is 0 whatever its sign, beyond the range it is that number (03 R61, log entry 64). -/
def TidEntry.unscaled (e : TidEntry) (s : Stored) : FVal × FFlags :=
  match planeFmt e.fmt with
  | some f =>
    if e.planes then (planeFloat f s, 0)
    else if isMx e.fmt then (decodeF f s.code, 0)
    else decodeElem e.fmt s.code
  | none =>
    if e.planes then
      if e.fmt = 28 then (.ofInt (if s.neg then -1 else 1), 0)
      else if isQx e.fmt then (.fin s.neg s.mag 0 false, 0)
      else (.ofInt (if s.neg then -(s.mag : Int) else s.mag), 0)
    else if isQx e.fmt then (.fin s.neg s.mag 0 false, 0)
    else
      match e.fmt with
      | 14 => (.ofInt (signedOf 8 s.code), 0)
      | 30 => (.ofInt (signedOf 4 s.code), 0)
      | 31 => (.ofInt (signedOf 8 s.code), 0)
      | c => decodeElem c s.code

/-- A value scaled by 2^n. -/
def FVal.shift (v : FVal) (n : Int) : FVal :=
  match v with
  | .fin s m e st => .fin s m (e + n) st
  | x => x

/-- An element under DAZ: one that is subnormal in its own floating-point format reads as zero of its sign, before its block scale (02 R33, log entry 44). -/
def TidEntry.dazed (e : TidEntry) (daz : Bool) (v : FVal) : FVal :=
  match planeFmt e.fmt with
  | some f => if daz then v.dazed f else v
  | none => v

/-- What reading an element gives: a value with flags, or the byte address of a bad nibble. -/
inductive ElemRead
  | val (v : FVal) (f : FFlags)
  | format (addr : Nat)

/-- The value of an element with its scale (02 R35-R38, 03 R63). The NaN of an MX block with scale 255 and of a GS block is the positive quiet one, as 02 R32 has every NaN that a conversion produces (log entry 64). A GS element whose product with its scale is zero has the sign of the product, which 02 R36 does not give: q = 0 under a negative scale is -0 (log entry 64). -/
def TidEntry.value (e : TidEntry) (rd : Nat → Nat) (i : Idx) (daz : Bool := false) : ElemRead :=
  let s := e.stored rd i
  let r := e.unscaled s
  let u := (e.dazed daz r.1, r.2)
  let rq := e.block i
  let scale := readBits rd (8 * e.scaleAt rq.1 rq.2) (8 * e.scaleSize)
  if isMx e.fmt then
    if scale = 255 then .val qnan u.2
    else .val (u.1.shift ((scale : Int) - 127 - (if e.fmt = 14 then 6 else 0))) u.2
  else if isGs e.fmt then
    let sc := decodeF fp16 scale
    match sc with
    | .fin _ _ _ _ => .val (fmul u.1 sc).1 0
    | .inf n => if u.1.isZero then .val qnan flagInvalid else .val (.inf (u.1.sign != n)) flagInvalid
    | .nan _ _ => .val qnan flagInvalid
  else if isQx e.fmt then
    let go (x : Nat) : ElemRead := .val (u.1.shift ((x : Int) - 127 - s.sh - (qxK e.fmt - 1 : Nat))) 0
    if isQxDelta e.fmt then
      match e.stream rd rq.1 rq.2 with
      | .ok x _ => go x
      | .bad n => .format (e.badNibble rq.1 n)
    else go (if e.planes then scale else rd (e.row i + i.i0 / 32 * qxSize e.fmt))
  else .val u.1 u.2

/-! Writing: an overlay of byte addresses, rising, with their new values. -/

abbrev Overlay := List (Nat × Nat)

/-- Puts a byte into an overlay. -/
def overPut (a x : Nat) : Overlay → Overlay
  | [] => [(a, x)]
  | (k, v) :: r => if a < k then (a, x) :: (k, v) :: r else if a = k then (a, x) :: r else (k, v) :: overPut a x r

/-- A byte as the overlay has it, or the memory below. -/
def overByte (rd : Nat → Nat) (o : Overlay) (a : Nat) : Nat :=
  match o.find? fun x => x.1 == a with
  | some x => x.2
  | none => rd a

/-- Writes `n` bits at a bit address; `k` bytes are left to look at. -/
def overBitsGo (rd : Nat → Nat) (a n x : Nat) : Nat → Overlay → Overlay
  | 0, o => o
  | k + 1, o =>
    let b := (a % 8 + n - 1) / 8 - k
    let byte := a / 8 + b
    let old := overByte rd o byte
    let m := ((2 ^ n - 1) <<< (a % 8) >>> (8 * b)) % 256
    let v := (x % 2 ^ n) <<< (a % 8) >>> (8 * b) % 256
    overBitsGo rd a n x k (overPut byte ((old &&& (255 - m)) ||| v) o)

/-- Writes exactly `n` bits at a bit address (03 R64). -/
def overBits (rd : Nat → Nat) (a n x : Nat) (o : Overlay) : Overlay :=
  if n = 0 then o else overBitsGo rd a n x ((a % 8 + n - 1) / 8 + 1) o

/-- Writes plane bits: `n` planes from plane `k` of a group. -/
def overPlanes (rd : Nat → Nat) (group k n bit x : Nat) (o : Overlay) : Overlay :=
  (List.range n).foldl (fun o j => overBits rd (8 * (group + 32 * (k + j)) + bit) 1 (x >>> j) o) o

/-- Writes an encoded element: its packed bits, or its plane bits with the leading bit explicit (03 R60, R61). `sh` is the shift of a QX quad. -/
def TidEntry.putElem (e : TidEntry) (rd : Nat → Nat) (i : Idx) (c sh : Nat) (o : Overlay) : Overlay :=
  if e.planes then
    let w := elemWidth e.fmt
    let (neg, ex, mag) : Bool × Nat × Nat :=
      match planeFmt e.fmt with
      | some f =>
        let c := if e.fmt = 3 then c / 2 ^ 13 else c
        let ex := bitField c f.fbits f.ebits
        (c.testBit (f.ebits + f.fbits), ex, c % 2 ^ f.fbits + b2n (ex != 0) * 2 ^ f.fbits)
      | none =>
        if isQx e.fmt then (c.testBit (qxK e.fmt), 0, c % 2 ^ qxK e.fmt)
        else if e.fmt = 28 then (c % 2 = 1, 0, 1)
        else if signPlanes e.fmt = 0 then (false, 0, c)
        else
          let v := signedOf w c
          (v < 0, 0, v.natAbs)
    let g := e.group i
    let b := i.planeBit
    let s := signPlanes e.fmt
    let x := expPlanes e.fmt
    let h := shiftPlanes e.fmt
    overPlanes rd g (s + x + h) (magPlanes e.fmt) b mag
      (overPlanes rd g (s + x) h b sh (overPlanes rd g s x b ex (overPlanes rd g 0 s b (b2n neg) o)))
  else if isQx e.fmt then overBits rd (e.packedBit i) (qxK e.fmt + 1) c o
  else overBits rd (e.packedBit i) (elemWidth e.fmt) c o

/-- Zeros the pad positions of the plane groups that these elements touch (03 R61). -/
def TidEntry.zeroPads (e : TidEntry) (rd : Nat → Nat) (l : List Idx) (o : Overlay) : Overlay :=
  if !e.planes then o
  else
    let blocks := (l.map fun i => { i with i0 := i.i0 / 16 * 16, i1 := i.i1 / 16 * 16 : Idx }).eraseDups
    blocks.foldl (fun o b =>
      ((List.range 256).filterMap fun n =>
          let i : Idx := { b with i0 := b.i0 + n % 16, i1 := b.i1 + n / 16 }
          if e.has i then none else some i).foldl
        (fun o i => overPlanes rd (e.group b) 0 (planeCount e.fmt) i.planeBit 0 o) o) o

/-- What a conversion between equal block formats keeps of an element: its code, its scale or exponent, and its shift (10 R206). -/
structure Kept where
  code  : Nat
  scale : Nat
  sh    : Nat
  deriving DecidableEq, Repr

/-- An element to write: its index, its value, its draw, and what is kept of it where the formats are equal. -/
structure ElemWrite where
  idx  : Idx
  val  : FVal
  draw : Nat
  kept : Option Kept := none
  deriving DecidableEq, Repr

/-- floor(log2 |v|) of a finite nonzero value. -/
def FVal.log2? : FVal → Option Int
  | .fin _ m e _ => if m = 0 then none else some (e + m.log2)
  | _ => none

/-- The largest floor(log2 |v|) of a block, none where every element is zero. -/
def maxLog (l : List ElemWrite) : Option Int :=
  l.foldl (fun a x =>
    match a, x.val.log2? with
    | none, y => y
    | some p, none => some p
    | some p, some q => some (max p q)) none

/-- Whether |x| < |y| for finite values. -/
def magLt : FVal → FVal → Bool
  | .fin _ m e _, .fin _ n f _ => m <<< (e - min e f).toNat < n <<< (f - min e f).toNat
  | _, _ => false

/-- The finite value of largest magnitude. -/
def maxMag (l : List ElemWrite) : FVal :=
  l.foldl (fun a x => match x.val with | .fin _ _ _ _ => if magLt a x.val then x.val else a | _ => a) (.fin false 0 0 false)

def FVal.abs : FVal → FVal
  | .fin _ m e st => .fin false m e st
  | .inf _ => .inf false
  | .nan _ g => .nan false g

/-- The block is NaN or infinite somewhere. -/
def blockSpecial (l : List ElemWrite) : Bool := l.any fun x => x.val.isNan || x.val.isInf

/-- What encoding a block gives: the element codes in order, the scale or exponent, the shifts of its quads, and flags. -/
structure BlockCode where
  codes : List Nat
  scale : Nat
  sh    : List Nat
  flags : FFlags
  deriving DecidableEq, Repr

/-- Joins codes and flags. -/
def joinCodes (l : List (Nat × FFlags)) : List Nat × FFlags := (l.map (·.1), l.foldl (fun a x => a ||| x.2) 0)

/-- A block into an MX format (02 R45); `ftz` flushes the elements that it rounds (02 R33, 09 R176). -/
def encodeMx (c : Nat) (mode : RM) (satc ftz : Bool) (l : List ElemWrite) : BlockCode :=
  if blockSpecial l then
    { codes := l.map fun _ => 0, scale := 255, sh := [],
      flags := flagIf (l.any fun x => x.val.isNan) flagInvalid ||| flagIf (l.any fun x => x.val.isInf) flagOverflow }
  else
    match maxLog l with
    | none => { codes := l.map fun _ => 0, scale := 0, sh := [], flags := 0 }
    | some m =>
      let emax : Int := match c with | 9 => 8 | 10 => 15 | 11 => 4 | 12 => 2 | 13 => 2 | _ => 0
      let code := (max 0 (min 254 (m - emax + 127))).toNat
      let r := joinCodes (l.map fun x =>
        let v := x.val.shift (127 - (code : Int))
        match planeFmt c with
        | some f => flush f ftz (encodeF f mode satc x.draw v)
        | none => encodeElem 21 mode satc x.draw (v.shift 6))
      { codes := r.1, scale := code, sh := [], flags := r.2 ||| flagIf (m - emax + 127 > 254) flagOverflow }

/-- A block into GS4 or GS8 (02 R46). -/
def encodeGs (c : Nat) (mode : RM) (l : List ElemWrite) : BlockCode :=
  let q : Nat := if c = 30 then 7 else 127
  let w := elemWidth c
  let amax : FVal := if l.any fun x => x.val.isInf then .inf false else (maxMag l).abs
  let s0 := (encodeF fp16 .rne false 0 (fdiv amax (.ofInt q)).1).1
  let laid := s0 > 0x7BFF
  let s := if laid then 0x7BFF else s0
  let put (neg : Bool) : Nat := ((if neg then -(q : Int) else q) % (2 ^ w : Nat)).toNat
  let r := joinCodes (l.map fun x =>
    match x.val with
    | .nan n _ => (put n, flagInvalid)
    | .inf n => (put n, flagOverflow ||| flagInexact)
    | v =>
      if s = 0 then (0, flagIf (!amax.isZero) (flagUnderflow ||| flagInexact))
      else
        let y := encodeI (-(q : Int)) q mode x.draw (fdiv v (decodeF fp16 s)).1
        ((y.1 % (2 ^ w : Nat)).toNat, if laid then y.2 else y.2 &&& ~~~ flagOverflow))
  { codes := r.1, scale := s, sh := [], flags := r.2 ||| flagIf laid flagOverflow }

/-- A block into a QX format; elements carry their position along the axis (02 R47). A quad wholly beyond the extent takes SH = 3, as one whose qm is 0 (log entry 64). -/
def encodeQx (c : Nat) (mode : RM) (pos : ElemWrite → Nat) (l : List ElemWrite) : BlockCode :=
  let k := qxK c
  let special := blockSpecial l
  let raw : Option Int := (maxLog l).map (· + 127)
  let e : Nat := if special then 255 else match raw with | none => 0 | some x => (max 0 (min 255 x)).toNat
  let clampOver := !special && (match raw with | none => false | some x => x > 255)
  let shiftOf (j : Nat) : Nat :=
    let quad := l.filter fun x => pos x % 32 / 4 = j
    if blockSpecial quad then 0
    else match maxLog quad with
      | none => 3
      | some m => (max 0 (min 3 ((e : Int) - 127 - m))).toNat
  let sh := (List.range 8).map shiftOf
  let r := joinCodes (l.map fun x =>
    match x.val with
    | .nan n _ => (b2n n * 2 ^ k + (2 ^ k - 1), flagInvalid)
    | .inf n => (b2n n * 2 ^ k + (2 ^ k - 1), flagOverflow ||| flagInexact)
    | .fin n m ex st =>
      let z := nth sh (pos x % 32 / 4) 0
      let y := quantize mode n x.draw m (ex + 127 + z + (k - 1 : Nat) - e) st 0
      let mag := if y.1 ≥ 2 ^ k then 2 ^ k - 1 else y.1
      (b2n n * 2 ^ k + mag,
        flagIf (y.2 || y.1 ≥ 2 ^ k) flagInexact ||| flagIf (y.1 > 2 ^ k) flagOverflow))
  { codes := r.1, scale := e, sh := sh, flags := r.2 ||| flagIf clampOver flagOverflow }

/-- The block as its elements have it, where every element read has one scale and its quad one shift, and the others are +0 under a scale of which +0 is a code. -/
def sameBlock (c : Nat) (pos : ElemWrite → Nat) (l : List ElemWrite) : Option BlockCode :=
  let ks := l.filterMap fun x => x.kept.map fun k => (pos x % 32 / 4, k)
  match ks with
  | [] => none
  | k :: _ =>
    let plain := if isMx c then k.2.scale != 255 else if isGs c then k.2.scale / 1024 % 32 != 31 else true
    let one := ks.all fun y => y.2.scale == k.2.scale && (!isQx c || ks.all fun z => z.1 != y.1 || z.2.sh == y.2.sh)
    if one && l.all fun x => x.kept.isSome || (plain && x.val == .fin false 0 0 false) then
      some {
        codes := l.map fun x => match x.kept with | some y => y.code | none => 0
        scale := k.2.scale
        sh := (List.range 8).map fun j => match ks.find? fun y => y.1 == j with | some y => y.2.sh | none => 3
        flags := 0 }
    else none

/-- Two values are the same number; `zeros` says that +0 and -0 differ. -/
def FVal.same (zeros : Bool) : FVal → FVal → Bool
  | .fin n m e _, .fin k l f _ =>
    m <<< (e - min e f).toNat == l <<< (f - min e f).toNat && (n == k || (m == 0 && !zeros))
  | .inf n, .inf k => n == k
  | .nan _ _, .nan _ _ => true
  | _, _ => false

/-- The signed integer nearest a value as a code of `w` bits, where it stands for the value exactly under `back`. -/
def intCode (w : Nat) (x v : FVal) (back : FVal → FVal) : Option Nat :=
  let y := (encodeI (-(2 ^ (w - 1) : Nat)) ((2 ^ (w - 1) : Nat) - 1) .rne 0 x).1
  if FVal.same false (back (.ofInt y)) v then some (y % (2 ^ w : Nat)).toNat else none

/-- The code of an element that stands for a value exactly under a scale, and for QX under a shift (02 R35-R37); none where there is none. -/
def exactCode (c scale sh : Nat) (v : FVal) : Option Nat :=
  if isMx c then
    let x := v.shift (127 - (scale : Int))
    if scale = 255 then (if v.isNan then some 0 else none)
    else
      match planeFmt c with
      | some f =>
        let y := (encodeF f .rne false 0 x).1
        if FVal.same true (decodeF f y) x then some y else none
      | none => intCode 8 (x.shift 6) v fun y => y.shift ((scale : Int) - 133)
  else if isGs c then
    match decodeF fp16 scale with
    | .nan _ _ => if v.isNan then some 0 else none
    | .inf n => if v.isNan then some 0 else if v.isInf then some (if v.sign = n then 1 else 2 ^ elemWidth c - 1) else none
    | sc => if v.isNan || v.isInf then none else if sc.isZero then (if v.isZero then some 0 else none)
      else intCode (elemWidth c) (fdiv v sc).1 v fun y => (fmul y sc).1
  else
    match v with
    | .fin n m e st =>
      let y := (quantize .rtz n 0 m (e + 127 + sh + (qxK c - 1 : Nat) - scale) st 0).1
      if y < 2 ^ qxK c && FVal.same true (.fin n y ((scale : Int) - 127 - sh - (qxK c - 1 : Nat)) false) v then some (b2n n * 2 ^ qxK c + y)
      else none
    | _ => none

/-- The scales that may hold a block: those its elements had, then every other that could. -/
def scalesFor (c : Nat) (l : List ElemWrite) : List Nat :=
  (l.filterMap fun x => x.kept.map (·.scale)) ++
    if isGs c then
      match l.find? fun x => !x.val.isZero with
      | none => []
      | some x => (List.range (2 ^ (elemWidth c - 1))).flatMap fun (q : Nat) =>
          [(encodeF fp16 .rne false 0 (fdiv x.val (.ofInt ((q : Int) + 1))).1).1, (encodeF fp16 .rne false 0 (fdiv x.val (.ofInt (-((q : Int) + 1)))).1).1]
    else List.range 256

/-- A block under one scale that holds every element exactly; none where this scale does not. -/
def exactBlock (c : Nat) (pos : ElemWrite → Nat) (l : List ElemWrite) (scale : Nat) : Option BlockCode :=
  let quad (x : ElemWrite) : Nat := pos x % 32 / 4
  let shift (j : Nat) : Option Nat :=
    ([3, 2, 1, 0] : List Nat).find? fun z => (l.filter fun x => quad x == j).all fun x => (exactCode c scale z x.val).isSome
  let sh := (List.range 8).map fun j => if isQx c then (shift j).getD 0 else 0
  let codes := l.map fun x => exactCode c scale (nth sh (quad x) 0) x.val
  if codes.all Option.isSome then some { codes := codes.map fun x => x.getD 0, scale := scale, sh := sh, flags := 0 } else none

/-- A block converted between equal formats, exactly and without a flag: as it is, or else under the first scale that holds it; none where no scale does (10 R206). -/
def keepBlock (c : Nat) (pos : ElemWrite → Nat) (l : List ElemWrite) : Option BlockCode :=
  if l.all fun x => x.kept.isNone then none
  else
    match sameBlock c pos l with
    | some b => some b
    | none => (scalesFor c l).findSome? (exactBlock c pos l)

/-- What is kept of an element that a conversion between equal block formats reads; none where its stream is malformed. -/
def TidEntry.keep (e : TidEntry) (rd : Nat → Nat) (i : Idx) : Option Kept :=
  let s := e.stored rd i
  let rq := e.block i
  let code :=
    match (e.unscaled s).1, planeFmt e.fmt with
    | v, some f => (encodeF f .rne false 0 v).1
    | v, none =>
      if isQx e.fmt then b2n s.neg * 2 ^ qxK e.fmt + s.mag
      else
        let w := elemWidth e.fmt
        ((encodeI (-(2 ^ (w - 1) : Nat)) ((2 ^ (w - 1) : Nat) - 1) .rne 0 v).1 % (2 ^ w : Nat)).toNat
  if isQxDelta e.fmt then
    match e.stream rd rq.1 rq.2 with
    | .ok x _ => some { code := code, scale := x, sh := s.sh }
    | .bad _ => none
  else
    let sc := if e.scaleSize ≠ 0 then readBits rd (8 * e.scaleAt rq.1 rq.2) (8 * e.scaleSize) else rd (e.row i + i.i0 / 32 * qxSize e.fmt)
    some { code := code, scale := sc, sh := s.sh }

/-- The nibbles of a row's exponents (02 R38). -/
def streamNibbles : Option Nat → List Nat → List Nat
  | _, [] => []
  | prev, e :: r =>
    let esc := [8, e % 16, e / 16]
    (match prev with
      | none => esc
      | some p => if e ≤ p + 7 && p ≤ e + 7 then [(16 + e - p) % 16] else esc) ++ streamNibbles (some e) r

/-- Nibbles as bytes, the low one first, an odd one padded with zero. -/
def nibbleBytes : List Nat → List Nat
  | [] => []
  | [a] => [a]
  | a :: b :: r => (a + 16 * b) :: nibbleBytes r

/-- Bytes into an overlay. -/
def overBytes : Nat → List Nat → Overlay → Overlay
  | _, [], o => o
  | a, x :: r, o => overBytes (a + 1) r (overPut a x o)

/-- The result of encoding elements: the bytes to write, the flags, and where the exponent streams written lie. -/
structure TensorWrite where
  laid    : Overlay
  flags   : FFlags
  streams : List (Nat × Nat) := []

/-- Encodes and places the elements of one block, which are in ascending order along the axis; gives the exponent too. -/
def TidEntry.putBlock (e : TidEntry) (rd : Nat → Nat) (mode : RM) (satc ftz : Bool) (l : List ElemWrite) (w : TensorWrite) : TensorWrite × Nat :=
  let b :=
    match keepBlock e.fmt (fun x => e.along x.idx) l with
    | some b => b
    | none =>
      if isMx e.fmt then encodeMx e.fmt mode satc ftz l
      else if isGs e.fmt then encodeGs e.fmt mode l
      else encodeQx e.fmt mode (fun x => e.along x.idx) l
  let o := (l.zip b.codes).foldl (fun o x => e.putElem rd x.1.idx x.2 (nth b.sh (e.along x.1.idx % 32 / 4) 0) o) w.laid
  let o :=
    match l with
    | [] => o
    | x :: _ =>
      let rq := e.block x.idx
      if e.scaleSize ≠ 0 then overBits rd (8 * e.scaleAt rq.1 rq.2) (8 * e.scaleSize) b.scale o
      else if e.planes then o
      else
        let blk := e.row x.idx + rq.2 * qxSize e.fmt
        let at' := if isQxDelta e.fmt then blk else blk + 1
        let o := overBits rd (8 * at') 16 ((List.range 8).foldl (fun a j => a + nth b.sh j 0 * 4 ^ j) 0) o
        if isQxPlain e.fmt then overBits rd (8 * blk) 8 b.scale o else o
  ({ w with laid := o, flags := w.flags ||| b.flags }, b.scale)

/-- Encodes and places elements (02 R44-R47, 03 R60-R64). `ftz` flushes every floating-point result that is rounded, codes 0-13 (02 R33, 09 R176). -/
def TidEntry.write (e : TidEntry) (rd : Nat → Nat) (mode : RM) (satc ftz : Bool) (l : List ElemWrite) : TensorWrite :=
  let w : TensorWrite :=
    if isBlock e.fmt then
      let keys := (l.map fun x => e.block x.idx).eraseDups
      let r := keys.foldl (fun (a : TensorWrite × List ((Nat × Nat) × Nat)) k =>
        let p := e.putBlock rd mode satc ftz (l.filter fun x => e.block x.idx = k) a.1
        (p.1, a.2 ++ [(k, p.2)])) ({ laid := [], flags := 0 }, [])
      if isQxDelta e.fmt then
        let rows := (keys.map (·.1)).eraseDups
        rows.foldl (fun (w : TensorWrite) row =>
          let es := (List.range e.axisBlocks).map fun q =>
            match r.2.find? fun x => x.1 == (row, q) with
            | some x => x.2
            | none => 0
          let a := e.sbase + row * e.srow
          let bs := nibbleBytes (streamNibbles none es)
          { w with laid := overBytes a bs w.laid, streams := w.streams ++ [(a, bs.length)] }) r.1
      else r.1
    else
      l.foldl (fun (w : TensorWrite) x =>
        let c := encodeElem e.fmt mode satc x.draw x.val
        let c :=
          if e.fmt = 3 then
            let q := flush fp19 ftz (c.1 / 2 ^ 13, c.2)
            (q.1 * 2 ^ 13, q.2)
          else match floatFmt e.fmt with
            | some f => flush f ftz c
            | none => c
        { w with laid := e.putElem rd x.idx c.1 0 w.laid, flags := w.flags ||| c.2 }) { laid := [], flags := 0 }
  { w with laid := e.zeroPads rd (l.map (·.idx)) w.laid }

/-- The elements of the block that holds an index, within the extents. -/
def TidEntry.blockElems (e : TidEntry) (i : Idx) : List Idx :=
  (List.range 32).filterMap fun n =>
    let a := e.along i / 32 * 32 + n
    let j : Idx := if e.saxis then { i with i1 := a } else { i with i0 := a }
    if e.has j then some j else none

/-- The elements of a whole row of blocks. -/
def TidEntry.rowElems (e : TidEntry) (i : Idx) : List Idx :=
  (List.range (if e.saxis then e.d1 else e.d0)).map fun a => if e.saxis then { i with i1 := a } else { i with i0 := a }

/-- The elements written cover every block, and for the delta codes every row, that they touch (03 R64). -/
def TidEntry.covers (e : TidEntry) (l : List Idx) : Bool :=
  if isQxDelta e.fmt then l.all fun i => (e.rowElems i).all fun j => l.contains j
  else if isBlock e.fmt then l.all fun i => (e.blockElems i).all fun j => l.contains j
  else true

/-- The bytes of an overlay in runs of consecutive addresses. -/
def overRuns : Overlay → List (Nat × List Byte)
  | [] => []
  | (a, x) :: r =>
    match overRuns r with
    | (b, l) :: q => if b = a + 1 then (a, BitVec.ofNat 8 x :: l) :: q else (a, [BitVec.ofNat 8 x]) :: (b, l) :: q
    | [] => [(a, [BitVec.ofNat 8 x])]

/-! Tensors in the local store of a core. -/

/-- The bytes of a local store. -/
def Core.rd (c : Core) (a : Nat) : Nat := (c.ls.byte a).toNat

/-- Reading an entry at issue (03 R56): the entry, a wait, or the fault. -/
inductive TidRead
  | ok (e : TidEntry)
  | wait (s : State)
  | fault (f : FaultInfo)

/-- The entry `n` of the thread's table, checked as 03 R56 lays down. TIDN holds the identifier for LS-RANGE, by R56, and for the MEMERR of the entry's word too (log entry 64). -/
def State.readTid (s : State) (t : Thread) (n : TidN) : TidRead :=
  let a := (t.tidbase + 64 * n.val) % 2 ^ 64
  match s.lsCheckOne t { addr := a, width := 4, bytes := 64, write := false } with
  | .ok => .ok (TidEntry.parse n.val ((s.core t.vt t.cslot).ls.bytes a 64))
  | .wait s => .wait s
  | .fault f => .fault { f with tidn := n.val }

/-- The fault TENSOR: the first identifier in TIDN, the second in INFO (16 R322). -/
def tensorFault (first second : Nat) : FaultInfo := { cause := .tensor, info := w64 second, tidn := first }

/-- The fault FORMAT at a bad nibble (16 R322). -/
def formatFault (tid addr : Nat) : FaultInfo := { cause := .format, addr := w64 addr, tidn := tid }

/-! `v.tdec` and `v.tenc` (09 R190-R192). -/

/-- The tuple of lane n (09 R190). -/
def laneTuple (base : Idx) (axis stp n : Nat) : Idx :=
  match axis with
  | 0 => { base with i0 := base.i0 + n * stp }
  | 1 => { base with i1 := base.i1 + n * stp }
  | 2 => { base with i2 := base.i2 + n * stp }
  | _ => { base with i3 := base.i3 + n * stp }

/-- The in-range active lanes with their tuples. -/
def TidEntry.window (e : TidEntry) (mask : BitVec 32) (base : Idx) (axis stp : Nat) : List (Fin 32 × Idx) :=
  (lanesOn mask).filterMap fun i =>
    let x := laneTuple base axis stp i.val
    if e.has x then some (i, x) else none

/-- `v.tdec` of a base tuple (09 R190, R191). -/
def tdec (s : State) (t : Thread) (body : Bool) (mask : BitVec 32) (rm : RM) (int : Bool) (d : VReg) (n : TidN)
    (base : Word) (axis stp : Nat) : Res :=
  match s.readTid t n with
  | .fault f => .fault f
  | .wait s => .wait s (.stall 12)
  | .ok e =>
    if !e.ok false || e.global || (int && !isIntCode e.fmt) then .fault (tensorFault n.val 0)
    else
      let c := s.core t.vt t.cslot
      let win := e.window mask (Idx.ofWord base) axis stp
      let acc : List LsAccess := win.flatMap fun x =>
        (e.spans c.rd x.2).map fun r => { addr := r.1, width := 0, bytes := r.2, write := false }
      let vals := win.map fun x => (x.1, e.value c.rd x.2 t.daz)
      s.withLs t acc
        (match vals.findSome? fun x => (match x.2 with | .format a => some a | .val _ _ => none) with
         | some a => .fault (formatFault n.val a)
         | none =>
          let mode := t.mode rm
          let dr := drawsFor mode 32 t.seed
          let r : List (Nat × Lane × FFlags) := vals.map fun x =>
            match x.2 with
            | .format _ => (x.1.val, 0, 0)
            | .val v f =>
              let q : Lane × FFlags :=
                if int then
                  let y := encodeI (-(2 ^ 31 : Nat)) ((2 ^ 31 : Nat) - 1) .rne 0 v
                  (BitVec.ofInt 32 y.1, 0)
                else
                  let y := flush fp32 t.ftz (encodeF fp32 mode t.satc (nth dr.1 x.1.val 0) v)
                  (w32 y.1, y.2)
              (x.1.val, q.1, q.2 ||| f)
          .done (s.modCur fun u =>
            { (u.setV body d mask fun i =>
                match r.find? fun x => x.1 == i.val with
                | some x => x.2.1
                | none => 0).orFlags (r.foldl (fun a x => a ||| x.2.2) 0) with seed := dr.2 }) 2 0)

/-- `v.tenc` of a base tuple (09 R190, R192). -/
def tenc (s : State) (t : Thread) (px : Option Prefix) (body : Bool) (mask : BitVec 32) (rm : RM) (int : Bool) (c : VReg) (n : TidN)
    (base : Word) (axis stp : Nat) : Res :=
  match s.readTid t n with
  | .fault f => .fault f
  | .wait s => .wait s (.stall 12)
  | .ok e =>
    let win := e.window mask (Idx.ofWord base) axis stp
    if !e.ok true || e.global || stp = 0 || !e.covers (win.map (·.2)) then .fault (tensorFault n.val 0)
    else
      let k := s.core t.vt t.cslot
      let mode := t.mode rm
      let dr := drawsFor mode 32 t.seed
      let w := e.write k.rd mode t.satc t.ftz (win.map fun x =>
        let l := (t.vreg body c)[x.1]
        { idx := x.2, val := if int then .ofInt l.toInt else t.fread l, draw := nth dr.1 x.1.val 0 })
      let runs := overRuns w.laid
      let elems : List LsAccess := win.flatMap fun x =>
        (e.elemSpans x.2).map fun r => { addr := r.1, width := 0, bytes := r.2, write := true }
      s.withLs t (elems ++ runs.map fun r => { addr := r.1, width := 0, bytes := r.2.length, write := true })
        (.done (((s.released t (t.attrOf px)).modCore t.vt t.cslot fun k => runs.foldl (fun k r => k.store r.1 r.2) k).modCur fun u =>
          { u.orFlags w.flags with seed := dr.2 }) 2 0)

/-- `v.tdec vD, tidB, sA` (09 R190). -/
def execVTdec (p : Pred) (px : Option Prefix) (rm : RM) (int : Bool) (d : VReg) (t : TidN) (a : SReg) (s : State) : Out :=
  s.vector (Form.lanes (plen px 8) p) fun s u body mask => tdec s u body mask rm int d t (u.sreg body a) 0 1

/-- `v.tdec vD, tidB, sA`, long (09 R190). -/
def execVTdecLong (p : Pred) (px : Option Prefix) (rm : RM) (int : Bool) (d : VReg) (t : TidN) (a : SReg) (axis : BitVec 2) (stp : BitVec 16) (s : State) : Out :=
  s.vector (Form.lanes (plen px 12) p) fun s u body mask => tdec s u body mask rm int d t (u.sreg body a) axis.toNat stp.toNat

/-- `v.tdec vD, tidB, qA` (09 R190). -/
def execVTdecQ (p : Pred) (px : Option Prefix) (rm : RM) (int : Bool) (d : VReg) (t : TidN) (a : QReg) (s : State) : Out :=
  s.vector (Form.lanes (plen px 8) p) fun s u body mask =>
    s.withQueue u a fun s u w => tdec s u body mask rm int d t w 0 1

/-- `v.tdec vD, tidB, qA`, long (09 R190). -/
def execVTdecQLong (p : Pred) (px : Option Prefix) (rm : RM) (int : Bool) (d : VReg) (t : TidN) (a : QReg) (axis : BitVec 2) (stp : BitVec 16) (s : State) : Out :=
  s.vector (Form.lanes (plen px 12) p) fun s u body mask =>
    s.withQueue u a fun s u w => tdec s u body mask rm int d t w axis.toNat stp.toNat

/-- `v.tenc tidB, sA, vC` (09 R192). -/
def execVTenc (p : Pred) (px : Option Prefix) (rm : RM) (int : Bool) (c : VReg) (t : TidN) (a : SReg) (s : State) : Out :=
  s.vector (Form.lanes (plen px 8) p) fun s u body mask => tenc s u px body mask rm int c t (u.sreg body a) 0 1

/-- `v.tenc tidB, sA, vC`, long (09 R192). -/
def execVTencLong (p : Pred) (px : Option Prefix) (rm : RM) (int : Bool) (c : VReg) (t : TidN) (a : SReg) (axis : BitVec 2) (stp : BitVec 16) (s : State) : Out :=
  s.vector (Form.lanes (plen px 12) p) fun s u body mask => tenc s u px body mask rm int c t (u.sreg body a) axis.toNat stp.toNat

/-- `v.tenc tidB, qA, vC` (09 R192). -/
def execVTencQ (p : Pred) (px : Option Prefix) (rm : RM) (int : Bool) (c : VReg) (t : TidN) (a : QReg) (s : State) : Out :=
  s.vector (Form.lanes (plen px 8) p) fun s u body mask =>
    s.withQueue u a fun s u w => tenc s u px body mask rm int c t w 0 1

/-- `v.tenc tidB, qA, vC`, long (09 R192). -/
def execVTencQLong (p : Pred) (px : Option Prefix) (rm : RM) (int : Bool) (c : VReg) (t : TidN) (a : QReg) (axis : BitVec 2) (stp : BitVec 16) (s : State) : Out :=
  s.vector (Form.lanes (plen px 12) p) fun s u body mask =>
    s.withQueue u a fun s u w => tenc s u px body mask rm int c t w axis.toNat stp.toNat

end Sys2Proof.Machine
end

