-- ==== Sys2Proof/Machine/Matrix.lean ====
section
/-! DEFINITION. The matrix unit: commands at issue, their run and their completion, accumulators, masks, poison and screening (10 R193-R216; 02 R51, R52). -/

namespace Sys2Proof.Machine

/-! Accumulators (10 R197). -/

/-- The gang's bind record on the thread's tile. -/
def State.tileOf (s : State) (t : Thread) : Option GangTile := (s.gangOf t).bind fun g => g.tile? t.vt

/-- The physical accumulator of a thread's name, none at or above NACC (05 R97, 10 R197). -/
def State.physAcc (s : State) (t : Thread) (a : Nat) : Option Nat :=
  match s.gangOf t, s.tileOf t with
  | some g, some k => if a < recNacc g.task then (nth k.amask t.thr [])[a]? else none
  | _, _ => none

/-- A physical accumulator of a core. -/
def Core.accum (c : Core) (n : Nat) : Acc := (c.acc.toList[n]?).getD Acc.fresh

/-- Changes a physical accumulator. -/
def Core.modAcc (c : Core) (n : Nat) (f : Acc → Acc) : Core := { c with acc := c.acc.mapFinIdx fun i a _ => if i = n then f a else a }

/-- The residue of a word (10 R215). -/
def residue (w : Lane) : Nat := w.toNat % 3

/-- The words that do not agree with their recorded residues (10 R215). -/
def Acc.broken (a : Acc) : List Nat := (List.range 256).filter fun k => residue (nth a.words k 0) != nth a.res k 0

/-- The accumulator with the residue of every word recorded anew. -/
def Acc.sealed (a : Acc) : Acc := { a with res := a.words.map residue }

/-- Writes words with new residues (10 R215). -/
def Acc.put (a : Acc) (l : List (Nat × Lane)) : Acc :=
  { a with words := l.foldl (fun w x => w.set x.1 x.2) a.words, res := l.foldl (fun w x => w.set x.1 (residue x.2)) a.res }

/-- Clears the poison of rows. -/
def Acc.heal (a : Acc) (rows : List Nat) : Acc := { a with poison := a.poison.filter fun r => !rows.contains r }

/-- The words of rows. -/
def rowWords (rows : List Nat) : List Nat := rows.flatMap fun i => (List.range 16).map fun j => 16 * i + j

/-! Windows (10 R199, R200). -/

/-- The row-column active rows and columns; none where either set is empty. -/
def activeRC (mrow mcol : BitVec 16) (row0 rext col0 cext : Nat) : List Nat × List Nat :=
  let r := (List.range 16).filter fun i => mrow.getLsbD i && row0 + i < rext
  let c := (List.range 16).filter fun j => mcol.getLsbD j && col0 + j < cext
  if r.isEmpty || c.isEmpty then ([], []) else (r, c)

/-- Row-column active words. -/
def activeWords (rc : List Nat × List Nat) : List (Nat × Nat) := rc.1.flatMap fun i => rc.2.map fun j => (i, j)

/-- The depths of a slice that are in MDEP and both extents. -/
def sliceDepths (mdep : BitVec 16) (a b : TidEntry) (k0 : Nat) : List Nat :=
  (List.range 16).filter fun d => mdep.getLsbD d && k0 + d < a.d0 && k0 + d < b.d1

/-- The magnitude planes of 02 R29. -/
def planesFig (c : Nat) : Nat := if isQx c then (qxK c + 1) / 2 else magPlanes c
/-- passes(B) of 10 R203. -/
def passesFig (c : Nat) : Nat := if c = 0 || c = 26 then 2 else 1

/-- The spans that a slice of an `mx.mma` reads: both plane groups, bitmaps, and the scales and streams of the active elements. -/
def mmaSpans (rd : Nat → Nat) (a b : TidEntry) (fa fb row0 col0 k0 : Nat) (rc : List Nat × List Nat) (ds : List Nat) : List (Nat × Nat) :=
  if rc.1.isEmpty || ds.isEmpty then []
  else
    let ia : Idx := { i0 := k0, i1 := row0, i2 := fa, i3 := 0 }
    let ib : Idx := { i0 := col0, i1 := k0, i2 := fb, i3 := 0 }
    [(a.group ia, groupBytes a.fmt), (b.group ib, groupBytes b.fmt)] ++
    (if a.bmap then [(a.bitmapAt ia, 32)] else []) ++ (if b.bmap then [(b.bitmapAt ib, 32)] else []) ++
    (if isBlock a.fmt then rc.1.flatMap fun i => ds.flatMap fun d => a.scaleSpans rd { i0 := k0 + d, i1 := row0 + i, i2 := fa, i3 := 0 } else []) ++
    (if isBlock b.fmt then rc.2.flatMap fun j => ds.flatMap fun d => b.scaleSpans rd { i0 := col0 + j, i1 := k0 + d, i2 := fb, i3 := 0 } else [])

/-- The indices of a block conversion: source and destination in the order of 10 R206. -/
def planePairs (row0 col0 face nb0 nb1 o0 o1 : Nat) : List (Idx × Idx) :=
  (List.range nb1).flatMap fun b1 => (List.range nb0).flatMap fun b0 =>
    (List.range 256).map fun n =>
      let x := 16 * b0 + n % 16
      let y := 16 * b1 + n / 16
      ({ i0 := col0 + x, i1 := row0 + y, i2 := face, i3 := 0 }, { i0 := o0 + x, i1 := o1 + y, i2 := face, i3 := 0 })

/-- The destination's blocks as index of their first element, those with an element in the extents. -/
def planeBlocks (b : TidEntry) (face nb0 nb1 o0 o1 : Nat) : List Idx :=
  (List.range nb1).flatMap fun y => (List.range nb0).filterMap fun x =>
    let i : Idx := { i0 := o0 + 16 * x, i1 := o1 + 16 * y, i2 := face, i3 := 0 }
    if b.has i then some i else none

/-- The elements of an `mx.st`, with the words they take (10 R207). -/
def stPairs (b : TidEntry) (mrow mcol : BitVec 16) (row0 col0 f2 f3 : Nat) : List (Nat × Idx) :=
  (activeWords (activeRC mrow mcol row0 b.d1 col0 b.d0)).map fun w =>
    (16 * w.1 + w.2, { i0 := col0 + w.2, i1 := row0 + w.1, i2 := f2, i3 := f3 })

/-- The rows that a mask names. -/
def maskRows (rows : Nat) : List Nat := bitsOf rows 16

/-- The local-store spans of a command: those it reads, then those it writes. -/
def MxCmd.spans (c : MxCmd) (rd : Nat → Nat) : List (Nat × Nat) × List (Nat × Nat) :=
  match c.op with
  | .mma _ _ _ a b row0 col0 dep0 nsl fa fb =>
    let rc := activeRC c.mrow c.mcol row0 a.d1 col0 b.d0
    ((List.range nsl).flatMap fun k =>
      mmaSpans rd a b fa fb row0 col0 (dep0 + 16 * k) rc (sliceDepths c.mdep a b (dep0 + 16 * k)), [])
  | .plane _ a b row0 col0 face nb0 nb1 o0 o1 =>
    let ps := planePairs row0 col0 face nb0 nb1 o0 o1
    ((ps.flatMap fun x => if a.has x.1 then a.spans rd x.1 ++ (if a.bmap then [(a.bitmapAt x.1, 32)] else []) else []).eraseDups,
     (b.writeSpans ((ps.map (·.2)).filter b.has)).eraseDups ++
       (if b.bmap then (planeBlocks b face nb0 nb1 o0 o1).map fun i => (b.bitmapAt i, 32) else []))
  | .st _ _ b row0 col0 f2 f3 => ([], b.writeSpans ((stPairs b c.mrow c.mcol row0 col0 f2 f3).map (·.2)))
  | .ld _ addr rows => ((maskRows rows).map fun r => (addr + 64 * r, 64), [])
  | _ => ([], [])

/-- A stash entry that a command of the core uses stays READY (10 R212). -/
def Core.stashInUse (c : Core) (e : Stash) : Bool :=
  c.mxq.any fun k =>
    let sp := k.spans c.rd
    (sp.1 ++ sp.2).any fun r => e.meets r.1 r.2

/-! Issue (10 R193-R195). -/

/-- Commands waiting in the queue, the running one apart. -/
def Core.mxWaiting (c : Core) : List MxCmd := c.mxq.filter fun k => k.done.isNone

/-- A command is ready when the queue has a place and its handle is not PENDING; a handle that holds FAULT faults, ahead of the command's own checks (10 R193, R195, 11 R240; their order is log entry 42's). -/
def State.mxGate (s : State) (t : Thread) (h : Option HReg) (body : Res) : Res :=
  if (s.core t.vt t.cslot).mxWaiting.length ≥ 16 then .wait s (.stall 7)
  else
    match t.useHandle h with
    | .wait => .wait s (.stall 5)
    | .fault f => .fault f
    | .free => body

/-- The local-store checks of a command (10 R203 row 6); an error in a word read is met when it runs (10 R213). -/
def State.mxLs (s : State) (t : Thread) (sp : List (Nat × Nat) × List (Nat × Nat)) (body : Res) : Res :=
  let acc (w : Bool) (r : Nat × Nat) : LsAccess := { addr := r.1, width := 0, bytes := r.2, write := w }
  let rec go : List LsAccess → LsCheck
    | [] => .ok
    | x :: r =>
      match s.lsCheckOne t x with
      | .ok => go r
      | .fault f => if f.cause = .memErr then go r else .fault f
      | .wait s => .wait s
  match go (sp.1.map (acc false) ++ sp.2.map (acc true)) with
  | .ok => body
  | .wait s => .wait s (.stall 12)
  | .fault f => .fault f

/-- The state after `n` draws. -/
def advance : Nat → Word → Word
  | 0, s => s
  | n + 1, s => advance n (next16 s).1

/-- A command with what it captures from its thread; id 0 until it is queued (10 R194). -/
def mxCommand (s : State) (t : Thread) (op : MxOp) (h : Option HReg) (mode : RM) (units : Nat) : MxCmd :=
  { id := 0, op := op, slot := t.slot, gang := t.gang, hasH := h.isSome, mrow := t.mrow, mcol := t.mcol, mdep := t.mdep,
    mode := (RM.code mode), satc := t.satc, seed := t.seed, inj := none, issued := s.clk, units := units, done := none }

/-- The command enters the queue; its handle becomes PENDING; `n` draws are taken under STOCH (10 R193-R195, 02 R43). -/
def mxEnqueue (s : State) (t : Thread) (c : MxCmd) (h : Option HReg) (n : Nat) : Res :=
  let (s, id) := s.newCmd
  let s := s.modCore t.vt t.cslot fun k => { k with mxq := k.mxq ++ [{ c with id := id }] }
  .done (s.modCur fun u =>
    let u := u.setH h (.pending id false)
    if c.mode = RM.code .stoch then { u with seed := advance n u.seed } else u) c.units 0

/-- The tensor checks that the matrix commands share: 03 R59, local space. -/
def mxTensorOk (e : TidEntry) (writes : Bool) : Bool := e.ok writes && !e.global

/-- The poisoned rows among these. -/
def Acc.poisoned (a : Acc) (rows : List Nat) : List Nat := rows.filter fun r => a.poison.contains r

/-- The fault POISON (16 R322). -/
def poisonFault (name : Nat) (rows : List Nat) : FaultInfo := { cause := .poison, info := w64 (ofBits rows + name * 2 ^ 16) }

/-- The fault ACC-RANGE (16 R322). -/
def accFault (name : Nat) : FaultInfo := { cause := .accRange, info := w64 name }

/-- Reads both entries of a command, A's first, so where both fail A's fault is taken (03 R56, log entry 64). -/
def State.withTids (s : State) (t : Thread) (a b : TidN) (body : TidEntry → TidEntry → Res) : Res :=
  match s.readTid t a with
  | .fault f => .fault f
  | .wait s => .wait s (.stall 12)
  | .ok x =>
    match s.readTid t b with
    | .fault f => .fault f
    | .wait s => .wait s (.stall 12)
    | .ok y => body x y

/-- `mx.mma` at issue (10 R202, R203); while an injection is armed, each whose A has planes enough may take it (10 R216). -/
def mmaIssue (s : State) (t : Thread) (i32 accz : Bool) (d : AReg) (ta tb : TidN) (org : Word) (nsl : Nat) (h : Option HReg) (fa fb : Nat) : Res :=
  s.mxGate t h <|
    match s.physAcc t d.val with
    | none => .fault (accFault d.val)
    | some pa =>
      s.withTids t ta tb fun a b =>
        let row0 := org.field 0 16
        let col0 := org.field 16 16
        let dep0 := org.field 32 16
        let units := planesFig a.fmt * passesFig b.fmt * nsl
        if !mxTensorOk a false || !mxTensorOk b false || !a.planes || !b.planes || row0 % 16 ≠ 0 || col0 % 16 ≠ 0 ||
            dep0 % 16 ≠ 0 || a.d2 ≤ fa || b.d2 ≤ fb || (i32 && !(isIntCode a.fmt && isIntCode b.fmt)) || 1024 < units then
          .fault (tensorFault ta.val tb.val)
        else
          let c := mxCommand s t (.mma i32 accz pa a b row0 col0 dep0 nsl fa fb) h .rne units
          let bad := ((s.core t.vt t.cslot).accum pa).poisoned (activeRC t.mrow t.mcol row0 a.d1 col0 b.d0).1
          if !bad.isEmpty then .fault (poisonFault d.val bad)
          else
            let c := if t.injarm && t.injpl.toNat < planesFig a.fmt then { c with inj := some t.injpl.toNat } else c
            s.mxLs t (c.spans (s.core t.vt t.cslot).rd) (mxEnqueue s t c h 0)

/-- `mx.plane` and `mx.unplane` at issue (10 R206); `o` is the destination origin where one is given. DEP0, read as the face, need not be a multiple of 16 (log entry 42). -/
def planeIssue (s : State) (t : Thread) (un : Bool) (rm : RM) (ta tb : TidN) (org : Word) (nb0 nb1 : Nat) (h : Option HReg) (o : Option (Nat × Nat)) : Res :=
  s.mxGate t h <|
    s.withTids t ta tb fun a b =>
      let row0 := org.field 0 16
      let col0 := org.field 16 16
      let face := org.field 32 16
      let (o0, o1) := o.getD (col0, row0)
      let dst := ((planePairs row0 col0 face nb0 nb1 o0 o1).map (·.2)).filter b.has
      if !mxTensorOk a false || !mxTensorOk b true || (un && !a.planes) || b.planes = un ||
          (a.planes && (row0 % 16 ≠ 0 || col0 % 16 ≠ 0)) || (b.planes && (o0 % 16 ≠ 0 || o1 % 16 ≠ 0)) ||
          a.d2 ≤ face || b.d2 ≤ face || 1024 < 2 * nb0 * nb1 || !b.covers dst then
        .fault (tensorFault ta.val tb.val)
      else
        let c := mxCommand s t (.plane un a b row0 col0 face nb0 nb1 o0 o1) h (t.mode rm) (2 * nb0 * nb1)
        s.mxLs t (c.spans (s.core t.vt t.cslot).rd) (mxEnqueue s t c h (256 * nb0 * nb1))

/-- `mx.st` at issue (10 R207). -/
def stIssue (s : State) (t : Thread) (rm : RM) (i32 : Bool) (a : AReg) (tb : TidN) (org : Word) (h : Option HReg) (f2 f3 : Nat) : Res :=
  s.mxGate t h <|
    match s.physAcc t a.val with
    | none => .fault (accFault a.val)
    | some pa =>
      match s.readTid t tb with
      | .fault f => .fault f
      | .wait s => .wait s (.stall 12)
      | .ok b =>
        let row0 := org.field 0 16
        let col0 := org.field 16 16
        if !mxTensorOk b true || (b.planes && (row0 % 16 ≠ 0 || col0 % 16 ≠ 0)) || b.d2 ≤ f2 || b.d3 ≤ f3 ||
            !b.covers ((stPairs b t.mrow t.mcol row0 col0 f2 f3).map (·.2)) then
          .fault (tensorFault tb.val 0)
        else
          let c := mxCommand s t (.st i32 pa b row0 col0 f2 f3) h (t.mode rm) 2
          let bad := ((s.core t.vt t.cslot).accum pa).poisoned (activeRC t.mrow t.mcol row0 b.d1 col0 b.d0).1
          if !bad.isEmpty then .fault (poisonFault a.val bad)
          else s.mxLs t (c.spans (s.core t.vt t.cslot).rd) (mxEnqueue s t c h 256)

/-- A matrix command with an origin in a scalar register (10 R199). -/
def State.mxScalar (s : State) (len : Nat) (p : Pred) (c : SReg) (body : State → Thread → Word → Res) : Out :=
  s.issue (Form.blocked len p) fun s t => body s t (t.sreg s.cur.body c)

/-- A matrix command with an origin popped from a queue register (10 R199, 07 R140). -/
def State.mxQueue (s : State) (len : Nat) (p : Pred) (c : QReg) (body : State → Thread → Word → Res) : Out :=
  s.issue (Form.blocked len p) fun s t => s.withQueue t c body

/-- `mx.mma`, origin in sC (10 R202). -/
def execMxMma (p : Pred) (i32 accz : Bool) (d : AReg) (ta tb : TidN) (c : SReg) (nslm1 : BitVec 10) (h : Option HReg) (s : State) : Out :=
  s.mxScalar 8 p c fun s t o => mmaIssue s t i32 accz d ta tb o (nslm1.toNat + 1) h 0 0

/-- `mx.mma` with faces, origin in sC (10 R202). -/
def execMxMmaLong (p : Pred) (i32 accz : Bool) (d : AReg) (ta tb : TidN) (c : SReg) (nslm1 : BitVec 10) (h : Option HReg) (fa fb : BitVec 16) (s : State) : Out :=
  s.mxScalar 12 p c fun s t o => mmaIssue s t i32 accz d ta tb o (nslm1.toNat + 1) h fa.toNat fb.toNat

/-- `mx.mma`, origin from qC (10 R202). -/
def execMxMmaQ (p : Pred) (i32 accz : Bool) (d : AReg) (ta tb : TidN) (c : QReg) (nslm1 : BitVec 10) (h : Option HReg) (s : State) : Out :=
  s.mxQueue 8 p c fun s t o => mmaIssue s t i32 accz d ta tb o (nslm1.toNat + 1) h 0 0

/-- `mx.mma` with faces, origin from qC (10 R202). -/
def execMxMmaQLong (p : Pred) (i32 accz : Bool) (d : AReg) (ta tb : TidN) (c : QReg) (nslm1 : BitVec 10) (h : Option HReg) (fa fb : BitVec 16) (s : State) : Out :=
  s.mxQueue 12 p c fun s t o => mmaIssue s t i32 accz d ta tb o (nslm1.toNat + 1) h fa.toNat fb.toNat

/-- `mx.plane`, origin in sC (10 R206). -/
def execMxPlane (p : Pred) (rm : RM) (ta tb : TidN) (c : SReg) (nb0m1 nb1m1 : BitVec 5) (h : Option HReg) (s : State) : Out :=
  s.mxScalar 8 p c fun s t o => planeIssue s t false rm ta tb o (nb0m1.toNat + 1) (nb1m1.toNat + 1) h none

/-- `mx.plane` with a destination origin (10 R206). -/
def execMxPlaneLong (p : Pred) (rm : RM) (ta tb : TidN) (c : SReg) (nb0m1 nb1m1 : BitVec 5) (h : Option HReg) (o0 o1 : BitVec 16) (s : State) : Out :=
  s.mxScalar 12 p c fun s t o => planeIssue s t false rm ta tb o (nb0m1.toNat + 1) (nb1m1.toNat + 1) h (some (o0.toNat, o1.toNat))

/-- `mx.plane`, origin from qC (10 R206). -/
def execMxPlaneQ (p : Pred) (rm : RM) (ta tb : TidN) (c : QReg) (nb0m1 nb1m1 : BitVec 5) (h : Option HReg) (s : State) : Out :=
  s.mxQueue 8 p c fun s t o => planeIssue s t false rm ta tb o (nb0m1.toNat + 1) (nb1m1.toNat + 1) h none

/-- `mx.plane` with a destination origin, origin from qC (10 R206). -/
def execMxPlaneQLong (p : Pred) (rm : RM) (ta tb : TidN) (c : QReg) (nb0m1 nb1m1 : BitVec 5) (h : Option HReg) (o0 o1 : BitVec 16) (s : State) : Out :=
  s.mxQueue 12 p c fun s t o => planeIssue s t false rm ta tb o (nb0m1.toNat + 1) (nb1m1.toNat + 1) h (some (o0.toNat, o1.toNat))

/-- `mx.unplane`, origin in sC (10 R206). -/
def execMxUnplane (p : Pred) (rm : RM) (ta tb : TidN) (c : SReg) (nb0m1 nb1m1 : BitVec 5) (h : Option HReg) (s : State) : Out :=
  s.mxScalar 8 p c fun s t o => planeIssue s t true rm ta tb o (nb0m1.toNat + 1) (nb1m1.toNat + 1) h none

/-- `mx.unplane` with a destination origin (10 R206). -/
def execMxUnplaneLong (p : Pred) (rm : RM) (ta tb : TidN) (c : SReg) (nb0m1 nb1m1 : BitVec 5) (h : Option HReg) (o0 o1 : BitVec 16) (s : State) : Out :=
  s.mxScalar 12 p c fun s t o => planeIssue s t true rm ta tb o (nb0m1.toNat + 1) (nb1m1.toNat + 1) h (some (o0.toNat, o1.toNat))

/-- `mx.unplane`, origin from qC (10 R206). -/
def execMxUnplaneQ (p : Pred) (rm : RM) (ta tb : TidN) (c : QReg) (nb0m1 nb1m1 : BitVec 5) (h : Option HReg) (s : State) : Out :=
  s.mxQueue 8 p c fun s t o => planeIssue s t true rm ta tb o (nb0m1.toNat + 1) (nb1m1.toNat + 1) h none

/-- `mx.unplane` with a destination origin, origin from qC (10 R206). -/
def execMxUnplaneQLong (p : Pred) (rm : RM) (ta tb : TidN) (c : QReg) (nb0m1 nb1m1 : BitVec 5) (h : Option HReg) (o0 o1 : BitVec 16) (s : State) : Out :=
  s.mxQueue 12 p c fun s t o => planeIssue s t true rm ta tb o (nb0m1.toNat + 1) (nb1m1.toNat + 1) h (some (o0.toNat, o1.toNat))

/-- `mx.st`, origin in sC (10 R207). -/
def execMxSt (p : Pred) (rm : RM) (i32 : Bool) (a : AReg) (tb : TidN) (c : SReg) (h : Option HReg) (s : State) : Out :=
  s.mxScalar 8 p c fun s t o => stIssue s t rm i32 a tb o h 0 0

/-- `mx.st` with faces (10 R207). -/
def execMxStLong (p : Pred) (rm : RM) (i32 : Bool) (a : AReg) (tb : TidN) (c : SReg) (h : Option HReg) (f2 f3 : BitVec 16) (s : State) : Out :=
  s.mxScalar 12 p c fun s t o => stIssue s t rm i32 a tb o h f2.toNat f3.toNat

/-- `mx.st`, origin from qC (10 R207). -/
def execMxStQ (p : Pred) (rm : RM) (i32 : Bool) (a : AReg) (tb : TidN) (c : QReg) (h : Option HReg) (s : State) : Out :=
  s.mxQueue 8 p c fun s t o => stIssue s t rm i32 a tb o h 0 0

/-- `mx.st` with faces, origin from qC (10 R207). -/
def execMxStQLong (p : Pred) (rm : RM) (i32 : Bool) (a : AReg) (tb : TidN) (c : QReg) (h : Option HReg) (f2 f3 : BitVec 16) (s : State) : Out :=
  s.mxQueue 12 p c fun s t o => stIssue s t rm i32 a tb o h f2.toNat f3.toNat

/-- `mx.ld` (10 R208). -/
def execMxLd (p : Pred) (d : AReg) (a : SReg) (rows : BitVec 16) (h : Option HReg) (s : State) : Out :=
  s.issue (Form.blocked 8 p) fun s t =>
    s.mxGate t h <|
      match s.physAcc t d.val with
      | none => .fault (accFault d.val)
      | some pa =>
        let addr := t.sreg s.cur.body a
        if addr.toNat % 64 ≠ 0 then .fault { cause := .align, addr := addr }
        else
          let c := mxCommand s t (.ld pa addr.toNat rows.toNat) h .rne 2
          s.mxLs t (c.spans (s.core t.vt t.cslot).rd) (mxEnqueue s t c h 0)

/-- `mx.zero` (10 R209). -/
def execMxZero (p : Pred) (d : AReg) (rows : BitVec 16) (s : State) : Out :=
  s.issue (Form.blocked 8 p) fun s t =>
    s.mxGate t none <|
      match s.physAcc t d.val with
      | none => .fault (accFault d.val)
      | some pa => mxEnqueue s t (mxCommand s t (.zero pa rows.toNat) none .rne 1) none 0

/-- `mx.mask sA` (10 R205). -/
def execMxMask (p : Pred) (a : SReg) (s : State) : Out :=
  s.issue (Form.blocked 8 p) fun s t =>
    let x := t.sreg s.cur.body a
    .done (s.modCur fun u =>
      { u with mrow := x.extractLsb' 0 16, mcol := x.extractLsb' 16 16, mdep := x.extractLsb' 32 16 }) 1 0

/-- `mx.mask row, col, dep` (10 R205). -/
def execMxMaskImm (p : Pred) (row col dep : BitVec 16) (s : State) : Out :=
  s.issue (Form.blocked 12 p) fun s _ => .done (s.modCur fun u => { u with mrow := row, mcol := col, mdep := dep }) 1 0

/-- A command of the thread that writes a physical accumulator is queued or running (10 R210). -/
def Core.accBusy (c : Core) (slot pa : Nat) : Bool :=
  c.mxq.any fun k => k.slot = slot &&
    match k.op with
    | .mma _ _ a _ _ _ _ _ _ _ _ => a = pa
    | .ld a _ _ => a = pa
    | .zero a _ => a = pa
    | .movA a _ _ => a = pa
    | _ => false

/-! Screening status (10 R216). -/

/-- The status of a physical core. -/
def PTile.screen (p : PTile) (c : Nat) : Screen :=
  (p.screens.find? fun x => x.core == c).getD { core := c, mism := 0, injok := 0, lastok := false }

/-- Changes the screening status of the physical core behind a core slot. -/
def State.modScreen (s : State) (vt cs : Nat) (f : Screen → Screen) : State :=
  match s.pcoreOf vt cs with
  | none => s
  | some c => s.modPTile (s.ptileOf vt) fun p =>
      { p with screens := upsert (fun x => x.core == c) { core := c, mism := 0, injok := 0, lastok := false } f p.screens }

/-- A screening mismatch: the unit takes no further command and the core's count rises (10 R215, R216). -/
def State.screenMismatch (s : State) (vt cs : Nat) : State :=
  (s.modCore vt cs fun c => { c with mxStop := true, arrayBad := false, mismatch := c.mismatch + 1 }).modScreen vt cs fun x => { x with mism := min (x.mism + 1) 0xFFFFFFFF }

/-- `mx.mov vD, aA, m` (10 R210, R215): the rows are stable from its issue on, so vD takes them then; a word that its residue disowns is never delivered. -/
def execMxMovToVector (p : Pred) (d : VReg) (a : AReg) (m : BitVec 3) (s : State) : Out :=
  s.issue (Form.blocked 8 p) fun s t =>
    s.mxGate t none <|
      match s.physAcc t a.val with
      | none => .fault (accFault a.val)
      | some pa =>
        let c := s.core t.vt t.cslot
        if c.accBusy t.slot pa then .wait s (.stall 14)
        else
          let x := c.accum pa
          let bad := x.poisoned [2 * m.toNat, 2 * m.toNat + 1]
          if !bad.isEmpty then .fault (poisonFault a.val bad)
          else if c.mxStop then .wait s (.stall 14)
          else if (rowWords [2 * m.toNat, 2 * m.toNat + 1]).any fun w => x.broken.contains w then
            .wait (s.screenMismatch t.vt t.cslot) (.stall 14)
          else
            let s' := s.modCur fun u => u.setV s.cur.body d (BitVec.allOnes 32) fun i => nth x.words (32 * m.toNat + i.val) 0
            mxEnqueue s' t (mxCommand s t (.movV (t.vname s.cur.body d).val pa m.toNat) none .rne 2) none 0

/-- `mx.mov aD, vA, m` (10 R210). -/
def execMxMovToAcc (p : Pred) (d : AReg) (a : VReg) (m : BitVec 3) (s : State) : Out :=
  s.issue (Form.blocked 8 p) fun s t =>
    s.mxGate t none <|
      match s.physAcc t d.val with
      | none => .fault (accFault d.val)
      | some pa => mxEnqueue s t (mxCommand s t (.movA pa m.toNat (t.vreg s.cur.body a).toList) none .rne 2) none 0

/-- `mx.scr sD` (10 R216). -/
def execMxScr (p : Pred) (d : SReg) (s : State) : Out :=
  s.issue { Form.blocked 8 p with cap := some 3 } fun s t =>
    let x : Screen :=
      match s.ptile? (s.ptileOf t.vt), s.pcoreOf t.vt t.cslot with
      | some p, some c => p.screen c
      | _, _ => { core := 0, mism := 0, injok := 0, lastok := false }
    .done (s.modCur fun u =>
      u.setS d (w64 (b2n x.lastok + 2 * b2n t.injarm + x.injok % 2 ^ 16 * 2 ^ 16 + x.mism * 2 ^ 32))) 1 0

/-- Commands of a thread that have not begun take no injection any more (10 R216). -/
def Core.disarm (c : Core) (slot : Nat) : Core :=
  { c with mxq := c.mxq.map fun (k : MxCmd) => if k.slot == slot && k.done.isNone then { k with inj := none } else k }

/-- `mx.scr.inj sA` (10 R216): it replaces an injection that no `mx.mma` has met yet. -/
def execMxScrInj (p : Pred) (a : SReg) (s : State) : Out :=
  s.issue { Form.blocked 8 p with cap := some 3 } fun s t =>
    let x := t.sreg s.cur.body a
    if x.toNat ≥ 32 then .fault s.illegal
    else .done ((s.modCore t.vt t.cslot fun c => c.disarm t.slot).modCur fun u => { u with injpl := x.extractLsb' 0 5, injarm := true }) 1 0

/-! The run of a command (10 R202, R206-R214; 02 R51, R52). -/

/-- An exact integer value. -/
def FVal.toInt : FVal → Int
  | .fin n m e _ => let x : Int := ((m <<< e.toNat : Nat) : Int); if n then -x else x
  | _ => 0

/-- One slice into an FP32 accumulator word (02 R51). -/
def sliceFp (acc : Lane) (ps : List (FVal × FVal)) : Lane × FFlags :=
  let prods := ps.map fun x => fmul x.1 x.2
  let fl := prods.foldl (fun a x => a ||| x.2) (0 : FFlags)
  let vs := prods.map (·.1)
  let pinf := vs.any fun v => v.isInf && !v.sign
  let ninf := vs.any fun v => v.isInf && v.sign
  let into (v : FVal) (f : FFlags) : Lane × FFlags :=
    let q := fadd .rne (decodeF fp32 acc.toNat) v
    let r := encodeF fp32 .rne false 0 q.1
    (w32 r.1, f ||| q.2 ||| r.2)
  if vs.any FVal.isNan || (pinf && ninf) then into qnan (fl ||| flagIf (pinf && ninf) flagInvalid)
  else if pinf then into (.inf false) fl
  else if ninf then into (.inf true) fl
  else
    let logs := vs.filterMap FVal.log2?
    match logs with
    | [] => (acc, fl)
    | x :: r =>
      let lsb := r.foldl max x - 46
      let terms := vs.map fun v =>
        match v with
        | .fin n m e _ =>
          let y := quantize .rtz n 0 m e false lsb
          ((if n then -(y.1 : Int) else (y.1 : Int)), y.2)
        | _ => (0, false)
      let sum := terms.foldl (fun (a : Int) y => a + y.1) 0
      let fl := fl ||| flagIf (terms.any fun y => y.2) flagInexact
      if sum = 0 then (acc, fl) else into (.fin (sum < 0) sum.natAbs lsb false) fl

/-- One slice into an INT32 accumulator word (02 R52). -/
def sliceInt (acc : Lane) (ps : List (FVal × FVal)) : Lane × FFlags :=
  let r := clampS 32 (acc.toInt + ps.foldl (fun (a : Int) x => a + x.1.toInt * x.2.toInt) 0)
  (BitVec.ofInt 32 r.1, r.2)

/-- An element that takes part in a slice: its depth, value and flags. -/
structure Operand where
  d : Nat
  v : FVal
  f : FFlags

/-- The present elements of one row or column of a slice. -/
def sliceOperands (e : TidEntry) (rd : Nat → Nat) (ds : List Nat) (idx : Nat → Idx) : List Operand :=
  ds.filterMap fun d =>
    if e.present rd (idx d) then
      match e.value rd (idx d) with
      | .val v f => some { d := d, v := v, f := f }
      | .format _ => none
    else none

/-- One slice of an `mx.mma` on the words of an accumulator. -/
def runSlice (rd : Nat → Nat) (i32 : Bool) (a b : TidEntry) (fa fb row0 col0 k0 : Nat) (rc : List Nat × List Nat) (ds : List Nat)
    (w : List Lane × FFlags) : List Lane × FFlags :=
  let rows := rc.1.map fun i => (i, sliceOperands a rd ds fun d => { i0 := k0 + d, i1 := row0 + i, i2 := fa, i3 := 0 })
  let cols := rc.2.map fun j => (j, sliceOperands b rd ds fun d => { i0 := col0 + j, i1 := k0 + d, i2 := fb, i3 := 0 })
  rows.foldl (fun w r => cols.foldl (fun w c =>
    let pairs := r.2.filterMap fun x => (c.2.find? fun y => y.d == x.d).map fun y => (x, y)
    let k := 16 * r.1 + c.1
    let acc := nth w.1 k 0
    let ps := pairs.map fun x => (x.1.v, x.2.v)
    let z := if i32 then sliceInt acc ps else sliceFp acc ps
    (w.1.set k z.1, pairs.foldl (fun f x => f ||| x.1.f ||| x.2.f) (w.2 ||| z.2))) w) w

/-- The first malformed stream among elements. -/
def firstBad (e : TidEntry) (rd : Nat → Nat) (l : List Idx) : Option Nat :=
  if isQxDelta e.fmt then l.findSome? fun i => (match e.value rd i with | .format a => some a | .val _ _ => none) else none

/-- A local word in error among spans. -/
def Core.anyBad (c : Core) (l : List (Nat × Nat)) : Bool := l.any fun r => (c.badWord r.1 r.2).isSome

/-- What a run gives: the core after it and the outcome, or a screening mismatch. -/
inductive MxRun
  | ok (c : Core) (r : MxResult)
  | mismatch

def mxOk (f : FFlags) : MxResult := { st := .ok, flags := f, val := 0, info := { cause := .format } }
def mxPoison : MxResult := { st := .poison, flags := 0, val := 0, info := { cause := .poison } }
def mxFormat (tid addr : Nat) : MxResult :=
  let f : FaultInfo := { formatFault tid addr with kind := .read, async := true }
  { st := .fault, flags := 0, val := faultValue f, info := f }

/-- The slices of an `mx.mma`, until one meets an error (10 R213). -/
def runSlices (c : Core) (i32 : Bool) (a b : TidEntry) (fa fb row0 col0 : Nat) (mdep : BitVec 16) (rc : List Nat × List Nat) :
    List Nat → List Lane × FFlags → (List Lane × FFlags) × Bool
  | [], w => (w, false)
  | k0 :: r, w =>
    let ds := sliceDepths mdep a b k0
    if c.anyBad (mmaSpans c.rd a b fa fb row0 col0 k0 rc ds) then (w, true)
    else runSlices c i32 a b fa fb row0 col0 mdep rc r (runSlice c.rd i32 a b fa fb row0 col0 k0 rc ds w)

/-- `mx.mma` when it runs (10 R202, R213, R214). Of several malformed streams operand A's come before B's, and an operand's in the order slice, depth, row or column (log entry 64). A delta-coded row counts among those it will read also where the bitmap has none of its elements in the window, so that it is decoded and can end the command FORMAT (03 R63, log entry 64). An array that has failed makes its partial sums disagree with the sums modulo 255 (10 R215). -/
def runMma (c : Core) (m : MxCmd) (i32 accz : Bool) (acc : Nat) (a b : TidEntry) (row0 col0 dep0 nsl fa fb : Nat) : MxRun :=
  let rc := activeRC m.mrow m.mcol row0 a.d1 col0 b.d0
  let x := c.accum acc
  let words := (activeWords rc).map fun w => 16 * w.1 + w.2
  let k0s := (List.range nsl).map fun n => dep0 + 16 * n
  let readA := k0s.flatMap fun k => (sliceDepths m.mdep a b k).flatMap fun d => rc.1.map fun i => ({ i0 := k + d, i1 := row0 + i, i2 := fa, i3 := 0 } : Idx)
  let readB := k0s.flatMap fun k => (sliceDepths m.mdep a b k).flatMap fun d => rc.2.map fun j => ({ i0 := col0 + j, i1 := k + d, i2 := fb, i3 := 0 } : Idx)
  if !(x.poisoned rc.1).isEmpty then .ok c mxPoison
  else
    match firstBad a c.rd readA with
    | some p => .ok c (mxFormat a.num p)
    | none =>
      match firstBad b c.rd readB with
      | some p => .ok c (mxFormat b.num p)
      | none =>
        if (c.arrayBad && !words.isEmpty) || (!accz && words.any fun k => x.broken.contains k) then .mismatch
        else
          let w0 := if accz then words.foldl (fun w k => w.set k 0) x.words else x.words
          let r := runSlices c i32 a b fa fb row0 col0 m.mdep rc k0s (w0, 0)
          let put := words.map fun k => (k, nth r.1.1 k 0)
          let c' := c.modAcc acc fun y => y.put put
          if r.2 then .ok (c'.modAcc acc fun y => { y with poison := unionNat rc.1 y.poison }) mxPoison
          else .ok c' (mxOk r.1.2)

/-- Stores the runs of an overlay. -/
def Core.storeRuns (c : Core) (o : Overlay) : Core := (overRuns o).foldl (fun k r => k.store r.1 r.2) c

/-- `mx.plane` and `mx.unplane` when they run (10 R206, R213). Between equal formats the conversion flags nothing; what is read and is no value still sets INVALID: a signalling NaN (02 R32), 10₂ of TRN2 (02 R34), an element under a GS scale that is NaN or infinite (02 R36). A block format's blocks keep their codes, scales and shifts where one scale can hold them; one that some other scale holds exactly takes that (log entry 42). -/
def runPlane (c : Core) (m : MxCmd) (a b : TidEntry) (row0 col0 face nb0 nb1 o0 o1 : Nat) : MxRun :=
  let ps := planePairs row0 col0 face nb0 nb1 o0 o1
  let inA := (ps.map (·.1)).filter a.has
  match firstBad a c.rd inA with
  | some p => .ok c (mxFormat a.num p)
  | none =>
    if c.anyBad (m.spans c.rd).1 then .ok c mxPoison
    else
      let mode := RM.ofCode m.mode
      let ds := (drawsFor mode (256 * nb0 * nb1) m.seed).1
      let vals := ps.zipIdx.map fun x =>
        let src := x.1.1
        let v : FVal × FFlags :=
          if a.has src && a.present c.rd src then
            match a.value c.rd src with
            | .val v f => (v, f)
            | .format _ => (.fin false 0 0 false, 0)
          else (.fin false 0 0 false, 0)
        let kept := if a.fmt = b.fmt && isBlock b.fmt && a.has src && a.present c.rd src then a.keep c.rd src else none
        (x.1.2, v, nth ds x.2 0, kept)
      let l : List ElemWrite := vals.filterMap fun x =>
        if b.has x.1 then some { idx := x.1, val := x.2.1.1, draw := x.2.2.1, kept := x.2.2.2 } else none
      let w := b.write c.rd mode m.satc false l
      let readF := vals.foldl (fun f x => f ||| x.2.1.2) (0 : FFlags)
      let o := if b.bmap then
          (planeBlocks b face nb0 nb1 o0 o1).foldl (fun o i =>
            let bits := ofBits ((List.range 256).filter fun n =>
              let j : Idx := { i with i0 := i.i0 + n % 16, i1 := i.i1 + n / 16 }
              b.has j && (match b.value (overByte c.rd w.laid) j with | .val v _ => !v.isZero | .format _ => false))
            overBits c.rd (8 * b.bitmapAt i) 256 bits o) w.laid
        else w.laid
      let convF := if a.fmt = b.fmt then flagIf (l.any fun x => x.val.isSig) flagInvalid else w.flags
      .ok (c.storeRuns o) (mxOk (readF ||| convF))

/-- `mx.st` when it runs (10 R207, R214). -/
def runSt (c : Core) (m : MxCmd) (i32 : Bool) (acc : Nat) (b : TidEntry) (row0 col0 f2 f3 : Nat) : MxRun :=
  let x := c.accum acc
  let ps := stPairs b m.mrow m.mcol row0 col0 f2 f3
  if !(x.poisoned (activeRC m.mrow m.mcol row0 b.d1 col0 b.d0).1).isEmpty then .ok c mxPoison
  else if ps.any fun p => x.broken.contains p.1 then .mismatch
  else
    let mode := RM.ofCode m.mode
    let ds := (drawsFor mode 256 m.seed).1
    let w := b.write c.rd mode m.satc false (ps.map fun p =>
      let v := nth x.words p.1 0
      { idx := p.2, val := if i32 then .ofInt v.toInt else decodeF fp32 v.toNat, draw := nth ds p.1 0 })
    .ok (c.storeRuns w.laid) (mxOk w.flags)

/-- `mx.ld` when it runs (10 R208); an erroneous word takes a free value, `fresh` numbering them. -/
def runLd (c : Core) (acc addr rows fresh : Nat) : Core × Bool :=
  let rs := maskRows rows
  let bad (k : Nat) : Bool := (c.badWord (addr + 4 * k) 4).isSome
  let put := (rowWords rs).map fun k => (k, if bad k then lo32 (Config.freeWord (fresh + k)) else w32 (c.readLs (addr + 4 * k) 4))
  let ill := rs.filter fun r => (rowWords [r]).any bad
  (c.modAcc acc fun a => { (a.put put).heal rs with poison := unionNat ill (a.heal rs).poison }, !ill.isEmpty)

/-- A command when it runs. -/
def runMx (c : Core) (m : MxCmd) (fresh : Nat) : MxRun :=
  match m.op with
  | .mma i32 accz acc a b row0 col0 dep0 nsl fa fb => runMma c m i32 accz acc a b row0 col0 dep0 nsl fa fb
  | .plane _ a b row0 col0 face nb0 nb1 o0 o1 => runPlane c m a b row0 col0 face nb0 nb1 o0 o1
  | .st i32 acc b row0 col0 f2 f3 => runSt c m i32 acc b row0 col0 f2 f3
  | .ld acc addr rows =>
    let r := runLd c acc addr rows fresh
    .ok r.1 (if r.2 then mxPoison else mxOk 0)
  | .zero acc rows =>
    let rs := maskRows rows
    .ok (c.modAcc acc fun a => (a.put ((rowWords rs).map fun k => (k, 0))).heal rs) (mxOk 0)
  | .movV _ _ _ => .ok c (mxOk 0)
  | .movA acc k l =>
    let rs := [2 * k, 2 * k + 1]
    .ok (c.modAcc acc fun a => (a.put ((rowWords rs).zip l)).heal rs) (mxOk 0)

/-- The design busy time of a command in clk (10 Time; log entry 9). -/
def mxClk (m : MxCmd) : Nat :=
  match m.op with
  | .mma _ _ _ _ _ _ _ _ _ _ _ => m.units
  | .plane _ _ _ _ _ _ nb0 nb1 _ _ => 8 * nb0 * nb1
  | .st _ _ _ _ _ _ _ => 16
  | .ld _ _ _ => 16
  | .zero _ _ => 1
  | _ => 2

/-- A command that runs applies its first slice: an `mx.mma` that meets no poison, no malformed stream and no error in that slice (10 R202, R213, R214). -/
def MxCmd.begins (m : MxCmd) (c : Core) : Bool :=
  match m.op, runMx c m 0 with
  | .mma _ _ acc a b row0 col0 dep0 _ fa fb, .ok _ r =>
    let rc := activeRC m.mrow m.mcol row0 a.d1 col0 b.d0
    r.st == .ok || (r.st == .poison && ((c.accum acc).poisoned rc.1).isEmpty &&
      !c.anyBad (mmaSpans c.rd a b fa fb row0 col0 dep0 rc (sliceDepths m.mdep a b dep0)))
  | _, _ => false

/-- The injection that a running `mx.mma` takes in its first slice is detected and counted, and its thread's INJARM clears (10 R216). -/
def State.inject (s : State) (vt slot : Nat) (m : MxCmd) : State :=
  let t := s.thread vt m.slot
  if m.inj.isSome && t.gang == m.gang && t.injarm && m.begins (s.core vt slot) then
    ((s.modScreen vt slot fun x => { x with injok := (x.injok + 1) % 2 ^ 16, lastok := true }).modCore vt slot fun c => c.disarm m.slot).modThread
      vt m.slot fun t => { t with injarm := false }
  else s

/-- MX_COMMAND_START (10 R193): the core's next command runs; it captures its outcome, which its completion delivers. -/
def execMxCommandStart (vt slot : Nat) (s : State) : Out :=
  .next <|
    let c := s.core vt slot
    match c.mxq with
    | [] => s
    | m :: r =>
      if c.mxStop || m.done.isSome then s
      else
        let s' := s.inject vt slot m
        match runMx c m s.fresh with
        | .mismatch => s'.screenMismatch vt slot
        | .ok c' res =>
          { s'.modCore vt slot fun k => { c' with mxq := { m with done := some res } :: k.mxq.tail } with fresh := s.fresh + 256 }

/-- The number of a status (11 R240). -/
def HStatus.code : HStatus → Nat
  | .ok => 0 | .poison => 1 | .cancelled => 2 | .fault => 3

/-- MX_COMMAND_COMPLETE (10 R195, R196): the running command's handle and flags are delivered; a thread that has left takes neither, but its partition counts and records the completion (19 R381, R383). -/
def execMxCommandComplete (vt slot : Nat) (s : State) : Out :=
  .next <|
    let c := s.core vt slot
    match c.mxq with
    | [] => s
    | m :: r =>
      match m.done with
      | none => s
      | some res =>
        let s := s.modCore vt slot fun c => { c with mxq := r }
        let t := s.thread vt m.slot
        let s := s.modGang m.gang fun g => { g with mxBusy := g.mxBusy + mxClk m }
        let here := t.gang = m.gang && t.st != .free
        let part := s.partAt vt
        let s := (s.count part 2 (mxClk m)).event part 0x02 res.st.code m.gang (w64 m.issued) (w64 m.units)
        let s := if here then s.modThread vt m.slot fun t => t.orFlags res.flags else s
        let s := s.completeCmd vt slot m.id res.st res.val res.info.kind res.info.tidn
        if here && res.st = .fault && !m.hasH then s.asyncFault vt m.slot res.info else s

end Sys2Proof.Machine
end

