-- ==== Sys2Proof/Machine/Stash.lean ====
section
/-! DEFINITION. The stash: global ranges as the engines reach them, fills, write-backs and the `sta.*` instructions (11 R229-R232). -/

namespace Sys2Proof.Machine

/-! Global ranges reached by an engine. -/

/-- A range of addresses cut at page edges. -/
def pagePieces (va n : Nat) : List (Nat × Nat) :=
  (unitsOf 4096 va n).map fun p =>
    let lo := max va (p * 4096)
    (lo, min (va + n) (p * 4096 + 4096) - lo)

/-- The physical address behind a virtual one that translates; 0 otherwise. -/
def State.physOf (s : State) (sp : Space) (va : Nat) (nd : Need) : Nat :=
  match s.translate sp va nd with
  | .ok m => m.pa
  | .err _ => 0

/-- The bytes of a global range that translates. -/
def State.readGlobal (s : State) (sp : Space) (nd : Need) (va n : Nat) : List Byte :=
  (pagePieces va n).flatMap fun x => s.hbm.bytes (s.physOf sp x.1 nd) x.2

/-- The virtual address of the lowest granule in error that a range touches (11 R398). -/
def State.badGlobal (s : State) (sp : Space) (nd : Need) (va n : Nat) : Option Nat :=
  (pagePieces va n).findSome? fun x =>
    match s.badGran (s.physOf sp x.1 nd) x.2 with
    | none => none
    | some g => some (x.1 / 4096 * 4096 + g * 32 % 4096)

/-- A thread or an engine of the panel writes bytes over a global range that translates. -/
def State.writeGlobal (s : State) (sp : Space) (va : Nat) (bs : List Byte) : State :=
  (pagePieces va bs.length).foldl
    (fun s' x =>
      let pa := s.physOf sp x.1 (needPlain true)
      (s'.putHbm pa ((bs.drop (x.1 - va)).take x.2)).noteWrite pa x.2) s

/-- Consecutive numbers as runs: start and length. -/
def runsOf : List Nat → List (Nat × Nat)
  | [] => []
  | a :: r =>
    match runsOf r with
    | (b, n) :: q => if b = a + 1 then (a, n + 1) :: q else (a, 1) :: (b, n) :: q
    | [] => [(a, 1)]

/-! Fills and write-backs (11 R230). -/

/-- What a fill meets: its bytes, or a fault. -/
def State.fillBytes (s : State) (sp : Space) (e : Stash) : Except FaultInfo (List Byte) :=
  match s.checkVirt sp (needPlain false) e.gbase e.size with
  | some (va, sub) => .error (transFault va .fill sub)
  | none =>
    match s.badGlobal sp (needPlain false) e.gbase e.size with
    | some va => .error { cause := .memErr, addr := w64 va, kind := .fill }
    | none => .ok (s.readGlobal sp (needPlain false) e.gbase e.size)

/-- The pages of a global range that its tables do not let be written (11 R229). -/
def State.readOnlyPages (s : State) (sp : Space) (va n : Nat) : List Nat :=
  (unitsOf 4096 va n).filter fun p => s.translate sp (max va (p * 4096)) (needAny true) == .err 3

/-- The first fault of a write-back, run by run: a local word in error, then a page that may not be written. -/
def State.drainFault (s : State) (sp : Space) (vt cs : Nat) (e : Stash) : Option FaultInfo :=
  (runsOf e.dirty).findSome? fun r =>
    match (s.core vt cs).badWord (e.lbase + r.1) r.2 with
    | some w => some { cause := .memErr, addr := w64 (4 * w), kind := .writeBack }
    | none =>
      match s.checkVirt sp (needPlain true) (e.gbase + r.1) r.2 with
      | some (va, sub) => some (transFault va .writeBack sub)
      | none => none

/-- Writes the dirty bytes of an entry to their slices; a write-back that faults writes none (log entry 30). -/
def State.drainBytes (s : State) (sp : Space) (vt cs : Nat) (e : Stash) : State :=
  (runsOf e.dirty).foldl
    (fun s' r => s'.writeGlobal sp (e.gbase + r.1) ((s.core vt cs).ls.bytes (e.lbase + r.1) r.2)) s

/-- The partition of a thread slot. -/
def State.partOf (s : State) (vt slot : Nat) : Nat := s.partNum (s.thread vt slot)

/-- A waiting access freezes its thread with the fault of the fill it waited for, if it still waits (11 R230). -/
def State.failToucher (s : State) (vt stream : Nat) (f : FaultInfo) : State :=
  let t := s.thread vt (stream / 2)
  let body := stream % 2 = 1
  if body && t.rep.isSome then s.freeze vt t.slot f (t.issuePc true) true
  else if !body && t.wait == .stall 12 then s.freeze vt t.slot f t.pc false
  else s

/-- STASH_FILL_COMPLETE (11 R230): a fill of core slot `cs` ends; while traffic to its tile is held, so is what it brings (17 R342). -/
def execStashFillComplete (vt cs e : Nat) (s : State) : Out :=
  .next <|
    match (s.core vt cs).entry? e with
    | none => s
    | some x =>
      if x.st ≠ .filling || s.trafficHeld vt then s
      else
        let sp := s.spaceOf (s.thread vt x.owner)
        let part := s.partOf vt x.owner
        match s.fillBytes sp x with
        | .ok bs =>
          let s := (s.modCore vt cs fun c =>
            (c.putLs x.lbase bs).modStash e fun y => { y with st := .ready, cmd := none, fillBy := none, dirty := [], ro := s.readOnlyPages sp y.gbase y.size }).count part 5 x.size
          match x.cmd with
          | none => s
          | some k => s.completeCmd vt cs k .ok 0 .fill
        | .error f =>
          let s := s.modCore vt cs fun c => c.modStash e fun y => { y with st := .empty, cmd := none, fillBy := none }
          let s := match x.cmd with
            | none => s
            | some k => s.completeCmd vt cs k .fault (faultValue f) .fill
          match x.fillBy with
          | none => s
          | some i => s.failToucher vt i f

/-- STASH_WRITEBACK_COMPLETE (11 R230): a write-back of core slot `cs` ends. -/
def execStashWritebackComplete (vt cs e : Nat) (s : State) : Out :=
  .next <|
    match (s.core vt cs).entry? e with
    | none => s
    | some x =>
      if x.st ≠ .draining then s
      else
        let sp := s.spaceOf (s.thread vt x.owner)
        let part := s.partOf vt x.owner
        let s1 := s.modCore vt cs fun c => c.modStash e fun y => { y with st := .ready, cmd := none, fillBy := none }
        match s.drainFault sp vt cs x with
        | none =>
          let s2 := ((s1.drainBytes sp vt cs x).modCore vt cs fun c => c.modStash e fun y => { y with dirty := [] }).count part 6 x.dirty.length
          match x.cmd with
          | none => s2
          | some k => s2.completeCmd vt cs k .ok 0 .writeBack
        | some f =>
          let s2 := match x.cmd with
            | none => s1
            | some k => s1.completeCmd vt cs k .fault (faultValue f) .writeBack
          match x.fillBy with
          | none => s2
          | some i => s2.failToucher vt i f

/-! The instructions (11 R232). -/

/-- The fault STASH (16 R322). -/
def stashFault (e : Nat) : FaultInfo := { cause := .stash, info := w64 e }

/-- The thread's own allocation: base and length in bytes (05 R95). -/
def State.ownAlloc (s : State) (t : Thread) : Nat × Nat :=
  match s.gangOf t, s.tileOf t with
  | some g, some k => (nth k.lsb t.thr 0 * 4096, recUnits g.task * 4096)
  | _, _ => (0, 0)

/-- The conditions of `sta.map` (11 R229). -/
def State.mapOk (s : State) (t : Thread) (e : Nat) (l g : Word) (z : Nat) : Bool :=
  let c := s.core t.vt t.cslot
  let size := 256 * 2 ^ z
  let own := s.ownAlloc t
  (c.entry? e).isNone && z ≤ 6 && l.toNat % size = 0 && g.toNat % size = 0 &&
    own.1 ≤ l.toNat && l.toNat + size ≤ own.1 + own.2 &&
    !(c.stash.any fun x => x.meets l.toNat size) &&
    !(c.stash.any fun x => x.owner == t.slot && x.meetsGlobal g.toNat size)

/-- `sta.map` (11 R229, R230, R232). -/
def staMapTo (s : State) (t : Thread) (px : Option Prefix) (keep : Bool) (e : Nat) (l g : Word) (z : Nat) : Res :=
  if s.mapOk t e l g z then
    .done (s.modCore t.vt t.cslot fun c => { c with stash := c.stash ++
      [{ num := e, owner := t.slot, st := .empty, lbase := l.toNat, gbase := g.toNat, size := 256 * 2 ^ z, z := z,
         keep := keep, evict := evictOf t px, dirty := [], cmd := none, fillBy := none, ro := [] }] }) 1 0
  else .fault (stashFault e)

/-- `sta.map` (11 R232). -/
def execStaMap (p : Pred) (px : Option Prefix) (keep : Bool) (a b : SReg) (e : BitVec 8) (z : BitVec 3) (s : State) : Out :=
  s.issue (Form.blocked (plen px 8) p) fun s t =>
    staMapTo s t px keep e.toNat (t.sreg s.cur.body a) (t.sreg s.cur.body b) z.toNat

/-- `sta.map` with a displacement (11 R232). -/
def execStaMapLong (p : Pred) (px : Option Prefix) (keep : Bool) (a b : SReg) (e : BitVec 8) (z : BitVec 3) (disp : BitVec 32) (s : State) : Out :=
  s.issue (Form.blocked (plen px 12) p) fun s t =>
    staMapTo s t px keep e.toNat (t.sreg s.cur.body a) (t.sreg s.cur.body b + imm32 disp) z.toNat

/-- The entry that an instruction other than `sta.map` and `sta.test` names: valid and the thread's own, else STASH (11 R229). -/
def State.withEntry (s : State) (t : Thread) (e : Nat) (body : Stash → Res) : Res :=
  match (s.core t.vt t.cslot).entry? e with
  | none => .fault (stashFault e)
  | some x => if x.owner = t.slot then body x else .fault (stashFault e)

/-- The gate of a handle (11 R240). -/
def Thread.handleGate (t : Thread) (h : Option HReg) (s : State) (body : Res) : Res :=
  match t.useHandle h with
  | .wait => .wait s (.stall 5)
  | .fault f => .fault f
  | .free => body

/-- The command has nothing to do: its handle completes OK at once (11 R232). -/
def doneAtOnce (s : State) (h : Option HReg) : Res := .done (s.modCur fun u => u.setH h (.complete .ok 0 .fill)) 1 0

/-- `sta.fill` (11 R232). -/
def execStaFill (p : Pred) (px : Option Prefix) (e : BitVec 8) (h : Option HReg) (s : State) : Out :=
  s.issue (Form.blocked (plen px 8) p) fun s t =>
    t.handleGate h s <| s.withEntry t e.toNat fun x =>
      if x.st = .empty then
        let (s, id) := s.newCmd
        .done ((s.startFill t.vt t.cslot x.num (if h.isSome then some id else none) none).modCur fun u => u.setH h (.pending id false)) 1 0
      else doneAtOnce s h

/-- `sta.wb` (11 R232, 10 R212). -/
def execStaWb (p : Pred) (px : Option Prefix) (e : BitVec 8) (h : Option HReg) (s : State) : Out :=
  s.issue (Form.blocked (plen px 8) p) fun s t =>
    t.handleGate h s <| s.withEntry t e.toNat fun x =>
      if x.st = .ready && !x.dirty.isEmpty then
        if (s.core t.vt t.cslot).stashInUse x then .wait s (.stall 12)
        else
          let (s, id) := s.newCmd
          .done ((s.startDrain t.vt t.cslot x.num (if h.isSome then some id else none)).modCur fun u => u.setH h (.pending id false)) 1 0
      else doneAtOnce s h

/-- `sta.drop` (11 R232, 10 R212): FILLING, DRAINING and a matrix command's use are waited out; with DISCARD = 0 the dirty bytes are written back first. -/
def execStaDrop (p : Pred) (px : Option Prefix) (discard : Bool) (e : BitVec 8) (s : State) : Out :=
  s.issue (Form.blocked (plen px 8) p) fun s t =>
    s.withEntry t e.toNat fun x =>
      if x.st = .filling || x.st = .draining || (s.core t.vt t.cslot).stashInUse x then .wait s (.stall 12)
      else if x.st = .ready && !x.dirty.isEmpty && !discard then
        .wait ((s.startDrain t.vt t.cslot x.num none).modCore t.vt t.cslot fun c =>
          c.modStash x.num fun y => { y with fillBy := some s.cur.stream }) (.stall 12)
      else .done (s.modCore t.vt t.cslot fun c => c.dropStash x.num) 1 0

/-- The number of a stash state (11 R232). -/
def StashState.code : StashState → Nat
  | .empty => 0 | .filling => 1 | .ready => 2 | .draining => 3

/-- The word of `sta.test` (11 R232). -/
def Stash.word (e : Stash) : Word :=
  w64 (e.st.code + 4 + b2n (!e.dirty.isEmpty) * 8 + b2n e.keep * 16 + e.evict.toNat * 32 + e.z * 256)

/-- `sta.test` (11 R232). -/
def execStaTest (p : Pred) (px : Option Prefix) (d : SReg) (e : BitVec 8) (s : State) : Out :=
  s.issue (Form.blocked (plen px 8) p) fun s t =>
    match (s.core t.vt t.cslot).entry? e.toNat with
    | none => .done (s.modCur fun u => u.setS d 0) 1 0
    | some x =>
      if x.owner = t.slot then .done (s.modCur fun u => u.setS d x.word) 1 0 else .fault (stashFault e.toNat)

end Sys2Proof.Machine
end

