-- ==== Sys2Proof/Machine/Remote.lean ====
section
/-! DEFINITION. Remote stores: `st.far` at issue, delivery, and the sepia ring (11 R233, 12 R252-R254). -/

namespace Sys2Proof.Machine

/-- A rank that an instruction names: its place, or RANK-RANGE (01 R24, 11 R233, 13 R276). -/
def State.withRank (s : State) (t : Thread) (r : Nat) (body : Nat × Nat → Res) : Res :=
  match s.rankPlace r with
  | none => .fault { cause := .rankRange, info := w64 r }
  | some p => if r < s.nrank && (s.part (s.partNum t)).holds p.1 then body p else .fault { cause := .rankRange, info := w64 r }

/-- `st.far` of `n` bytes (11 R233); a release comes after the thread's earlier accesses (12 R247). -/
def farStore (p : Pred) (att : Attr) (n : Nat) (a b c : SReg) (s : State) : Out :=
  s.issue (Form.blocked 12 p) fun s t =>
    let tgt := t.sreg s.cur.body a
    let addr := t.sreg s.cur.body b
    if (s.core t.vt t.cslot).remoteQ.length ≥ 256 then .wait s (.stall 9)
    else if tgt.field 16 48 ≠ 0 then .fault s.illegal
    else
      s.withRank t (tgt.field 0 16) fun pl =>
        if addr.toNat % n ≠ 0 then .fault { cause := .align, addr := addr }
        else if addr.toNat ≥ Config.lsReserve then .fault { cause := .lsRange, addr := addr }
        else
          .done ((s.released t att).modCore t.vt t.cslot fun k => { k with remoteQ := k.remoteQ ++
            [{ slot := t.slot, gang := t.gang, srank := (s.rankOf t.vt t.cslot).getD 0, trank := tgt.field 0 16,
               addr := addr.toNat, width := n, val := t.sreg s.cur.body c }] }) 1 (if pl.1 = t.vt then 0 else n)

/-- `st.far.b` (11 R233). -/
def execStFarB (p : Pred) (at' : Attr) (a b c : SReg) (s : State) : Out := farStore p at' 1 a b c s
/-- `st.far.h` (11 R233). -/
def execStFarH (p : Pred) (at' : Attr) (a b c : SReg) (s : State) : Out := farStore p at' 2 a b c s
/-- `st.far.w` (11 R233). -/
def execStFarW (p : Pred) (at' : Attr) (a b c : SReg) (s : State) : Out := farStore p at' 4 a b c s
/-- `st.far.d` (11 R233). -/
def execStFarD (p : Pred) (at' : Attr) (a b c : SReg) (s : State) : Out := farStore p at' 8 a b c s

/-! Delivery (12 R252). -/

/-- The code of a width in the sepia ring (12 R253). -/
def widthCode (n : Nat) : Nat := match n with | 1 => 0 | 2 => 1 | 4 => 2 | _ => 3

/-- An entry enters the sepia ring; a full ring loses its oldest (12 R253). -/
def Core.sepiaPut (c : Core) (e : SepiaEntry) : Core :=
  { c with
    sepia := (if c.sepia.length < 256 then c.sepia else c.sepia.drop 1) ++ [e]
    sepiaLost := if c.sepia.length < 256 then c.sepiaLost else min (c.sepiaLost + 1) 0xFFFFFFFF
    sepiaNext := (c.sepiaNext + 1) % 256 }

/-- One remote store arrives: written and logged, or discarded and reported (11 R233, 12 R252). -/
def State.deliverRemote (s : State) (r : RemoteStore) : State :=
  let part := match s.gang? r.gang with
    | none => 0
    | some g => g.part
  let discard := s.event part 0x07 1 r.gang (w64 r.trank) (w64 r.addr)
  match s.rankPlace r.trank with
  | none => discard
  | some (vt, cs) =>
    let c := s.core vt cs
    if !(s.reaches r.gang vt cs r.addr r.width) || (c.stash.any fun e => e.meets r.addr r.width) then discard
    else
      let hit := (unitsOf 4 r.addr r.width).any fun w => c.wrote.contains w
      s.modCore vt cs fun c =>
        let c := c.writeLs r.addr r.width r.val.toNat
        if hit then c.sepiaPut { srank := r.srank, sthr := r.slot % 4, width := r.width, addr := r.addr, clk := s.clk } else c

/-- The queued stores of a thread that a delivery takes, in order: at tile level those whose target lies on the thread's own tile (12 R251). -/
def State.dueRemote (s : State) (vt slot gang : Nat) (tileOnly : Bool) (r : RemoteStore) : Bool :=
  r.slot == slot && r.gang == gang &&
    (!tileOnly || match s.rankPlace r.trank with | none => true | some p => p.1 == vt)

/-- One store arrives in a clk of its own, so that the later CLK of two sepia entries names the later arrival (12 R258). -/
def State.arriveRemote (s : State) (r : RemoteStore) : State := (s.tick 1).deliverRemote r

/-- Stores of several senders arrive one by one, each sender's in its order; which sender's comes next is a free value (02 R53, 12 R252, log entry 59). -/
def State.arrivals : Nat → List (List RemoteStore) → State → State
  | 0, _, s => s
  | n + 1, qs, s =>
    match qs.filter fun q => !q.isEmpty with
    | [] => s
    | [q] => q.foldl (fun s r => s.arriveRemote r) s
    | qs =>
      let w := s.freshWord
      let i := w.2.toNat % qs.length
      match nth qs i [] with
      | [] => w.1
      | r :: q => State.arrivals n (setNth qs i q) (w.1.arriveRemote r)

/-- Delivers the queued stores of these threads (12 R251, R252). -/
def State.deliverAll (s : State) (ps : List (Nat × Nat)) (tileOnly : Bool) : State :=
  let due (p : Nat × Nat) (r : RemoteStore) : Bool := s.dueRemote p.1 p.2 (s.thread p.1 p.2).gang tileOnly r
  let qs := ps.map fun p => (s.core p.1 (p.2 / 4)).remoteQ.filter (due p)
  State.arrivals (qs.foldl (fun n q => n + q.length) 0) qs
    (ps.foldl (fun s' p => s'.modCore p.1 (p.2 / 4) fun c => { c with remoteQ := c.remoteQ.filter fun r => !due p r }) s)

end Sys2Proof.Machine
end

