-- ==== Sys2Proof/Machine/Copy.lean ====
section
/-! DEFINITION. The copy engine: the `cp.*` commands at issue, their run and their completion (11 R234-R239). -/

namespace Sys2Proof.Machine

/-! Issue (11 R235, R236). -/

/-- A local range on a target core: orders 1 and 2 of 11 R218, then no valid stash entry. -/
def State.copyLocal (s : State) (t : Thread) (cs : Nat) (a n : Nat) : Option FaultInfo :=
  if !(s.reaches t.gang t.vt cs a n) then some { cause := .lsRange, addr := w64 a }
  else
    match (s.core t.vt cs).stash.find? fun e => e.meets a n with
    | some e => some (stashFault e.num)
    | none => none

/-- A global range that meets the global range of a valid entry of the thread. -/
def State.copyGlobal (s : State) (t : Thread) (a n : Nat) : Option FaultInfo :=
  match (s.core t.vt t.cslot).stash.find? fun e => e.owner == t.slot && e.meetsGlobal a n with
  | some e => some (stashFault e.num)
  | none => none

/-- The commands waiting in a tile's copy queue (11 R234). -/
def State.copyWaiting (s : State) (vt : Nat) : Nat :=
  match s.vtile? vt with
  | none => 0
  | some v => (v.copies.filter fun c => !c.running).length

/-- A copy command with what it captured. -/
def copyCommand (s : State) (t : Thread) (op : CopyOp) (l g len : Nat) (h : Option HReg) : CopyCmd :=
  { id := 0, op := op, slot := t.slot, gang := t.gang, asid := s.asidOf t, part := s.partNum t, localA := l, globalA := g, len := len, hasH := h.isSome,
    running := false, issued := s.clk, bytes := len }

/-- The command enters the tile's queue, or waits for its superstep where it is deferred; charged 4 units and its bytes; a release comes after the thread's earlier accesses (12 R247). -/
def copyEnqueue (s : State) (t : Thread) (att : Attr) (c : CopyCmd) (h : Option HReg) (deferred : Bool) : Res :=
  let (s, id) := (s.released t att).newCmd
  let c := { c with id := id }
  let s :=
    if deferred then s.modCur fun u => { u with deferred := u.deferred ++ [c] }
    else s.modVTile t.vt fun v => { v with copies := v.copies ++ [c] }
  .done (s.modCur fun u => u.setH h (.pending id deferred)) 4 c.bytes

/-- `cp.get`, `cp.get.mc`, `cp.put` and `cp.defer` at issue (11 R235-R237); `mask` is CMASK where it is given. -/
def copyIssue (s : State) (t : Thread) (att : Attr) (get : Bool) (mask : Option Nat) (l g : Word) (len : Nat) (h : Option HReg) (deferred : Bool) : Res :=
  if !deferred && s.copyWaiting t.vt ≥ 64 then .wait s (.stall 9)
  else
    t.handleGate h s <|
      if l.toNat % 4 ≠ 0 then .fault { cause := .align, addr := l }
      else if g.toNat % 4 ≠ 0 then .fault { cause := .align, addr := g }
      else
        let own := match s.tileOf t with
          | none => []
          | some k => k.cmask
        let slots := match mask with
          | none => [t.cslot]
          | some m => bitsOf m 16
        if mask.isSome && !(slots.all fun c => own.contains c) then .fault { cause := .lsRange, addr := l }
        else
          match slots.findSome? fun c => s.copyLocal t c l.toNat len with
          | some f => .fault f
          | none =>
            match s.copyGlobal t g.toNat len with
            | some f => .fault f
            | none => copyEnqueue s t att (copyCommand s t (if get then .get slots else .put) l.toNat g.toNat len h) h deferred

/-- `cp.get` (11 R236). -/
def execCpGet (p : Pred) (at' : Attr) (a b : SReg) (len : BitVec 24) (h : Option HReg) (s : State) : Out :=
  s.issue (Form.blocked 12 p) fun s t => copyIssue s t at' true none (t.sreg s.cur.body a) (t.sreg s.cur.body b) len.toNat h false

/-- `cp.get.mc` (11 R236). -/
def execCpGetMc (p : Pred) (at' : Attr) (a b : SReg) (len : BitVec 24) (cmask : BitVec 16) (h : Option HReg) (s : State) : Out :=
  s.issue (Form.blocked 16 p) fun s t =>
    copyIssue s t at' true (some cmask.toNat) (t.sreg s.cur.body a) (t.sreg s.cur.body b) len.toNat h false

/-- `cp.put` (11 R236). -/
def execCpPut (p : Pred) (at' : Attr) (a b : SReg) (len : BitVec 24) (h : Option HReg) (s : State) : Out :=
  s.issue (Form.blocked 12 p) fun s t => copyIssue s t at' false none (t.sreg s.cur.body a) (t.sreg s.cur.body b) len.toNat h false

/-- `cp.defer.get` (11 R237). -/
def execCpDeferGet (p : Pred) (at' : Attr) (a b : SReg) (len : BitVec 24) (h : Option HReg) (s : State) : Out :=
  s.issue (Form.blocked 12 p) fun s t => copyIssue s t at' true none (t.sreg s.cur.body a) (t.sreg s.cur.body b) len.toNat h true

/-- `cp.defer.put` (11 R237). -/
def execCpDeferPut (p : Pred) (at' : Attr) (a b : SReg) (len : BitVec 24) (h : Option HReg) (s : State) : Out :=
  s.issue (Form.blocked 12 p) fun s t => copyIssue s t at' false none (t.sreg s.cur.body a) (t.sreg s.cur.body b) len.toNat h true

/-! `cp.cvt` (11 R238). -/

/-- The elements of a window, rows ascending and elements ascending within each row. -/
def windowOf (i0 i1 i2 i3 n0 n1 : Nat) : List Idx :=
  (List.range n1).flatMap fun b => (List.range n0).map fun a => { i0 := i0 + a, i1 := i1 + b, i2 := i2, i3 := i3 }

/-- The byte spans of a tensor that a copy may read: elements, scales, and each stream up to the block read at its longest. -/
def TidEntry.copyReach (e : TidEntry) (l : List Idx) : List (Nat × Nat) :=
  (l.flatMap fun i =>
    let rq := e.block i
    e.readSpans i ++ (if e.scaleSize ≠ 0 then [(e.scaleAt rq.1 rq.2, e.scaleSize)] else []) ++
    (if isQxDelta e.fmt then [(e.sbase + rq.1 * e.srow, (3 * rq.2 + 4) / 2)] else [])).eraseDups

/-- The byte spans of a tensor that a copy reads, its streams as long as they are. -/
def TidEntry.copyReads (e : TidEntry) (rd : Nat → Nat) (l : List Idx) : List (Nat × Nat) := (l.flatMap (e.spans rd)).eraseDups

/-- The byte spans of a tensor that a copy may write. -/
def TidEntry.copyWrites (e : TidEntry) (l : List Idx) : List (Nat × Nat) := (e.writeSpans l).eraseDups

/-- What `cp.cvt` writes of its window: the elements of B in the extents, each converted from A's element or from +0, with the flags of the reads (11 R238). -/
def cvtWrite (a b : TidEntry) (rdA rdB : Nat → Nat) (o : Idx) (n0 n1 : Nat) (mode : RM) (satc : Bool) (seed : Word) : TensorWrite :=
  let ds := (drawsFor mode (n0 * n1) seed).1
  let vals := (windowOf o.i0 o.i1 o.i2 o.i3 n0 n1).zipIdx.filterMap fun x =>
    if b.has x.1 then
      let v : FVal × FFlags :=
        if a.has x.1 then
          match a.value rdA x.1 with
          | .val v f => (v, f)
          | .format _ => (.fin false 0 0 false, 0)
        else (.fin false 0 0 false, 0)
      some (({ idx := x.1, val := v.1, draw := nth ds x.2 0 } : ElemWrite), v.2)
    else none
  let w := b.write rdB mode satc false (vals.map (·.1))
  { w with flags := vals.foldl (fun f x => f ||| x.2) w.flags }

/-- The distinct bytes of spans. -/
def spanBytes (l : List (Nat × Nat)) : List Nat := (l.flatMap fun r => (List.range r.2).map fun i => r.1 + i).eraseDups

/-- The first fault of the spans of one side at issue. -/
def State.cvtSpans (s : State) (t : Thread) (e : TidEntry) (l : List (Nat × Nat)) : Option FaultInfo :=
  l.findSome? fun r => if e.global then s.copyGlobal t r.1 r.2 else s.copyLocal t t.cslot r.1 r.2

/-- A tensor's bytes in its space. -/
def State.tensorRd (s : State) (sp : Space) (vt cs : Nat) (e : TidEntry) (a : Nat) : Nat :=
  if e.global then (s.hbm.byte (s.physOf sp a (needPlain false))).toNat else (s.core vt cs).rd a

/-- The bytes that `cp.cvt` is charged: those of its global tensors that it reads and writes, each once, by what memory holds at its issue (11 R238, log entry 31). -/
def State.cvtBytes (s : State) (t : Thread) (a b : TidEntry) (o : Idx) (n0 n1 : Nat) (mode : RM) : Nat :=
  let rd (e : TidEntry) := s.tensorRd (s.spaceOf t) t.vt t.cslot e
  (if a.global then (spanBytes (a.copyReads (rd a) ((windowOf o.i0 o.i1 o.i2 o.i3 n0 n1).filter a.has))).length else 0) +
    (if b.global then (cvtWrite a b (rd a) (rd b) o n0 n1 mode t.satc t.seed).laid.length else 0)

/-- `cp.cvt` at issue (11 R236, R238). TENSOR names tidA in TIDN and tidB in INFO, the order of the encoding's fields (log entry 42). -/
def cvtIssue (s : State) (t : Thread) (att : Attr) (rm : RM) (ta tb : TidN) (org : Word) (n0 n1 : Nat) (h : Option HReg) : Res :=
  if s.copyWaiting t.vt ≥ 64 then .wait s (.stall 9)
  else
    t.handleGate h s <| s.withTids t ta tb fun a b =>
      let o := Idx.ofWord org
      let win := windowOf o.i0 o.i1 o.i2 o.i3 n0 n1
      let inA := win.filter a.has
      let inB := win.filter b.has
      if !a.ok false || !b.ok true || n0 * n1 > 65536 || !b.covers inB then .fault (tensorFault ta.val tb.val)
      else
        match s.cvtSpans t a (a.copyReach inA) with
        | some f => .fault f
        | none =>
          match s.cvtSpans t b (b.copyWrites inB) with
          | some f => .fault f
          | none =>
            let mode := t.mode rm
            let bytes := s.cvtBytes t a b o n0 n1 mode
            let c := copyCommand s t (.cvt a b o.i0 o.i1 o.i2 o.i3 n0 n1 (RM.code mode) t.satc t.seed) 0 0 bytes h
            let s := if mode = .stoch then s.modCur fun u => { u with seed := advance (n0 * n1) u.seed } else s
            copyEnqueue s t att c h false

/-- `cp.cvt` (11 R238). -/
def execCpCvt (p : Pred) (at' : Attr) (rm : RM) (ta tb : TidN) (c : SReg) (n0 n1 : BitVec 16) (h : Option HReg) (s : State) : Out :=
  s.issue (Form.blocked 16 p) fun s t => cvtIssue s t at' rm ta tb (t.sreg s.cur.body c) n0.toNat n1.toNat h

/-! The run of a command (11 R236-R239). -/

/-- The outcome of a run: status, flags, and the fault of a failed translation or stream. -/
structure CopyRes where
  st    : HStatus
  flags : FFlags
  info  : FaultInfo

def copyOk (poison : Bool) : CopyRes :=
  { st := if poison then .poison else .ok, flags := 0, info := { cause := .translation, kind := .copy } }

def copyBad (f : FaultInfo) : CopyRes := { st := .fault, flags := 0, info := { f with async := true, kind := .copy } }

/-- A destination range cut at 64-byte granules: offset from its start and length. -/
def granules (a n : Nat) : List (Nat × Nat) :=
  (unitsOf 64 a n).map fun u =>
    let lo := max a (64 * u)
    (lo - a, min (a + n) (64 * u + 64) - lo)

/-- `cp.get`: granule by granule, until one does not translate; a granule whose source holds an error is left unwritten. -/
def State.runGet (s : State) (sp : Space) (vt : Nat) (slots : List Nat) (l g : Nat) : List (Nat × Nat) → Bool → State × CopyRes
  | [], poison => (s, copyOk poison)
  | (o, n) :: r, poison =>
    match s.checkVirt sp (needPlain false) (g + o) n with
    | some (va, sub) => (s, copyBad (transFault va .copy sub))
    | none =>
      if (s.badGlobal sp (needPlain false) (g + o) n).isSome then s.runGet sp vt slots l g r true
      else
        let bs := s.readGlobal sp (needPlain false) (g + o) n
        (slots.foldl (fun s c => s.modCore vt c fun k => k.store (l + o) bs) s).runGet sp vt slots l g r poison

/-- `cp.put`: granule by granule, in the same way. -/
def State.runPut (s : State) (sp : Space) (vt cs : Nat) (l g : Nat) : List (Nat × Nat) → Bool → State × CopyRes
  | [], poison => (s, copyOk poison)
  | (o, n) :: r, poison =>
    match s.checkVirt sp (needPlain true) (g + o) n with
    | some (va, sub) => (s, copyBad (transFault va .copy sub))
    | none =>
      if ((s.core vt cs).badWord (l + o) n).isSome then s.runPut sp vt cs l g r true
      else (s.writeGlobal sp (g + o) ((s.core vt cs).ls.bytes (l + o) n)).runPut sp vt cs l g r poison

/-- A span of a tensor holds an uncorrectable error. -/
def State.tensorBad (s : State) (sp : Space) (vt cs : Nat) (e : TidEntry) (r : Nat × Nat) : Bool :=
  if e.global then (s.badGlobal sp (needPlain false) r.1 r.2).isSome else ((s.core vt cs).badWord r.1 r.2).isSome

/-- The first span of a global tensor that does not translate. -/
def State.tensorMiss (s : State) (sp : Space) (write : Bool) (e : TidEntry) (l : List (Nat × Nat)) : Option FaultInfo :=
  if e.global then
    l.findSome? fun r => match s.checkVirt sp (needPlain write) r.1 r.2 with
      | some (va, sub) => some (transFault va .copy sub)
      | none => none
  else none

/-- Where spans of a tensor lie in memory: local addresses, or the frames that the pages of a global tensor map to. -/
def State.tensorPlaces (s : State) (sp : Space) (write : Bool) (e : TidEntry) (l : List (Nat × Nat)) : List (Nat × Nat) :=
  if e.global then l.flatMap fun r => (pagePieces r.1 r.2).map fun x => (s.physOf sp x.1 (needPlain write), x.2) else l

/-- Writes runs of bytes into a tensor's space. -/
def State.tensorPut (s : State) (sp : Space) (vt cs : Nat) (e : TidEntry) (l : List (Nat × List Byte)) : State :=
  l.foldl (fun s r => if e.global then s.writeGlobal sp r.1 r.2 else s.modCore vt cs fun k => k.store r.1 r.2) s

/-- The elements of B whose source held an error: for a block format, those of a block with such an element (11 R239). -/
def TidEntry.spoiled (b : TidEntry) (inB ill : List Idx) : List Idx :=
  if isBlock b.fmt then inB.filter fun i => ill.any fun j => b.block i == b.block j else ill

/-- The byte spans of elements as they are written, with the streams written for their rows. -/
def TidEntry.wroteSpans (b : TidEntry) (streams : List (Nat × Nat)) (l : List Idx) : List (Nat × Nat) :=
  l.flatMap fun i =>
    let rq := b.block i
    b.elemSpans i ++ (if b.scaleSize ≠ 0 then [(b.scaleAt rq.1 rq.2, b.scaleSize)] else []) ++
      (if isQxDelta b.fmt then streams.filter fun r => r.1 == b.sbase + rq.1 * b.srow else [])

/-- `cp.cvt` (11 R238, R239): every stream row is decoded before the first byte is written; a granule whose source held an error is left unwritten, and the command then sets no flag (02 R49); where the windows overlap in memory the bytes written are free values. -/
def State.runCvt (s : State) (sp : Space) (vt cs : Nat) (a b : TidEntry) (o : Idx) (n0 n1 mode : Nat) (satc : Bool) (seed : Word) : State × CopyRes :=
  let win := windowOf o.i0 o.i1 o.i2 o.i3 n0 n1
  let inA := win.filter a.has
  let inB := win.filter b.has
  let rdA := s.tensorRd sp vt cs a
  let ra := a.copyReads rdA inA
  match s.tensorMiss sp false a ra with
  | some f => (s, copyBad f)
  | none =>
    match firstBad a rdA inA with
    | some x => (s, copyBad (formatFault a.num x))
    | none =>
      let w := cvtWrite a b rdA (s.tensorRd sp vt cs b) o n0 n1 (RM.ofCode mode) satc seed
      let wb := (overRuns w.laid).map fun r => (r.1, r.2.length)
      match s.tensorMiss sp true b wb with
      | some f => (s, copyBad f)
      | none =>
        let ill := inB.filter fun i => a.has i && (a.copyReads rdA [i]).any fun r => s.tensorBad sp vt cs a r
        let skip := (b.wroteSpans w.streams (b.spoiled inB ill)).flatMap fun r => unitsOf 64 r.1 r.2
        let laid := w.laid.filter fun x => !skip.contains (x.1 / 64)
        let meet := a.global = b.global &&
          (s.tensorPlaces sp false a ra).any fun r => (s.tensorPlaces sp true b wb).any fun q => r.1 < q.1 + q.2 && q.1 < r.1 + r.2
        let runs :=
          if meet then overRuns (laid.zipIdx.map fun x => (x.1.1, (Config.freeByte (s.fresh + x.2)).toNat)) else overRuns laid
        let s := if meet then { s with fresh := s.fresh + laid.length } else s
        (s.tensorPut sp vt cs b runs, { copyOk (!ill.isEmpty) with flags := if ill.isEmpty then w.flags else 0 })

/-- Runs a copy command. -/
def State.runCopy (s : State) (vt : Nat) (c : CopyCmd) : State × CopyRes :=
  let sp : Space := .onTile c.asid vt
  match c.op with
  | .get slots => s.runGet sp vt slots c.localA c.globalA (granules c.localA c.len) false
  | .put => s.runPut sp vt (c.slot / 4) c.localA c.globalA (granules c.globalA c.len) false
  | .cvt a b i0 i1 i2 i3 n0 n1 mode satc seed =>
    s.runCvt sp vt (c.slot / 4) a b { i0 := i0, i1 := i1, i2 := i2, i3 := i3 } n0 n1 mode satc seed

/-- A command that has run delivers: counter, event, flags to the thread that issued it, handle, or an asynchronous fault (11 R239, R240, 02 R49). -/
def State.endCopy (s : State) (vt : Nat) (c : CopyCmd) : State × HStatus :=
  let (s, r) := s.runCopy vt c
  let t := s.thread vt c.slot
  let here := t.gang = c.gang && t.st != .free
  let part := c.part
  let s := (s.count part 4 c.bytes).event part 0x03 r.st.code c.gang (w64 c.issued) (w64 c.bytes)
  let s := if here then s.modThread vt c.slot fun t => t.orFlags r.flags else s
  let s := s.completeCmd vt (c.slot / 4) c.id r.st (if r.st = .fault then faultValue r.info else 0) .copy r.info.tidn
  (if here && r.st = .fault && !c.hasH then s.asyncFault vt c.slot r.info else s, r.st)

/-- A command runs and delivers. -/
def State.finishCopy (s : State) (vt : Nat) (c : CopyCmd) : State := (s.endCopy vt c).1

/-- COPY_COMMAND_START (11 R234): the oldest command of a tile's queue that does not run begins. -/
def execCopyCommandStart (vt : Nat) (s : State) : Out :=
  .next (s.modVTile vt fun v => { v with copies := modFirst (fun c => !c.running) (fun c => { c with running := true }) v.copies })

/-- COPY_COMPLETE (11 R234, R239): a running command ends; while traffic to its tile is held, so is the data of its copies (17 R342). -/
def execCopyComplete (vt id : Nat) (s : State) : Out :=
  .next <|
    match ((s.vtile? vt).filter fun _ => !s.trafficHeld vt).bind fun v => v.copies.find? fun c => c.id == id && c.running with
    | none => s
    | some c => (s.modVTile vt fun v => { v with copies := v.copies.filter fun x => x.id != id }).finishCopy vt c

end Sys2Proof.Machine
end

