-- ==== Sys2Proof/Machine/Future.lean ====
section
/-! DEFINITION. The handle instructions (11 R240, R241). -/

namespace Sys2Proof.Machine

/-- The fault FUTURE (16 R322). -/
def futureFault (a : HReg) : FaultInfo := { cause := .future, info := w64 a.val }

/-- The word of a handle as `fut.test` reports it (11 R240, R241). -/
def Handle.word : Handle → Word
  | .empty => 0
  | .pending _ _ => w64 (0xF * 2 ^ 60)
  | .complete st v _ _ => w64 (st.code * 2 ^ 60 + v.toNat)

/-- `fut.wait` (11 R237, R241). -/
def execFutWait (p : Pred) (d : SReg) (a : HReg) (s : State) : Out :=
  s.issue (Form.blocked 8 p) fun s t =>
    match t.h[a] with
    | .pending _ true => .fault (futureFault a)
    | .pending _ false => .wait s (.stall 5)
    | .complete .fault v kind n => .fault (handleFault a.val v kind n)
    | h => .done (s.modCur fun u => u.setS d h.word) 1 0

/-- `fut.test` (11 R241). -/
def execFutTest (p : Pred) (d : SReg) (a : HReg) (s : State) : Out :=
  s.issue (Form.blocked 8 p) fun s t => .done (s.modCur fun u => u.setS d (t.h[a]).word) 1 0

/-- `fut.pass` (11 R241). -/
def execFutPass (p : Pred) (d a : HReg) (n : BitVec 2) (s : State) : Out :=
  s.issue (Form.blocked 8 p) fun s t =>
    let slot := 4 * t.cslot + n.toNat
    let u := s.thread t.vt slot
    let busy := match u.h[d] with
      | .pending _ _ => true
      | _ => false
    if slot = t.slot || u.st = .free || u.gang ≠ t.gang || t.h[a] = .empty || busy then .fault (futureFault a)
    else
      .done ((s.modThread t.vt slot fun u => u.setH (some d) (t.h[a])).modCur fun u => u.setH (some a) .empty) 1 0

/-- Removes a command that has not begun, wherever it waits on this core: the matrix queue, the tile's copy queue, a thread's deferred copies. -/
def State.removeCmd (s : State) (vt cs cmd : Nat) : Option State :=
  if (s.core vt cs).mxq.any fun m => m.id == cmd && m.done.isNone then
    some (s.modCore vt cs fun c => { c with mxq := c.mxq.filter fun m => m.id != cmd })
  else if (match s.vtile? vt with | none => false | some v => v.copies.any fun c => c.id == cmd && !c.running) then
    some (s.modVTile vt fun v => { v with copies := v.copies.filter fun c => c.id != cmd })
  else if s.threads.any fun t => t.vt == vt && t.cslot == cs && t.deferred.any fun c => c.id == cmd then
    some { s with threads := s.threads.map fun t =>
      if t.vt == vt && t.cslot == cs then { t with deferred := t.deferred.filter fun c => c.id != cmd } else t }
  else none

/-- `fut.cancel` (11 R241). -/
def execFutCancel (p : Pred) (a : HReg) (s : State) : Out :=
  s.issue (Form.blocked 8 p) fun s t =>
    match t.h[a] with
    | .pending cmd _ =>
      match s.removeCmd t.vt t.cslot cmd with
      | some s => .done (s.completeCmd t.vt t.cslot cmd .cancelled 0 .read) 1 0
      | none => .wait s (.stall 5)
    | .complete .fault _ _ _ =>
      .done ((s.event (s.partNum t) 0x07 3 t.gang (w64 ((s.rankOf t.vt t.cslot).getD 0)) (w64 a.val)).modCur fun u =>
        u.setH (some a) (.complete .cancelled 0 .read)) 1 0
    | _ => .done s 1 0

/-- ASYNC_FAULT_FREEZE (11 R240): a fault of a command that named no handle freezes the thread at its next instruction. -/
def execAsyncFaultFreeze (vt slot : Nat) (s : State) : Out :=
  .next <|
    let t := s.thread vt slot
    match t.asyncF with
    | none => s
    | some f =>
      if t.st = .run then (s.modThread vt slot fun t => { t with asyncF := none }).freeze vt slot f t.pc false else s

end Sys2Proof.Machine
end

