-- ==== Sys2Proof/Machine/MemSide.lean ====
section
/-! DEFINITION. Memory-side words: atomics, reductions and the work distributor (11 R242, 12 R244, 13 R270-R272). -/

namespace Sys2Proof.Machine

/-- A memory-side word as an instruction reaches it: alignment, then translation (13 R270); a release first has the thread's waiting operations performed (12 R247). -/
def State.withSide (s : State) (t : Thread) (va : Word) (n : Nat) (att : Attr) (body : State → Nat → Res) : Res :=
  if va.toNat % n ≠ 0 then .fault { cause := .align, addr := va }
  else
    match s.translate (s.spaceOf t) va.toNat (needSide true) with
    | .err e => .fault (transFault va.toNat .write e)
    | .ok m => body ((s.released t att).flushWords t m.pa n) m.pa

/-- The fault of an uncorrectable error in a memory-side word (13 R270, R274, 11 R398). -/
def sideErr (va : Word) (g : Nat) : FaultInfo :=
  { cause := .memErr, addr := w64 (va.toNat / 4096 * 4096 + g * 32 % 4096), kind := .read }

/-- `at.*` (13 R270); `c` is the expected value of `cas`. -/
def atomic (p : Pred) (att : Attr) (fn : Nat) (wide : Bool) (d a b : SReg) (c : Option SReg) (disp : BitVec 24) (s : State) : Out :=
  s.issue (Form.blocked 12 p) fun s t =>
    let n := wordBytes wide
    let va := t.sreg s.cur.body a + imm24 disp
    s.withSide t va n att fun s pa =>
      match s.badGran pa n with
      | some g => .fault (sideErr va g)
      | none =>
        let lim (x : Word) : Nat := x.toNat % 2 ^ (8 * n)
        let old := s.hbm.read pa n
        let x := match c with
          | none => 0
          | some r => lim (t.sreg s.cur.body r)
        let new := atomicNew fn wide old (lim (t.sreg s.cur.body b)) x
        .done ((s.writeHbm pa n new.1).modCur fun u => (u.setS d (w64 old)).orFlags new.2) 1 ((if c.isSome then 3 else 2) * n)

/-- `red.*` (13 R271). -/
def reduce (p : Pred) (att : Attr) (fn : Nat) (wide : Bool) (a b : SReg) (disp : BitVec 24) (s : State) : Out :=
  s.issue (Form.blocked 12 p) fun s t =>
    let n := wordBytes wide
    let va := t.sreg s.cur.body a + imm24 disp
    if va.toNat % n ≠ 0 then .fault { cause := .align, addr := va }
    else
      match s.translate (s.spaceOf t) va.toNat (needSide true) with
      | .err e => .fault (transFault va.toNat .write e)
      | .ok m =>
        let (s, id) := (s.released t att).newCmd
        .done { s with memOps := s.memOps ++
          [{ id := id, vt := t.vt, slot := t.slot, gang := t.gang, part := s.partNum t, asid := s.asidOf t, va := va.toNat, pa := m.pa, op := fn,
             wide := wide, val := t.sreg s.cur.body b, k := 0 }] } 1 n

/-- `at.swap` (13 R270). -/
def execAtSwap (p : Pred) (at' : Attr) (dw : Bool) (d a b : SReg) (disp : BitVec 24) (s : State) : Out := atomic p at' 0 dw d a b none disp s
/-- `at.cas` (13 R270). -/
def execAtCas (p : Pred) (at' : Attr) (dw : Bool) (d a b c : SReg) (disp : BitVec 24) (s : State) : Out := atomic p at' 1 dw d a b (some c) disp s
/-- `at.add` (13 R270). -/
def execAtAdd (p : Pred) (at' : Attr) (dw : Bool) (d a b : SReg) (disp : BitVec 24) (s : State) : Out := atomic p at' 2 dw d a b none disp s
/-- `at.and` (13 R270). -/
def execAtAnd (p : Pred) (at' : Attr) (dw : Bool) (d a b : SReg) (disp : BitVec 24) (s : State) : Out := atomic p at' 3 dw d a b none disp s
/-- `at.or` (13 R270). -/
def execAtOr (p : Pred) (at' : Attr) (dw : Bool) (d a b : SReg) (disp : BitVec 24) (s : State) : Out := atomic p at' 4 dw d a b none disp s
/-- `at.xor` (13 R270). -/
def execAtXor (p : Pred) (at' : Attr) (dw : Bool) (d a b : SReg) (disp : BitVec 24) (s : State) : Out := atomic p at' 5 dw d a b none disp s
/-- `at.min` (13 R270). -/
def execAtMin (p : Pred) (at' : Attr) (dw : Bool) (d a b : SReg) (disp : BitVec 24) (s : State) : Out := atomic p at' 6 dw d a b none disp s
/-- `at.max` (13 R270). -/
def execAtMax (p : Pred) (at' : Attr) (dw : Bool) (d a b : SReg) (disp : BitVec 24) (s : State) : Out := atomic p at' 7 dw d a b none disp s
/-- `at.minu` (13 R270). -/
def execAtMinu (p : Pred) (at' : Attr) (dw : Bool) (d a b : SReg) (disp : BitVec 24) (s : State) : Out := atomic p at' 8 dw d a b none disp s
/-- `at.maxu` (13 R270). -/
def execAtMaxu (p : Pred) (at' : Attr) (dw : Bool) (d a b : SReg) (disp : BitVec 24) (s : State) : Out := atomic p at' 9 dw d a b none disp s
/-- `at.fadd` (13 R270). -/
def execAtFadd (p : Pred) (at' : Attr) (d a b : SReg) (disp : BitVec 24) (s : State) : Out := atomic p at' 10 false d a b none disp s

/-- `red.add` (13 R271). -/
def execRedAdd (p : Pred) (at' : Attr) (dw : Bool) (a b : SReg) (disp : BitVec 24) (s : State) : Out := reduce p at' 2 dw a b disp s
/-- `red.and` (13 R271). -/
def execRedAnd (p : Pred) (at' : Attr) (dw : Bool) (a b : SReg) (disp : BitVec 24) (s : State) : Out := reduce p at' 3 dw a b disp s
/-- `red.or` (13 R271). -/
def execRedOr (p : Pred) (at' : Attr) (dw : Bool) (a b : SReg) (disp : BitVec 24) (s : State) : Out := reduce p at' 4 dw a b disp s
/-- `red.xor` (13 R271). -/
def execRedXor (p : Pred) (at' : Attr) (dw : Bool) (a b : SReg) (disp : BitVec 24) (s : State) : Out := reduce p at' 5 dw a b disp s
/-- `red.min` (13 R271). -/
def execRedMin (p : Pred) (at' : Attr) (dw : Bool) (a b : SReg) (disp : BitVec 24) (s : State) : Out := reduce p at' 6 dw a b disp s
/-- `red.max` (13 R271). -/
def execRedMax (p : Pred) (at' : Attr) (dw : Bool) (a b : SReg) (disp : BitVec 24) (s : State) : Out := reduce p at' 7 dw a b disp s
/-- `red.minu` (13 R271). -/
def execRedMinu (p : Pred) (at' : Attr) (dw : Bool) (a b : SReg) (disp : BitVec 24) (s : State) : Out := reduce p at' 8 dw a b disp s
/-- `red.maxu` (13 R271). -/
def execRedMaxu (p : Pred) (at' : Attr) (dw : Bool) (a b : SReg) (disp : BitVec 24) (s : State) : Out := reduce p at' 9 dw a b disp s
/-- `red.fadd` (13 R271). -/
def execRedFadd (p : Pred) (at' : Attr) (a b : SReg) (disp : BitVec 24) (s : State) : Out := reduce p at' 10 false a b disp s

/-- REDUCTION_PERFORM (13 R271): the base logic performs a waiting reduction, after the earlier operations of its thread on the same word. -/
def execReductionPerform (id : Nat) (s : State) : Out :=
  .next <|
    match s.memOps.find? fun m => m.id == id && m.op != 32 with
    | none => s
    | some m =>
      s.performAll fun x => x.id ≤ m.id && x.vt == m.vt && x.slot == m.slot && x.gang == m.gang && x.pa / 8 == m.pa / 8

/-- `wd.ask` (11 R242): an address that does not translate completes the handle FAULT. -/
def wdAskOf (s : State) (t : Thread) (d : HReg) (va : Word) (k : Nat) : Res :=
  t.handleGate (some d) s <|
    if va.toNat % 8 ≠ 0 then .fault { cause := .align, addr := va }
    else
      match s.translate (s.spaceOf t) va.toNat (needSide true) with
      | .err e =>
        .done (s.modCur fun u => u.setH (some d) (.complete .fault (faultValue (transFault va.toNat .distributor e)) .distributor)) 1 0
      | .ok m =>
        let (s, id) := s.newCmd
        let op : MemOp :=
          { id := id, vt := t.vt, slot := t.slot, gang := t.gang, part := s.partNum t, asid := s.asidOf t, va := va.toNat, pa := m.pa, op := 32,
            wide := true, val := 0, k := k }
        .done (({ s with memOps := s.memOps ++ [op] } : State).modCur fun u => u.setH (some d) (.pending id false)) 1 0

/-- `wd.ask` (11 R242). -/
def execWdAsk (p : Pred) (d : HReg) (a : SReg) (km1 : BitVec 12) (s : State) : Out :=
  s.issue (Form.blocked 8 p) fun s t => wdAskOf s t d (t.sreg s.cur.body a) (km1.toNat + 1)

/-- `wd.ask` with a displacement (11 R242). -/
def execWdAskLong (p : Pred) (d : HReg) (a : SReg) (km1 : BitVec 12) (disp : BitVec 32) (s : State) : Out :=
  s.issue (Form.blocked 12 p) fun s t => wdAskOf s t d (t.sreg s.cur.body a + imm32 disp) (km1.toNat + 1)

/-- WD_ASK_COMPLETE (11 R242): the query reaches its base logic, after the earlier operations of its thread on the same word. -/
def execWdAskComplete (id : Nat) (s : State) : Out :=
  .next <|
    match s.memOps.find? fun m => m.id == id && m.op == 32 with
    | none => s
    | some m =>
      s.performAll fun x => x.id ≤ m.id && x.vt == m.vt && x.slot == m.slot && x.gang == m.gang && x.pa / 8 == m.pa / 8

end Sys2Proof.Machine
end

