-- ==== Sys2Proof/Machine/Sync.lean ====
section
/-! DEFINITION. Synchronising within a tile and between threads: tags, tile barriers, fences, waiter queues and signals (13 R260-R277). -/

namespace Sys2Proof.Machine

/-! The end of a thread. -/

/-- `halt` (07 R132): as at an arrival, the thread's reductions come first (12 R251). -/
def execHalt (p : Pred) (s : State) : Out :=
  s.issue { (Form.blocked 8 p) with wins := true } fun s t =>
    if s.engineBusy t then .wait s (.stall 5)
    else
      match t.handleFault? with
      | some f => .fault f
      | none => .done (((s.settle t).endSupervisor t).modCur fun t => { t with st := .halted }) 1 0

/-! Tags (13 R261, R262). -/

/-- The tag of the local word at an address is FULL. -/
def Core.tagFull (c : Core) (a : Nat) : Bool := c.full.contains (a / 4)

/-- A tag instruction: its address, checked with width 4; `rd` says that it reads the granule. -/
def State.tagOp (s : State) (p : Pred) (px : Option Prefix) (a : SReg) (disp : BitVec 16) (write : Bool)
    (body : State → Thread → Nat → Bool → Res) : Out :=
  s.issue (Form.blocked (plen px 8) p) fun s t =>
    let addr := t.sreg s.cur.body a + dispOf px disp
    s.withLs t [{ addr := addr.toNat, width := 4, bytes := 4, write := write }]
      (body s t addr.toNat ((s.core t.vt t.cslot).tagFull addr.toNat))

/-- `tg.ld` (13 R261): one that takes writes the tag, so its release comes first (12 R247). -/
def execTgLd (p : Pred) (px : Option Prefix) (take : Bool) (d a : SReg) (disp : BitVec 16) (s : State) : Out :=
  s.tagOp p px a disp false fun s t addr full =>
    if full then
      let w := (s.core t.vt t.cslot).readLs addr 4
      .done ((if take then (s.released t (t.attrOf px)).modCore t.vt t.cslot fun c => c.setTag (addr / 4) false else s).modCur fun u => u.setS d (w64 w)) 1 0
    else .wait s (.tag addr true)

/-- `tg.st` (13 R261). -/
def execTgSt (p : Pred) (px : Option Prefix) (a b : SReg) (disp : BitVec 16) (s : State) : Out :=
  s.tagOp p px a disp true fun s t addr full =>
    if full then .wait s (.tag addr false)
    else .done ((s.released t (t.attrOf px)).storeCur t addr (natBytes 4 (t.sreg s.cur.body b).toNat)) 1 0

/-- `tg.set` and `tg.clr` (13 R261). -/
def tagWrite (p : Pred) (px : Option Prefix) (d a : SReg) (disp : BitVec 16) (v : Bool) (s : State) : Out :=
  s.tagOp p px a disp false fun s t addr full =>
    .done (((s.released t (t.attrOf px)).modCore t.vt t.cslot fun c => c.setTag (addr / 4) v).modCur fun u => u.setS d (w64 (b2n full))) 1 0

/-- `tg.set` (13 R261). -/
def execTgSet (p : Pred) (px : Option Prefix) (d a : SReg) (disp : BitVec 16) (s : State) : Out := tagWrite p px d a disp true s
/-- `tg.clr` (13 R261). -/
def execTgClr (p : Pred) (px : Option Prefix) (d a : SReg) (disp : BitVec 16) (s : State) : Out := tagWrite p px d a disp false s

/-- A waiting tag instruction finds the tag it waits for. -/
def State.tagReady (s : State) (t : Thread) : Bool :=
  match t.wait with
  | .tag a full => (s.core t.vt t.cslot).tagFull a == full
  | _ => false

/-- TAG_WAIT_RETEST (13 R262): after a change of its tag a waiting instruction can proceed; it tests the tag again at its own issue. -/
def execTagWaitRetest (vt slot : Nat) (s : State) : Out :=
  .next (if (s.thread vt slot).st = .run && s.tagReady (s.thread vt slot) then
      s.modThread vt slot fun t => { t with wait := .none }
    else s)

/-! Tile barriers (13 R263-R265). -/

/-- A barrier of a tile. -/
def State.bar (s : State) (vt b : Nat) : Bar :=
  match (s.vtile? vt).bind fun v => v.bars.find? fun x => x.num == b with
  | none => { num := b, gen := 0, arr := [] }
  | some x => x

/-- Changes a barrier of a tile. -/
def State.modBar (s : State) (vt b : Nat) (f : Bar → Bar) : State :=
  s.modVTile vt fun v => { v with bars := upsert (fun x => x.num == b) { num := b, gen := 0, arr := [] } f v.bars }

/-- The member of a gang at a slot counts as arrived without arriving: HALTED, aborted, SAVING or freed by its save (13 R263, 15 R297). -/
def State.countsAway (s : State) (gang vt slot : Nat) : Bool :=
  let t := s.thread vt slot
  t.st == .free || t.gang != gang || t.st == .halted || t.st == .saving

/-- Every member of a gang on a tile has arrived at its barrier, and one at least did so itself. -/
def State.barFull (s : State) (g : Gang) (k : GangTile) : Bool :=
  let b := s.bar k.vt k.barid
  !b.arr.isEmpty && k.members.all fun n => b.arr.contains n || s.countsAway g.id k.vt n

/-- The phase of a gang's barrier on a tile completes if its condition holds (13 R263). -/
def State.completeBar (s : State) (g : Gang) (k : GangTile) : State :=
  if s.barFull g k then s.modBar k.vt k.barid fun b => { b with gen := b.gen + 1, arr := [] } else s

/-- The thread arrives at its barrier: a release at tile scope (13 R265). -/
def State.arrive (s : State) (t : Thread) (g : Gang) (k : GangTile) : State :=
  ((s.settle t).modBar t.vt k.barid fun b => { b with arr := insertNat t.slot b.arr }).completeBar g k

/-- The thread's gang and its record on the thread's tile. -/
def State.withGang (s : State) (t : Thread) (body : Gang → GangTile → Res) : Res :=
  match s.gangOf t with
  | none => .done s 1 0
  | some g =>
    match g.tile? t.vt with
    | none => .done s 1 0
    | some k => body g k

/-- `bar.arr` (13 R264): its wait for the phase is no sleep (13 R260). -/
def execBarArr (p : Pred) (d : SReg) (s : State) : Out :=
  s.issue (Form.blocked 8 p) fun s t => s.withGang t fun g k =>
    let b := s.bar t.vt k.barid
    if b.arr.contains t.slot then .wait s (.stall 3)
    else .done ((s.arrive t g k).modCur fun u => u.setS d (b.gen.setWidth 64)) 1 0

/-- `bar.wait` (13 R264): an arrival made before a freeze stays counted (13 R260). -/
def execBarWait (p : Pred) (s : State) : Out :=
  s.issue (Form.blocked 8 p) fun s t => s.withGang t fun g k =>
    let b := s.bar t.vt k.barid
    match t.barGen with
    | some x => if b.gen = x then .wait s .bar else .done (s.modCur fun u => { u with barGen := none }) 1 0
    | none =>
      if b.arr.contains t.slot then .wait s .bar
      else
        let s' := s.arrive t g k
        if (s'.bar t.vt k.barid).gen = b.gen then .wait (s'.modCur fun u => { u with barGen := some b.gen }) .bar
        else .done s' 1 0

/-- `bar.wait sA` (13 R264). -/
def execBarWaitGen (p : Pred) (a : SReg) (s : State) : Out :=
  s.issue (Form.blocked 8 p) fun s t => s.withGang t fun _ k =>
    let b := s.bar t.vt k.barid
    if b.gen ≠ (t.sreg s.cur.body a).extractLsb' 0 16 then .done s 1 0
    else if b.arr.contains t.slot then .wait s .bar
    else .fault { cause := .barrier, info := b.gen.setWidth 64 }

/-- `bar.test` (13 R264). -/
def execBarTest (p : Pred) (d a : SReg) (s : State) : Out :=
  s.issue (Form.blocked 8 p) fun s t => s.withGang t fun _ k =>
    let gen := (s.bar t.vt k.barid).gen
    let df := gen - (t.sreg s.cur.body a).extractLsb' 0 16
    .done (s.modCur fun u => u.setS d (w64 (b2n (df != 0) * 2 ^ 32 + df.toNat * 2 ^ 16 + gen.toNat))) 1 0

/-- BARRIER_PHASE_COMPLETE (13 R263): the phase of a barrier completes where every member has arrived or has left. -/
def execBarrierPhaseComplete (vt bar : Nat) (s : State) : Out :=
  .next <|
    s.gangs.foldl (fun s g =>
      match g.tile? vt with
      | none => s
      | some k => if k.barid = bar then s.completeBar g k else s) s

/-! Fences (13 R269). -/

/-- `fence` (13 R269): a release wider than the thread retires once the thread's waiting memory-side operations are performed. -/
def execFence (p : Pred) (at' : Attr) (s : State) : Out :=
  s.issue (Form.blocked 8 p) fun s t =>
    .done (s.released t at') 1 0

/-! Waiter queues (13 R273-R275). -/

/-- A waiter header as an instruction reaches it: repaired where LINK and the nodes disagree, with its waiters. -/
def State.withHeader (s : State) (t : Thread) (va : Word) (att : Attr) (body : State → Nat → List Nat → Res) : Res :=
  s.withSide t va 16 att fun s pa =>
    match s.badGran pa 16 with
    | some g => .fault (sideErr va g)
    | none =>
      let r := s.repairWaiters pa va.toNat (s.partNum t)
      body r.1 pa r.2

/-- `wq.wait` (13 R274): a queued thread sleeps until a wake (0) or an interruption (2). -/
def execWqWait (p : Pred) (at' : Attr) (d a b : SReg) (disp : BitVec 24) (s : State) : Out :=
  s.issue (Form.blocked 12 p) fun s t =>
    match t.wait, t.woken with
    | .wq _, some r => .done (s.modCur fun u => u.setS d (w64 r)) 1 16
    | .wq pa, none => .wait s (.wq pa)
    | _, _ =>
      s.withHeader t (t.sreg s.cur.body a + imm24 disp) at' fun s pa l =>
        if w64 (s.hbm.read pa 8) ≠ t.sreg s.cur.body b then .done (s.modCur fun u => u.setS d 1) 1 16
        else .wait (s.setWaiters pa (l ++ [t.vt * 64 + t.slot])) (.wq pa)

/-- Wakes waiters: their nodes are unlinked and their `wq.wait` returns 0. -/
def State.wakeAll (s : State) : List Nat → State
  | [] => s
  | a :: r => (s.modThread (a / 64) (a % 64) fun t => { t with node := none, woken := some 0 }).wakeAll r

/-- `wq.wake` (13 R274). -/
def execWqWake (p : Pred) (at' : Attr) (d a b : SReg) (c : Option SReg) (disp : BitVec 24) (s : State) : Out :=
  s.issue (Form.blocked 12 p) fun s t =>
    s.withHeader t (t.sreg s.cur.body a + imm24 disp) at' fun s pa l =>
      let s := match c with
        | none => s
        | some r => s.writeHbm pa 8 (t.sreg s.cur.body r).toNat
      let k := min (t.sreg s.cur.body b).toNat l.length
      .done (((s.wakeAll (l.take k)).setWaiters pa (l.drop k)).modCur fun u => u.setS d (w64 k)) 1 16

/-! Signals (13 R276, R277). -/

/-- `sig.send` (13 R276), a release at partition scope (13 R277). -/
def execSigSend (p : Pred) (a b : SReg) (s : State) : Out :=
  s.issue (Form.blocked 8 p) fun s t =>
    let tgt := t.sreg s.cur.body a
    if (s.core t.vt t.cslot).sendQ.length ≥ 16 then .wait s (.stall 9)
    else if tgt.field 18 46 ≠ 0 then .fault s.illegal
    else
      s.withRank t (tgt.field 0 16) fun pl =>
        .done ((s.settle t).modCore t.vt t.cslot fun c => { c with sendQ := c.sendQ ++
          [{ sig := { srank := (s.rankOf t.vt t.cslot).getD 0, sthr := t.thr, data := lo32 (t.sreg s.cur.body b) },
             spart := s.partNum t, sgang := t.gang, vt := pl.1, slot := 4 * pl.2 + tgt.field 16 2 }] }) 1 0

/-- The word of a signal (13 R277). -/
def Signal.word (g : Signal) : Word := w64 (2 ^ 63 + g.sthr * 2 ^ 48 + g.srank * 2 ^ 32 + g.data.toNat)

/-- `sig.take` (13 R277). -/
def execSigTake (p : Pred) (poll : Bool) (d : SReg) (s : State) : Out :=
  s.issue (Form.blocked 8 p) fun s t =>
    match t.mailbox with
    | g :: r =>
      if t.wait = .sig && t.woken.isSome then .done (s.modCur fun u => u.setS d 0) 1 0
      else .done (s.modCur fun u => { u with mailbox := r }.setS d g.word) 1 0
    | [] =>
      if poll || (t.wait = .sig && t.woken.isSome) then .done (s.modCur fun u => u.setS d 0) 1 0
      else .wait s .sig

/-- The signal's target still holds a thread of the sender's partition (01 R24, 13 R276). -/
def State.signalLands (s : State) (o : OutSignal) : Bool :=
  let t := s.thread o.vt o.slot
  t.st != .free && s.partNum t == o.spart && (s.pcoreOf o.vt (o.slot / 4)).isSome

/-- SIGNAL_DELIVERY (13 R276, 17 R342): the oldest signal in a core's send queue whose mailbox has room, or that has no target, leaves it; signals to a virtual tile whose traffic is held wait, and a tile whose router casts no vote in its own move sends none (17 R345). The P1 of its event is a free value (log entry 37). -/
def execSignalDelivery (vt slot : Nat) (s : State) : Out :=
  .next <|
    let q := (s.core vt slot).sendQ
    match q.findIdx? fun o => !s.trafficHeld o.vt && !s.mute vt && (!s.signalLands o || (s.thread o.vt o.slot).mailbox.length < 8) with
    | none => s
    | some i =>
      match q[i]? with
      | none => s
      | some o =>
        let s := s.modCore vt slot fun c => { c with sendQ := c.sendQ.eraseIdx i }
        if s.signalLands o then s.modThread o.vt o.slot fun t => { t with mailbox := t.mailbox ++ [o.sig] }
        else
          let w := s.freshWord
          w.1.event o.spart 0x07 2 o.sgang (w64 ((s.rankOf o.vt (o.slot / 4)).getD 0)) w.2

/-! Sleep (13 R260). -/

/-- The thread is asleep: it waits in a place of 13 R260 and nothing has ended its wait. -/
def State.asleep (s : State) (t : Thread) : Bool :=
  t.st == .run &&
  match t.wait with
  | .tag _ _ => !s.tagReady t
  | .bar =>
    (match (s.gangOf t).bind fun g => g.tile? t.vt with
     | none => true
     | some k =>
       match t.barGen with
       | some x => (s.bar t.vt k.barid).gen == x
       | none => (s.bar t.vt k.barid).arr.contains t.slot)
  | .step => !t.stepRel
  | .wq _ => t.woken.isNone
  | .sig => t.woken.isNone && t.mailbox.isEmpty
  | _ => false

end Sys2Proof.Machine
end

