-- ==== Sys2Proof/Machine/Ending.lean ====
section
/-! DEFINITION. How work ends: queue accounts, completion records and NOTIFY words, the return of budget, and the abort of a thread or a gang (04 R68, R77-R81, 15 R305, 16 R331, 19 R375-R377). -/

namespace Sys2Proof.Machine

/-! Accounts (04 R68, R78, R80). -/

/-- Adds to a queue's account; an addition that would pass the limit stops there and is reported. -/
def State.addAccount (s : State) (q bic bmc : Nat) : State :=
  let x := s.queue q
  let s := s.modQueue q fun x => { x with acbic := min (x.acbic + bic) budgetMax, acbmc := min (x.acbmc + bmc) budgetMax }
  let s := if x.acbic + bic > budgetMax then s.hkEvent 2 x.part (w64 q) 0 else s
  if x.acbmc + bmc > budgetMax then s.hkEvent 2 x.part (w64 q) 1 else s

/-- Budget that returns to a queue: to its account, or to the device housekeeping account once the queue is CLOSING or DISABLED (04 R80). -/
def State.returnQueue (s : State) (q bic bmc : Nat) : State :=
  match (s.queue q).state with
  | .opened | .stalled => s.addAccount q bic bmc
  | .closing | .disabled => { s with hkUnits := s.hkUnits + bic, hkBytes := s.hkBytes + bmc }

/-- Unused budget of a gang or of a record that ends: to the parent thread while it is in RUN or FROZEN with its GANGID, with what passes the limit to the queue; otherwise to the queue (15 R305). -/
def State.returnBudget (s : State) (parent : Option (Nat × Nat × Nat)) (q bic bmc : Nat) : State :=
  match parent with
  | none => s.returnQueue q bic bmc
  | some (vt, slot, gang) =>
    let t := s.thread vt slot
    if t.gang = gang && (t.st = .run || t.st = .frozen) then
      (s.modThread vt slot fun t => { t with bic := min (t.bic + bic) budgetMax, bmc := min (t.bmc + bmc) budgetMax }).returnQueue q
        (t.bic + bic - budgetMax) (t.bmc + bmc - budgetMax)
    else s.returnQueue q bic bmc

/-- Energy charged to a queue and counted for its partition (15 R318, 19 R383). -/
def State.chargeEnergy (s : State) (q n : Nat) : State :=
  let x := s.queue q
  let s := s.modQueue q fun x => { x with energy := min (x.energy + n) (2 ^ 64 - 1) }
  let s := if x.energy + n > 2 ^ 64 - 1 then s.hkEvent 2 x.part (w64 q) 2 else s
  s.count x.part 7 n

/-! Completion records, NOTIFY words and interrupts (19 R375, R376, 04 R77). -/

/-- What a completion record says besides its task record. -/
structure Ended where
  status  : Nat
  detail  : Nat
  gang    : Nat
  qid     : Nat
  part    : Nat
  resumes : Nat
  runBic  : Nat
  runBmc  : Nat
  start   : Nat
  stop    : Nat
  energy  : Nat
  deriving DecidableEq, Repr

/-- The eight words of a completion record (19 R376). -/
def completionWords (rec : List Word) (e : Ended) (logged : Bool) : List Word :=
  [w64 (e.status + e.detail * 2 ^ 8 + 2 ^ 24 + e.part * 2 ^ 32 + b2n logged * 2 ^ 40 + e.qid * 2 ^ 48),
   w64 (e.gang + recSeq rec * 2 ^ 32), w64 (recUsertag rec),
   w64 (e.resumes + (e.runBic % 2 ^ 48) * 2 ^ 16), w64 ((e.runBmc % 2 ^ 48) * 2 ^ 16), w64 e.start, w64 e.stop, w64 e.energy]

/-- Writes the completion record: to COMPL, or to the housekeeping log where the queue is CLOSING or COMPL does not translate (04 R80, R81). -/
def State.writeCompletion (s : State) (asid : Nat) (rec : List Word) (e : Ended) (closing : Bool) : State :=
  if recCompl rec = 0 then s
  else if closing then s.hkPut 2 e.part (completionWords rec e true)
  else
    match s.writePage (.panel asid) (needPlain true) (recCompl rec) (wordsBytes (completionWords rec e false)) with
    | .ok s' => s'
    | .error _ => s.hkPut 2 e.part (completionWords rec e true)

/-- The NOTIFY update of one word (04 R77). That of a record rejected for a NOTIFY address that is not 4-byte aligned acts on the four bytes at that address as it stands, and the completion record likewise (log entry 66). A word of an HBM granule in error is updated from its bytes as they stand (log entry 74). -/
def State.notify (s : State) (asid part va : Nat) (failed : Bool) : State :=
  if va = 0 then s
  else
    match s.translate (.panel asid) va (needSide true) with
    | .err _ => s.hkEvent 4 part (w64 va) 1
    | .ok m =>
      let s := s.performAll fun x => x.pa / 8 == m.pa / 8
      let w := s.hbm.read m.pa 4
      let n := w % 2 ^ 31
      let mark := if failed then 2 ^ 31 else w / 2 ^ 31 * 2 ^ 31
      if n > 0 then s.writeHbm m.pa 4 (mark + n - 1)
      else (s.writeHbm m.pa 4 mark).hkEvent 4 part (w64 va) 0

/-- The completion interrupt (19 R375). -/
def State.interruptHost (s : State) (rec : List Word) (part qid : Nat) (closing : Bool) : State :=
  if recIrq rec && !closing then
    if recMsivec rec = 0 || 2048 ≤ recMsivec rec then s.hkEvent 9 part (w64 qid) (w64 (recMsivec rec))
    else { s with msix := s.msix ++ [recMsivec rec] }
  else s

/-- The queue has been destroyed (04 R80). -/
def State.isClosing (s : State) (q : Nat) : Bool := (s.queue q).state == .closing || (s.queue q).state == .disabled

/-- Steps 2 to 4 of 19 R375. -/
def State.announce (s : State) (asid : Nat) (rec : List Word) (e : Ended) : State :=
  let closing := s.isClosing e.qid
  let s := s.writeCompletion asid rec e closing
  let s := (s.notify asid e.part (recNotify0 rec) (e.status ≠ 0)).notify asid e.part (recNotify1 rec) (e.status ≠ 0)
  s.interruptHost rec e.part e.qid closing

/-- Frees a save-pool reservation: first page and pages (15 R301). -/
def State.freeResv (s : State) (part : Nat) (r : Option (Nat × Nat)) : State :=
  match r with
  | none => s
  | some x => s.modPart part fun p => { p with spresv := p.spresv.filter fun y => y != x }

/-- A queue's record finally completes (04 R68 INFLIGHT). -/
def State.lessInflight (s : State) (q : Nat) : State := s.modQueue q fun x => { x with inflight := x.inflight - 1 }

/-- The budget that a spawned child's record returns where it ends before bind, the whole of it (15 R305). -/
def TaskSrc.held (r : TaskSrc) : Nat × Nat := (r.leftI, r.leftM)

/-- A record ends before bind: rejected, dependence failed or queue gone (04 R74-R76, R80, 15 R302, R305, 19 R375). `rejects` counts it. -/
def State.endRecord (s : State) (q : Nat) (r : TaskSrc) (status detail : Nat) (rejects : Bool) : State :=
  let part := (s.queue q).part
  let s := s.returnQueue q r.debitI r.debitM
  let s := s.returnBudget r.parent q r.held.1 r.held.2
  let s := s.freeResv part r.resv
  let s := s.lessInflight q
  let s := if rejects then s.modQueue q fun x => { x with rejects := x.rejects + 1 } else s
  s.announce (s.part part).asid r.task
    { status := status, detail := detail, gang := 0, qid := q, part := part, resumes := 0, runBic := 0, runBmc := 0,
      start := 0, stop := 0, energy := 0 }

/-! The abort of a thread (16 R331) and of a gang. -/

/-- The commands of a thread that its going drops: those that have not begun, and the fills and write-backs of its stash entries. -/
def State.droppedCmds (s : State) (vt slot : Nat) : List Nat :=
  let c := s.core vt (slot / 4)
  ((c.mxq.filter fun m => m.slot == slot && m.done.isNone).map (·.id)) ++
    (match s.vtile? vt with
     | none => []
     | some v => (v.copies.filter fun c => c.slot == slot && !c.running).map (·.id)) ++
    (s.thread vt slot).deferred.map (·.id) ++ (c.stash.filter fun e => e.owner == slot).filterMap (·.cmd)

/-- Commands of a thread that have not begun are dropped, with its stash entries and queued remote stores (10 R196, 11 R231, R233, R239); a handle on one of them, passed to another thread of the core, completes CANCELLED (11 R240, log entry 65). -/
def State.dropWork (s : State) (vt slot : Nat) : State :=
  let s := (s.droppedCmds vt slot).foldl (fun s c => s.completeCmd vt (slot / 4) c .cancelled 0 .read) s
  let s := s.modCore vt (slot / 4) fun c =>
    { c with
      mxq := c.mxq.filter fun m => m.slot != slot || m.done.isSome
      stash := c.stash.filter fun e => e.owner != slot
      remoteQ := c.remoteQ.filter fun r => r.slot != slot }
  s.modVTile vt fun v => { v with copies := v.copies.filter fun c => c.slot != slot || c.running }

/-- A packet still held in a slot is dropped and counted lost (16 R325). -/
def State.losePacket (s : State) (t : Thread) : State :=
  if t.pktHeld.isSome then
    s.modPart (s.partNum t) fun q => { q with lostcnt := min (q.lostcnt + 1) 0xFFFFFFFF, lostMark := true }
  else s

/-- The pending entries of the spawn list that a thread made: removed, their budget going to the queue of each child (15 R304, R305). -/
def State.dropSpawns (s : State) (vt slot gang : Nat) : State :=
  let mine (x : Spawned) : Bool := x.vt == vt && x.slot == slot && x.gang == gang
  (s.spawns.filter mine).foldl (fun s x =>
    let n := recNvt x.task * recNcore x.task * recNthr x.task
    s.returnQueue x.qid (n * recBic x.task) (n * recBmc x.task))
    { s with spawns := s.spawns.filter fun x => !mine x }

/-- A thread slot becomes FREE; what the thread had left and was charged stays with its gang. -/
def State.freeSlot (s : State) (vt slot : Nat) : State :=
  let t := s.thread vt slot
  (s.modGang t.gang fun g =>
    { g with doneBic := g.doneBic + t.bic + t.heldBic, doneBmc := g.doneBmc + t.bmc + t.heldBmc,
             runBic := g.runBic + t.runBic, runBmc := g.runBmc + t.runBmc }).modThread vt slot fun _ => Thread.freed vt slot s.clk

/-- A thread is aborted (16 R331): its slot goes to FREE and its gang remembers the status. -/
def State.abortThread (s : State) (vt slot status detail : Nat) : State :=
  let t := s.thread vt slot
  if t.st = .free then s
  else
    let s := (s.losePacket t).unlinkWq vt slot
    let s := s.endSupervisor t
    let s := (s.dropWork vt slot).dropSpawns vt slot t.gang
    (s.modGang t.gang fun g => { g with abortSt := some (status, detail) }).freeSlot vt slot

/-- A gang that is gone has no checkpoint (17 R354). -/
def State.forgetCkpt (s : State) (gid : Nat) : State :=
  { s with ckpts := s.ckpts.map fun (k : Ckpt) =>
      { k with
        gangs := k.gangs.filter fun g => g.1 != gid
        cores := k.cores.map fun (c : CkptCore) => { c with threads := c.threads.filter fun t => t.gang != gid } } }

/-- A virtual tile held AMBER by a replay that failed (17 R357) is held no more once no gang is bound on it. -/
def State.unhold (s : State) : State :=
  let free (v : VTile) : Bool :=
    v.amber && !(s.rotations.any fun r => r.vt == v.vt) && !s.unbacking v.vt && !(s.gangs.any fun g => (g.tile? v.vt).isSome)
  let ps := (s.vtiles.filter free).map (·.ptile)
  { s with
    vtiles := s.vtiles.map fun (v : VTile) => if free v then { v with amber := false } else v
    tiles := s.tiles.map fun (p : PTile) => if ps.contains p.num && p.service == .amber then { p with service := .white } else p }

/-- What the written records of a yielding gang hold of its budget. -/
def Gang.savedLeft (g : Gang) : Nat × Nat := g.saved.foldl (fun n r => (n.1 + r.bic, n.2 + r.bmc)) (0, 0)

/-- Every thread of a gang is aborted, in every state, and its lease ends (16 R331, R336, 15 R315); one that is not released has spent nothing, and one whose BINDs are all held yet has no thread and is aborted all the same. -/
def State.abortGang (s : State) (gid status detail : Nat) : State :=
  let s := (s.gangThreads gid).foldl (fun s t => s.abortThread t.vt t.slot status detail) s
  let s := s.modGang gid fun g =>
    let g := if g.released then g else { g with doneBic := g.src.bics.foldl (· + ·) 0, doneBmc := g.src.bmcs.foldl (· + ·) 0 }
    if g.saved.isEmpty && g.abortSt.isSome then g
    else { g with abortSt := some (status, detail), saved := [], doneBic := g.doneBic + g.savedLeft.1, doneBmc := g.doneBmc + g.savedLeft.2 }
  s.abortLease gid

end Sys2Proof.Machine
end

