-- ==== Sys2Proof/Machine/SaveBlock.lean ====
section
/-! DEFINITION. Save blocks as bytes: the gang header, the tile section and the thread records, written and read back, and the save pool (15 R299-R303). -/

namespace Sys2Proof.Machine

/-! CRC-32C (15 R299). -/

/-- One bit of the reflected CRC-32C. -/
def crcBit (c : Nat) : Nat := if c % 2 = 1 then (c / 2) ^^^ 0x82F63B78 else c / 2

/-- One byte. -/
def crcByte (c : Nat) (b : Byte) : Nat := (List.range 8).foldl (fun c _ => crcBit c) (c ^^^ b.toNat)

/-- The CRC-32C of bytes. -/
def crc32c (l : List Byte) : Nat := (l.foldl crcByte 0xFFFFFFFF) ^^^ 0xFFFFFFFF

/-! Sizes (15 R300, R301). -/

/-- Rounded up to a multiple. -/
def roundUp (k n : Nat) : Nat := (n + k - 1) / k * k

/-- Threads of a record's gang. -/
def recThreads (r : List Word) : Nat := recNvt r * recNcore r * recNthr r

/-- The pages of a gang's save-pool reservation (15 R301). -/
def resvPages (r : List Word) : Nat :=
  (roundUp 64 (64 + 16 * recNvt r) + recThreads r * (256 + 512 + 4096 + 1024 * recNacc r + 4224 * recUnits r) + 4095) / 4096

/-- The first-fit place of a number of pages among reservations (15 R301). -/
def firstFit (size n : Nat) (l : List (Nat × Nat)) : Option Nat :=
  let starts := 0 :: l.map fun x => x.1 + x.2
  let ok (a : Nat) : Bool := a + n ≤ size && l.all fun x => x.1 + x.2 ≤ a || a + n ≤ x.1
  (starts.filter ok).foldl (fun best a =>
    match best with
    | none => some a
    | some b => some (min a b)) none

/-! Writing (15 R299, R300). -/

/-- A loop-stack entry as 192 bits. -/
def LoopEntry.bits (e : LoopEntry) : Nat := e.start.toNat + e.fin.toNat * 2 ^ 64 + e.count.toNat * 2 ^ 128

/-- The matrix state word (10 R198). -/
def Thread.mxState (t : Thread) : Nat :=
  t.mrow.toNat + t.mcol.toNat * 2 ^ 16 + t.mdep.toNat * 2 ^ 32 + t.injpl.toNat * 2 ^ 48 + b2n t.injarm * 2 ^ 53

/-- A range of a `cont` as its 12-bit field. -/
def rngBits (r : Nat × Nat) : Nat := r.1 + r.2 * 2 ^ 7

/-- The positions of a list with their values as one number of `w`-bit digits, lowest first. -/
def packNat (w : Nat) : List Nat → Nat
  | [] => 0
  | x :: r => x + 2 ^ w * packNat w r

/-- The physical accumulators of a thread by name. -/
def State.accNames (s : State) (t : Thread) : List Nat :=
  match s.gangOf t with
  | none => []
  | some g => (List.range (recNacc g.task)).filterMap fun a => s.physAcc t a

/-- The 256-byte header of a thread record. -/
def State.saveHeader (s : State) (t : Thread) (gti : Nat) (halted : Bool) : Nat :=
  if halted then 2 ^ 280 + gti * 2 ^ 288
  else
    let poison := packNat 16 ((s.accNames t).map fun a => ofBits ((s.core t.vt t.cslot).accum a).poison)
    t.pc.toNat + ((t.bic + t.heldBic) % 2 ^ 64) * 2 ^ 64 + ((t.bmc + t.heldBmc) % 2 ^ 64) * 2 ^ 128 + t.seed.toNat * 2 ^ 192 +
    t.rmode.toNat * 2 ^ 256 + t.fflags.toNat * 2 ^ 264 + t.memctl.toNat * 2 ^ 272 + gti * 2 ^ 288 + t.mxState * 2 ^ 320 +
    packNat 32 (t.p.toList.map (·.toNat)) * 2 ^ 384 + t.lives.toNat * 2 ^ 640 + t.livev.toNat * 2 ^ 672 +
    packNat 12 (t.rng.map rngBits) * 2 ^ 704 + t.loops.length * 2 ^ 752 + packNat 192 (t.loops.reverse.map LoopEntry.bits) * 2 ^ 768 +
    poison * 2 ^ 1536

/-- COUNT and the EOS map of a queue register (16 R327). -/
def queueCountWord (l : List QEntry) : Word :=
  w64 (l.length + ofBits ((List.range l.length).filter fun i => l[i]? == some .eos) * 2 ^ 8)

/-- Bytes filled with zeros to a multiple of 64. -/
def pad64 (l : List Byte) : List Byte := l ++ List.replicate (roundUp 64 l.length - l.length) 0

/-- The bytes of a vector register. -/
def laneBytes (v : List Lane) : List Byte := v.flatMap fun x => natBytes 4 x.toNat

/-- The tag map of words from `w` on. -/
def tagBytes (c : Core) (w n : Nat) : List Byte :=
  (List.range n).map fun k => BitVec.ofNat 8 (ofBits ((List.range 8).filter fun j => c.full.contains (w + 8 * k + j)))

/-- A thread record: header and data sections. -/
def State.saveThread (s : State) (t : Thread) (gti : Nat) (halted : Bool) : List Byte :=
  let head := natBytes 256 (s.saveHeader t gti halted)
  if halted then head
  else
    let c := s.core t.vt t.cslot
    let base := (s.ownAlloc t).1
    let reg (i : Nat) : List Byte := natBytes 8 ((t.s.toList[i]?).getD 0).toNat
    let vec (i : Nat) : List Byte := laneBytes ((t.v.toList[i]?).getD (Vector.replicate 32 0)).toList
    head ++
    pad64 ((bitsOf t.lives.toNat 32).flatMap fun n => reg (2 * n) ++ reg (2 * n + 1)) ++
    ((bitsOf t.livev.toNat 16).flatMap fun n => vec (2 * n) ++ vec (2 * n + 1)) ++
    ((s.accNames t).flatMap fun a => laneBytes (c.accum a).words) ++
    (t.rng.flatMap fun r =>
      c.ls.bytes (base + 4096 * r.1) (4096 * r.2) ++ tagBytes c ((base + 4096 * r.1) / 4) (128 * r.2))

/-- The tile section: GEN and arrival bits of the gang's barrier on each tile. -/
def State.saveTiles (s : State) (g : Gang) : List Byte :=
  pad64 (g.tiles.flatMap fun k =>
    let b := s.bar k.vt k.barid
    natBytes 16 (b.gen.toNat + ofBits b.arr * 2 ^ 16))

/-- A gang thread position: tile, core slot and thread, in gang-thread-index order (05 R96). -/
def Gang.positions (g : Gang) : List (Nat × Nat) :=
  g.tiles.flatMap fun k => k.members.map fun n => (k.vt, n)

/-- The gang header (15 R299). -/
def saveHead (check energy clk length domid gang nthreads resumes reason : Nat) : List Byte :=
  natBytes 64 (1 + reason * 2 ^ 8 + resumes * 2 ^ 16 + nthreads * 2 ^ 32 + gang * 2 ^ 64 + domid * 2 ^ 96 + length * 2 ^ 128 +
    clk % 2 ^ 64 * 2 ^ 192 + energy % 2 ^ 64 * 2 ^ 256 + check * 2 ^ 320)

/-- The save block of a gang: the records written at each `cont`, and a header alone for a thread that halted or was aborted (15 R297); `energy` is the energy of the save. -/
def State.saveBlock (s : State) (g : Gang) (energy : Nat) : List Byte :=
  let recs := g.positions.zipIdx.flatMap fun x =>
    let t := s.thread x.1.1 x.1.2
    match g.saved.find? fun r => r.vt == x.1.1 && r.slot == x.1.2 with
    | some r => r.bytes
    | none => s.saveThread t x.2 true
  let rest := s.saveTiles g ++ recs
  let length := 64 + rest.length
  let head (check : Nat) := saveHead check energy s.clk length g.domid g.id g.positions.length (min (g.resumes + 1) 65535) g.reason
  head (crc32c (head 0 ++ rest)) ++ rest

/-! Reading back (15 R302, R303). -/

/-- A field of a number. -/
def natField (x lo n : Nat) : Nat := x / 2 ^ lo % 2 ^ n

/-- A thread record found in a block: its header and its place. -/
structure SavedThread where
  head : Nat
  at'  : Nat
  deriving DecidableEq, Repr

def SavedThread.halted (r : SavedThread) : Bool := natField r.head 280 1 == 1
def SavedThread.lives (r : SavedThread) : Nat := natField r.head 640 32
def SavedThread.livev (r : SavedThread) : Nat := natField r.head 672 16
def SavedThread.rng (r : SavedThread) (i : Nat) : Nat × Nat := (natField r.head (704 + 12 * i) 7, natField r.head (711 + 12 * i) 5)
def SavedThread.ranges (r : SavedThread) : List (Nat × Nat) := ((List.range 4).map r.rng).filter fun x => x.2 != 0

/-- The length of a thread record (15 R300). -/
def SavedThread.size (r : SavedThread) (nacc : Nat) : Nat :=
  if r.halted then 256
  else
    256 + roundUp 64 (16 * (bitsOf r.lives 32).length) + 256 * (bitsOf r.livev 16).length + 1024 * nacc +
      (r.ranges.map fun x => 4224 * x.2).foldl (· + ·) 0

/-- Bytes of a partition's memory, or none where they do not translate. -/
def State.readMem (s : State) (asid va n : Nat) : Option (List Byte) :=
  match s.checkVirt (.panel asid) (needPlain false) va n with
  | some _ => none
  | none => some (s.readGlobal (.panel asid) (needPlain false) va n)

/-- The thread records from a place on. -/
def State.savedFrom (s : State) (asid base nacc : Nat) : Nat → Nat → Option (List SavedThread)
  | 0, _ => some []
  | n + 1, off =>
    match s.readMem asid (base + off) 256 with
    | none => none
    | some l =>
      let r : SavedThread := { head := bytesNat l, at' := off }
      match s.savedFrom asid base nacc n (off + r.size nacc) with
      | none => none
      | some q => some (r :: q)

/-- The thread records of a record's save block; none where a read does not translate. -/
def State.savedThreads (s : State) (asid : Nat) (task : List Word) : Option (List SavedThread) :=
  s.savedFrom asid (recSaveptr task) (recNacc task) (recThreads task) (roundUp 64 (64 + 16 * recNvt task))

/-- The reserved fields of a thread header are zero, those of MXST and of the loop-stack entries too (15 R300, 10 R198). -/
def SavedThread.clean (r : SavedThread) : Bool :=
  natField r.head 1664 384 == 0 && natField r.head 755 13 == 0 && natField r.head 688 16 == 0 && natField r.head 281 7 == 0 &&
    natField r.head 262 2 == 0 && natField r.head 270 2 == 0 && natField r.head 374 10 == 0 &&
    (List.range 4).all fun n => natField r.head (768 + 192 * n + 160) 32 == 0

/-- The ranges of a record lie in an allocation of `units` (15 R303). -/
def SavedThread.fits (r : SavedThread) (units : Nat) : Bool := r.halted || r.ranges.all fun x => x.1 + x.2 ≤ units

/-- The check of a block before it is restored (15 R303): a read that does not translate is check 10, any failure 11. -/
def State.blockFault (s : State) (asid : Nat) (task : List Word) : Option Nat :=
  match s.readMem asid (recSaveptr task) 64, s.savedThreads asid task with
  | some h, some l =>
    let x := bytesNat h
    let length := match l.getLast? with
      | none => 0
      | some r => r.at' + r.size (recNacc task)
    if natField x 0 8 ≠ 1 || natField x 32 32 ≠ recThreads task || natField x 128 64 ≠ length || natField x 112 16 ≠ 0 ||
        natField x 352 160 ≠ 0 || !(l.all fun r => r.clean && r.fits (recUnits task)) then some 11
    else
      match s.readMem asid (recSaveptr task) length with
      | none => some 10
      | some bs =>
        let tiles := (bs.drop 64).take (16 * recNvt task)
        let tilesOk := (List.range (recNvt task)).all fun i => ((tiles.drop (16 * i + 10)).take 6).all fun b => b == 0
        if !tilesOk || crc32c ((bs.take 40) ++ List.replicate 4 0 ++ bs.drop 44) ≠ natField x 320 32 then some 11 else none
  | _, _ => some 10

/-- The budgets that a resume loads, thread by thread, with the sums debited from the account (15 R302): BIC and BMC have 48 bits (15 R286), so a saved value beyond them loads the largest budget (log entry 71). -/
def resumeBudgets (task : List Word) (l : List SavedThread) : List Nat × List Nat × Nat × Nat :=
  let i := l.map fun r => min (max (natField r.head 64 64) (recBic task)) budgetMax
  let m := l.map fun r => min (max (natField r.head 128 64) (recBmc task)) budgetMax
  let di := l.foldl (fun n r => n + (recBic task - natField r.head 64 64)) 0
  let dm := l.foldl (fun n r => n + (recBmc task - natField r.head 128 64)) 0
  (i, m, di, dm)

end Sys2Proof.Machine
end

