-- ==== Sys2Proof/Machine/Queue.lean ====
section
/-! DEFINITION. Work queues: the commands and the doorbell, the staging of records with their checks, dependences, and the life cycle of a queue (04 R68-R81, 05 R85, R88, 15 R302). -/

namespace Sys2Proof.Machine

/-! Unbinding (05 R92, R94, R101). -/

/-- The staged record of a queue is no gang's any more. -/
def Queue.unstaged (q : Queue) (gid : Nat) : Queue :=
  match q.staged with
  | none => q
  | some r => if r.gang = some gid then { q with staged := some { r with gang := none } } else q

/-- A gang bound nowhere and not released is gone: its reservation is freed unless its record brought it, and its record stays staged. -/
def State.dropUnbound (s : State) (gid : Nat) : State :=
  match s.gang? gid with
  | none => s
  | some g =>
    if g.tiles.isEmpty && !g.released then
      let own := (s.queue g.qid).staged.bind fun r => r.src.resv
      let s := if own.isSome then s else s.freeResv g.part g.src.resv
      (({ s with
        gangs := s.gangs.filter fun x => x.id != gid
        queues := s.queues.map (·.unstaged gid)
        heldBinds := s.heldBinds.filter fun h => wordsField h.2.2 224 32 != gid
        heldPre := s.heldPre.filter fun h => h.1 != gid } : State).forgetCkpt gid).unhold
    else s

/-- A gang that is not released leaves a tile: its slots go to FREE; with its last tile the gang is gone (05 R92, R94). -/
def State.unbindTile (s : State) (gid vt : Nat) : State :=
  let s : State := { s with threads := s.threads.map fun (t : Thread) =>
    if t.vt == vt && t.gang == gid && t.st != .free then Thread.freed t.vt t.slot s.clk else t }
  (s.modGang gid fun g => { g with tiles := g.tiles.filter fun k => k.vt != vt }).dropUnbound gid

/-- A gang that is not released leaves every tile. -/
def State.unbind (s : State) (gid : Nat) : State :=
  match s.gang? gid with
  | none => s
  | some g => (g.tiles.foldl (fun s k => s.unbindTile gid k.vt) s).dropUnbound gid

/-! The checks of a record (04 R74, R75, 05 R88). -/

/-- Every reserved field of a task record is zero (04 R66). -/
def recClean (r : List Word) : Bool :=
  [(560, 16), (624, 16), (652, 4), (664, 8), (685, 3), (691, 5), (700, 4), (718, 18), (842, 6), (864, 32), (960, 32)].all fun x =>
    wordsField r x.1 x.2 == 0

/-- A dependence word that is named translates to a writable memory-side page. -/
def State.depOk (s : State) (asid va : Nat) : Bool :=
  va = 0 || match s.translate (.panel asid) va (needSide true) with
    | .ok _ => true
    | .err _ => false

/-- The first of checks 1 to 9 that fails (04 R74); `seqOk` is check 2. -/
def State.recCheck (s : State) (part : Nat) (r : List Word) (seqOk : Bool) : Option Nat :=
  let p := s.part part
  if recVersion r ≠ 1 || !recClean r then some 1
  else if !seqOk then some 2
  else if recCode r = 0 || recCode r % 32 ≠ 0 then some 3
  else if recNvt r = 0 || recNvt r > p.pvtcnt || recNcore r = 0 || recNcore r > 16 || recNthr r = 0 || recNthr r > 4 then some 4
  else if recBic r = 0 || recGrace r > 4096 then some 5
  else if recLsreq r < 4 || recNthr r * recUnits r > 112 || recNthr r * recNacc r > 8 then some 6
  else if recTidimg r % 64 ≠ 0 || recCompl r % 64 ≠ 0 || recSaveptr r % 64 ≠ 0 || recWaitaddr r % 4 ≠ 0 ||
      recNotify0 r % 4 ≠ 0 || recNotify1 r % 4 ≠ 0 then some 7
  else if recResume r == (recSaveptr r == 0) then some 8
  else if !(s.depOk p.asid (recWaitaddr r) && s.depOk p.asid (recNotify0 r) && s.depOk p.asid (recNotify1 r)) then some 9
  else none

/-- A virtual tile could hold the record with every thread slot free (05 R88). -/
def State.tileFits (s : State) (vt ncore : Nat) : Bool :=
  match s.vtile? vt with
  | none => false
  | some v => v.backed && ncore ≤ (v.slots.filter Option.isSome).length

/-- The record could fit its partition when empty, save pool included (05 R88, 15 R301): a record that brings its own block needs no reservation. -/
def State.couldFit (s : State) (part : Nat) (src : TaskSrc) : Bool :=
  let p := s.part part
  let r := src.task
  (p.spsize = 0 || src.resv.isSome || resvPages r ≤ p.spsize) &&
    (List.range (p.pvtcnt + 1 - recNvt r)).any fun i =>
      (List.range (recNvt r)).all fun k => s.tileFits (p.pvtbase + i + k) (recNcore r)

/-- Records in the stage (05 R85). -/
def State.stageCount (s : State) : Nat := (s.queues.filter fun q => q.staged.isSome).length

/-- What staging a record does: it is staged, or ended, or left where it is because the account cannot cover a resume (15 R302). -/
inductive Staging
  | taken (s : State)
  | left

/-- Stages a record that has left its place (`s` with HEAD advanced or the resume list shortened, and INFLIGHT counted): checks, capabilities, NO-FIT, the debit of a resume (04 R74, R75, 05 R88, 15 R302). -/
def State.stage (s : State) (q : Nat) (r : TaskSrc) (seqOk : Bool) : Staging :=
  let x := s.queue q
  match s.recCheck x.part r.task seqOk with
  | some c => .taken (s.endRecord q r 1 c true)
  | none =>
    if wordsField r.task 696 4 &&& (15 - x.capmask) ≠ 0 then .taken (s.endRecord q r 2 0 true)
    else if !s.couldFit x.part r then .taken (s.endRecord q r 5 0 true)
    else
      let st : StageState := if recWaitaddr r.task = 0 then .ready s.clk else .depWait true
      let put (s : State) (r : TaskSrc) : State :=
        s.modQueue q fun x => { x with staged := some { src := r, st := st, reserving := false, gang := none } }
      if recResume r.task then
        match s.savedThreads (s.part x.part).asid r.task with
        | none => .taken (s.endRecord q r 1 10 true)
        | some l =>
          let b := resumeBudgets r.task l
          if b.2.2.1 ≤ x.acbic && b.2.2.2 ≤ x.acbmc then
            .taken (put (s.modQueue q fun x => { x with acbic := x.acbic - b.2.2.1, acbmc := x.acbmc - b.2.2.2 })
              { r with bics := b.1, bmcs := b.2.1, debitI := b.2.2.1, debitM := b.2.2.2 })
          else .left
      else
        let n := recThreads r.task
        .taken (put s { r with bics := List.replicate n (recBic r.task), bmcs := List.replicate n (recBmc r.task) })

/-- The queue stalls (04 R79): a housekeeping entry and an event. -/
def State.stall (s : State) (q va : Nat) : State :=
  let part := (s.queue q).part
  ((s.modQueue q fun x => { x with state := .stalled }).hkEvent 5 part (w64 q) 3).event part 0x09 1 0 (w64 va) 0

/-- The address of a ring slot (04 R71). -/
def Queue.slotAddr (x : Queue) (i : BitVec 32) : Nat := x.ringbase.toNat + 128 * (i.toNat % 2 ^ x.ringlog2)

/-- A task source read from memory. -/
def TaskSrc.of (task : List Word) (parent : Option (Nat × Nat × Nat)) : TaskSrc :=
  { task := task, parent := parent, bics := [], bmcs := [], debitI := 0, debitM := 0, resv := none, leftI := 0, leftM := 0 }

/-- Reads the record at HEAD: `tries` re-reads have been made for a SEQ that does not match (04 R72, R73). It is read, HEAD advanced and INFLIGHT counted, only once it is accepted or rejected (log entry 22); bytes of an HBM granule in error are taken as they stand (log entry 74). -/
def State.readRing (s : State) (q tries : Nat) : State :=
  let x := s.queue q
  match s.readPage (s.part x.part).space (needPlain false) (x.slotAddr x.head) 128 with
  | .error _ => (s.modQueue q fun x => { x with staged := none }).stall q (x.slotAddr x.head)
  | .ok bs =>
    let r := TaskSrc.of (bytesWords 16 bs) none
    let seqOk := recSeq r.task = x.head.toNat
    if !seqOk && tries < 4 then
      s.modQueue q fun x => { x with staged := some { src := r, st := .seqWait tries, reserving := false, gang := none } }
    else
      let s' := s.modQueue q fun x => { x with head := x.head + 1, inflight := x.inflight + 1, staged := none }
      match s'.stage q r seqOk with
      | .taken s2 => s2
      | .left => s.modQueue q fun x => { x with staged := none }

/-- The first entry of the resume list that can be staged, in order. -/
def State.stageResume (s : State) (q : Nat) : List TaskSrc → List TaskSrc → Option State
  | _, [] => none
  | seen, r :: rest =>
    match (s.modQueue q fun x => { x with resume := seen ++ rest }).stage q r true with
    | .taken s' => some s'
    | .left => s.stageResume q (seen ++ [r]) rest

/-- A queue that waits for a stage place (05 R85): OPEN, with none, and a record in its resume list or at HEAD. -/
def State.stageable (s : State) (x : Queue) : Bool :=
  x.state == .opened && x.staged.isNone && (x.head != x.tail || (s.stageResume x.qid [] x.resume).isSome)

/-- The queue given the next stage place (05 R85): ascending QID, starting after the queue last given one. -/
def State.nextToStage (s : State) : Option Nat :=
  let l := (s.queues.filter s.stageable).map (·.qid)
  match (l.filter (s.lastStaged < ·)).min? with
  | some q => some q
  | none => l.min?

/-- RECORD_READ (05 R85, 04 R72, R78): the queue whose turn it is takes a stage place; its resume list is served before its ring. -/
def execRecordRead (qid : Nat) (s : State) : Out :=
  .next <|
    let x := s.queue qid
    if x.state = .opened && x.staged.isNone && s.stageCount < 8192 && s.nextToStage = some qid then
      match s.stageResume qid [] x.resume with
      | some s' => { s' with lastStaged := qid }
      | none => if x.head ≠ x.tail then { s.readRing qid 0 with lastStaged := qid } else s
    else s

/-- SEQ_RETRY (04 R73): the slot of a record whose SEQ did not match is read again, four times at most. -/
def execSeqRetry (qid : Nat) (s : State) : Out :=
  .next <|
    match (s.queue qid).staged with
    | none => s
    | some r =>
      match r.st with
      | .seqWait n => if (s.queue qid).state = .opened then s.readRing qid (n + 1) else s
      | _ => s

/-- The stage place of a queue is free again. -/
def State.unstage (s : State) (q : Nat) : State := s.modQueue q fun x => { x with staged := none }

/-- DEPENDENCE_REREAD (04 R76, R79): the WAITADDR word of a staged record is read, where one of the moments of 04 R76 has made that due; one that does not translate stalls the queue and stays due. A word of an HBM granule in error is taken as it stands (log entry 74). -/
def execDependenceReread (qid : Nat) (s : State) : Out :=
  .next <|
    let x := s.queue qid
    match x.staged with
    | none => s
    | some r =>
      if r.st = .depWait true && x.state = .opened then
        match s.translate (s.part x.part).space (recWaitaddr r.src.task) (needSide false) with
        | .err _ => s.stall qid (recWaitaddr r.src.task)
        | .ok m =>
          let w := s.hbm.read m.pa 4
          if w ≥ 2 ^ 31 then (s.unstage qid).endRecord qid r.src 3 0 true
          else s.modQueue qid fun x => { x with staged := some { r with st := if w = 0 then .ready s.clk else .depWait false } }
      else s

/-! Commands (04 R69, R70, R79, R80). -/

/-- The source may issue an operation for a queue (04 R69): a thread's RESTART or CREDIT of a queue of its partition, of which a DISABLED queue is none, whatever its PART reads (log entry 66). -/
def State.mayCommand (s : State) (src : Source) (op qid : Nat) : Bool :=
  match src with
  | .host => true
  | .thread vt slot =>
    let t := s.thread vt slot
    s.hasCap t 2 && (op = 3 || op = 4) && (s.queue qid).part == s.partNum t && (s.queue qid).state != .disabled

/-- Writes RESULT. -/
def State.qresult (s : State) (n : Nat) : State := { s with qcmd := { s.qcmd with result := n } }

/-- CREATE (04 R70). -/
def State.queueCreate (s : State) (src : Source) (q0 arg1 : Word) : State :=
  let q := q0.field 0 16
  if !s.mayCommand src 1 q then s.qresult 3
  else if (s.queue q).state ≠ .disabled then s.qresult 1
  else if q0.field 39 5 < 4 || q0.field 39 5 > 16 || arg1.toNat % 4096 ≠ 0 || arg1.toNat ≥ 2 ^ 48 || !(s.part (q0.field 24 8)).valid then s.qresult 2
  else
    (s.modQueue q fun _ =>
      { Queue.fresh q with
        state := .opened, ringbase := arg1, ringlog2 := q0.field 39 5, part := q0.field 24 8,
        capmask := q0.field 32 4, priomax := q0.field 36 3,
        cls := (s.queue q).cls, clst := (s.queue q).clst, clsm := (s.queue q).clsm }).qresult 0

/-- DESTROY (04 R70, R79, R80, 05 R101): unread records are discarded, records read but not bound or not released end QUEUE-GONE. HEAD then stands at TAIL, and a record whose SEQ is being re-read counts as unread (log entry 22). -/
def State.queueDestroy (s : State) (src : Source) (q : Nat) : State :=
  let x := s.queue q
  if !s.mayCommand src 2 q then s.qresult 3
  else if x.state ≠ .opened && x.state ≠ .stalled then s.qresult 1
  else
    let s := s.modQueue q fun x =>
      { x with state := .closing, discards := x.discards + (x.tail - x.head), head := x.tail, resume := [], staged := none }
    let s := match x.staged with
      | none => s
      | some r =>
        match r.st with
        | .seqWait _ => s
        | _ =>
          let s := match r.gang with
            | none => s
            | some g => s.unbind g
          s.endRecord q r.src 4 0 false
    (x.resume.foldl (fun s r => s.endRecord q r 4 0 false) s).qresult 0

/-- RESTART (04 R70). -/
def State.queueRestart (s : State) (src : Source) (q : Nat) : State :=
  if !s.mayCommand src 3 q then s.qresult 3
  else if (s.queue q).state ≠ .stalled then s.qresult 1
  else (s.modQueue q fun x => { x with state := .opened }).qresult 0

/-- CREDIT (04 R70). -/
def State.queueCredit (s : State) (src : Source) (q : Nat) (a1 a2 : Word) : State :=
  if !s.mayCommand src 4 q then s.qresult 3
  else if (s.queue q).state ≠ .opened && (s.queue q).state ≠ .stalled then s.qresult 1
  else if a1.toNat ≥ 2 ^ 48 || a2.toNat ≥ 2 ^ 48 then s.qresult 2
  else (s.addAccount q a1.toNat a2.toNat).qresult 0

/-- QUEUE_CREATE (04 R70). -/
def execQueueCreate (src : Source) (q0 arg1 : Word) (s : State) : Out := .next (s.queueCreate src q0 arg1)
/-- QUEUE_DESTROY (04 R70, R80). -/
def execQueueDestroy (src : Source) (qid : Nat) (s : State) : Out := .next (s.queueDestroy src (qid % 65536))
/-- QUEUE_RESTART (04 R70). -/
def execQueueRestart (src : Source) (qid : Nat) (s : State) : Out := .next (s.queueRestart src (qid % 65536))
/-- QUEUE_CREDIT (04 R70). -/
def execQueueCredit (src : Source) (qid : Nat) (arg1 arg2 : Word) (s : State) : Out := .next (s.queueCredit src (qid % 65536) arg1 arg2)

/-- A GO written to QCMD3: the command in QCMD0 to QCMD2 (04 R69, R70). -/
def State.queueCommand (s : State) (src : Source) : State :=
  let c := s.qcmd
  let q := c.q0.field 0 16
  match c.q0.field 16 4 with
  | 1 => s.queueCreate src c.q0 c.q1
  | 2 => s.queueDestroy src q
  | 3 => s.queueRestart src q
  | 4 => s.queueCredit src q c.q1 c.q2
  | op => if s.mayCommand src op q then s.qresult 2 else s.qresult 3

/-- A doorbell value reaches a queue (04 R71, R79). One equal to TAIL makes a re-read due. Modulo 2^32 a value less than 2^31 ahead of TAIL is ahead of it, and reported where it lies beyond the ring; any other is behind (log entry 66). -/
def State.ringDoorbell (s : State) (q : Nat) (val : BitVec 32) : State :=
  let x := s.queue q
  if x.state = .opened || x.state = .stalled then
    let ahead := (val - x.tail).toNat
    let span := (val - x.head).toNat
    if ahead = 0 then s.modQueue q Queue.rereadDue
    else if ahead < 2 ^ 31 && span ≤ 2 ^ x.ringlog2 && (x.tail - x.head).toNat ≤ span then s.modQueue q fun x => { x with tail := val }
    else if 2 ^ x.ringlog2 < span && ahead < 2 ^ 31 then s.hkEvent 3 x.part (w64 q) (val.setWidth 64)
    else s
  else s

/-- DOORBELL (04 R71). -/
def execDoorbell (qid : Nat) (val : BitVec 32) (s : State) : Out := .next (s.ringDoorbell (qid % 65536) val)

/-- QUEUE_CLOSE (04 R79): a CLOSING queue with nothing left is DISABLED; its accounts go to the device housekeeping account. -/
def execQueueClose (qid : Nat) (s : State) : Out :=
  .next <|
    let x := s.queue qid
    if x.state = .closing && x.inflight = 0 && x.resume.isEmpty then
      { (s.modQueue qid fun x => { x with state := .disabled, acbic := 0, acbmc := 0 }).hkEvent 5 x.part (w64 qid) 0 with
        hkUnits := s.hkUnits + x.acbic, hkBytes := s.hkBytes + x.acbmc }
    else s

end Sys2Proof.Machine
end

