-- ==== Sys2Proof/Machine/Bind.lean ====
section
/-! DEFINITION. The bind port, placement and selection: bind records, the scrub and load of a thread slot, the choice of the next record and of its tiles (05 R82-R101, R399, 15 R293, R301-R303). -/

namespace Sys2Proof.Machine

/-! Bind records (05 R91, R92). -/

/-- A bind record, decoded (05 R91). -/
structure BindRec where
  op     : Nat
  gslot  : Nat
  barid  : Nat
  tmask  : List Nat
  cmask  : List Nat
  lsb    : List Nat
  amask  : List (List Nat)
  qid    : Nat
  vtbase : Nat
  vtidx  : Nat
  domid  : Nat
  gangid : Nat
  deriving DecidableEq, Repr

/-- The fields of the four words of a bind record. -/
def BindRec.of (b : List Word) : BindRec :=
  { op := wordsField b 0 4, gslot := wordsField b 64 6, barid := wordsField b 72 4,
    tmask := bitsOf (wordsField b 76 4) 4, cmask := bitsOf (wordsField b 80 16) 16,
    lsb := (List.range 4).map fun t => wordsField b (100 + 7 * t) 7,
    amask := (List.range 4).map fun t => bitsOf (wordsField b (128 + 8 * t) 8) 8,
    qid := wordsField b 160 16, vtbase := wordsField b 176 12, vtidx := wordsField b 192 12,
    domid := wordsField b 208 16, gangid := wordsField b 224 32 }

/-- The reserved fields of a bind record are zero. -/
def bindClean (b : List Word) : Bool :=
  [(4, 60), (70, 2), (96, 4), (188, 4), (204, 4)].all fun x => wordsField b x.1 x.2 == 0

/-- The four words of a bind record. -/
def BindRec.words (b : BindRec) : List Word :=
  [w64 b.op,
   w64 (b.gslot + b.barid * 2 ^ 8 + ofBits b.tmask * 2 ^ 12 + ofBits b.cmask * 2 ^ 16 + packNat 7 b.lsb * 2 ^ 36),
   w64 (packNat 8 (b.amask.map ofBits) + b.qid * 2 ^ 32 + b.vtbase * 2 ^ 48),
   w64 (b.vtidx + b.domid * 2 ^ 16 + b.gangid * 2 ^ 32)]

/-- The thread slots a bind record claims. -/
def BindRec.slots (b : BindRec) : List Nat := b.cmask.flatMap fun c => b.tmask.map fun t => 4 * c + t

/-- The threads that hold slots of these core slots of a tile. -/
def State.holders (s : State) (vt : Nat) (cores : List Nat) : List Thread :=
  s.threads.filter fun t => t.vt == vt && cores.contains t.cslot && t.st != .free

/-- The allocations held on these core slots, in 4 KiB units: base and length. -/
def State.unitsHeld (s : State) (vt : Nat) (cores : List Nat) : List (Nat × Nat) :=
  (s.holders vt cores).filterMap fun t =>
    match s.gangOf t, s.tileOf t with
    | some g, some k => some (nth k.lsb t.thr 0, recUnits g.task)
    | _, _ => none

/-- The physical accumulators held on these core slots. -/
def State.accsHeld (s : State) (vt : Nat) (cores : List Nat) : List Nat :=
  (s.holders vt cores).flatMap fun t =>
    match s.tileOf t with
    | some k => nth k.amask t.thr []
    | none => []

/-- Two ranges of units meet. -/
def rangesMeet (x y : Nat × Nat) : Bool := x.1 < y.1 + y.2 && y.1 < x.1 + x.2

/-- Some two of a list are related. -/
def anyPair {α : Type} (r : α → α → Bool) : List α → Bool
  | [] => false
  | x :: l => l.any (r x) || anyPair r l

/-- The gang that holds a gang entry of a tile. -/
def State.gslotGang (s : State) (vt gslot : Nat) : Option Gang :=
  s.gangs.find? fun g => match g.tile? vt with | none => false | some k => k.gslot == gslot

/-- The tile of a virtual tile is WHITE and the virtual tile is backed. -/
def State.tileReady (s : State) (vt : Nat) : Bool :=
  match s.vtile? vt with
  | none => false
  | some v => v.backed && (match s.ptile? v.ptile with | none => false | some p => p.service == .white)

/-- The result that the bind port answers to a BIND (05 R92). 'A set byte of AMASK' is a nonzero byte, whatever its position, and the byte of every position that TMASK names (log entry 23). -/
def State.bindResult (s : State) (vt : Nat) (rec b : List Word) : Nat :=
  let x := BindRec.of b
  let n := recUnits rec
  let shape := x.tmask.length = recNthr rec && x.cmask.length = recNcore rec &&
    x.tmask.all (fun t => (nth x.amask t []).length = recNacc rec) &&
    x.amask.all (fun a => a.isEmpty || a.length = recNacc rec) &&
    x.tmask.all fun t => nth x.lsb t 0 + n ≤ 112
  let mine := x.tmask.map fun t => (nth x.lsb t 0, n)
  let accs := x.amask.flatten
  let vacant := match s.vtile? vt with
    | none => true
    | some v => x.cmask.any fun c => (nth v.slots c none).isNone
  if !bindClean b || x.op ≠ 1 || !shape then 1
  else if !s.tileReady vt then 2
  else if vacant then 3
  else if x.slots.any fun k => (s.thread vt k).st ≠ .free then 4
  else if (s.gslotGang vt x.gslot).isSome then 5
  else if mine.any (fun m => (s.unitsHeld vt x.cmask).any fun h => rangesMeet m h) || anyPair rangesMeet mine then 6
  else if accs.any (fun a => (s.accsHeld vt x.cmask).contains a) || accs.eraseDups ≠ accs then 7
  else 0

/-- The result of a RELEASE or PREEMPT (05 R92). -/
def State.entryResult (s : State) (vt op : Nat) (b : List Word) : Nat :=
  let x := BindRec.of b
  if !bindClean b || x.op ≠ op then 1
  else if !s.tileReady vt then 2
  else
    match s.gslotGang vt x.gslot with
    | none => 5
    | some g => if g.id = x.gangid then 0 else 5

/-! BIND (05 R92, R94, R399, 15 R301). -/

/-- The save-pool reservation of a record at its placement: its own block where it resumes one, none without a pool, else the first fit; outer `none` where nothing fits. -/
def State.reserve (s : State) (part : Nat) (r : TaskSrc) : Option (Option (Nat × Nat)) :=
  let p := s.part part
  match r.resv with
  | some x => some (some x)
  | none =>
    if p.spsize = 0 then some none
    else
      let n := resvPages r.task
      match firstFit p.spsize n p.spresv with
      | none => none
      | some a => some (some (a, n))

/-- The gang of a first BIND. -/
def newGang (s : State) (b : BindRec) (q : Queue) (r : TaskSrc) : Gang :=
  let p := s.part q.part
  { id := b.gangid, domid := b.domid, qid := b.qid, part := q.part, asid := p.asid, pvtbase := p.pvtbase, pvtcnt := p.pvtcnt,
    vtbase := b.vtbase, tiles := [], task := r.task, src := r, released := false, clkStart := 0, relSeq := 0,
    lease := Lease.fresh, wdtLeft := recWdt r.task, wdtClk := 0, wdtStop := false, yielding := false,
    reason := 0, resumes := 0, abortSt := none, moved := [], replayed := false, mxBusy := 0, energy := 0,
    doneBic := 0, doneBmc := 0, runBic := 0, runBmc := 0, wbLost := false, saved := [] }

/-- The tile's part of a bind record. -/
def BindRec.tile (b : BindRec) (vt : Nat) (raw : List Word) : GangTile :=
  { vt := vt, vtidx := b.vtidx, cmask := b.cmask, tmask := b.tmask, barid := b.barid, gslot := b.gslot,
    amask := b.amask, lsb := b.lsb, raw := raw }

/-- Tiles in domain order. -/
def insertTile (k : GangTile) : List GangTile → List GangTile
  | [] => [k]
  | x :: r => if k.vtidx < x.vtidx then k :: x :: r else x :: insertTile k r

/-- The gang entry of a BIND: the gang already begun for the staged record, or a new one with its reservation (05 R399); a saving gang still holds its DOMID (log entry 57). -/
def State.bindGang (s : State) (b : BindRec) (rec : List Word) : Option State :=
  let q := s.queue b.qid
  match q.staged with
  | none => none
  | some r =>
    let p := s.part q.part
    let ready := match r.st with | .ready _ => true | _ => false
    if !ready || r.src.task != rec || p.drained then none
    else
      match r.gang with
      | some gid =>
        match s.gang? gid with
        | none => none
        | some g => if g.id = b.gangid && g.domid = b.domid && g.vtbase = b.vtbase && !g.released then some s else none
      | none =>
        if b.gangid = 0 || s.gangs.any fun g => g.id == b.gangid || g.domid == b.domid then none
        else if b.vtbase < p.pvtbase || p.pvtbase + p.pvtcnt < b.vtbase + recNvt rec then none
        else
          match s.reserve q.part r.src with
          | none => none
          | some v =>
            let src := { r.src with resv := v }
            let s := { s with gangs := s.gangs ++ [newGang s b q src] }
            let s := s.modQueue b.qid fun q => { q with staged := some { r with gang := some b.gangid } }
            some (match r.src.resv, v with
              | none, some x => s.modPart q.part fun p => { p with spresv := p.spresv ++ [x] }
              | _, _ => s)

/-- A thread slot as BIND claims it (05 R94). -/
def claimed (vt slot : Nat) (b : BindRec) : Thread :=
  { Thread.fresh vt slot with st := .scrub, gang := b.gangid, gslot := b.gslot }

/-- A tile in retention has lost the contents of an element (17 R358). -/
def State.retentionLost (s : State) (vt : Nat) : Bool :=
  ((s.ptile? (s.ptileOf vt)).any fun p => p.retained) && s.cores.any fun c => c.vt == vt && !c.bad.isEmpty

/-- A BIND that is held: its tile is AMBER (05 R101), it names a core under test (17 R349), or the tile lost its contents in retention (17 R358). -/
def State.holdsBind (s : State) (vt : Nat) (b : BindRec) : Bool :=
  s.isAmber vt || (s.tests.any fun t => t.vt == vt && t.mask.any fun c => b.cmask.contains c) || s.retentionLost vt

/-- A BIND that the port accepts: the tile's fetch cache is invalidated (07 R125). -/
def State.bindTile (s : State) (vt : Nat) (b : BindRec) (raw : List Word) : State :=
  let s' := s.modGang b.gangid fun g => { g with tiles := insertTile (b.tile vt raw) g.tiles }
  let s' := s'.modBar vt b.barid fun x => { x with gen := 0, arr := [] }
  let s' := (s'.modPTile (s.ptileOf vt) fun p => { p with retained := false }).modVTile vt fun v => { v with icache := [] }
  let s' := b.slots.foldl (fun s k => s.putThread (claimed vt k b)) s'
  s'.event (s'.queue b.qid).part 0x04 0 b.gangid (w64 vt) (w64 (ofBits b.cmask + ofBits b.tmask * 2 ^ 16))

/-- A BIND record at the port: it is held, refused or applied; refused records, and records that no conforming controller writes, change nothing (05 R92, R399). -/
def State.bindPort (s : State) (vt : Nat) (rec raw : List Word) : State :=
  let b := BindRec.of raw
  if b.vtbase + b.vtidx ≠ vt || b.vtidx ≥ recNvt rec || (s.vtile? vt).isNone then s
  else if s.holdsBind vt b then
    match s.bindGang b rec with
    | none => s
    | some s' => { s' with heldBinds := s'.heldBinds ++ [(vt, rec, raw)] }
  else if s.bindResult vt rec raw ≠ 0 then s
  else
    match s.bindGang b rec with
    | none => s
    | some s' => s'.bindTile vt b raw

/-- BIND (05 R92, R101; 17 R349, R358). -/
def execBind (vt : Nat) (rec bindRec : List Word) (s : State) : Out := .next (s.bindPort vt rec bindRec)

/-- RELEASE (05 R92, R94): a gang that is not released leaves the tile. -/
def execRelease (vt : Nat) (bindRec : List Word) (s : State) : Out :=
  .next <|
    if s.entryResult vt 2 bindRec ≠ 0 then s
    else
      match s.gang? (BindRec.of bindRec).gangid with
      | none => s
      | some g => if g.released then s else s.unbindTile g.id vt

/-- What PREEMPT does to a thread's budgets (15 R293, R291). -/
def Thread.preempted (t : Thread) (clk : Nat) : Thread :=
  { t with
    heldBic := t.heldBic + t.bic, heldBmc := t.heldBmc + t.bmc, bic := 0, bmc := 0, ingrace := true
    gcause := if t.ingrace then t.gcause else 3
    spanClk := if t.ingrace then t.spanClk else clk }

/-- PREEMPT of a released gang on a tile (15 R293). -/
def State.preemptTile (s : State) (gid vt : Nat) : State :=
  ((s.gangThreads gid).filter fun t => t.vt == vt).foldl
    (fun s t => (s.modThread vt t.slot fun u => u.preempted s.clk).interrupt vt t.slot) s

/-- PREEMPTs of a gang are held at the routers for these virtual tiles (17 R342). -/
def State.holdPre (s : State) (gid : Nat) (vts : List Nat) : State :=
  { s with heldPre := s.heldPre.filter (fun h => !(h.1 == gid && vts.contains h.2)) ++ vts.map fun v => (gid, v) }

/-- PREEMPT of a gang where it holds a virtual tile: a released one's threads there, none where the tile is unbacked; one not released is unbound everywhere and its record stays staged (05 R92, R101). A record for an AMBER tile is held (17 R342), and with it all of an unbinding that has one. -/
def State.preemptOn (s : State) (gid vt : Nat) : State :=
  match s.gang? gid with
  | none => s
  | some g =>
    if (g.tile? vt).isNone then s
    else if g.released then
      if s.isAmber vt then s.holdPre gid [vt]
      else if (s.vtile? vt).any fun v => v.backed then s.preemptTile gid vt
      else s
    else
      match (g.tiles.map (·.vt)).filter s.isAmber with
      | [] => s.unbind gid
      | l => s.holdPre gid l

/-- PREEMPT of a gang wherever it is. -/
def State.preemptGang (s : State) (g : Gang) : State := g.tiles.foldl (fun s k => s.preemptOn g.id k.vt) s

/-- The PREEMPTs held for a tile are applied (17 R342). -/
def State.applyPre (s : State) (vt : Nat) : State :=
  (s.heldPre.filter fun h => h.2 == vt).foldl (fun s h => s.preemptOn h.1 vt) { s with heldPre := s.heldPre.filter fun h => h.2 != vt }

/-- What is held for a tile is applied, PREEMPTs first: of the BINDs, a gang whose BIND is refused then is released everywhere (05 R101). -/
def State.applyHeld (s : State) (vt : Nat) : State :=
  let s := s.applyPre vt
  (s.heldBinds.filter fun h => h.1 == vt).foldl (fun s h =>
    let s := s.bindPort h.1 h.2.1 h.2.2
    let gid := (BindRec.of h.2.2).gangid
    let out := (s.gang? gid).any fun g => (g.tile? vt).isNone && !g.released
    if out && !(s.heldBinds.any fun x => x.1 == vt && x.2.2 == h.2.2) then s.unbind gid else s)
    { s with heldBinds := s.heldBinds.filter fun h => h.1 != vt }

/-- PREEMPT (05 R92, 15 R293). On a gang not yet released it acts as RELEASE on this tile alone; the gang's other tiles stay bound, and its record tied to it, until a RELEASE or PREEMPT of their own (log entry 23). -/
def execPreempt (vt : Nat) (bindRec : List Word) (s : State) : Out :=
  .next <|
    if s.entryResult vt 3 bindRec ≠ 0 then s
    else
      match s.gang? (BindRec.of bindRec).gangid with
      | none => s
      | some g => if g.released then s.preemptTile g.id vt else s.unbindTile g.id vt

/-! The scrub and load of a slot (05 R95, R96, 15 R303). -/

/-- Scrubs an allocation: bytes zero, tags EMPTY, errors cleared. -/
def Core.scrub (c : Core) (a n : Nat) : Core :=
  let out (w : Nat) : Bool := 4 * w < a || a + n ≤ 4 * w
  { c with
    ls := c.ls.clear a (a + n), full := c.full.filter out, bad := c.bad.filter out, wrote := c.wrote.filter out
    gran := unionNat (unitsOf 256 a n) c.gran }

/-- The lanes of 4 × n bytes. -/
def bytesLanes : Nat → List Byte → List Lane
  | 0, _ => []
  | n + 1, l => BitVec.ofNat 32 (bytesNat (l.take 4)) :: bytesLanes n (l.drop 4)

/-- Sets place `i` of a vector. -/
def vput {α : Type} {n : Nat} (v : Vector α n) (i : Nat) (x : α) : Vector α n :=
  v.mapFinIdx fun j a _ => if j = i then x else a

/-- The values of 05 R96 that are not zero. -/
def State.loaded (s : State) (g : Gang) (k : GangTile) (t : Thread) : Thread :=
  let gti := g.gti t
  let t := { t with
    pc := w64 (recCode g.task), bic := nth g.src.bics gti 0, bmc := nth g.src.bmcs gti 0, grace := recGrace g.task,
    tidbase := nth k.lsb t.thr 0 * 4096, spanClk := s.clk }
  ((t.setS 1 (w64 (recArgs g.task))).setS 2 (w64 gti)).setS 3 (w64 (recThreads g.task))

/-- The thread state of a save record, written over the values of the bind (15 R300, R303); `data` holds the sections after the header. -/
def SavedThread.onto (r : SavedThread) (resumes : Nat) (data : List Byte) (t : Thread) : Thread :=
  let h := r.head
  let loops := (List.range (natField h 752 3)).map fun n =>
    ({ start := w64 (natField h (768 + 192 * n) 64), fin := w64 (natField h (832 + 192 * n) 64),
       count := BitVec.ofNat 32 (natField h (896 + 192 * n) 32) } : LoopEntry)
  let sp := bitsOf r.lives 32
  let vp := bitsOf r.livev 16
  let vat := roundUp 64 (16 * sp.length)
  let t := { t with
    pc := w64 (natField h 0 64), seed := w64 (natField h 192 64), rmode := BitVec.ofNat 6 (natField h 256 6),
    fflags := BitVec.ofNat 6 (natField h 264 6), memctl := BitVec.ofNat 8 (natField h 272 8),
    mrow := BitVec.ofNat 16 (natField h 320 16), mcol := BitVec.ofNat 16 (natField h 336 16),
    mdep := BitVec.ofNat 16 (natField h 352 16), injpl := BitVec.ofNat 5 (natField h 368 5),
    injarm := natField h 373 1 == 1, lives := BitVec.ofNat 32 r.lives, livev := BitVec.ofNat 16 r.livev,
    loops := loops.reverse, resumes := resumes, resumed := true, conted := true }
  let t := (List.range 8).foldl (fun t k => t.setP ⟨k % 8, Nat.mod_lt _ (by decide)⟩ (BitVec.ofNat 32 (natField h (384 + 32 * k) 32))) t
  let word (n : Nat) : Word := w64 (bytesNat ((data.drop n).take 8))
  let t := sp.zipIdx.foldl (fun t x =>
    let reg (n : Nat) : SReg := ⟨n % 64, Nat.mod_lt _ (by decide)⟩
    (t.setS (reg (2 * x.1)) (word (16 * x.2))).setS (reg (2 * x.1 + 1)) (word (16 * x.2 + 8))) t
  let vec (n : Nat) : Vector Lane 32 := Vector.ofFn fun i => BitVec.ofNat 32 (bytesNat ((data.drop (n + 4 * i.val)).take 4))
  vp.zipIdx.foldl (fun t x =>
    { t with v := vput (vput t.v (2 * x.1) (vec (vat + 256 * x.2))) (2 * x.1 + 1) (vec (vat + 256 * x.2 + 128)) }) t

/-- The bytes of a save record from its accumulators on. -/
def SavedThread.accsAt (r : SavedThread) : Nat :=
  roundUp 64 (16 * (bitsOf r.lives 32).length) + 256 * (bitsOf r.livev 16).length

/-- Restores the accumulators of a record, with their poison. -/
def SavedThread.accs (r : SavedThread) (names : List Nat) (data : List Byte) (c : Core) : Core :=
  names.zipIdx.foldl (fun c x => c.modAcc x.1 fun _ =>
    ({ words := bytesLanes 256 (data.drop (r.accsAt + 1024 * x.2)), poison := bitsOf (natField r.head (1536 + 16 * x.2) 16) 16,
       res := [] } : Acc).sealed) c

/-- Restores the ranges of a record from `off` on, at the same offsets of the allocation at `base`: data, then tags. -/
def restoreRanges (base : Nat) (data : List Byte) : List (Nat × Nat) → Nat → Core → Core
  | [], _, c => c
  | x :: r, off, c =>
    let a := base + 4096 * x.1
    let n := 4096 * x.2
    let tags := (data.drop (off + n)).take (128 * x.2)
    let c := c.putLs a ((data.drop off).take n)
    let full := (List.range (n / 4)).filter fun w => (nth tags (w / 8) 0).getLsbD (w % 8)
    let c := { c with full := unionNat (full.map fun w => a / 4 + w) (c.full.filter fun w => 4 * w < a || a + n ≤ 4 * w) }
    restoreRanges base data r (off + n + 128 * x.2) c

/-- The restore of a thread whose block has passed its checks (15 R303). -/
def State.restore (s : State) (g : Gang) (k : GangTile) (t : Thread) : State :=
  match s.savedThreads g.asid g.task, s.readMem g.asid (recSaveptr g.task) 64 with
  | some l, some hd =>
    match l[g.gti t]? with
    | none => s
    | some r =>
      let resumes := natField (bytesNat hd) 16 16
      let tile := (s.readMem g.asid (recSaveptr g.task + 64 + 16 * k.vtidx) 16).getD []
      let s := s.modGang g.id fun g => { g with resumes := resumes, reason := natField (bytesNat hd) 8 8 }
      let s := s.modBar t.vt k.barid fun b =>
        { b with gen := BitVec.ofNat 16 (bytesNat tile), arr := bitsOf (natField (bytesNat tile) 16 64) 64 }
      if r.halted then s.modThread t.vt t.slot fun t => { t with halts := true, resumes := resumes, resumed := true }
      else
        let data := (s.readMem g.asid (recSaveptr g.task + r.at' + 256) (r.size (recNacc g.task) - 256)).getD []
        let base := nth k.lsb t.thr 0 * 4096
        let s := s.modThread t.vt t.slot (r.onto resumes data)
        s.modCore t.vt t.cslot fun c =>
          restoreRanges base data r.ranges (r.accsAt + 1024 * recNacc g.task) (r.accs (s.accNames t) data c)
  | _, _ => s

/-- A scrub that meets a fault: every tile of the gang is released and the record ends (04 R74, 05 R94, 15 R303). -/
def State.bindFault (s : State) (g : Gang) (detail : Nat) : State :=
  match (s.queue g.qid).staged with
  | none => s.unbind g.id
  | some r => ((s.unbind g.id).unstage g.qid).endRecord g.qid r.src 1 detail true

/-- The energy of a restore is charged to the resumed task's queue as it ends, also where its block is bad (15 R318). -/
def State.restoreEnergy (s : State) (q : Nat) : State :=
  ({ s with fresh := s.fresh + 1 } : State).chargeEnergy q (Config.freeEnergy s.fresh)

/-- The first 4 KiB of an allocation from TIDIMG, tagged FULL; an HBM granule with an uncorrectable error gives its bytes as stored (log entry 74). -/
def State.loadImage (s : State) (g : Gang) (vt cs base : Nat) : Option State :=
  if recTidimg g.task = 0 then some s
  else
    match s.readMem g.asid (recTidimg g.task) 4096 with
    | none => none
    | some bs => some (s.modCore vt cs fun c => c.putLs base bs)

/-- SCRUB_COMPLETE (05 R94-R96, 15 R303): the scrub, the load and the restore of a claimed slot end, and it is BOUND. -/
def execScrubComplete (vt slot : Nat) (s : State) : Out :=
  .next <|
    let t := s.thread vt slot
    match s.gangOf t, s.tileOf t with
    | some g, some k =>
      if t.st ≠ .scrub then s
      else
        let base := nth k.lsb t.thr 0 * 4096
        let s1 := s.modCore vt t.cslot fun c =>
          (s.accNames t).foldl (fun c a => c.modAcc a fun _ => Acc.fresh) (c.scrub base (recUnits g.task * 4096))
        match s1.loadImage g vt t.cslot base with
        | none => s.bindFault g 10
        | some s2 =>
          let s3 := s2.modThread vt slot (s.loaded g k)
          if recResume g.task then
            match s.blockFault g.asid g.task with
            | some d => (s.bindFault g d).restoreEnergy g.qid
            | none => ((s3.restore g k t).modThread vt slot fun t => { t with st := .bound }).restoreEnergy g.qid
          else s3.modThread vt slot fun t => { t with st := .bound }
    | _, _ => s

/-! Placement (05 R88-R90, R399). -/

/-- The lowest unit at which `n` units are free. -/
def firstUnit (n : Nat) (held : List (Nat × Nat)) : Option Nat :=
  (List.range (113 - n)).find? fun u => held.all fun x => !rangesMeet (u, n) x

/-- The lowest bases of `k` allocations of `n` units, in order. -/
def planUnits (n : Nat) : Nat → List (Nat × Nat) → Option (List Nat)
  | 0, _ => some []
  | k + 1, held =>
    match firstUnit n held with
    | none => none
    | some u =>
      match planUnits n k ((u, n) :: held) with
      | none => none
      | some r => some (u :: r)

/-- What is chosen on a tile besides its core slots: positions, bases and accumulators in the order of the positions. -/
structure CorePlan where
  pos   : List Nat
  bases : List Nat
  accs  : List Nat
  deriving DecidableEq, Repr

/-- The choice for a set of core slots, none where the needs are not met on every one of them (05 R88, R399). -/
def State.planCores (s : State) (vt : Nat) (rec : List Word) (cores : List Nat) : Option CorePlan :=
  let pos := ((List.range 4).filter fun p => cores.all fun c => (s.thread vt (4 * c + p)).st == .free).take (recNthr rec)
  let accs := ((List.range 8).filter fun a => !(s.accsHeld vt cores).contains a).take (recNthr rec * recNacc rec)
  match planUnits (recUnits rec) (recNthr rec) (s.unitsHeld vt cores) with
  | none => none
  | some bases =>
    if pos.length = recNthr rec && accs.length = recNthr rec * recNacc rec then some { pos := pos, bases := bases, accs := accs } else none

/-- The lowest `n` of a list of core slots that meet the needs together, the first in lexicographic order. -/
def pickCores (ok : List Nat → Bool) : List Nat → Nat → List Nat → Option (List Nat)
  | _, 0, acc => if ok acc.reverse then some acc.reverse else none
  | [], _ + 1, _ => none
  | c :: r, n + 1, acc =>
    if r.length < n then none
    else if ok (acc.reverse ++ [c]) then
      match pickCores ok r n (c :: acc) with
      | some x => some x
      | none => pickCores ok r (n + 1) acc
    else pickCores ok r (n + 1) acc

/-- The lowest number below `n` that a list lacks. -/
def lowestFree (n : Nat) (l : List Nat) : Option Nat := (List.range n).find? fun i => !l.contains i

/-- The firmware's choice on one tile as a bind record, without its gang (05 R399). -/
def State.planTile (s : State) (vt : Nat) (rec : List Word) : Option BindRec :=
  match s.vtile? vt with
  | none => none
  | some v =>
    if v.amber || !s.tileReady vt || s.rotations.any fun r => r.vt == vt then none
    else
      let cores := (List.range 16).filter fun c => (nth v.slots c none).isSome
      let entries := s.gangs.filterMap fun g => g.tile? vt
      match pickCores (fun l => (s.planCores vt rec l).isSome) cores (recNcore rec) [],
          lowestFree 64 (entries.map (·.gslot)), lowestFree 16 (entries.map (·.barid)) with
      | some cs, some gs, some bar =>
        match s.planCores vt rec cs with
        | none => none
        | some p =>
          let n := recNacc rec
          let place (f : Nat → Nat) (t : Nat) : Nat := match p.pos.idxOf? t with | none => 0 | some i => f i
          some { op := 1, gslot := gs, barid := bar, tmask := p.pos, cmask := cs,
                 lsb := (List.range 4).map (place fun i => nth p.bases i 0),
                 amask := (List.range 4).map fun t => match p.pos.idxOf? t with
                   | none => []
                   | some i => (p.accs.drop (n * i)).take n,
                 qid := 0, vtbase := 0, vtidx := 0, domid := 0, gangid := 0 }
      | _, _, _ => none

/-- The score of a domain for a HINT that translates to `pa` (05 R89). -/
def State.hintScore (s : State) (pa base nvt : Nat) : Nat :=
  let h := homeOf pa
  (List.range nvt).foldl (fun n i =>
    let t := s.homeTile (base + i)
    n + (if t.1 = h.1 then (if t.2 = h.2.1 / 16 then 2 else 1) else 0)) 0

/-- The best of the candidate bases, the lowest among equals. -/
def bestBase (score : Nat → Nat) (l : List Nat) : Option Nat :=
  l.foldl (fun best v =>
    match best with
    | none => some v
    | some b => if score v > score b then some v else some b) none

/-- The bases of the domains of a partition for a number of tiles. -/
def Partition.bases (p : Partition) (nvt : Nat) : List Nat := (List.range (p.pvtcnt + 1 - nvt)).map fun i => p.pvtbase + i

/-- The place a HINT names: none where there is no HINT or it does not translate; a page of the register window has no home, so that a HINT there counts as one that does not translate (log entry 57). -/
def State.hintPlace (s : State) (asid : Nat) (rec : List Word) : Option Nat :=
  if recHint rec = 0 then none
  else
    match s.translate (.panel asid) (recHint rec) (needAny false) with
    | .ok m => if m.pa < Config.hbmTop then some m.pa else none
    | .err _ => none

/-- The priority of a queue's record after the clamp (04 R75). -/
def Queue.prio (q : Queue) (rec : List Word) : Nat := min (recPrio rec) q.priomax

/-- A period of waiting that raises a record by one level (05 R86). -/
def levelClk : Nat := 4194304

/-- The effective level of a queue's staged record, where it is ready and not bound anywhere (05 R86). -/
def State.effLevel (s : State) (q : Queue) : Option Nat :=
  match q.staged with
  | none => none
  | some r =>
    match r.st, r.gang with
    | .ready c, none => if (s.part q.part).drained then none else some (min 7 (q.prio r.src.task + (s.clk - c) / levelClk))
    | _, _ => none

/-- The clk from which a ready record has waited a further period at level 7 (05 R87). -/
def Queue.reserveAt (q : Queue) (rec : List Word) (since : Nat) : Nat := since + (7 - q.prio rec) * levelClk + levelClk

/-- The domain of a record as its partition would hold it when empty: the highest score, then the lowest. -/
def State.emptyDomain (s : State) (q : Queue) (rec : List Word) : List Nat :=
  let p := s.part q.part
  let ok := (p.bases (recNvt rec)).filter fun v => (List.range (recNvt rec)).all fun i => s.tileFits (v + i) (recNcore rec)
  let score (v : Nat) : Nat := match s.hintPlace p.asid rec with | none => 0 | some pa => s.hintScore pa v (recNvt rec)
  match bestBase score ok with
  | none => []
  | some v => (List.range (recNvt rec)).map fun i => v + i

/-- The tiles that a partition's reserving record keeps for itself (05 R87). -/
def State.reservedTiles (s : State) (part : Nat) : List Nat :=
  s.queues.flatMap fun q =>
    match q.staged with
    | some r => if q.part = part && r.reserving then s.emptyDomain q r.src.task else []
    | none => []

/-- A queue's intensity classes that are placed together: one of 10 or above with one of 6 or below (05 R90). -/
def classPair (a b : Nat) : Bool := (10 ≤ a && b ≤ 6) || (10 ≤ b && a ≤ 6)

/-- What an attempt to place a record gives. -/
inductive Placing
  | placed (s : State)
  | ended (s : State)
  | waits

/-- Binds a record on every tile of a domain with the firmware's choice (05 R399). -/
def State.bindDomain (s : State) (qid base gid dom : Nat) (rec : List Word) : State :=
  (List.range (recNvt rec)).foldl (fun s i =>
    match s.planTile (base + i) rec with
    | none => s
    | some b =>
      s.bindPort (base + i) rec { b with qid := qid, vtbase := base, vtidx := i, domid := dom, gangid := gid }.words) s

/-- The next GANGID: 0 and every value still held are skipped (05 R399). -/
def State.nextGang (s : State) : Nat :=
  ((List.range (s.gangs.length + 2)).map fun i => (s.gangSeq + i) % 2 ^ 32).find? (fun n => n ≠ 0 && !(s.gangs.any fun g => g.id == n))
    |>.getD s.gangSeq

/-- The state with a queue's record bound at a domain base. -/
def State.placeAt (s : State) (qid v dom : Nat) (rec : List Word) : State :=
  let gid := s.nextGang
  ({ s with gangSeq := (gid + 1) % 2 ^ 32 } : State).bindDomain qid v gid dom rec

/-- The first queue whose ready record, of the other intensity and at the same effective level, still fits at a domain's base once this record is placed there: inside the partition, off the tiles that a record reserves, with its own save reservation (05 R88, R90). Records are paired at the same first tile alone, also where their NVT differ (log entry 57). -/
def State.mateAt (s : State) (q : Queue) (rec : List Word) (v dom : Nat) : Option Nat :=
  (s.queues.find? fun x =>
    x.part == q.part && x.qid != q.qid && classPair x.cls q.cls &&
      match s.effLevel x, x.staged with
      | some l, some r =>
        some l == s.effLevel q &&
          (let s' := s.placeAt q.qid v dom rec
           let n := recNvt r.src.task
           let kept := if r.reserving then [] else s.reservedTiles q.part
           v + n ≤ (s.part q.part).pvtbase + (s.part q.part).pvtcnt && (s'.reserve q.part r.src).isSome &&
             (List.range n).all fun i => !kept.contains (v + i) && (s'.planTile (v + i) r.src.task).isSome)
      | _, _ => false).map (·.qid)

/-- The base of the domain of the record that this one was paired with, while its gang is bound there. -/
def State.mateBase (s : State) (r : Staged) : Option Nat := r.mate.bind fun g => (s.gang? g).map (·.vtbase)

/-- One attempt to place a queue's staged record (05 R86-R90, 15 R301). A domain where it is paired by class comes before every one without, whatever HINT scores (log entry 57); a DOMID is held as long as a gang is, a saving one included (log entry 57). -/
def State.place (s : State) (qid : Nat) : Placing :=
  let q := s.queue qid
  match q.staged with
  | none => .waits
  | some r =>
    let rec' := r.src.task
    let p := s.part q.part
    if !s.couldFit q.part r.src then .ended ((s.unstage qid).endRecord qid r.src 5 0 true)
    else
      let kept := if r.reserving then [] else s.reservedTiles q.part
      let fits := (p.bases (recNvt rec')).filter fun v =>
        (List.range (recNvt rec')).all fun i => !kept.contains (v + i) && (s.planTile (v + i) rec').isSome
      match s.reserve q.part r.src, lowestFree 65536 (s.gangs.map (·.domid)) with
      | some _, some dom =>
        let score (v : Nat) : Nat :=
          (if s.mateBase r == some v || (s.mateAt q rec' v dom).isSome then 2 ^ 32 else 0) +
            match s.hintPlace p.asid rec' with | none => 0 | some pa => s.hintScore pa v (recNvt rec')
        match bestBase score fits with
        | none => .waits
        | some v =>
          let gid := s.nextGang
          let s' := s.placeAt qid v dom rec'
          let s' := match s.mateAt q rec' v dom with
            | none => s'
            | some x => s'.modQueue x fun y => { y with staged := y.staged.map fun z => { z with mate := some gid } }
          .placed (if recHint rec' ≠ 0 && (s.hintPlace p.asid rec').isNone then s'.event q.part 0x09 2 gid (w64 (recHint rec')) 0 else s')
      | _, _ => .waits

/-! Selection (05 R86, R87). -/

/-- A list turned to begin after the elements below `n`. -/
def turnTo (n : Nat) (l : List Nat) : List Nat := l.filter (fun x => n ≤ x) ++ l.filter fun x => x < n

/-- Tries queues in order until one is placed. -/
def State.tryQueues (s : State) : List Nat → State × Option Nat
  | [] => (s, none)
  | q :: r =>
    match s.place q with
    | .placed s' => (s', some q)
    | .ended s' => s'.tryQueues r
    | .waits => s.tryQueues r

/-- Sets a level's turn. -/
def State.setTurn (s : State) (lvl part n : Nat) : State :=
  { s with turns := setNth (s.turns ++ List.replicate (8 - s.turns.length) (0, 0)) lvl (part, n) }

/-- The ready queues of a partition at a level, in ascending QID after the last served. -/
def State.readyQueues (s : State) (part lvl : Nat) : List Nat :=
  let last := match s.servedQ.find? fun x => x.1 == part with
    | none => 0
    | some x => x.2 + 1
  turnTo last (sortBy (fun a b => a ≤ b) ((s.queues.filter fun q => q.part == part && s.effLevel q == some lvl).map (·.qid)))

/-- Tries the partitions of a level in their turn. -/
def State.tryParts (s : State) (lvl : Nat) : List Nat → State × Bool
  | [] => (s, false)
  | p :: r =>
    match s.tryQueues (s.readyQueues p lvl) with
    | (s', some q) =>
      let turn := nth s'.turns lvl (0, 0)
      let n := (if turn.1 = p then turn.2 else 0) + 1
      let w := max (s'.part p).weight 1
      let s' := if n ≥ w then s'.setTurn lvl (p + 1) 0 else s'.setTurn lvl p n
      ({ s' with servedQ := upsert (fun x => x.1 == p) (p, q) (fun _ => (p, q)) s'.servedQ }, true)
    | (s', none) => (s'.setTurn lvl (p + 1) 0).tryParts lvl r

/-- Tries the levels from the highest. -/
def State.tryLevels (s : State) : List Nat → State
  | [] => s
  | l :: r =>
    let ps := sortBy (fun a b => a ≤ b) ((s.queues.filter fun q => s.effLevel q == some l).map (·.part)).eraseDups
    match s.tryParts l (turnTo (nth s.turns l (0, 0)).1 ps) with
    | (s', true) => s'
    | (s', false) => s'.tryLevels r

/-- SELECTION_ROUND (05 R86): one ready record is picked and placed. -/
def execSelectionRound (s : State) : Out := .next (s.tryLevels [7, 6, 5, 4, 3, 2, 1, 0])

/-- The gangs of lower priority on the tiles that a queue's reserving record keeps now, each with such a tile, that it has not had pre-empted yet (05 R87). -/
def State.toDisplace (s : State) (q : Queue) (r : Staged) : List (Nat × Nat) :=
  let tiles := s.emptyDomain q r.src.task
  (s.gangs.filter fun g => (s.queue g.qid).prio g.task < 7).flatMap fun g =>
    (g.tiles.map fun k => (g.id, k.vt)).filter fun x => tiles.contains x.2 && !r.displaced.contains x

/-- A queue's reserving record has every gang of lower priority on its tiles pre-empted, once on each tile: also on tiles that its domain takes in later (05 R87). -/
def State.displace (s : State) (qid : Nat) : State :=
  let q := s.queue qid
  match q.staged with
  | none => s
  | some r =>
    if !r.reserving || r.gang.isSome then s
    else
      let l := s.toDisplace q r
      l.foldl (fun s x => s.preemptOn x.1 x.2)
        (s.modQueue qid fun x => { x with staged := some { r with displaced := r.displaced ++ l } })

/-- The clk from which a queue's ready record may reserve. -/
def Queue.reserveDue (q : Queue) : Option Nat :=
  match q.staged with
  | some y => (match y.st, y.gang with | .ready k, none => some (q.reserveAt y.src.task k) | _, _ => none)
  | none => none

/-- A record of the partition reserves, or comes to it before this clk. -/
def State.reservedFirst (s : State) (part mine : Nat) : Bool :=
  s.queues.any fun x => x.part == part &&
    ((x.staged.any fun y => y.reserving) || (x.reserveDue.any fun d => d < mine))

/-- RECORD_RESERVING (05 R87): a record that has waited long at level 7 reserves its tiles, one record of a partition at a time; gangs of lower priority on the tiles of a reserving record are pre-empted, and one not released is unbound everywhere (05 R101). -/
def execRecordReserving (qid : Nat) (s : State) : Out :=
  .next <|
    let q := s.queue qid
    match q.staged, q.reserveDue with
    | some r, some mine =>
      if r.reserving then s.displace qid
      else if s.clk < mine || s.reservedFirst q.part mine then s
      else (s.modQueue qid fun x => { x with staged := some { r with reserving := true } }).displace qid
    | _, _ => s

end Sys2Proof.Machine
end

