-- ==== Sys2Proof/Machine/Window.lean ====
section
/-! DEFINITION. The panel register space as it reads: the debug regions of the virtual tiles, the driver's blocks, and the gate of the bring-up phase (19 R384, R391, R392; 16 R326, R327; 04 R68, R69; 05 R83, R90, R93; 01 R20; 17 R360; 12 R253, R254). -/

namespace Sys2Proof.Machine

/-! Words of the debug regions (16 R326, R327). -/

/-- The number of a slot state (05 R93). -/
def SlotState.code : SlotState → Nat
  | .free => 0 | .scrub => 1 | .bound => 2 | .run => 3 | .frozen => 4 | .saving => 5 | .halted => 6

/-- The slot status word (05 R93). -/
def Thread.statusWord (t : Thread) : Word := w64 (t.st.code + t.gslot * 2 ^ 16 + t.gang * 2 ^ 32)

/-- The tile status word (01 R20). -/
def State.tileWord (s : State) (p : Nat) : Word :=
  match s.ptile? p with
  | none => 0
  | some x =>
    let st := match x.service with | .white => 0 | .amber => 1 | .grey => 2 | .black => 3
    w64 (st + ofBits x.cores * 2 ^ 2 + (match s.carried p with | none => 0 | some v => v * 2 ^ 18 + 2 ^ 30) + b2n x.fusebad * 2 ^ 31)

/-- The ageing word (17 R360). -/
def Ageing.word (a : Ageing) : Word :=
  w64 (a.scrm + a.cse * 2 ^ 12 + a.ret * 2 ^ 24 + a.marg * 2 ^ 36 + a.lostp * 2 ^ 48)

/-- DCTL (16 R327). -/
def Thread.dctl (t : Thread) : Word :=
  w64 (t.st.code + (match t.cause with | none => 0 | some c => c.code) * 2 ^ 8 + b2n t.pend * 2 ^ 16 + b2n t.bodyF * 2 ^ 17 +
    b2n t.pktHeld.isSome * 2 ^ 18 + (t.pktSeq % 2 ^ 32) * 2 ^ 32)

/-- The sequencer's words (16 R327). -/
def Thread.seqWord (t : Thread) (k : Nat) : Word :=
  match t.rep with
  | none => (t.pokedAt (0x20 + 8 * k)).getD 0
  | some r =>
    if k = 0 then w64 (r.iter % 2 ^ 32 + (r.count % 2 ^ 32) * 2 ^ 32)
    else w64 (r.idx % 32 + (r.rot % 32) * 2 ^ 5 + 2 ^ 10)

/-- A word of a loop entry: start, end, COUNT. -/
def LoopEntry.part (e : LoopEntry) (k : Nat) : Word := match k with | 0 => e.start | 1 => e.fin | _ => e.count.setWidth 64

/-- Loop entry `e` from the outermost as the window shows it, in use or not. -/
def Thread.loopAt (t : Thread) (e : Nat) : LoopEntry :=
  match t.loops.reverse[e]? with
  | some y => y
  | none =>
    let w (k : Nat) : Word := (t.pokedAt (0x48 + 24 * e + 8 * k)).getD 0
    { start := w 0, fin := w 1, count := (w 2).extractLsb' 0 32 }

/-- Entry `i` of a queue register as the window shows it, in use or not. -/
def Thread.queueAt (t : Thread) (q : QReg) (i : Nat) : Word :=
  match (t.q[q])[i]? with
  | some (.val w) => w
  | _ => (t.pokedAt (0x600 + 64 * q.val + 8 * i)).getD 0

/-- Two neighbouring 32-bit words as one of 64. -/
def pairWord (a b : Lane) : Word := w64 (a.toNat + b.toNat * 2 ^ 32)

/-- The 64-bit word at an offset of a thread area (16 R327). -/
def State.threadWord (s : State) (t : Thread) (o : Nat) : Word :=
  let k (base : Nat) : Nat := (o - base) / 8
  if o = 0 then t.dctl
  else if o = 8 then t.pc
  else if o = 0x10 then w64 t.heldBic
  else if o = 0x18 then w64 t.heldBmc
  else if o = 0x20 then t.seqWord 0
  else if o = 0x28 then t.seqWord 1
  else if o = 0x40 then w64 t.loops.length
  else if 0x48 ≤ o && o < 0xA8 then (t.loopAt (k 0x48 / 3)).part (k 0x48 % 3)
  else if 0x100 ≤ o && o < 0x300 then s.csrRead t (k 0x100)
  else if 0x300 ≤ o && o < 0x340 then (t.preg ⟨k 0x300 % 8, Nat.mod_lt _ (by decide)⟩).setWidth 64
  else if 0x340 ≤ o && o < 0x3C0 then (t.h[(⟨k 0x340 % 16, Nat.mod_lt _ (by decide)⟩ : HReg)]).word
  else if o = 0x3C0 then w64 t.mxState
  else if 0x400 ≤ o && o < 0x600 then t.sreg false ⟨k 0x400 % 64, Nat.mod_lt _ (by decide)⟩
  else if 0x600 ≤ o && o < 0x800 then
    t.queueAt ⟨k 0x600 / 8 % 8, Nat.mod_lt _ (by decide)⟩ (k 0x600 % 8)
  else if 0x800 ≤ o && o < 0x840 then queueCountWord t.q[(⟨k 0x800 % 8, Nat.mod_lt _ (by decide)⟩ : QReg)]
  else if 0x840 ≤ o && o < 0x880 then (match t.mailbox[k 0x840]? with | none => (t.pokedAt o).getD 0 | some g => g.word)
  else if 0x1000 ≤ o && o < 0x2000 then
    let v := t.v[(⟨k 0x1000 / 16 % 32, Nat.mod_lt _ (by decide)⟩ : VReg)]
    let i := k 0x1000 % 16
    pairWord (nth v.toList (2 * i) 0) (nth v.toList (2 * i + 1) 0)
  else 0

/-- The valid entry at a place of the sepia ring (12 R253). -/
def Core.sepiaAt (c : Core) (p : Nat) : Option SepiaEntry :=
  let age := (p + 512 - c.sepiaNext + c.sepia.length) % 256
  if age < c.sepia.length then c.sepia[age]? else none

/-- The two words of a sepia entry (12 R253). -/
def SepiaEntry.words (e : SepiaEntry) : Word × Word :=
  (w64 e.clk, w64 (e.addr + widthCode e.width * 2 ^ 44 + e.sthr * 2 ^ 46 + e.srank * 2 ^ 48))

/-- The sepia control word (12 R254). -/
def Core.sepiaWord (c : Core) : Word := w64 (c.sepia.length + c.sepiaNext * 2 ^ 16 + c.sepiaLost * 2 ^ 32)

/-- The screening status word of the physical core behind a slot; no thread issues the read, so INJARM is 0 (10 R216). -/
def State.screenWindow (s : State) (vt cs : Nat) : Word :=
  match s.ptile? (s.ptileOf vt), s.pcoreOf vt cs with
  | some p, some c => let x := p.screen c; w64 (b2n x.lastok + x.injok * 2 ^ 16 + x.mism * 2 ^ 32)
  | _, _ => 0

/-- A word of the per-core control blocks of a debug region. -/
def State.coreWord (s : State) (vt cs o : Nat) : Word :=
  let c := s.core vt cs
  if o < 0x2000 then
    let a := c.accum (o / 0x400)
    pairWord (nth a.words (o % 0x400 / 4) 0) (nth a.words (o % 0x400 / 4 + 1) 0)
  else if o < 0x2010 then
    w64 (packNat 16 ((List.range 4).map fun k => ofBits (c.accum (4 * ((o - 0x2000) / 8) + k)).poison))
  else if 0x3000 ≤ o && o < 0x4000 then
    match c.sepiaAt ((o - 0x3000) / 16) with
    | none => 0
    | some e => if o % 16 = 0 then e.words.1 else e.words.2
  else if o = 0x4000 then c.sepiaWord
  else if o = 0x4008 then s.screenWindow vt cs
  else if 0x8000 ≤ o && o < 0xC000 then
    let w := (o - 0x8000) * 8
    w64 (ofBits ((List.range 64).filter fun k => c.full.contains (w + k)))
  else 0

/-- A word of a gang entry: the forwarded record, the bind record and whether the gang is released (16 R326). -/
def State.gangWord (s : State) (vt gslot o : Nat) : Word :=
  match s.gslotGang vt gslot with
  | none => 0
  | some g =>
    if o < 0x80 then nth g.task (o / 8) 0
    else if o < 0xA0 then (match g.tile? vt with | none => 0 | some k => nth k.raw ((o - 0x80) / 8) 0)
    else if o = 0xA0 then w64 (b2n g.released)
    else 0

/-- The 64-bit word at an offset of a virtual tile's region (16 R326). -/
def State.debugWord (s : State) (vt o : Nat) : Word :=
  if o < 0x800000 then
    if o % 0x80000 ≥ Config.lsReserve then 0 else w64 ((s.core vt (o / 0x80000)).readLs (o % 0x80000) 8)
  else if o < 0x900000 then s.coreWord vt ((o - 0x800000) / 0x10000) (o % 0x10000)
  else if 0xC00000 ≤ o && o < 0xC80000 then s.threadWord (s.thread vt ((o - 0xC00000) / 0x2000)) (o % 0x2000)
  else if 0xC80000 ≤ o && o < 0xC84000 then s.gangWord vt ((o - 0xC80000) / 0x100) (o % 0x100)
  else if 0xCC0000 ≤ o && o < 0xCC0200 then (s.thread vt ((o - 0xCC0000) / 8)).statusWord
  else if o = 0xCC0200 then s.tileWord (s.ptileOf vt)
  else if 0xCC1000 ≤ o && o < 0xCC1100 then
    let b := s.bar vt ((o - 0xCC1000) / 16)
    let x := b.gen.toNat + ofBits b.arr * 2 ^ 16
    if o % 16 = 0 then w64 x else w64 (x / 2 ^ 64)
  else 0

/-! The driver's blocks (19 R384). -/

/-- The identity and status block (19 R391, R392). -/
def State.identWord (s : State) (o : Nat) : Word :=
  if o = 0 then w64 (s.phase + s.failCode * 2 ^ 32)
  else if o = 8 then s.serial
  else if o = 0x10 then w64 (s.fwRollback.toNat + s.fwVersion.toNat * 2 ^ 32)
  else if o = 0x18 then w64 (s.nrank + s.nvtile * 2 ^ 32)
  else if 0x20 ≤ o && o < 0x50 then nth s.fwMeasure ((o - 0x20) / 8) 0
  else 0

/-- The queue command block (04 R69): BUSY while a command runs. -/
def State.qcmdWord (s : State) (o : Nat) : Word :=
  if o = 0 then s.qcmd.q0 else if o = 8 then s.qcmd.q1 else if o = 0x10 then s.qcmd.q2
  else if o = 0x18 then w64 (b2n s.qcmd.busy * 2 + s.qcmd.result * 2 ^ 8) else 0

/-- The translation-invalidate words (11 R225). -/
def State.tinvWord (s : State) (o : Nat) : Word :=
  if o = 0 then s.tinv.t0 else if o = 8 then s.tinv.t1 else if o = 0x10 then s.tinv.t2
  else if o = 0x18 then w64 (b2n s.tinv.busy * 2 + s.tinv.result * 2 ^ 8) else 0

/-- The partition descriptor (05 R83). -/
def Partition.descriptor (p : Partition) : Word :=
  w64 (p.asid + p.pvtbase * 2 ^ 16 + p.pvtcnt * 2 ^ 32 + p.weight * 2 ^ 48 + b2n p.valid * 2 ^ 63)

/-- A RESET of the partition runs: a gang that it aborted has not retired yet (16 R335, R336). -/
def State.recBusy (s : State) (part : Nat) : Bool := (s.part part).resetting && s.gangs.any fun g => g.part == part

/-- The partition entry (05 R83, 15 R301, 16 R324, R335, 19 R379, R382), without the BUSY of its recovery word. -/
def Partition.entryWord (p : Partition) (o : Nat) : Word :=
  if o = 0 then p.descriptor
  else if o = 0x08 then w64 (p.spbase * 2 ^ 12)
  else if o = 0x10 then w64 (p.spsize + (p.spresv.foldl (fun n x => n + x.2) 0) * 2 ^ 32)
  else if o = 0x18 then w64 (p.frbase * 2 ^ 12)
  else if o = 0x20 then w64 p.frsize
  else if o = 0x28 then w64 (b2n p.drained * 2 ^ 4 + p.recres * 2 ^ 9)
  else if o = 0x30 then w64 (p.evbase * 2 ^ 12)
  else if o = 0x38 then w64 p.evsize
  else if o = 0x40 then w64 p.evmask
  else if o = 0x48 then w64 p.sampctl
  else 0

/-- The partition entry as it reads: the recovery word shows BUSY while an operation runs (16 R335). -/
def State.entryWord (s : State) (part o : Nat) : Word :=
  (s.part part).entryWord o ||| (if o = 0x28 then w64 (b2n (s.recBusy part) * 2 ^ 8) else 0)

/-- SUPV and its VALID (16 R326). -/
def State.supvWord (s : State) (p : Partition) : Word :=
  match p.supv with
  | none => 0
  | some (vt, slot) => w64 ((s.rankOf vt (slot / 4)).getD 0 + (slot % 4) * 2 ^ 16 + 2 ^ 63)

/-- The partition control block (16 R326, 19 R379, R383). -/
def State.controlWord (s : State) (p : Partition) (o : Nat) : Word :=
  if o = 0 then p.frhead.setWidth 64
  else if o = 0x08 then p.frtail.setWidth 64
  else if o = 0x10 then s.supvWord p
  else if o = 0x18 then w64 (p.lostcnt + b2n p.ringoff * 2 ^ 63)
  else if o = 0x20 then p.evhead.setWidth 64
  else if o = 0x28 then p.evtail.setWidth 64
  else if o = 0x30 then w64 p.evlost
  else if 0x100 ≤ o && o < 0x160 then w64 (nth p.counters ((o - 0x100) / 8) 0)
  else 0

/-- The number of a queue state (04 R68). -/
def QState.code : QState → Nat | .disabled => 0 | .opened => 1 | .closing => 2 | .stalled => 3

/-- The queue control block (04 R68). -/
def Queue.word (q : Queue) (o : Nat) : Word :=
  if o = 0 then q.ringbase
  else if o = 8 then w64 (q.head.toNat + q.tail.toNat * 2 ^ 32)
  else if o = 0x10 then
    w64 (q.ringlog2 + q.state.code * 2 ^ 5 + q.part * 2 ^ 8 + q.capmask * 2 ^ 16 + q.priomax * 2 ^ 20 +
      (q.inflight % 2 ^ 16) * 2 ^ 32 + (q.resume.length % 2 ^ 16) * 2 ^ 48)
  else if o = 0x18 then w64 q.acbic
  else if o = 0x20 then w64 q.acbmc
  else if o = 0x28 then w64 q.energy
  else if o = 0x30 then w64 (q.discards.toNat + q.rejects.toNat * 2 ^ 32)
  else 0

/-- The classifier word (05 R90). -/
def Queue.classWord (q : Queue) : Word := w64 (q.clsm + q.clst * 2 ^ 32 + q.cls * 2 ^ 60)

/-- The words of an HBM stack (19 R396): CAPCLK counts on while a cap is in force, from step 2 up. -/
def Stack.word (x : Stack) (clk o : Nat) : Word :=
  if o = 0 then w64 (x.temp + x.step * 2 ^ 16 + x.steps.toNat * 2 ^ 32)
  else if o = 8 then (if 2 ≤ x.step then x.capclk + w64 (clk - x.capFrom) else x.capclk) else 0

/-- The uncached-channel bits of an edge die (11 R227). -/
def State.uncachedWord (s : State) (edge half : Nat) : Word :=
  w64 (ofBits ((List.range 64).filter fun k => s.uncached.contains (edge, 64 * half + k)))

/-- The housekeeping log block (19 R385, R386). -/
def State.hkWord (s : State) (o : Nat) : Word :=
  let entry (k : Nat) : Option HkEntry := s.hklog.find? fun e => e.num % 4096 == k
  if o = 0 then w64 (s.hktail % 2 ^ 32 + s.hklost * 2 ^ 48)
  else if o = 0x40 then w64 s.hkUnits
  else if o = 0x48 then w64 s.hkBytes
  else if o = 0x50 then w64 s.hkUj
  else if 0x10000 ≤ o && o < 0x50000 then
    match entry ((o - 0x10000) / 64) with
    | none => 0
    | some e => nth e.data (o % 64 / 8) 0
  else if 0x60000 ≤ o && o < 0x68000 then
    match entry ((o - 0x60000) / 8) with
    | none => 0
    | some e => w64 (e.kind + e.part * 2 ^ 8 + (e.num % 2 ^ 32) * 2 ^ 32)
  else 0

/-- A Gorfy port block (19 R389). -/
def State.portWord (s : State) (n o : Nat) : Word :=
  let p := s.port n
  if o = 0 then w64 (b2n p.up + b2n p.retry * 2 + (s.serial.toNat % 2 ^ 24) * 2 ^ 16 + p.peer.toNat * 2 ^ 40)
  else if 0x100 ≤ o && o < 0x1100 then
    let r := p.ring ((o - 0x100) / 0x40)
    let k := o % 0x40
    if k = 0 then r.base else if k = 8 then r.cfg else if k = 0x10 then r.head.setWidth 64
    else if k = 0x18 then r.done.setWidth 64 else if k = 0x20 then r.errs.setWidth 64 else 0
  else if 0x2000 ≤ o && o < 0x2400 && o % 0x10 = 0 then
    match p.pairings.find? fun x => x.1 == (o - 0x2000) / 0x10 with
    | none => 0
    | some x => x.2
  else if 0x10000 ≤ o && o < 0x50000 && o % 0x1000 = 0 then ((p.ring ((o - 0x10000) / 0x1000)).tail).setWidth 64
  else 0

/-- Bytes kept as pairs, as a word; a byte not written is 0. -/
def bytesAt (l : List (Nat × Byte)) (a n : Nat) : Nat :=
  bytesNat ((List.range n).map fun i => match l.find? fun x => x.1 == a + i with | none => 0 | some x => x.2)

/-- The firmware-update words (19 R394). -/
def State.updateWord (s : State) (o : Nat) : Word :=
  if o = 0x6000 then w64 (b2n (s.fw.busy != 0) * 2 + s.fw.slot * 2 ^ 3 + s.fw.result * 2 ^ 8)
  else if o = 0x6008 then s.fw.upoff.setWidth 64
  else if o = 0x6010 then s.fw.uplen.setWidth 64
  else 0

/-- The attestation block (19 R394, R395). -/
def State.attestWord (s : State) (o : Nat) : Word :=
  if o = 0 then w64 (b2n s.att.busy * 2)
  else if 0x20 ≤ o && o < 0x40 then w64 (bytesAt s.att.nonce (o - 0x20) 8)
  else if 0x100 ≤ o && o < 0x6000 then nth s.att.report ((o - 0x100) / 8) 0
  else s.updateWord o

/-- The blocks above the debug regions, by offset from 0xC_0000_0000. -/
def State.blockWord (s : State) (o : Nat) : Word :=
  if o < 0x1000 then s.identWord o
  else if o < 0x2000 then s.qcmdWord (o - 0x1000)
  else if o < 0x3000 then s.tinvWord (o - 0x2000)
  else if 0x10000 ≤ o && o < 0x20000 then s.entryWord ((o - 0x10000) / 0x100) (o % 0x100)
  else if 0x100000 ≤ o && o < 0x200000 then s.controlWord (s.part ((o - 0x100000) / 0x1000)) (o % 0x1000)
  else if 0x1000000 ≤ o && o < 0x1400000 then (s.queue ((o - 0x1000000) / 64)).word (o % 64)
  else if 0x2000000 ≤ o && o < 0x2080000 then (s.queue ((o - 0x2000000) / 8)).classWord
  else if 0x2080000 ≤ o && o < 0x2100000 then s.root ((o - 0x2080000) / 8)
  else if 0x3000000 ≤ o && o < 0x3006000 then s.tileWord ((o - 0x3000000) / 8)
  else if 0x3008000 ≤ o && o < 0x300E000 then
    (match s.ptile? ((o - 0x3008000) / 8) with | none => 0 | some p => p.ageing.word)
  else if 0x3010000 ≤ o && o < 0x3010600 then (s.stack ((o - 0x3010000) / 64)).word s.clk (o % 64)
  else if 0x3020000 ≤ o && o < 0x30200C0 then s.uncachedWord ((o - 0x3020000) / 16) (o % 16 / 8)
  else if 0x4000000 ≤ o && o < 0x5000000 then s.hkWord (o - 0x4000000)
  else if 0x8000000 ≤ o && o < 0x8C00000 then s.portWord ((o - 0x8000000) / 0x100000) (o % 0x100000)
  else if 0x20000000 ≤ o && o < 0x20008000 then s.attestWord (o - 0x20000000)
  else 0

/-- The offset at which the driver's blocks begin. -/
def blockBase : Nat := 0xC00000000

/-- The block answers in the present phase (19 R391, R394). -/
def State.answers (s : State) (off : Nat) : Bool :=
  s.phase = 4 || (blockBase ≤ off && off < blockBase + 0x1000) ||
    (s.phase = 15 && blockBase + 0x20006000 ≤ off && off < blockBase + 0x20008000)

/-- The 64-bit word at an aligned offset of the register space. -/
def State.regWord (s : State) (off : Nat) : Word :=
  if !s.answers off then 0
  else if off < blockBase then s.debugWord (off / 0x1000000) (off % 0x1000000)
  else s.blockWord (off - blockBase)

/-- A read of `n` aligned bytes of the register space. -/
def State.readReg (s : State) (off n : Nat) : Nat := (s.regWord (off / 8 * 8)).toNat / 2 ^ (8 * (off % 8)) % 2 ^ (8 * n)

/-- An offset in the debug window of a partition: a tile's region or a partition control block (16 R326, R328). -/
def inDebugWindow (off : Nat) : Bool := off < blockBase || (blockBase + 0x100000 ≤ off && off < blockBase + 0x200000)

end Sys2Proof.Machine
end

