-- ==== Sys2Proof/Machine/Driver.lean ====
section
/-! DEFINITION. Writes of the panel register space, by the host and by a thread's IO stores: the debug window, partition entries, recovery, commands, doorbells, ports and update words (19 R384-R395; 16 R324, R326-R328, R335, R336; 05 R84; 15 R301; 04 R69-R71; 11 R225). -/

namespace Sys2Proof.Machine

/-- A word with the bits under a mask replaced. -/
def mergeWord (old mask val : Word) : Word := (old &&& ~~~mask) ||| (val &&& mask)

/-- The bytes that a mask of a 64-bit word covers: the first and how many. -/
def maskBytes (mask : Word) : Nat × Nat :=
  let l := (List.range 8).filter fun i => mask.bit (8 * i)
  (l.headD 0, l.length)

/-! The debug window (16 R326-R328). -/

/-- The partition whose range holds a virtual tile. -/
def State.tilePart (s : State) (vt : Nat) : Option Partition := s.parts.find? fun p => p.valid && p.holds vt

/-- A debug-window write is ignored and reported, with the window offset and the issuing rank and thread; the host issues as 0 (16 R328, 19 R386). -/
def State.windowIgnored (s : State) (src : Source) (off : Nat) : State :=
  let who : Nat := match src with
    | .host => 0
    | .thread vt slot => (s.rankOf vt (slot / 4)).getD 0 + (slot % 4) * 2 ^ 16
  match s.tilePart (off / 0x1000000) with
  | none => s.hkEvent 7 0xFF (w64 off) (w64 who)
  | some p => s.hkEvent 7 p.num (w64 (0x1000000 * (1 + off / 0x1000000 - p.pvtbase) + off % 0x1000000)) (w64 who)

/-- The FROZEN thread of a core slot whose allocation holds a local-store byte. -/
def State.frozenOwner (s : State) (vt cs a : Nat) : Option Thread :=
  (s.holders vt [cs]).find? fun t => t.st == .frozen && (let o := s.ownAlloc t; o.1 ≤ a && a < o.1 + o.2)

/-- A FROZEN thread of a core slot holds a physical accumulator. -/
def State.frozenAcc (s : State) (vt cs a : Nat) : Bool :=
  (s.holders vt [cs]).any fun t => t.st == .frozen && (match s.tileOf t with | none => false | some k => (nth k.amask t.thr []).contains a)

/-- A write to a CSR of a FROZEN thread's area: SV fields accept it, read-only fields do not, and a value that the register rejects leaves it (16 R328). -/
def State.csrPoke (s : State) (t : Thread) (n : Nat) (x : Word) : State :=
  let put (f : Thread → Thread) : State := s.modThread t.vt t.slot f
  if csrRejects n x then s
  else
    match n with
    | 0x000 => put fun t => { t with bic := x.field 0 48 }
    | 0x001 => put fun t => { t with bmc := x.field 0 48 }
    | 0x002 => put fun t => { t with grace := min (x.field 0 13) 4096 }
    | 0x020 => put fun t => { t with memctl := x.extractLsb' 0 8 }
    | 0x021 => put fun t => { t with rmode := x.extractLsb' 0 6 }
    | 0x022 => put fun t => { t with fflags := x.extractLsb' 0 6 }
    | 0x023 => put fun t => { t with seed := x }
    | 0x024 => put fun t => { t with tidbase := x.field 12 7 * 4096 }
    | 0x028 => put fun t => { t with loops := writeCount x t.loops }
    | 0x031 => s.modGang t.gang fun g => { g with wdtLeft := min (x.field 0 32) (recWdt g.task), wdtClk := s.clk, wdtStop := false }
    | _ => s

/-- The window holds a word for a place that is not in use. -/
def Thread.poked1 (t : Thread) (o : Nat) (x : Word) : Thread :=
  { t with poked := (o, x) :: t.poked.filter fun p => p.1 != o }

/-- A new DEPTH of the loop stack: its entries are what the window shows of them, and those that leave it are kept there. -/
def Thread.setDepth (t : Thread) (n : Nat) : Thread :=
  let out := (List.range 4).filter fun e => n ≤ e
  out.foldl (fun u e => (List.range 3).foldl (fun u k => u.poked1 (0x48 + 24 * e + 8 * k) ((t.loopAt e).part k)) u)
    { t with loops := ((List.range n).map t.loopAt).reverse }

/-- A new COUNT and EOS map of a queue register: its entries are what the window shows of them, and those that are EOS or leave it are kept there. -/
def Thread.setCount (t : Thread) (q : QReg) (n eos : Nat) : Thread :=
  let out := (List.range 8).filter fun i => n ≤ i || eos.testBit i
  out.foldl (fun u i => u.poked1 (0x600 + 64 * q.val + 8 * i) (t.queueAt q i))
    { t with q := t.q.set q ((List.range n).map fun i => if eos.testBit i then .eos else .val (t.queueAt q i)) }

/-- Mailbox entries that the window holds beyond the end of the mailbox follow it without a gap and join it. -/
def Thread.joinMail : Nat → Thread → Thread
  | 0, t => t
  | n + 1, t =>
    let o := 0x840 + 8 * t.mailbox.length
    match (t.pokedAt o).bind Signal.ofWord with
    | some g => Thread.joinMail n { t with mailbox := t.mailbox ++ [g], poked := t.poked.filter fun p => p.1 != o }
    | none => t

/-- Writes mailbox entry `m` in its place: replaced, set behind the others, or removed, with those after it left where they are. -/
def Thread.putMail (t : Thread) (m : Nat) (x : Word) : Thread :=
  match Signal.ofWord x with
  | some g => if m < t.mailbox.length then { t with mailbox := t.mailbox.set m g } else Thread.joinMail 8 (t.poked1 (0x840 + 8 * m) g.word)
  | none =>
    let after := t.mailbox.zipIdx.filter fun g => m < g.2
    after.foldl (fun u g => u.poked1 (0x840 + 8 * g.2) g.1.word)
      { t with mailbox := t.mailbox.take m, poked := t.poked.filter fun p => p.1 != 0x840 + 8 * m }

/-- A handle may be written only to EMPTY, and only from COMPLETE (16 R328). -/
def handleWritable (h : Handle) (x : Word) : Bool :=
  x.field 60 4 = 0 && (match h with | .complete _ _ _ _ => true | _ => false)

/-- The sequencer's second word with ACTIVE 0: a running sequencer ends, and the window keeps its counts, its body index and its rotation as written. -/
def Thread.setSeq (t : Thread) (x : Word) : Thread :=
  let t := match t.rep with
    | none => t
    | some _ => { t.poked1 0x20 (t.seqWord 0) with rep := none }
  t.poked1 0x28 (x &&& 0x3FF)

/-- What a write to a word of a FROZEN thread's area makes of the thread (16 R327, R328); `none` where the write is ignored and reported: a handle's, and a sequencer's active bit with no body to run. A place that is not in use takes its word and shows it; it comes into use with DEPTH, COUNT, its EOS bit or the mailbox entries before it (log entry 72). -/
def Thread.poke (t : Thread) (o : Nat) (x : Word) : Option Thread :=
  let k (base : Nat) : Nat := (o - base) / 8
  if o = 8 then some { t with pc := x }
  else if o = 0x10 then some { t with heldBic := x.field 0 48 }
  else if o = 0x18 then some { t with heldBmc := x.field 0 48 }
  else if o = 0x20 then
    some (match t.rep with
      | none => t.poked1 o x
      | some r => { t with rep := some { r with iter := x.field 0 32, count := x.field 32 32 } })
  else if o = 0x28 then
    if !x.bit 10 then some (t.setSeq x)
    else t.rep.map fun r => { t with rep := some { r with idx := min (x.field 0 5) (r.body.length - 1), rot := x.field 5 5 % max 1 r.wsize } }
  else if o = 0x40 then some (t.setDepth (min (x.field 0 3) 4))
  else if 0x48 ≤ o && o < 0xA8 then
    let e := k 0x48 / 3
    let l := t.loops.reverse
    match l[e]? with
    | none => some (t.poked1 o x)
    | some y =>
      let y := match k 0x48 % 3 with
        | 0 => { y with start := x }
        | 1 => { y with fin := x }
        | _ => { y with count := x.extractLsb' 0 32 }
      some { t with loops := (l.set e y).reverse }
  else if 0x300 ≤ o && o < 0x340 then some (t.setP ⟨k 0x300 % 8, Nat.mod_lt _ (by decide)⟩ (x.extractLsb' 0 32))
  else if 0x340 ≤ o && o < 0x3C0 then
    let h : HReg := ⟨k 0x340 % 16, Nat.mod_lt _ (by decide)⟩
    if handleWritable t.h[h] x then some (t.setH (some h) .empty) else none
  else if o = 0x3C0 then
    some { t with
      mrow := x.extractLsb' 0 16, mcol := x.extractLsb' 16 16, mdep := x.extractLsb' 32 16,
      injpl := x.extractLsb' 48 5, injarm := x.bit 53 }
  else if 0x400 ≤ o && o < 0x600 then some (t.setS ⟨k 0x400 % 64, Nat.mod_lt _ (by decide)⟩ x)
  else if 0x600 ≤ o && o < 0x800 then
    let q : QReg := ⟨k 0x600 / 8 % 8, Nat.mod_lt _ (by decide)⟩
    let i := k 0x600 % 8
    some (match (t.q[q])[i]? with
      | some (.val _) => { t with q := t.q.set q ((t.q[q]).set i (.val x)) }
      | _ => t.poked1 o x)
  else if 0x800 ≤ o && o < 0x840 then
    let q : QReg := ⟨k 0x800 % 8, Nat.mod_lt _ (by decide)⟩
    some (t.setCount q (min (x.field 0 4) 8) (x.field 8 8))
  else if 0x840 ≤ o && o < 0x880 then some (t.putMail (k 0x840) x)
  else if 0x1000 ≤ o && o < 0x2000 then
    let v : VReg := ⟨k 0x1000 / 16 % 32, Nat.mod_lt _ (by decide)⟩
    let i := k 0x1000 % 16
    some { t with v := t.v.set v (vput (vput t.v[v] (2 * i) (x.extractLsb' 0 32)) (2 * i + 1) (x.extractLsb' 32 32)) }
  else some t

/-- A write to a thread area (16 R327, R328); DCTL ignores it. -/
def State.threadWrite (s : State) (src : Source) (off vt slot o : Nat) (mask val : Word) : State :=
  let t := s.thread vt slot
  if o = 0 then s
  else if t.st ≠ .frozen then s.windowIgnored src off
  else
    let x := mergeWord (s.threadWord t o) mask val
    if 0x100 ≤ o && o < 0x300 then s.csrPoke t ((o - 0x100) / 8) x
    else
      match t.poke o x with
      | none => s.windowIgnored src off
      | some t' => s.putThread t'

/-- A write to local-store bytes: those of one FROZEN thread's allocation (16 R328). -/
def State.lsWrite (s : State) (src : Source) (off vt o : Nat) (mask val : Word) : State :=
  let cs := o / 0x80000
  let m := maskBytes mask
  let a := o % 0x80000 + m.1
  match s.frozenOwner vt cs a with
  | none => s.windowIgnored src off
  | some _ => if o % 0x80000 ≥ Config.lsReserve then s.windowIgnored src off
    else s.modCore vt cs fun c => c.store a (natBytes m.2 (val.toNat / 2 ^ (8 * m.1)))

/-- A write to a word of a core's control blocks (16 R326, R328; 12 R254). -/
def State.coreWrite (s : State) (src : Source) (off vt cs o : Nat) (mask val : Word) : State :=
  if o < 0x2000 then
    let a := o / 0x400
    let w := o % 0x400 / 4
    if s.frozenAcc vt cs a then
      s.modCore vt cs fun c => c.modAcc a fun x =>
        let put (i : Nat) : List (Nat × Lane) := if mask.bit (32 * i) then [(w + i, val.extractLsb' (32 * i) 32)] else []
        x.put (put 0 ++ put 1)
    else s.windowIgnored src off
  else if o < 0x2010 then
    let accs := (List.range 4).map fun k => (4 * ((o - 0x2000) / 8) + k, bitsOf ((val &&& mask).field (16 * k) 16) 16)
    let asked := accs.filter fun x => !x.2.isEmpty
    let s' := (asked.filter fun x => s.frozenAcc vt cs x.1).foldl (fun s x => s.modCore vt cs fun c =>
      c.modAcc x.1 fun y => { y with poison := y.poison.filter fun r => !x.2.contains r }) s
    if asked.any fun x => !s.frozenAcc vt cs x.1 then s'.windowIgnored src off else s'
  else if o = 0x4000 then
    if (val &&& mask).bit 31 then s.modCore vt cs fun c => { c with sepia := [], sepiaLost := 0 } else s
  else if 0x8000 ≤ o && o < 0xC000 then
    let w := (o - 0x8000) * 8
    match s.frozenOwner vt cs (4 * w) with
    | none => s.windowIgnored src off
    | some _ => s.modCore vt cs fun c =>
        (bitsOf mask.toNat 64).foldl (fun c k => c.setTag (w + k) (val.bit k)) c
  else s.windowIgnored src off

/-- A write to a virtual tile's region (16 R328): gang entries ignore it, and what is not listed as writable ignores and reports it. -/
def State.debugWrite (s : State) (src : Source) (off : Nat) (mask val : Word) : State :=
  let vt := off / 0x1000000
  let o := off % 0x1000000
  if o < 0x800000 then s.lsWrite src off vt o mask val
  else if o < 0x900000 then s.coreWrite src off vt ((o - 0x800000) / 0x10000) (o % 0x10000) mask val
  else if 0xC00000 ≤ o && o < 0xC80000 then s.threadWrite src off vt ((o - 0xC00000) / 0x2000) (o % 0x2000) mask val
  else if 0xC80000 ≤ o && o < 0xC84000 then s
  else s.windowIgnored src off

/-! Partition entries (05 R84, 15 R301, 16 R324, 19 R379, R382). -/

/-- A write of a partition's entry is refused: a log entry names the register's offset (19 R386). -/
def State.entryRefused (s : State) (part o : Nat) : State :=
  s.hkEvent 6 part (w64 part) (w64 (blockBase + 0x10000 + 0x100 * part + o))

/-- Whether two partitions' ranges meet. -/
def tilesMeet (b1 n1 b2 n2 : Nat) : Bool := b1 < b2 + n2 && b2 < b1 + n1

/-- Work of the partition stands in the way of clearing VALID (05 R84). -/
def State.partBusy (s : State) (part : Nat) : Bool :=
  (s.queues.any fun q => q.part == part && q.state != .disabled) || s.gangs.any fun g => g.part == part

/-- A write of the partition descriptor (05 R83, R84). -/
def State.descWrite (s : State) (part : Nat) (x : Word) : State :=
  let p := s.part part
  let base := x.field 16 12
  let cnt := x.field 32 12
  let ok :=
    if p.valid then !x.bit 63 && !s.partBusy part
    else if x.bit 63 then
      1 ≤ cnt && base + cnt ≤ s.nvtile && !(s.parts.any fun y => y.valid && y.num != part && tilesMeet base cnt y.pvtbase y.pvtcnt)
    else true
  if ok then
    s.modPart part fun p =>
      { p with valid := x.bit 63, weight := x.field 48 8, pvtcnt := cnt, pvtbase := base, asid := x.field 0 16,
               counters := if !p.valid && x.bit 63 then List.replicate 12 0 else p.counters }
  else s.entryRefused part 0

/-- A power of two in a range. -/
def powerIn (n lo hi : Nat) : Bool := lo ≤ n && n ≤ hi && n == 2 ^ n.log2

/-- RESET of a drained partition (16 R336): it runs until the gangs that it aborts have retired. -/
def State.resetPart (s : State) (part : Nat) : State :=
  let gs := (s.gangs.filter fun g => g.part == part).map (·.id)
  let s := gs.foldl (fun s g => s.abortGang g 8 0) s
  let s : State := { s with
    spawns := s.spawns.filter fun x => !gs.contains x.gang
    heldBinds := s.heldBinds.filter fun b => !(s.part part).holds b.1
    cores := s.cores.map fun (c : Core) =>
      { c with remoteQ := c.remoteQ.filter (fun r => !gs.contains r.gang), sendQ := c.sendQ.filter (fun o => o.spart != part) } }
  s.modPart part fun p => { p with frhead := p.frtail, supv := none, recres := 0, resetting := true }

/-- DRAIN: every released gang is pre-empted (16 R336). -/
def State.drainPart (s : State) (part : Nat) : State :=
  (s.gangs.filter fun g => g.part == part && g.released).foldl (fun s g => s.preemptGang g)
    (s.modPart part fun p => { p with drained := true, recres := 0, resetting := false })

/-- An operation of the recovery word (16 R335, R336); one written while another runs is ignored (log entry 26). -/
def State.recover (s : State) (part op : Nat) : State :=
  let res (n : Nat) : State := s.modPart part fun p => { p with recres := n }
  if s.recBusy part then s
  else match op with
  | 1 => s.drainPart part
  | 2 => if (s.part part).drained then s.resetPart part else res 1
  | 3 => s.modPart part fun p => { p with drained := false, recres := 0, resetting := false }
  | _ => res 2

/-- A write of a word of a partition's entry. -/
def State.entryWrite (s : State) (part o : Nat) (mask val : Word) : State :=
  let p := s.part part
  let x := mergeWord (p.entryWord o) mask val
  let put (f : Partition → Partition) : State := s.modPart part f
  let ring := !p.valid || p.ringoff
  if o = 0 then s.descWrite part x
  else if o = 0x08 then if p.valid then s.entryRefused part o else put fun p => { p with spbase := x.field 12 36 }
  else if o = 0x10 then if p.valid then s.entryRefused part o else put fun p => { p with spsize := x.field 0 32 }
  else if o = 0x18 then if ring then put fun p => { p with frbase := x.field 12 36, ringoff := false } else s.entryRefused part o
  else if o = 0x20 then
    let n := x.field 0 16
    if ring && (n = 0 || powerIn n 16 32768) then put fun p => { p with frsize := n } else s.entryRefused part o
  else if o = 0x28 then if mask.bit 0 then s.recover part (val.field 0 4) else s
  else if o = 0x30 then if p.valid then s.entryRefused part o else put fun p => { p with evbase := x.field 12 36 }
  else if o = 0x38 then
    let n := x.field 0 17
    if !p.valid && (n = 0 || powerIn n 64 65536) then put fun p => { p with evsize := n } else s.entryRefused part o
  else if o = 0x40 then put fun p => { p with evmask := x.toNat &&& 0x7FE }
  else if o = 0x48 then put fun p => { p with sampctl := x.field 0 6 }
  else s

/-- A write of a word of a partition control block: FRHEAD and EVHEAD up to their tails (16 R326, 19 R379). -/
def State.controlWrite (s : State) (part o : Nat) (mask val : Word) : State :=
  let p := s.part part
  let x : BitVec 32 := (mergeWord (s.controlWord p o) mask val).extractLsb' 0 32
  if o = 0 then
    if (x - p.frhead).toNat ≤ (p.frtail - p.frhead).toNat then s.modPart part fun p => { p with frhead := x } else s
  else if o = 0x20 then
    if (x - p.evhead).toNat ≤ (p.evtail - p.evhead).toNat then s.modPart part fun p => { p with evhead := x } else s
  else s

/-! Commands (04 R69, 11 R225). -/

/-- A write of the queue command block (04 R69): a GO starts the command; QCMD0 to QCMD2 keep their values while one runs, and a GO is then ignored (log entry 66). -/
def State.qcmdWrite (s : State) (src : Source) (o : Nat) (mask val : Word) : State :=
  let x := mergeWord (s.qcmdWord o) mask val
  if s.qcmd.busy then s
  else if o = 0 then { s with qcmd := { s.qcmd with q0 := x &&& 0xFFFFF0FFFFF } }
  else if o = 8 then { s with qcmd := { s.qcmd with q1 := x } }
  else if o = 0x10 then { s with qcmd := { s.qcmd with q2 := x } }
  else if o = 0x18 && (val &&& mask).bit 0 then { s with qcmd := { s.qcmd with busy := true, src := src } }
  else s

/-- The running queue command takes effect, and BUSY clears as RESULT is written (04 R70). -/
def State.commandTurn (s : State) : State :=
  if s.qcmd.busy then
    let s := s.queueCommand s.qcmd.src
    { s with qcmd := { s.qcmd with busy := false } }
  else s

/-- The command's VA or LEN is bad (11 R225). -/
def TInv.bad (c : TInv) : Bool :=
  c.t0.bit 16 && (c.t1.toNat % 4096 ≠ 0 || c.t1.toNat ≥ 2 ^ 48 || c.t2.toNat = 0 || c.t2.toNat % 4096 ≠ 0 || c.t1.toNat + c.t2.toNat > 2 ^ 48)

/-- The range of the command: first byte and bytes (11 R225). -/
def TInv.range (c : TInv) : Nat × Nat := if c.t0.bit 16 then (c.t1.toNat, c.t2.toNat) else (0, 2 ^ 48)

/-- An access of an address space that has translated and not completed may have used an entry that maps a byte of a range: a memory-side operation that waits, or a held IO store. No leaf is larger than 1 GiB (11 R222, R224). -/
def State.translatedEarlier (s : State) (asid : Nat) (r : Nat × Nat) : Bool :=
  let near (va : Nat) : Bool := va / 2 ^ 30 * 2 ^ 30 < r.1 + r.2 && r.1 < (va / 2 ^ 30 + 1) * 2 ^ 30
  (s.memOps.any fun m => m.asid == asid && near m.va) ||
    s.threads.any fun t => s.asidOf t == asid && t.ioHeld.any fun x => near x.va

/-- A GO of the translation-invalidate command starts it, or ends it with result 2; one written while a command runs is ignored (11 R225). -/
def State.invalidateGo (s : State) : State :=
  if s.tinv.busy then s
  else if s.tinv.bad then { s with tinv := { s.tinv with result := 2 } }
  else { s with tinv := { s.tinv with busy := true } }

/-- A running command ends once no access that translated earlier is outstanding: every tile has dropped the entries (11 R224, R225). -/
def State.invalidate (s : State) : State :=
  let asid := s.tinv.t0.toNat % 2 ^ 16
  let r := s.tinv.range
  if !s.tinv.busy || s.translatedEarlier asid r then s
  else { s.dropCached asid r.1 r.2 with tinv := { s.tinv with busy := false, result := 0 } }

/-- A write of the translation-invalidate words: TINV0 to TINV2 keep their values while a command runs (11 R225). -/
def State.tinvWrite (s : State) (o : Nat) (mask val : Word) : State :=
  let x := mergeWord (s.tinvWord o) mask val
  if o = 0x18 then (if (val &&& mask).bit 0 then s.invalidateGo else s)
  else if s.tinv.busy then s
  else if o = 0 then { s with tinv := { s.tinv with t0 := x &&& 0x1FFFF } }
  else if o = 8 then { s with tinv := { s.tinv with t1 := x } }
  else if o = 0x10 then { s with tinv := { s.tinv with t2 := x } }
  else s

/-- A write of a root-table entry (11 R222). -/
def State.rootWrite (s : State) (asid : Nat) (mask val : Word) : State :=
  let x := mergeWord (s.root asid) mask val &&& 0xFFFFFFFFFF001
  { s with roots := upsert (fun r => r.1 == asid) (asid, x) (fun _ => (asid, x)) s.roots }

/-! Ports (19 R388, R389). -/

/-- A write of RCFG (19 R389): EN starts the ring with HEAD and TAIL at 0; while it is set only a write that clears it acts. -/
def State.ringConfig (s : State) (n r : Nat) (x : Word) : State :=
  let put (f : PortRing → PortRing) : State := s.modPort n fun p => p.modRing r f
  let cur := (s.port n).ring r
  let x := x &&& 0x8000FFFFFFFFFF0F
  if cur.cfg.bit 63 then
    if x.bit 63 then s else put fun y => { y with cfg := y.cfg &&& 0x7FFFFFFFFFFFFFFF, desc := none, data := [] }
  else if x.bit 63 && 4 ≤ x.field 0 4 && x.field 0 4 ≤ 12 && (s.part (x.field 8 8)).valid then
    put fun y => { y with cfg := x, head := 0, tail := 0 }
  else put fun y => { y with cfg := x &&& 0x7FFFFFFFFFFFFFFF }

/-- A doorbell value reaches a send ring (19 R389, 04 R71): one beyond the ring is reported, with a P0 that is a free value (log entry 27). -/
def State.ringPort (s : State) (n r : Nat) (val : BitVec 32) : State :=
  let x := (s.port n).ring r
  let ahead := (val - x.tail).toNat
  let span := (val - x.head).toNat
  if x.cfg.bit 63 && ahead ≠ 0 && ahead < 2 ^ 31 && span ≤ 2 ^ x.cfg.field 0 4 && (x.tail - x.head).toNat ≤ span then
    s.modPort n fun p => p.modRing r fun y => { y with tail := val }
  else if x.cfg.bit 63 && ahead ≠ 0 && ahead < 2 ^ 31 then
    let w := s.freshWord
    w.1.hkEvent 3 (x.cfg.field 8 8) w.2 (val.setWidth 64)
  else s

/-- A write of a port block. -/
def State.portWrite (s : State) (n o : Nat) (mask val : Word) : State :=
  let x := mergeWord (s.portWord n o) mask val
  if 0x100 ≤ o && o < 0x1100 then
    let r := (o - 0x100) / 0x40
    if o % 0x40 = 0 then
      if ((s.port n).ring r).cfg.bit 63 then s else s.modPort n fun p => p.modRing r fun y => { y with base := x }
    else if o % 0x40 = 8 then s.ringConfig n r x
    else s
  else if 0x2000 ≤ o && o < 0x2400 && o % 0x10 = 0 then
    let i := (o - 0x2000) / 0x10
    let w := x &&& 0x8000FFFFFFFFFF00
    s.modPort n fun p => { p with pairings := upsert (fun y => y.1 == i) (i, w) (fun _ => (i, w)) p.pairings }
  else if 0x10000 ≤ o && o < 0x50000 && o % 0x1000 = 0 && mask.bit 0 then s.ringPort n ((o - 0x10000) / 0x1000) (val.extractLsb' 0 32)
  else s

/-! Update and attestation (19 R394, R395). -/

/-- Writes bytes kept as pairs. -/
def putBytesAt (l : List (Nat × Byte)) (a : Nat) (mask val : Word) : List (Nat × Byte) :=
  ((List.range 8).filter fun i => mask.bit (8 * i)).foldl (fun l i =>
    let b : Byte := val.extractLsb' (8 * i) 8
    upsert (fun x => x.1 == a + i) (a + i, b) (fun _ => (a + i, b)) l) l

/-- The size of a firmware slot. -/
def slotSize : Nat := 2 ^ 26

/-- The slot that a GO with OFF = 0 selects (19 R394). -/
def State.olderSlot (s : State) : Nat :=
  if s.phase = 4 then 1 - s.fw.running
  else
    let v (n : Nat) : Option Nat := match s.fw.slots[n]? with | none => none | some x => x.version
    match v 0, v 1 with
    | none, _ => 0
    | some _, none => 1
    | some a, some b => if b < a then 1 else 0

/-- A GO or a COMMIT of UPCTL (19 R394). -/
def State.updateGo (s : State) (commit : Bool) : State :=
  if s.att.busy then { s with fw := { s.fw with result := 3 } }
  else if commit then
    if s.fw.uplen.toNat > slotSize then { s with fw := { s.fw with result := 1 } } else { s with fw := { s.fw with busy := 2 } }
  else if s.fw.upoff.toNat % 4096 ≠ 0 || s.fw.upoff.toNat ≥ slotSize then { s with fw := { s.fw with result := 1 } }
  else { s with fw := { s.fw with busy := 1, slot := if s.fw.upoff = 0 then s.olderSlot else s.fw.slot } }

/-- A write of the firmware-update words (19 R394); while BUSY it is ignored. -/
def State.updateWrite (s : State) (o : Nat) (mask val : Word) : State :=
  let x := mergeWord (s.updateWord o) mask val
  if s.fw.busy ≠ 0 then s
  else if o = 0x6000 then
    if (val &&& mask).bit 0 then s.updateGo false else if (val &&& mask).bit 2 then s.updateGo true else s
  else if o = 0x6008 then { s with fw := { s.fw with upoff := x.extractLsb' 0 32 } }
  else if o = 0x6010 then { s with fw := { s.fw with uplen := x.extractLsb' 0 32 } }
  else if 0x7000 ≤ o && o < 0x8000 then { s with fw := { s.fw with window := putBytesAt s.fw.window (o - 0x7000) mask val } }
  else s

/-- A write of the attestation block (19 R395). -/
def State.attestWrite (s : State) (o : Nat) (mask val : Word) : State :=
  if o = 0 then if (val &&& mask).bit 0 && !s.att.busy then { s with att := { s.att with busy := true } } else s
  else if 0x20 ≤ o && o < 0x40 then { s with att := { s.att with nonce := putBytesAt s.att.nonce (o - 0x20) mask val } }
  else s.updateWrite o mask val

/-! The register space (19 R384). -/

/-- A write of a word of the driver's blocks. -/
def State.blockWrite (s : State) (src : Source) (o : Nat) (mask val : Word) : State :=
  if 0x1000 ≤ o && o < 0x2000 then s.qcmdWrite src (o - 0x1000) mask val
  else if 0x2000 ≤ o && o < 0x3000 then s.tinvWrite (o - 0x2000) mask val
  else if 0x10000 ≤ o && o < 0x20000 then s.entryWrite ((o - 0x10000) / 0x100) (o % 0x100) mask val
  else if 0x100000 ≤ o && o < 0x200000 then s.controlWrite ((o - 0x100000) / 0x1000) (o % 0x1000) mask val
  else if 0x2080000 ≤ o && o < 0x2100000 then s.rootWrite ((o - 0x2080000) / 8) mask val
  else if 0x8000000 ≤ o && o < 0x8C00000 then s.portWrite ((o - 0x8000000) / 0x100000) (o % 0x100000) mask val
  else if 0x10000000 ≤ o && o < 0x20000000 then
    if o % 0x1000 = 0 && mask.bit 0 then s.ringDoorbell ((o - 0x10000000) / 0x1000) (val.extractLsb' 0 32) else s
  else if 0x20000000 ≤ o && o < 0x20008000 then s.attestWrite (o - 0x20000000) mask val
  else s

/-- A write of `n` aligned bytes of the register space. -/
def State.writeReg (s : State) (src : Source) (off n : Nat) (val : Word) : State :=
  if !(n = 1 || n = 2 || n = 4 || n = 8) || off % n ≠ 0 || !s.answers off then s
  else
    let mask := w64 ((2 ^ (8 * n) - 1) * 2 ^ (8 * (off % 8)))
    let v := w64 (val.toNat % 2 ^ (8 * n) * 2 ^ (8 * (off % 8)))
    let a := off / 8 * 8
    if a < blockBase then s.debugWrite src a mask v else s.blockWrite src (a - blockBase) mask v

/-! The events. -/

/-- The offset of a word of a partition's entry. -/
def entryOff (part o : Nat) : Nat := blockBase + 0x10000 + 0x100 * (part % 256) + o

/-- The offset of a word of a partition's control block. -/
def controlOff (part o : Nat) : Nat := blockBase + 0x100000 + 0x1000 * (part % 256) + o

/-- PARTITION_DESCRIPTOR_WRITE (05 R84). -/
def execPartitionDescriptorWrite (part : Nat) (val : Word) (s : State) : Out := .next (s.writeReg .host (entryOff part 0) 8 val)
/-- SAVE_POOL_WRITE (15 R301): SPBASE or SPSIZE. -/
def execSavePoolWrite (part : Nat) (size : Bool) (val : Word) (s : State) : Out :=
  .next (s.writeReg .host (entryOff part (if size then 0x10 else 0x08)) 8 val)
/-- FAULT_RING_WRITE (16 R324, R325): FRBASE or FRSIZE. -/
def execFaultRingWrite (part : Nat) (size : Bool) (val : Word) (s : State) : Out :=
  .next (s.writeReg .host (entryOff part (if size then 0x20 else 0x18)) 8 val)
/-- FRHEAD_WRITE (16 R326). -/
def execFrheadWrite (part : Nat) (val : BitVec 32) (s : State) : Out := .next (s.writeReg .host (controlOff part 0) 4 (val.setWidth 64))
/-- DRAIN (16 R336). -/
def execDrain (part : Nat) (s : State) : Out := .next (s.writeReg .host (entryOff part 0x28) 8 1)
/-- RESET (16 R336). -/
def execReset (part : Nat) (s : State) : Out := .next (s.writeReg .host (entryOff part 0x28) 8 2)
/-- UNDRAIN (16 R336). -/
def execUndrain (part : Nat) (s : State) : Out := .next (s.writeReg .host (entryOff part 0x28) 8 3)
/-- A write of the host to the register space (17 R342): one to the region of a virtual tile whose traffic is held waits at its router, behind those that wait already. -/
def State.hostWrite (s : State) (src : Source) (off width : Nat) (val : Word) : State :=
  if src == .host && off < blockBase && (s.trafficHeld (off / 0x1000000) || s.windowHeld.any fun w => w.off / 0x1000000 == off / 0x1000000) then
    { s with windowHeld := s.windowHeld ++ [{ off := off, width := width, val := val }] }
  else s.writeReg src off width val

/-- The oldest held write of the host to a virtual tile whose traffic is held no more takes effect (17 R342). -/
def State.windowTurn (s : State) : State :=
  match s.windowHeld.findIdx? fun w => !s.trafficHeld (w.off / 0x1000000) with
  | none => s
  | some i =>
    match s.windowHeld[i]? with
    | none => s
    | some w => ({ s with windowHeld := s.windowHeld.eraseIdx i } : State).writeReg .host w.off w.width w.val

/-- DEBUG_WINDOW_WRITE (16 R328, 17 R342): a write at an offset of a virtual tile's region or of a partition control block. -/
def execDebugWindowWrite (src : Source) (off width : Nat) (val : Word) (s : State) : Out :=
  .next (if inDebugWindow off then s.hostWrite src off width val else s)
/-- SEPIA_CLR (12 R254). -/
def execSepiaClr (vt slot : Nat) (s : State) : Out :=
  .next (s.hostWrite .host (0x1000000 * (vt % 3072) + 0x804000 + 0x10000 * (slot % 16)) 4 (w64 (2 ^ 31)))
/-- EVENT_STREAM_WRITE (19 R379): EVBASE (0), EVSIZE (1) or EVCTL (2). -/
def execEventStreamWrite (part which : Nat) (val : Word) (s : State) : Out :=
  .next (if which < 3 then s.writeReg .host (entryOff part (0x30 + 8 * which)) 8 val else s)
/-- EVHEAD_WRITE (19 R379). -/
def execEvheadWrite (part : Nat) (val : BitVec 32) (s : State) : Out := .next (s.writeReg .host (controlOff part 0x20) 4 (val.setWidth 64))
/-- REGISTER_WRITE (00 R8, 19 R384): any aligned write of the register space. -/
def execRegisterWrite (src : Source) (off width : Nat) (val : Word) (s : State) : Out := .next (s.hostWrite src off width val)
/-- TRANSLATION_INVALIDATE (11 R225): the running command completes where it can. -/
def execTranslationInvalidate (s : State) : Out := .next s.invalidate
/-- PORT_RING_ENABLE (19 R389): a write of RCFG. -/
def execPortRingEnable (port ring : Nat) (val : Word) (s : State) : Out :=
  .next (s.writeReg .host (blockBase + 0x8000000 + 0x100000 * (port % 12) + 0x108 + 0x40 * (ring % 64)) 8 val)
/-- PORT_DOORBELL (19 R389). -/
def execPortDoorbell (port ring : Nat) (val : BitVec 32) (s : State) : Out :=
  .next (s.writeReg .host (blockBase + 0x8000000 + 0x100000 * (port % 12) + 0x10000 + 0x1000 * (ring % 64)) 4 (val.setWidth 64))
/-- ATTESTATION (19 R395): GO. -/
def execAttestation (s : State) : Out := .next (s.writeReg .host (blockBase + 0x20000000) 8 1)

end Sys2Proof.Machine
end

