-- ==== Sys2Proof/Machine/Global.lean ====
section
/-! DEFINITION. Direct global loads and stores: through a stash entry, at a slice, at the base logic, or in the register window (11 R228, R230; 16 R328). -/

namespace Sys2Proof.Machine

/-- What a direct access needs of its page: IO pages take widths of 4 and 8 bytes alone (11 R228). -/
def needDirect (write : Bool) (n : Nat) : Need := { suits := fun _ io => !io || 4 ≤ n, write := write, fetch := false }

/-- Where a direct access goes once it has translated. -/
inductive Direct
  | stash (e : Stash) (loc : Nat)
  | hbm (pa : Nat)
  | side (pa : Nat)
  | reg (va off : Nat)

/-- A direct access: alignment, translation, then the place it goes, with the state its touch leaves where it waits (11 R228, R230). -/
def State.withDirect (s : State) (t : Thread) (va : Word) (n : Nat) (write : Bool) (body : Direct → Res) : Res :=
  if va.toNat % n ≠ 0 then .fault { cause := .align, addr := va }
  else
    match s.translate (s.spaceOf t) va.toNat (needDirect write n) with
    | .err e => .fault (transFault va.toNat (if write then .write else .read) e)
    | .ok m =>
      match (s.core t.vt t.cslot).stash.find? fun e => e.owner == t.slot && e.meetsGlobal va.toNat n with
      | some e =>
        let loc := e.lbase + (va.toNat - e.gbase)
        match s.lsCheckOne t { addr := loc, width := n, bytes := n, write := write } with
        | .fault f => .fault f
        | .wait s => .wait s (.stall 12)
        | .ok => body (.stash e loc)
      | none =>
        if m.io then
          let off := m.pa - Config.regBase
          if inDebugWindow off && !s.hasCap t 2 then .fault { cause := .capability, addr := va, info := 2 }
          else if !write && off < blockBase && s.trafficHeld (off / 0x1000000) then .wait s (.stall 14)
          else body (.reg va.toNat off)
        else if m.ms then body (.side m.pa)
        else body (.hbm m.pa)

/-- A load of HBM bytes, or MEMERR (11 R228, R398). -/
def hbmLoad (s : State) (va : Word) (pa n : Nat) (sgn : Bool) (d : SReg) : Res :=
  match s.badGran pa n with
  | some g => .fault (sideErr va g)
  | none => .done (s.modCur fun u => u.setS d (extend sgn n (s.hbm.read pa n))) 1 n

/-- `gld` of `n` bytes (11 R228). -/
def globalLoad (p : Pred) (n : Nat) (sgn : Bool) (d a : SReg) (disp : BitVec 24) (s : State) : Out :=
  s.issue (Form.blocked 12 p) fun s t =>
    let va := t.sreg s.cur.body a + imm24 disp
    s.withDirect t va n false fun w =>
      match w with
      | .stash _ loc => .done (s.modCur fun u => u.setS d (extend sgn n ((s.core t.vt t.cslot).readLs loc n))) 1 0
      | .hbm pa => hbmLoad s va pa n sgn d
      | .side pa => hbmLoad (s.flushWords t pa n) va pa n sgn d
      | .reg _ off => .done (s.modCur fun u => u.setS d (extend sgn n (s.readReg off n))) 1 n

/-- `gst` of `n` bytes (11 R228); a release comes after the thread's earlier accesses (12 R247). -/
def globalStore (p : Pred) (att : Attr) (n : Nat) (a b : SReg) (disp : BitVec 24) (s : State) : Out :=
  s.issue (Form.blocked 12 p) fun s t =>
    let va := t.sreg s.cur.body a + imm24 disp
    let x := t.sreg s.cur.body b
    s.withDirect t va n true fun w =>
      match w with
      | .stash _ loc => .done ((s.released t att).storeCur t loc (natBytes n x.toNat)) 1 0
      | .hbm pa => .done ((s.released t att).writeHbm pa n x.toNat) 1 n
      | .side pa => .done (((s.released t att).flushWords t pa n).writeHbm pa n x.toNat) 1 n
      | .reg va off => .done ((s.released t att).modCur fun u => { u with ioHeld := u.ioHeld ++ [{ va := va, off := off, width := n, val := x }] }) 1 n

/-- `gld.b` (11 R228). -/
def execGldB (p : Pred) (_at' : Attr) (d a : SReg) (disp : BitVec 24) (s : State) : Out := globalLoad p 1 false d a disp s

/-- `gld.h` (11 R228). -/
def execGldH (p : Pred) (_at' : Attr) (d a : SReg) (disp : BitVec 24) (s : State) : Out := globalLoad p 2 false d a disp s

/-- `gld.w` (11 R228). -/
def execGldW (p : Pred) (_at' : Attr) (d a : SReg) (disp : BitVec 24) (s : State) : Out := globalLoad p 4 false d a disp s

/-- `gld.d` (11 R228). -/
def execGldD (p : Pred) (_at' : Attr) (d a : SReg) (disp : BitVec 24) (s : State) : Out := globalLoad p 8 false d a disp s

/-- `gld.bs` (11 R228). -/
def execGldBs (p : Pred) (_at' : Attr) (d a : SReg) (disp : BitVec 24) (s : State) : Out := globalLoad p 1 true d a disp s

/-- `gld.hs` (11 R228). -/
def execGldHs (p : Pred) (_at' : Attr) (d a : SReg) (disp : BitVec 24) (s : State) : Out := globalLoad p 2 true d a disp s

/-- `gld.ws` (11 R228). -/
def execGldWs (p : Pred) (_at' : Attr) (d a : SReg) (disp : BitVec 24) (s : State) : Out := globalLoad p 4 true d a disp s

/-- `gst.b` (11 R228). -/
def execGstB (p : Pred) (at' : Attr) (a b : SReg) (disp : BitVec 24) (s : State) : Out := globalStore p at' 1 a b disp s

/-- `gst.h` (11 R228). -/
def execGstH (p : Pred) (at' : Attr) (a b : SReg) (disp : BitVec 24) (s : State) : Out := globalStore p at' 2 a b disp s

/-- `gst.w` (11 R228). -/
def execGstW (p : Pred) (at' : Attr) (a b : SReg) (disp : BitVec 24) (s : State) : Out := globalStore p at' 4 a b disp s

/-- `gst.d` (11 R228). -/
def execGstD (p : Pred) (at' : Attr) (a b : SReg) (disp : BitVec 24) (s : State) : Out := globalStore p at' 8 a b disp s

end Sys2Proof.Machine
end

