-- ==== Sys2Proof/Machine/Effects.lean ====
section
/-! DEFINITION. What a thread holds until a boundary, a continuation point or its gang's retirement: dirty stash bytes, IO stores, spawned children, remote stores and deferred copies (12 R251, R255, R400; 11 R228, R230, R237; 15 R304). -/

namespace Sys2Proof.Machine

/-- The virtual tile of whose debug region a held IO store is. -/
def IoStore.tile (x : IoStore) : Option Nat := if x.off < blockBase then some (x.off / 0x1000000) else none

/-- The traffic of a gang to another tile is held until that tile is reached again: one held AMBER only for a gang that a replay has failed (17 R357) is left once that gang is gone, so its own gang does not wait for it. -/
def State.heldFrom (s : State) (gang v : Nat) : Bool :=
  s.trafficHeld v && (s.rotations.any (fun r => r.vt == v) || s.unbacking v || s.gangs.any fun g => g.id != gang && (g.tile? v).isSome)

/-- What a thread holds is for another tile whose traffic is held: a store into its debug region, or a queued remote store (01 R17, 17 R342). -/
def State.outHeld (s : State) (t : Thread) : Bool :=
  (t.ioHeld.any fun x => match x.tile with | none => false | some v => s.heldFrom t.gang v) ||
    (s.core t.vt t.cslot).remoteQ.any fun r => r.slot == t.slot &&
      (match s.rankPlace r.trank with | none => false | some p => p.1 != t.vt && s.heldFrom t.gang p.1)

/-- A command of the core's matrix unit uses a stash entry of the thread, which stays READY meanwhile (10 R212). -/
def State.stashUsed (s : State) (t : Thread) : Bool :=
  let c := s.core t.vt t.cslot
  c.stash.any fun e => e.owner == t.slot && c.stashInUse e

/-- The fault of a failed write-back as a packet shows it (12 R400). -/
def phaseFault (f : FaultInfo) : FaultInfo := { f with async := true, info := 0xFF }

/-- What follows the phase of an entry: KEEP keeps its bytes READY, otherwise it is EMPTY (11 R230). -/
def State.settleEntry (s : State) (vt cs e : Nat) : State :=
  s.modCore vt cs fun c => c.modStash e fun y => { y with st := if y.keep then .ready else .empty, dirty := [] }

/-- A data-movement phase reaches an entry (11 R230): its dirty bytes are charged and written back, or it keeps them with the fault. -/
def State.phaseEntry (s : State) (vt slot : Nat) (e : Stash) : State × Option FaultInfo :=
  let cs := slot / 4
  let t := s.thread vt slot
  if e.st ≠ .ready then (s, none)
  else if e.dirty.isEmpty then (s.settleEntry vt cs e.num, none)
  else
    let s := s.charge vt slot 0 e.dirty.length
    match s.drainFault (s.spaceOf t) vt cs e with
    | some f => (s, some (phaseFault f))
    | none => (((s.drainBytes (s.spaceOf t) vt cs e).count (s.partNum t) 6 e.dirty.length).settleEntry vt cs e.num, none)

/-- The entries of a thread. -/
def State.entriesOf (s : State) (vt slot : Nat) : List Stash := (s.core vt (slot / 4)).stash.filter fun e => e.owner == slot

/-- Every entry of a thread in turn, with the first fault. -/
def State.writeBacks (s : State) (vt slot : Nat) : State × Option FaultInfo :=
  (s.entriesOf vt slot).foldl (fun r e =>
    let x := r.1.phaseEntry vt slot e
    (x.1, match r.2 with | none => x.2 | some f => some f)) (s, none)

/-- A thread's held IO stores take effect, in order (11 R228). -/
def State.applyIo (s : State) (vt slot : Nat) : State :=
  let l := (s.thread vt slot).ioHeld
  l.foldl (fun s x => s.writeReg (.thread vt slot) x.off x.width x.val) (s.modThread vt slot fun t => { t with ioHeld := [] })

/-- A spawned child reaches its queue's resume list with the budget that its `spawn` paid, or ends QUEUE-GONE (15 R304, R305). -/
def State.landSpawn (s : State) (x : Spawned) : State :=
  let n := recNvt x.task * recNcore x.task * recNthr x.task
  let r : TaskSrc := { TaskSrc.of x.task (some (x.vt, x.slot, x.gang)) with leftI := n * recBic x.task, leftM := n * recBmc x.task }
  let s := s.modQueue x.qid fun q => { q with inflight := q.inflight + 1 }
  if (s.queue x.qid).state = .opened then s.modQueue x.qid fun q => { q with resume := q.resume ++ [r] }
  else s.endRecord x.qid r 4 0 false

/-- A thread's spawned children take effect, in order. -/
def State.applySpawns (s : State) (vt slot gang : Nat) : State :=
  let mine (x : Spawned) : Bool := x.vt == vt && x.slot == slot && x.gang == gang
  (s.spawns.filter mine).foldl (fun s x => s.landSpawn x) { s with spawns := s.spawns.filter fun x => !mine x }

/-- A thread's deferred copies run, in order (11 R237); whether one of them ended FAULT. -/
def State.runDeferred (s : State) (vt slot : Nat) : State × Bool :=
  let l := (s.thread vt slot).deferred
  l.foldl (fun r c =>
    let x := r.1.endCopy vt c
    (x.1, r.2 || x.2 == .fault)) (s.modThread vt slot fun t => { t with deferred := [] }, false)

/-- Stage 1 of a phase for one participant: its write-backs; an owner whose write-back fails freezes asleep in its `step`, or reports when it next issues (12 R400). True where all succeeded. -/
def State.stageBack (s : State) (vt slot : Nat) : State × Bool :=
  match s.writeBacks vt slot with
  | (s, none) => (s, true)
  | (s, some f) =>
    let t := s.thread vt slot
    (match t.st with
     | .run => s.freeze vt slot f t.pc false
     | .frozen => s.modThread vt slot fun t => if t.asyncF.isNone then { t with asyncF := some f } else t
     | _ => s, false)

/-- The write-backs of all participants; those whose write-backs succeeded. -/
def State.backAll (s : State) : List (Nat × Nat) → State × List (Nat × Nat)
  | [] => (s, [])
  | p :: r =>
    let x := s.stageBack p.1 p.2
    let y := x.1.backAll r
    (y.1, if x.2 then p :: y.2 else y.2)

/-- The three stages of a data-movement phase over its participants (12 R251): the IO stores of an owner whose write-back failed stay held. -/
def State.runStages (s : State) (ps : List (Nat × Nat)) (tileOnly : Bool) : State :=
  let x := s.backAll ps
  let s := x.2.foldl (fun s p => (s.applyIo p.1 p.2).applySpawns p.1 p.2 (s.thread p.1 p.2).gang) x.1
  let s := s.deliverAll ps tileOnly
  ps.foldl (fun s p => (s.runDeferred p.1 p.2).1) s

end Sys2Proof.Machine
end

