-- ==== Sys2Proof/Machine/Save.lean ====
section
/-! DEFINITION. Budgets beyond the charge, continuation points, saves, children and the retirement of a gang (15 R290-R307, R318; 19 R375; 05 R90). -/

namespace Sys2Proof.Machine

/-! Energy and the classifier. -/

/-- The meters add what the spec gives no figure for (15 R318, log entry 10) to the gang's energy. -/
def State.meter (s : State) (gid : Nat) : State :=
  { s.modGang gid fun g => { g with energy := g.energy + Config.freeEnergy s.fresh } with fresh := s.fresh + 1 }

/-- The intensity class of decayed busy time and traffic (05 R90). -/
def intensity (sm st : Nat) : Nat :=
  if sm = 0 && st = 0 then 0
  else if st = 0 then 15
  else if 64 * sm ≥ st then min (Nat.log2 (64 * sm / st) + 8) 14
  else if sm = 0 then 1
  else
    let y := (st + 64 * sm - 1) / (64 * sm)
    max 1 (8 - (Nat.log2 (y - 1) + 1))

/-- The classifier's update from a run's busy clk and bytes (05 R90). -/
def State.classify (s : State) (q busy bytes : Nat) : State :=
  s.modQueue q fun x =>
    let sm := min (x.clsm - x.clsm / 8 + busy / 1024) (2 ^ 28 - 1)
    let st := min (x.clst - x.clst / 8 + bytes / 1024) (2 ^ 28 - 1)
    { x with clsm := sm, clst := st, cls := intensity sm st }

/-- Units and bytes charged to a gang in this run. -/
def State.runOf (s : State) (g : Gang) : Nat × Nat :=
  (s.gangThreads g.id).foldl (fun r t => (r.1 + t.runBic, r.2 + t.runBmc)) (g.runBic, g.runBmc)

/-- What the threads of a gang have left, held reserves included (15 R305). -/
def State.leftOf (s : State) (g : Gang) (is : Thread → Bool) : Nat × Nat :=
  ((s.gangThreads g.id).filter is).foldl (fun r t => (r.1 + t.bic + t.heldBic, r.2 + t.bmc + t.heldBmc)) (g.doneBic, g.doneBmc)

/-- What a gang has left in all, the records that its yield has already written included. -/
def State.wholeLeft (s : State) (g : Gang) : Nat × Nat :=
  let l := s.leftOf g fun _ => true
  (l.1 + g.savedLeft.1, l.2 + g.savedLeft.2)

/-! The end of a gang's stay on its tiles. -/

/-- The slots of a gang become FREE, with what they hold on their cores; the gang and its boundaries are gone, and the supervisor's role with it (16 R323). -/
def State.clearGang (s : State) (gid : Nat) : State :=
  let ts := s.gangThreads gid
  let part := match s.gang? gid with | none => 0 | some g => g.part
  let s := ts.foldl (fun s t => (s.endSupervisor t).dropWork t.vt t.slot) s
  let s : State := { s with
    threads := s.threads.map fun (t : Thread) => if t.gang == gid && t.st != .free then Thread.freed t.vt t.slot s.clk else t
    gangs := s.gangs.filter fun g => g.id != gid
    heldBinds := s.heldBinds.filter fun h => wordsField h.2.2 224 32 != gid
    heldPre := s.heldPre.filter fun h => h.1 != gid
    bounds := (s.bounds.filter fun b => b.lvl == .part || b.gang != gid).map fun (b : Boundary) =>
      { b with parts := b.parts.filter fun p => !(ts.any fun t => t.isAt p.1 p.2) } }
  let s := (s.forgetCkpt gid).unhold
  match (s.part part).supv with
  | none => s
  | some p => if ts.any fun t => t.isAt p.1 p.2 then s.modPart part fun x => { x with supv := none } else s

/-- A gang's energy is closed out to its queue (15 R318, 19 R375). -/
def State.closeEnergy (s : State) (g : Gang) : State := s.chargeEnergy g.qid g.energy

/-- What a gang's completion says. -/
def State.endedOf (s : State) (g : Gang) (status detail : Nat) : Ended :=
  let r := s.runOf g
  { status := status, detail := detail, gang := g.id, qid := g.qid, part := g.part, resumes := g.resumes,
    runBic := r.1, runBmc := r.2, start := g.clkStart, stop := s.clk, energy := g.energy }

/-! Retirement (19 R375). -/

/-- Whether a gang that has left every thread but HALTED ones retires: it is released, or it was aborted before its release; one with a record already saved goes on to its save. -/
def State.retires (s : State) (g : Gang) : Bool :=
  (g.released || g.abortSt.isSome) && g.saved.isEmpty && (s.gangThreads g.id).all fun t => t.st == .halted

/-- A write-back that fails at retirement loses its bytes: the entry is dropped and an event written (19 R375). -/
def State.loseEntries (s : State) (vt slot gid : Nat) : State :=
  let lost := (s.entriesOf vt slot).filter fun e => e.st == .ready && !e.dirty.isEmpty
  lost.foldl (fun s e =>
    (s.modCore vt (slot / 4) fun c => c.dropStash e.num).event (s.partOf vt slot) 0x07 1 gid
      (w64 ((s.rankOf vt (slot / 4)).getD 0)) (w64 e.gbase)) s

/-- Step 1 of retirement for the HALTED threads of a gang: the stages of 12 R251 across the gang, with what fails lost (19 R375). -/
def State.retireWork (s : State) (gid : Nat) : State :=
  let ps := (s.gangThreads gid).map fun t => (t.vt, t.slot)
  let lose (s : State) : State := s.modGang gid fun g => { g with wbLost := true }
  let s := ps.foldl (fun s p =>
    let x := s.writeBacks p.1 p.2
    if x.2.isSome then lose (x.1.loseEntries p.1 p.2 gid) else x.1) s
  let s := ps.foldl (fun s p => (s.applyIo p.1 p.2).applySpawns p.1 p.2 gid) s
  let s := s.deliverAll ps false
  ps.foldl (fun s p => let x := s.runDeferred p.1 p.2; if x.2 then lose x.1 else x.1) s

/-- The status a gang retires with and its detail (19 R377). -/
def Gang.status (g : Gang) : Nat × Nat :=
  match g.abortSt with
  | some x => x
  | none => if g.wbLost then (9, 0) else (0, 0)

/-- A gang ends for good: completion, NOTIFY, interrupt and close-out (19 R375). -/
def State.endGang (s : State) (gid status detail : Nat) : State :=
  match s.gang? gid with
  | none => s
  | some g =>
    let left := s.wholeLeft g
    let run := s.runOf g
    let s := s.announce g.asid g.task (s.endedOf g status detail)
    let s := s.returnBudget g.src.parent g.qid left.1 left.2
    let s := (s.closeEnergy g).classify g.qid g.mxBusy run.2
    let s := (s.freeResv g.part g.src.resv).lessInflight g.qid
    let s := s.event g.part 0x06 2 gid (w64 status) (w64 g.resumes)
    let s := if g.released then s else s.unstage g.qid
    let s := s.clearGang gid
    s

/-- GANG_RETIRE (19 R375): stores for a tile whose traffic is held wait until it is reached again (17 R342), and the end of a stash entry for the matrix commands that use it (10 R212). -/
def execGangRetire (gang : Nat) (s : State) : Out :=
  .next <|
    match s.gang? gang with
    | none => s
    | some g =>
      if !s.retires g || (s.gangThreads gang).any (fun t => s.outHeld t || s.stashUsed t) then s
      else
        let s := (s.retireWork gang).meter gang
        match s.gang? gang with
        | none => s
        | some g => (s.dropLease gang 4 false).endGang gang g.status.1 g.status.2

/-! Continuation points (15 R296, R297). -/

/-- The unit of a `cont`, which never sets PEND (15 R292, R296). -/
def State.chargeCont (s : State) (t : Thread) : State :=
  (s.charge t.vt t.slot 1 0).modThread t.vt t.slot fun u => { u with pend := t.pend }

/-- Two ranges in pages overlap. -/
def pagesMeet (x y : Nat × Nat) : Bool := x.1 < y.1 + y.2 && y.1 < x.1 + x.2

/-- The first range of a `cont` that passes the allocation or overlaps one before it. -/
def badRange (units : Nat) : List (Nat × Nat) → List (Nat × Nat) → Option (Nat × Nat)
  | _, [] => none
  | seen, x :: r => if x.1 + x.2 > units || seen.any (pagesMeet x) then some x else badRange units (seen ++ [x]) r

/-- The reason of a save by its first thread (15 R297): 0 YIELD, 1 BUDGET, 2 PREEMPT. -/
def saveReason (t : Thread) (yield : Bool) : Nat :=
  if yield || t.pend then 0 else if t.gcause = 1 || t.gcause = 2 then 1 else if t.gcause = 3 then 2 else 0

/-- The gang yields: every other thread not in grace enters it, sleeps in waiters end, the lease ends (15 R297, R315). -/
def State.beginYield (s : State) (gid vt slot reason : Nat) : State :=
  match s.gang? gid with
  | none => s
  | some g =>
    if g.yielding then s
    else
      let s := s.modGang gid fun g => { g with yielding := true, reason := reason }
      let others := (s.gangThreads gid).filter fun t => !(t.isAt vt slot) && !t.ingrace && (t.st == .run || t.st == .frozen)
      let s := others.foldl (fun s t =>
        (s.modThread t.vt t.slot fun u => { u with ingrace := true, gcause := 4, spanClk := s.clk }).interrupt t.vt t.slot) s
      s.dropLease gid 8 false

/-- A thread saves at its `cont`: its effects are performed as at a boundary, and it is SAVING with its PC after the `cont` (15 R296, 12 R255). -/
def State.saveThreadAt (s : State) (t : Thread) : State :=
  let s := (s.applyIo t.vt t.slot).applySpawns t.vt t.slot t.gang
  let s := s.deliverAll [(t.vt, t.slot)] false
  let s := (s.runDeferred t.vt t.slot).1
  s.modThread t.vt t.slot fun u => { u with st := .saving, pc := nextPc t.pc 16, wait := .none, woken := none }

/-- `cont` and `cont.y` (15 R296): the yield begins before the thread's effects are performed, and a write-back that fails freezes the thread at the `cont`, with the charges made and the write-backs that succeeded (15 R289, log entry 60). A thread that is to save waits first for its stash entries that still fill or drain, or that a matrix command of its core uses (10 R212), and for its copies, so that their bytes are performed (12 R255), and while what it holds is for a tile whose traffic is held (17 R342, log entry 60). -/
def execCont (yield : Bool) (lives : BitVec 32) (livev : BitVec 16) (r0 r1 r2 r3 : LiveRange) (s : State) : Out :=
  s.issue { (Form.blocked 16 Pred.always) with wins := true } fun s t =>
    if s.mxBusy t || t.pendingHandle then .wait s (.stall 5)
    else
      match t.handleFault?, s.gangOf t with
      | some f, _ => .fault f
      | none, none => .done s 1 0
      | none, some g =>
        let rs := ([r0, r1, r2, r3].map fun r => (r.base.toNat, r.pages.toNat)).filter fun x => x.2 ≠ 0
        match badRange (recUnits g.task) [] rs with
        | some x => .fault { cause := .lsRange, addr := w64 ((s.ownAlloc t).1 + 4096 * x.1) }
        | none =>
          let s1 := (s.modCur fun u => { u with lives := lives, livev := livev, conted := true }).chargeCont t
          let u := s1.thread t.vt t.slot
          if s.isClosing g.qid then .left (s1.abortGang g.id 4 0)
          else if u.ingrace || yield || u.pend then
            if s.copyBusy t || s.stashBusy t || s.stashUsed t || s.outHeld t then .wait s (.stall 5)
            else
            let s2 := (s1.modCur fun u => { u with rng := [r0, r1, r2, r3].map fun r => (r.base.toNat, r.pages.toNat) }).beginYield
              g.id t.vt t.slot (saveReason u yield)
            match (s2.settle t).writeBacks t.vt t.slot with
            | (s3, some f) => .left (s3.freeze t.vt t.slot (phaseFault f) t.pc false)
            | (s3, none) => .left (s3.saveThreadAt t)
          else .done s1 0 0

/-- A continuation record: RESUME = 1, SAVEPTR at the block, WAITADDR = 0 (15 R302). -/
def resumeRecord (task : List Word) (block : Nat) : List Word :=
  ((task.set 5 0).set 14 (w64 block)).modify 13 fun w => w ||| w64 (2 ^ 8)

/-- A gang whose save is over leaves its slots; budget of threads that have no record returns as at retirement (15 R297, R305). -/
def State.leaveSaved (s : State) (g : Gang) : State :=
  let left := s.leftOf g fun t => t.st == .halted
  let run := s.runOf g
  let s := s.returnBudget g.src.parent g.qid left.1 left.2
  ((s.closeEnergy g).classify g.qid g.mxBusy run.2).clearGang g.id

/-- A save that cannot keep its block ends the gang with NO-SAVE (15 R301). -/
def State.noSave (s : State) (g : Gang) (sub : Nat) : State := (s.hkEvent sub g.part (w64 g.id) (w64 g.qid)).endGang g.id 6 0

/-- The save ends while its queue is CLOSING: the gang ends QUEUE-GONE and its budget goes to the device housekeeping account (04 R80). -/
def State.saveGone (s : State) (g : Gang) : State :=
  let left := s.wholeLeft g
  let s := (s.announce g.asid g.task (s.endedOf g 4 0)).freeResv g.part g.src.resv
  let s := { s with hkUnits := s.hkUnits + left.1, hkBytes := s.hkBytes + left.2 }
  let run := s.runOf g
  (((s.closeEnergy g).classify g.qid g.mxBusy run.2).lessInflight g.qid).clearGang g.id |>.event g.part 0x06 2 g.id (w64 4) (w64 g.resumes)

/-- The record of a SAVING thread is written, and its slot becomes FREE (15 R296, R300); an accumulator word that its residue disowns stops the save with a screening mismatch (10 R215). -/
def State.writeRecord (s : State) (vt slot : Nat) : State :=
  let t := s.thread vt slot
  match s.gangOf t with
  | none => s
  | some g =>
    if t.st ≠ .saving || (s.core vt (slot / 4)).mxStop then s
    else if (s.accNames t).any fun a => !((s.core vt (slot / 4)).accum a).broken.isEmpty then s.screenMismatch vt (slot / 4)
    else
      let r : SavedRec := { vt := vt, slot := slot, bic := t.bic + t.heldBic, bmc := t.bmc + t.heldBmc, bytes := s.saveThread t (g.gti t) false }
      let s := ((s.endSupervisor t).dropWork vt slot).modGang g.id fun g =>
        { g with saved := g.saved ++ [r], runBic := g.runBic + t.runBic, runBmc := g.runBmc + t.runBmc }
      ({ s with bounds := s.bounds.map fun (b : Boundary) => { b with parts := b.parts.filter fun p => p != (vt, slot) } } : State).modThread
        vt slot fun _ => Thread.freed vt slot s.clk

/-- The continuation record of a gang whose save block stands at `va` (15 R302); that of a spawned child holds the budget that the save recorded (15 R305). -/
def Gang.savedSrc (g : Gang) (va : Nat) : TaskSrc :=
  let left := if g.src.parent.isSome then g.savedLeft else (0, 0)
  { TaskSrc.of (resumeRecord g.task va) g.src.parent with resv := g.src.resv, leftI := left.1, leftM := left.2 }

/-- Every thread of a yielding gang has had its record written, has halted or has been aborted, and one record at least is written. -/
def State.savedWhole (s : State) (g : Gang) : Bool :=
  g.yielding && !g.saved.isEmpty && (s.gangThreads g.id).all fun t => t.st == .halted

/-- The energy of a save whose reason is PREEMPT goes to the queue of the reserving record, or to the scheduler account (15 R318). -/
def State.saveEnergy (s : State) (g : Gang) (e : Nat) : State :=
  if g.reason ≠ 2 then s.modGang g.id fun g => { g with energy := g.energy + e }
  else
    match s.queues.find? fun q => q.part == g.part && (match q.staged with | some r => r.reserving | none => false) with
    | some q => s.chargeEnergy q.qid e
    | none => { s with schedUj := s.schedUj + e }

/-- SAVE_COMPLETE (15 R297, R299, R301): the block is written and the continuation record placed in the resume list. -/
def execSaveComplete (gang : Nat) (s : State) : Out :=
  .next <|
    match s.gang? gang with
    | none => s
    | some g =>
      if !s.savedWhole g || (s.gangThreads gang).any (fun t => s.outHeld t || s.stashUsed t) then s
      else
        let halted := ((s.gangThreads gang).filter fun t => t.st == .halted).map fun t => (t.vt, t.slot)
        let e := Config.freeEnergy s.fresh
        let s := ({ s with fresh := s.fresh + 1 } : State).saveEnergy g e
        let s := (s.runStages halted false).meter gang
        match s.gang? gang with
        | none => s
        | some g =>
          if s.isClosing g.qid then s.saveGone g
          else
            match g.src.resv with
            | none => s.noSave g 13
            | some r =>
              let va := (s.part g.part).spbase * 4096 + r.1 * 4096
              let bs := s.saveBlock g e
              match s.checkVirt (.panel g.asid) (needPlain true) va bs.length with
              | some _ => s.noSave g 12
              | none =>
                let s := ((s.writeGlobal (.panel g.asid) va bs).count g.part 8 1).event g.part 0x06 0 gang (w64 g.reason) (w64 g.resumes)
                let src := g.savedSrc va
                (s.leaveSaved g).modQueue g.qid fun q => { q with resume := q.resume ++ [src] }

/-! Children and transfers (15 R304-R307). -/

/-- `spawn` (15 R304). -/
def execSpawn (p : Pred) (d a b : SReg) (disp : BitVec 32) (s : State) : Out :=
  s.issue (Form.blocked 12 p) fun s t =>
    let addr := t.sreg s.cur.body a + imm32 disp
    let qw := t.sreg s.cur.body b
    s.withLs t [{ addr := addr.toNat, width := 8, bytes := 128, write := false }] <|
      if qw.field 16 48 ≠ 0 then .fault s.illegal
      else
        let q := s.queue (qw.field 0 16)
        let r := bytesWords 16 ((s.core t.vt t.cslot).ls.bytes addr.toNat 128)
        let n := recThreads r
        let ci := n * recBic r
        let cm := n * recBmc r
        let caps := match s.gangOf t with | none => 0 | some g => wordsField g.task 696 4
        let res : Nat :=
          if q.part ≠ s.partNum t || q.state ≠ .opened then 1
          else if recCaps r &&& (15 - caps) ≠ 0 then 2
          else if t.ingrace || ci + 1 > t.bic || cm > t.bmc then 3
          else if s.spawns.length ≥ 65536 then 4
          else 0
        let s := if res = 0 then
            { s.modCur fun u => { u with bic := u.bic - ci, bmc := u.bmc - cm } with
              spawns := s.spawns ++ [{ vt := t.vt, slot := t.slot, gang := t.gang, qid := qw.field 0 16, task := r }] }
          else s
        .done (s.modCur fun u => u.setS d (w64 res)) 1 0

/-- `bud.add` (15 R306). -/
def execBudAdd (p : Pred) (mem : Bool) (d a : SReg) (s : State) : Out :=
  s.issue { (Form.blocked 8 p) with cap := some 0 } fun s t =>
    match s.gangOf t with
    | none => .done s 1 0
    | some g =>
      let q := s.queue g.qid
      let acct := if mem then q.acbmc else q.acbic
      let reg := if mem then t.bmc else t.bic
      let n := if s.isClosing g.qid then 0 else min (min (t.sreg s.cur.body a).toNat acct) (budgetMax - reg)
      let s := s.modQueue g.qid fun q => if mem then { q with acbmc := q.acbmc - n } else { q with acbic := q.acbic - n }
      let s := s.modCur fun u => if mem then { u with bmc := u.bmc + n } else { u with bic := u.bic + n }
      .done (s.modCur fun u => u.setS d (w64 n)) 1 0

/-- Budget given to a sibling; what passes its limit goes to the queue account (15 R307). -/
def State.giveSibling (s : State) (vt slot q : Nat) (mem : Bool) (n : Nat) : State :=
  let u := s.thread vt slot
  if mem then (s.modThread vt slot fun u => { u with bmc := min (u.bmc + n) budgetMax }).returnQueue q 0 (u.bmc + n - budgetMax)
  else (s.modThread vt slot fun u => { u with bic := min (u.bic + n) budgetMax }).returnQueue q (u.bic + n - budgetMax) 0

/-- `bud.give` (15 R307): the instruction's own unit is charged first. -/
def execBudGive (p : Pred) (mem : Bool) (d a b : SReg) (s : State) : Out :=
  s.issue (Form.blocked 8 p) fun s t =>
    let w := t.sreg s.cur.body b
    if w.field 16 48 ≠ 0 then .fault s.illegal
    else
      let dest := w.field 0 16
      let s := s.charge t.vt t.slot 1 0
      let u := s.thread t.vt t.slot
      let n := min (t.sreg s.cur.body a).toNat (if mem then u.bmc else u.bic)
      let q := match s.gangOf t with | none => 0 | some g => g.qid
      let take (s : State) : State := s.modCur fun u => if mem then { u with bmc := u.bmc - n } else { u with bic := u.bic - n }
      let v := s.thread t.vt dest
      if dest = 0xFFFF then
        .done (((take s).returnQueue q (if mem then 0 else n) (if mem then n else 0)).modCur fun u => u.setS d (w64 n)) 0 0
      else if dest < 64 && dest ≠ t.slot && v.gang == t.gang && (v.st == .run || v.st == .frozen) then
        .done (((take s).giveSibling t.vt dest q mem n).modCur fun u => u.setS d (w64 n)) 0 0
      else .done (s.modCur fun u => u.setS d 0) 0 0

/-! Grace (15 R292). -/

/-- The thread stands at a `cont` or a `halt`, which a pending budget fault does not stop. -/
def Thread.atContHalt (t : Thread) : Bool :=
  match t.buffered (bundleOf t.pc) with
  | none => false
  | some b =>
    let opc := bytesNat ((b.bytes.drop (t.pc.toNat % 32)).take 2) / 4 % 256
    opc == 0xD8 || opc == 0x04

/-- BUDGET_FAULT (15 R292): a thread that waits or sleeps with a budget fault pending freezes at once. -/
def execBudgetFault (vt slot : Nat) (s : State) : Out :=
  .next <|
    let t := s.thread vt slot
    if t.st = .run && t.pend && t.wait ≠ .none && !t.atContHalt then
      s.freeze vt slot { cause := .budget, info := t.cont } t.pc false
    else s

/-- A span of grace. -/
def graceSpan : Nat := 1024

/-- GRACE_DECAY (15 R292, 17 R342): a span in which nothing was charged takes a unit of GRACE. -/
def execGraceDecay (vt slot : Nat) (s : State) : Out :=
  .next <|
    let t := s.thread vt slot
    if t.st = .run && t.ingrace && t.spanClk + graceSpan ≤ s.clk then
      let sleeps := s.asleep t
      let amber := match s.vtile? vt with | none => false | some v => v.amber
      s.modThread vt slot fun t =>
        let t := { t with spanClk := t.spanClk + graceSpan }
        if amber && sleeps then t
        else if t.grace = 0 then { t with pend := true }
        else { t with grace := t.grace - 1, pend := t.pend || (t.grace = 1 && sleeps) }
    else s

end Sys2Proof.Machine
end

