-- ==== Sys2Proof/Machine/Ckpt.lean ====
section
/-! DEFINITION. Checkpoints: what a phase release records of a tile, the journal it fills, and the restore of a tile from it (17 R351-R355, 12 R256, 15 R289). -/

namespace Sys2Proof.Machine

/-! Places. -/

/-- The bytes that the journal may fill in device-reserved HBM (17 R353). -/
def journalMax : Nat := 928 * 1024

/-- The bytes of journal past which a fold begins (17 R353). -/
def journalFold : Nat := 384 * 1024

/-- The journal bytes of a local-store reserve behind its control (17 R353). -/
def reserveMax : Nat := 65536 - 64

/-- The partner of a virtual tile (17 R353). -/
def partnerOf (vt : Nat) : Nat := vt ^^^ 1

/-- The reserve of a core slot's partner can take records (17 R353). -/
def State.partnerTakes (s : State) (vt cs : Nat) : Bool :=
  match s.vtile? (partnerOf vt) with
  | none => false
  | some v => v.backed && partnerOf vt < s.nvtile && (nth v.slots cs none).isSome

/-- The checkpoint of a tile that has none. -/
def Ckpt.fresh (vt : Nat) : Ckpt := { vt := vt, gen := 0, cores := [], bars := [], gangs := [] }

/-- The saved copy of a core slot that has none. -/
def CkptCore.fresh (vt slot : Nat) : CkptCore :=
  { slot := slot, base := none, baseGen := 0, recs := [], gen := 0, used := 0, journal := 0,
    core := Core.fresh vt slot, threads := [], spawns := [] }

/-- The checkpoint of a tile; one that covers no gang begins anew (17 R354). -/
def State.ckpt (s : State) (vt : Nat) : Ckpt :=
  match s.ckpts.find? fun k => k.vt == vt with
  | none => Ckpt.fresh vt
  | some k => if k.gangs.isEmpty then Ckpt.fresh vt else k

/-- Puts a tile's checkpoint in its place. -/
def State.putCkpt (s : State) (k : Ckpt) : State :=
  { s with ckpts := upsert (fun x => x.vt == k.vt) k (fun _ => k) s.ckpts }

/-- A core slot of a checkpoint. -/
def Ckpt.core (k : Ckpt) (cs : Nat) : CkptCore := (k.cores.find? fun c => c.slot == cs).getD (CkptCore.fresh k.vt cs)

/-- The checkpoint covers a gang. -/
def Ckpt.has (k : Ckpt) (gid : Nat) : Bool := k.gangs.any fun g => g.1 == gid

/-! What a record holds (17 R352). -/

/-- The registers that a record keeps: every pair until the thread's first `cont`, then the live pairs; the others restore as zero. -/
def Thread.liveOnly (t : Thread) : Thread :=
  if t.conted then
    { t with
      s := t.s.mapFinIdx fun i x _ => if t.lives.getLsbD (i / 2) then x else 0
      v := t.v.mapFinIdx fun i x _ => if t.livev.getLsbD (i / 2) then x else Vector.replicate 32 0 }
  else t

/-- A thread as its record keeps it: what is physical, and what a restore leaves out, is empty. -/
def Thread.snap (t : Thread) : Thread :=
  { t.liveOnly with fbuf := [], freq := none, rep := none, ioHeld := [], deferred := [], asyncF := none, node := none, pktHeld := none, poked := [], lanes := [] }

/-- The bytes of a thread's entry: header, extension, live pairs, accumulators. -/
def ckptThreadBytes (t : Thread) (nacc : Nat) : Nat :=
  let sp := if t.conted then (bitsOf t.lives.toNat 32).length else 32
  let vp := if t.conted then (bitsOf t.livev.toNat 16).length else 16
  256 + 1024 + roundUp 64 (16 * sp) + 256 * vp + 1024 * nacc

/-- Copies ranges of a local store with their tags, and accumulators, from one copy of a core to another; the copied words hold no error. -/
def Core.overlay (dst src : Core) (rs : List (Nat × Nat)) (accs : List Nat) : Core :=
  let inR (a : Nat) : Bool := rs.any fun r => r.1 ≤ a && a < r.1 + r.2
  { dst with
    ls := (src.ls.filter fun c => inR c.1).foldl (fun m c => m.put c.1 c.2) (dst.ls.filter fun c => !inR c.1)
    full := unionNat (src.full.filter fun w => inR (4 * w)) (dst.full.filter fun w => !inR (4 * w))
    bad := dst.bad.filter fun w => !inR (4 * w)
    wrote := dst.wrote.filter fun w => !inR (4 * w)
    gran := dst.gran.filter fun g => !inR (256 * g)
    acc := accs.foldl (fun v a => v.mapFinIdx fun i x _ => if i = a then (src.accum a).sealed else x) dst.acc }

/-- The threads of a core slot that a record of these gangs holds. -/
def State.covered (s : State) (vt cs : Nat) (gids : List Nat) : List Thread := (s.holders vt [cs]).filter fun t => gids.contains t.gang

/-- The granules that a record holds: those of the threads' allocations written since the last one. -/
def State.newGranules (s : State) (vt cs : Nat) (ts : List Thread) : List Nat :=
  let rs := ts.map s.ownAlloc
  (s.core vt cs).gran.filter fun g => rs.any fun r => r.1 ≤ 256 * g && 256 * g < r.1 + r.2

/-- The length of a record (17 R354). -/
def State.recordLength (s : State) (vt cs : Nat) (gids : List Nat) (bars : Bool) : Nat :=
  let ts := s.covered vt cs gids
  let nacc (t : Thread) : Nat := match s.gangOf t with | none => 0 | some g => recNacc g.task
  roundUp 64 (64 + (if bars then 256 else 0) + ts.foldl (fun n t => n + ckptThreadBytes t (nacc t)) 0 +
    272 * (s.newGranules vt cs ts).length)

/-! The commit (17 R351, R353). -/

/-- The core slots of a tile that are not vacant, ascending. -/
def State.slotsOf (s : State) (vt : Nat) : List Nat := (List.range 16).filter fun c => (s.pcoreOf vt c).isSome

/-- The tile's barriers go into the record of its lowest slot that is not vacant (17 R352). -/
def State.hasBars (s : State) (vt cs : Nat) : Bool := (s.slotsOf vt).head? == some cs

/-! A record as bytes (17 R352, R354). -/

/-- A thread as its entry's header shows it: the PC at which it resumes, the budgets without the held reserve, every pair live until the first `cont`. -/
def Thread.recorded (t : Thread) : Thread :=
  { t with
    pc := if t.stepArr.isSome && !t.stepRel then nextPc t.pc 8 else t.pc
    heldBic := 0
    heldBmc := 0
    lives := if t.conted then t.lives else BitVec.allOnes 32
    livev := if t.conted then t.livev else BitVec.allOnes 16 }

/-- The 1,024 bytes after the header (log entry 47): the held reserves, GRACE, CONT and WDT, the handles, the queue entries, their counts, the mailbox. -/
def State.ckptExtension (s : State) (t : Thread) : List Byte :=
  let ws := [w64 t.heldBic, w64 t.heldBmc, w64 t.grace, t.cont, s.csrWdt t] ++ t.h.toList.map Handle.word ++
    t.q.toList.flatMap (fun l => (List.range 8).map fun i => match l[i]? with | none => 0 | some e => e.word) ++
    t.q.toList.map queueCountWord ++ (List.range 8).map fun i => match t.mailbox[i]? with | none => 0 | some g => g.word
  let bs := wordsBytes ws
  bs ++ List.replicate (1024 - bs.length) 0

/-- A thread's entry: header, extension, the live pairs and the accumulators. -/
def State.ckptEntry (s : State) (t : Thread) : List Byte :=
  let gti := match s.gangOf t with | none => 0 | some g => g.gti t
  let r := t.recorded
  natBytes 256 (s.saveHeader r gti false + b2n (t.st == .halted) * 2 ^ 280) ++ s.ckptExtension t ++
    (s.saveThread { r with rng := [] } gti false).drop 256

/-- The barrier section: 16 barriers of 16 bytes, as 16 R326 lays them out. -/
def State.barBytes (s : State) (vt : Nat) : List Byte :=
  (List.range 16).flatMap fun b => let x := s.bar vt b; natBytes 16 (x.gen.toNat + ofBits x.arr * 2 ^ 16)

/-- A granule: its index, the tags of its words, its bytes. -/
def Core.granBytes (c : Core) (g : Nat) : List Byte := natBytes 8 g ++ tagBytes c (64 * g) 8 ++ c.ls.bytes (256 * g) 256

/-- The header of a record: an increment, or the state records of a base image. -/
def recordHead (check : Nat) (base bars : Bool) (vt cs gen nrec ngran length clk : Nat) : List Byte :=
  natBytes 64 (1 + b2n base * 2 ^ 8 + b2n bars * 2 ^ 16 + cs * 2 ^ 48 + vt * 2 ^ 52 + gen * 2 ^ 64 + nrec * 2 ^ 128 + ngran * 2 ^ 144 + length * 2 ^ 160 +
    clk % 2 ^ 64 * 2 ^ 192 + check * 2 ^ 480)

/-- A record of these threads and granules of a core slot. -/
def State.recordOf (s : State) (base : Bool) (vt cs gen : Nat) (all : List Thread) (gs : List Nat) : List Byte :=
  let ts := (List.range 4).flatMap fun k => all.filter fun t => t.thr == k
  let bars := s.hasBars vt cs
  let body := pad64 ((if bars then s.barBytes vt else []) ++ ts.flatMap s.ckptEntry ++ gs.flatMap (s.core vt cs).granBytes)
  let head (check : Nat) := recordHead check base bars vt cs gen ts.length gs.length (64 + body.length) s.clk
  head (crc32c (head 0 ++ body)) ++ body

/-- The journal record of a core slot. -/
def State.recordBytes (s : State) (vt cs gen : Nat) (gids : List Nat) : List Byte :=
  let all := s.covered vt cs gids
  s.recordOf false vt cs gen all (s.newGranules vt cs all)

/-! Where a core slot's base images and journal lie (17 R353). -/

/-- The bytes of a base image. -/
def baseBytes : Nat := 560 * 1024

/-- The address of a core slot's 2 MiB of device-reserved HBM. -/
def ckptHome (vt cs : Nat) : Nat := Config.hbmTop + 0x2000000 * vt + 0x200000 * cs

/-- The address of base image A or B. -/
def baseAt (vt cs : Nat) (b : Bool) : Nat := ckptHome vt cs + b2n b * baseBytes

/-- The address of an offset of the overflow journal. -/
def overflowAt (vt cs o : Nat) : Nat := ckptHome vt cs + 2 * baseBytes + o

/-- The local offset of an offset of the journal in the partner's reserve, behind its control. -/
def reserveAt (o : Nat) : Nat := Config.lsReserve + 64 + o

/-- A record of `n` bytes goes to device-reserved HBM: the partner's slot cannot take records, or its reserve has no room (17 R353). -/
def State.recordToHbm (s : State) (vt cs n : Nat) (k : CkptCore) : Bool := !s.partnerTakes vt cs || k.used + n > reserveMax

/-- Bytes at an address of the partner's local store; they are written whole, so no error is left in them. -/
def Core.reservePut (c : Core) (a : Nat) (bs : List Byte) : Core :=
  { c with ls := c.ls.putBytes a bs, bad := c.bad.filter fun w => !(wholeUnits 4 a bs.length).contains w }

/-- The journal's control in the partner's reserve (log entry 47): the active base (0 none, 1 A, 2 B), its GEN, the offset of the next record. -/
def State.putControl (s : State) (vt : Nat) (k : CkptCore) : State :=
  if s.partnerTakes vt k.slot then
    s.modCore (partnerOf vt) k.slot fun c =>
      c.reservePut Config.lsReserve
        (wordsBytes ([w64 (match k.base with | none => 0 | some b => 1 + b2n b), w64 k.baseGen, w64 (64 + k.used)] ++ List.replicate 5 0))
  else s

/-- The record of a core slot is written: behind the control of the partner's reserve, or in the overflow journal (17 R353). -/
def State.putRecord (s : State) (vt cs : Nat) (k : CkptCore) (bs : List Byte) : State :=
  if s.recordToHbm vt cs bs.length k then s.putHbm (overflowAt vt cs (k.journal - k.used)) bs
  else s.modCore (partnerOf vt) cs fun c => c.reservePut (reserveAt k.used) bs

/-- A core slot's copy after its record. -/
def State.commitCore (s : State) (vt cs gen : Nat) (gids : List Nat) (k : CkptCore) : CkptCore :=
  let ts := s.covered vt cs gids
  let names := ts.map (·.slot)
  let c := s.core vt cs
  let n := s.recordLength vt cs gids (s.hasBars vt cs)
  let hbm := s.recordToHbm vt cs n k
  let stash := (k.core.stash.filter fun e => !names.contains e.owner) ++
    (c.stash.filter fun e => names.contains e.owner).map fun (e : Stash) => { e with st := .empty, dirty := [], cmd := none, fillBy := none }
  { k with
    recs := k.recs ++ [{ hbm := hbm, off := if hbm then k.journal - k.used else k.used, len := n, gen := gen }]
    gen := gen, used := if hbm then k.used else k.used + n, journal := k.journal + n
    core := { k.core.overlay c (ts.map s.ownAlloc) (ts.flatMap s.accNames) with
      stash := stash
      remoteQ := (k.core.remoteQ.filter fun r => !names.contains r.slot) ++ c.remoteQ.filter fun r => names.contains r.slot }
    threads := (k.threads.filter fun t => !gids.contains t.gang) ++ ts.map Thread.snap
    spawns := (k.spawns.filter fun x => !names.contains x.slot) ++ s.spawns.filter fun x => x.vt == vt && names.contains x.slot }

/-- Every record of a checkpoint fits its journal (17 R353). -/
def State.ckptFits (s : State) (vt : Nat) (gids : List Nat) : Bool :=
  (s.slotsOf vt).all fun cs => ((s.ckpt vt).core cs).journal + s.recordLength vt cs gids (s.hasBars vt cs) ≤ journalMax

/-- A word of a local store that the checkpoint would read holds an uncorrectable error (17 R356). -/
def State.ckptBadWord (s : State) (vt : Nat) (gids : List Nat) : Bool :=
  (s.slotsOf vt).any fun cs =>
    let gs := s.newGranules vt cs (s.covered vt cs gids)
    (s.core vt cs).bad.any fun w => gs.contains (w / 64)

/-- The core slots on which a word of an accumulator that the checkpoint would read does not agree with its residue (10 R215). -/
def State.ckptBroken (s : State) (vt : Nat) (gids : List Nat) : List Nat :=
  (s.slotsOf vt).filter fun cs =>
    (s.covered vt cs gids).any fun t => (s.accNames t).any fun a => !((s.core vt cs).accum a).broken.isEmpty

/-- The checkpoint of a tile for these gangs is committed. -/
def State.commitTile (s : State) (vt : Nat) (gids : List Nat) : State :=
  let k := s.ckpt vt
  let gen := k.gen + 1
  let cores := (s.slotsOf vt).map fun cs => s.commitCore vt cs gen gids (k.core cs)
  let bars := match s.vtile? vt with | none => [] | some v => v.bars
  let left := gids.filterMap fun g => (s.gang? g).map fun x => (g, x.wdtLeft)
  let s0 := (s.slotsOf vt).foldl (fun s' cs => s'.putRecord vt cs (k.core cs) (s.recordBytes vt cs gen gids)) s
  let s0 := cores.foldl (fun s' c => s'.putControl vt c) s0
  let s1 := s0.putCkpt { k with gen := gen, cores := cores, bars := bars, gangs := (k.gangs.filter fun g => !gids.contains g.1) ++ left }
  let s2 := (s.slotsOf vt).foldl (fun s' cs =>
    let gs := s.newGranules vt cs (s.covered vt cs gids)
    s'.modCore vt cs fun c => { c with gran := c.gran.filter fun g => !gs.contains g }) s1
  gids.foldl (fun s' g => s'.modGang g fun x => { x with replayed := false }) s2

/-! What a restore reads (17 R355). -/

/-- The bytes of a record as they stand; none where a word or granule of them is in error. -/
def State.recRead (s : State) (vt cs : Nat) (r : CkptRec) : Option (List Byte) :=
  if r.hbm then
    let a := overflowAt vt cs r.off
    if (unitsOf 32 a r.len).any s.hbmBad.contains then none else some (s.hbm.bytes a r.len)
  else
    let c := s.core (partnerOf vt) cs
    if (unitsOf 4 (reserveAt r.off) r.len).any c.bad.contains then none else some (c.ls.bytes (reserveAt r.off) r.len)

/-- The bytes of a record pass CHECK and VERSION, and are the record of this GEN (17 R354, R355). -/
def recordGood (gen : Nat) (bs : List Byte) : Bool :=
  let at' (o n : Nat) : Nat := bytesNat ((bs.drop o).take n)
  at' 0 1 == 1 && at' 8 8 == gen && at' 60 4 == crc32c (bs.take 60 ++ List.replicate 4 0 ++ bs.drop 64)

/-- A record of the journal is whole. -/
def State.recSound (s : State) (vt cs : Nat) (r : CkptRec) : Bool := (s.recRead vt cs r).any (recordGood r.gen)

/-- The active base of a core slot is whole: no granule of it is in error, and its state records pass CHECK and VERSION. -/
def State.baseSound (s : State) (vt : Nat) (k : CkptCore) : Bool :=
  match k.base with
  | none => true
  | some b =>
    let a := baseAt vt k.slot b
    let o := a + 528 * 1024
    !((unitsOf 32 a baseBytes).any s.hbmBad.contains) && recordGood k.baseGen (s.hbm.bytes o (min (s.hbm.read (o + 20) 4) 32768))

/-- The GENs of a journal follow its base without a gap, up to the last committed one. -/
def CkptCore.gapless (k : CkptCore) : Bool := k.recs.map (·.gen) == (List.range (k.gen - k.baseGen)).map (k.baseGen + 1 + ·)

/-- A tile's checkpoint is not corrupt: the base and every record of each core slot are whole, with no gap in GEN (17 R355). -/
def State.ckptSound (s : State) (vt : Nat) : Bool :=
  (s.ckpt vt).cores.all fun k => s.baseSound vt k && k.gapless && k.recs.all (s.recSound vt k.slot)

/-- The silicon of a virtual tile is left behind with its reserve: the records of its partner's journal that lie there are lost, which leaves a gap in GEN (log entry 67). -/
def State.loseRecords (s : State) (vt : Nat) : State :=
  let k := s.ckpt (partnerOf vt)
  if k.cores.any fun c => c.recs.any fun r => !r.hbm then
    s.putCkpt { k with cores := k.cores.map fun (c : CkptCore) => { c with recs := c.recs.filter (·.hbm) } }
  else s

/-- A core slot with only these ranges of its local store, and their tags. -/
def Core.onlyIn (c : Core) (rs : List (Nat × Nat)) : Core :=
  let inR (a : Nat) : Bool := rs.any fun r => r.1 ≤ a && a < r.1 + r.2
  { c with
    ls := c.ls.filter fun x => inR x.1
    full := c.full.filter fun w => inR (4 * w)
    wrote := c.wrote.filter fun w => inR (4 * w)
    gran := c.gran.filter fun g => inR (256 * g) }

/-! The restore (17 R355, R356; 12 R256; 15 R289). -/

/-- The threads of a checkpointed core slot that still hold their slots. -/
def State.toRestore (s : State) (vt : Nat) (gids : List Nat) (k : CkptCore) : List Thread :=
  k.threads.filter fun t => gids.contains t.gang && (let u := s.thread vt t.slot; u.gang == t.gang && u.st != .free)

/-- A thread takes its record's state; its held IO stores stay (12 R256), and a packet held for a freeze that is undone is lost. -/
def State.restoreThread (s : State) (t : Thread) : State :=
  let s := (s.unlinkWq t.vt t.slot).unrealign t.vt t.slot
  let u := s.thread t.vt t.slot
  let s := if t.st = .frozen then s else s.losePacket u
  s.modThread t.vt t.slot fun u =>
    { t with ioHeld := u.ioHeld, pktHeld := if t.st = .frozen then u.pktHeld else none, pktSeq := u.pktSeq, spanClk := s.clk, headClk := s.clk + 1 }

/-- A core slot takes its checkpoint for these gangs: what the abandoned attempt queued is discarded, and what waited already at the checkpoint waits again (12 R256). -/
def State.restoreCore (s : State) (vt : Nat) (gids : List Nat) (k : CkptCore) : State :=
  let ts := s.toRestore vt gids k
  let names := ts.map (·.slot)
  let rs := ts.map s.ownAlloc
  let accs := ts.flatMap s.accNames
  let s := s.modCore vt k.slot fun c =>
    { c.overlay k.core rs accs with
      stash := (c.stash.filter fun e => !names.contains e.owner) ++ k.core.stash.filter fun e => names.contains e.owner
      remoteQ := (c.remoteQ.filter fun r => !names.contains r.slot) ++ k.core.remoteQ.filter fun r => names.contains r.slot
      mxq := c.mxq.filter fun m => !names.contains m.slot }
  let s := s.modVTile vt fun v => { v with copies := v.copies.filter fun c => !names.contains c.slot }
  let s : State := { s with spawns := (s.spawns.filter fun x => !(x.vt == vt && names.contains x.slot)) ++ k.spawns.filter fun x => names.contains x.slot }
  ts.foldl (fun s t => s.restoreThread t) s

/-- The lower of two step levels. -/
def lowLevel (a b : StepLevel) : StepLevel :=
  match a, b with
  | .tile, _ => .tile
  | _, .tile => .tile
  | .dom, _ => .dom
  | _, .dom => .dom
  | .part, .part => .part

/-- The level of the boundary at which restored threads stand: the lowest at which one of them has arrived. -/
def levelOf (ts : List Thread) : StepLevel :=
  (ts.filterMap (·.stepArr)).foldl lowLevel (match (ts.filterMap (·.stepArr)).head? with | none => .dom | some l => l)

/-- The boundary whose release resumes a restored gang's threads on a tile: the one they stand at where its checkpoint was committed; otherwise a boundary that waits for them is undone and they get one of their own (17 R356). -/
def State.reboundary (s : State) (vt gid : Nat) : State :=
  let ts := (s.gangThreads gid).filter fun t => t.vt == vt
  let mine (b : Boundary) : Bool := b.parts.any fun p => ts.any fun t => t.isAt p.1 p.2
  if (s.bounds.any fun b => mine b && !b.ckpt.contains vt) || !((s.gang? gid).any fun g => g.released) then s
  else
    { s with bounds := (s.bounds.filter fun b => !mine b) ++
        [{ lvl := levelOf ts, gang := gid, vt := vt, parts := ts.map fun t => (t.vt, t.slot), ckpt := [] }] }

/-- A tile's gangs are restored from its checkpoint (17 R355): slots, allocations, accumulators, their barrier and the watchdog. What base and journal make together is kept beside them as data; only the device writes either, so no sound record differs from it (`State.ckptSound`). -/
def State.restoreTile (s : State) (vt : Nat) (gids : List Nat) : State :=
  let k := s.ckpt vt
  let s := k.cores.foldl (fun s c => s.restoreCore vt gids c) s
  gids.foldl (fun s gid =>
    match s.gang? gid with
    | none => s
    | some g =>
      let s := match g.tile? vt, k.gangs.find? fun x => x.1 == gid with
        | some t, some x =>
          (match k.bars.find? fun (b : Bar) => b.num == t.barid with
           | none => s
           | some b => s.modBar vt t.barid fun _ => b).modGang gid fun g => { g with wdtLeft := x.2 }
        | _, _ => s
      s.reboundary vt gid) s

/-- The tile with a core slot as its checkpoint has it. -/
def State.asSaved (s : State) (vt : Nat) (k : CkptCore) : State :=
  let c := s.ckpt vt
  { (s.modCore vt k.slot fun _ => k.core).modVTile vt fun v => { v with bars := c.bars } with
    threads := (s.threads.filter fun t => !(k.threads.any fun u => u.isAt t.vt t.slot)) ++ k.threads
    gangs := s.gangs.map fun (g : Gang) => match c.gangs.find? fun x => x.1 == g.id with | none => g | some x => { g with wdtLeft := x.2 } }

/-- A base image: the local store, its tags, and the state records in 32 KiB (17 R353). -/
def State.baseImage (s : State) (vt : Nat) (k : CkptCore) : List Byte :=
  let rec' := (s.asSaved vt k).recordOf true vt k.slot k.gen k.threads []
  k.core.ls.bytes 0 Config.lsSize ++ tagBytes k.core 0 16384 ++ rec' ++ List.replicate (32768 - rec'.length) 0

/-- JOURNAL_FOLD (17 R353): a journal past 384 KiB is folded, with the active base, into the other base image, which becomes the active one; while traffic to a partner whose reserve holds the journal's control is held, the fold waits (17 R342). -/
def execJournalFold (vt slot : Nat) (s : State) : Out :=
  .next <|
    let k := s.ckpt vt
    let c := k.core slot
    if c.journal > journalFold && !(s.partnerTakes vt slot && s.trafficHeld (partnerOf vt)) then
      let b := c.base == some false
      let c' : CkptCore := { c with base := some b, baseGen := c.gen, recs := [], used := 0, journal := 0 }
      (((s.putHbm (baseAt vt slot b) (s.baseImage vt c)).putCkpt { k with cores := k.cores.map fun x => if x.slot == slot then c' else x })).putControl vt c'
    else s

end Sys2Proof.Machine
end

