-- ==== Sys2Proof/Machine/Silicon.lean ====
section
/-! DEFINITION. Retiring silicon: spares, rotations and forced moves, the signed table update, replay, tests, retention and ageing (17; 01 R17-R23). -/

namespace Sys2Proof.Machine

/-! Gangs frozen by an event (16 R322). -/

/-- A thread in RUN freezes with others; another thread's packet tells of it. -/
def State.freezeQuiet (s : State) (vt slot : Nat) (c : Cause) (seq : Nat) : State :=
  if (s.thread vt slot).st ≠ .run then s
  else (s.unlinkWq vt slot).modThread vt slot fun t =>
    { t with st := .frozen, cause := some c, wait := .none, woken := none, bodyF := false, pktSeq := seq }

/-- Threads in the order of their gang thread index. -/
def Gang.inOrder (g : Gang) (l : List Thread) : List Thread := sortBy (fun a b => g.gti a ≤ g.gti b) l

/-- Freezes every thread of a list that is in RUN with one packet that names the first; with none in RUN the packet freezes nothing. -/
def State.freezeList (s : State) (g : Gang) (l : List Thread) (f : FaultInfo) : State :=
  match l.filter fun t => t.st == .run with
  | [] => s.packetOnly g.part (s.lowestThread g.id) (g.cap 2) f false
  | t :: r =>
    let s := s.freeze t.vt t.slot f t.pc false
    r.foldl (fun s u => s.freezeQuiet u.vt u.slot f.cause (s.thread t.vt t.slot).pktSeq) s

/-- Freezes every thread of a gang. -/
def State.freezeGang (s : State) (gid : Nat) (f : FaultInfo) : State :=
  match s.gang? gid with
  | none => s
  | some g => s.freezeList g (g.inOrder (s.gangThreads gid)) f

/-! Ageing counters (17 R360, R361). -/

/-- A counter by its place in the ageing word: 0 SCRM, 1 CSE, 2 RET, 3 MARG, 4 LOSTP. -/
def Ageing.get (a : Ageing) (k : Nat) : Nat :=
  match k with
  | 0 => a.scrm | 1 => a.cse | 2 => a.ret | 3 => a.marg | _ => a.lostp

/-- Sets a counter with the clk of its change. -/
def Ageing.set (a : Ageing) (k n clk : Nat) : Ageing :=
  let a := { a with clks := setNth a.clks k clk }
  match k with
  | 0 => { a with scrm := n } | 1 => { a with cse := n } | 2 => { a with ret := n } | 3 => { a with marg := n }
  | _ => { a with lostp := n }

/-- The GREY thresholds. -/
def greyAt (k : Nat) : Nat := match k with | 0 => 1 | 1 => 64 | 2 => 1 | 3 => 4 | _ => 2
/-- The BLACK thresholds. -/
def blackAt (k : Nat) : Nat := match k with | 0 => 3 | 1 => 1024 | 2 => 2 | 3 => 16 | _ => 8
/-- The periods of a decay span. -/
def decaySpan (k : Nat) : Nat := match k with | 0 => 32 | 1 => 1 | 2 => 256 | 3 => 32 | _ => 32

/-- Some counter stands at or above its GREY threshold. -/
def Ageing.grey (a : Ageing) : Bool := (List.range 5).any fun k => greyAt k ≤ a.get k
/-- Some counter stands at or above its BLACK threshold. -/
def Ageing.black (a : Ageing) : Bool := (List.range 5).any fun k => blackAt k ≤ a.get k

/-! Service states and retirement (01 R17-R21). -/

/-- A physical tile carries a virtual tile. -/
def State.carries (s : State) (p : Nat) : Bool := (s.carried p).isSome

/-- Sets a tile's service state. -/
def State.setService (s : State) (p : Nat) (x : Service) : State := s.modPTile p fun t => { t with service := x }

/-- A WHITE tile goes AMBER; no other state does (01 R18). -/
def State.toAmber (s : State) (p : Nat) : State :=
  s.modPTile p fun t => { t with service := if t.service = .white then .amber else t.service }

/-- Seals a log block of one entry (01 R21). -/
def State.sealLog (s : State) (e : LogEntry) : State := { s with retireLog := s.retireLog ++ [{ valid := true, entries := [e] }] }

/-- The change of a table update is staged already. -/
def State.staged? (s : State) (c : TableChange) : Bool := s.updates.any fun u => u.change == c

/-- A table update is staged (17 R344). -/
def State.stageUpdate (s : State) (c : TableChange) : State :=
  if s.staged? c then s else { s with updates := s.updates ++ [{ change := c, noVote := [] }] }

/-- A tile is to go BLACK: the log block that records it is sealed first, and from then on none of its cores is in service (01 R21); the table update is staged (17 R344). -/
def State.toBlack (s : State) (p : Nat) : State :=
  if s.staged? (.black p) then s else ((s.sealLog (.tile p)).modPTile p fun t => { t with cores := [] }).stageUpdate (.black p)

/-- A tile goes GREY, for a routine test or for cause; one that a counter or its cores condemn goes on to BLACK (17 R361, 01 R19). -/
def State.toGrey (s : State) (p : Nat) (routine : Bool := false) : State :=
  let s := s.modPTile p fun t => { t with service := .grey, greyClk := s.clk, retained := false, routine := routine }
  match s.ptile? p with
  | none => s
  | some t => if t.ageing.black || t.cores.length < 12 then s.toBlack p else s

/-- What a tile's counters and cores ask of it where nothing has to be moved first: a WHITE spare at a GREY threshold goes to test, a GREY tile at a BLACK threshold goes BLACK. -/
def State.actOn (s : State) (p : Nat) : State :=
  match s.ptile? p with
  | none => s
  | some t =>
    match t.service with
    | .grey => if t.ageing.black then s.toBlack p else s
    | .white =>
      if (t.ageing.grey || t.cores.length < 12) && !s.carries p && !(s.rotations.any fun r => r.target == p || r.source == p)
      then s.toGrey p else s
    | _ => s

/-- Adds events to a counter, which saturates, and acts on its thresholds. -/
def State.bumpAge (s : State) (p k n : Nat) : State :=
  if n = 0 then s
  else (s.modPTile p fun t => { t with ageing := t.ageing.set k (min (t.ageing.get k + n) 4095) s.clk }).actOn p

/-- The screening mismatches of a virtual tile that no replay has answered. -/
def State.mismatches (s : State) (vt : Nat) : Nat :=
  (s.cores.filter fun c => c.vt == vt).foldl (fun n c => n + c.mismatch) 0

/-- The mismatches of a virtual tile are answered. -/
def State.answerMismatches (s : State) (vt : Nat) : State :=
  { s with cores := s.cores.map fun (c : Core) => if c.vt == vt then { c with mismatch := 0 } else c }

/-- Mismatches that no replay of their own will answer are counted as they stand (17 R360). -/
def State.countMismatches (s : State) (vt : Nat) : State := (s.answerMismatches vt).bumpAge (s.ptileOf vt) 0 (s.mismatches vt)

/-- A core is retired: sealed in the log and out of service (01 R21). -/
def State.retireCore (s : State) (p c : Nat) : State :=
  (s.sealLog (.core p c)).modPTile p fun t => { t with cores := t.cores.filter fun x => x != c }

/-- The cores of a tile whose slots a table change makes vacant (01 R23, 17 R344). -/
def TableChange.vacates (c : TableChange) (p : Nat) : List Nat :=
  match c with
  | .vacant q cs => if q = p then cs else []
  | _ => []

/-- The cores of a tile whose slots are about to become vacant. -/
def State.vacating (s : State) (p : Nat) : List Nat := s.updates.flatMap fun u => u.change.vacates p

/-- The update that makes the slots of a tile's cores vacant is staged, together with what one for that tile vacates already. -/
def State.stageVacant (s : State) (p : Nat) (cs : List Nat) : State :=
  if (s.vacating p).isEmpty then s.stageUpdate (.vacant p cs)
  else
    { s with updates := s.updates.map fun (u : TableUpdate) =>
        if (u.change.vacates p).isEmpty then u else { u with change := .vacant p (u.change.vacates p ++ cs) } }

/-- The slots of cores of a tile are vacant, and the ranks with them (01 R23). -/
def State.vacate (s : State) (p : Nat) (cs : List Nat) : State :=
  { s with vtiles := s.vtiles.map fun (v : VTile) =>
      if v.backed && v.ptile == p then
        { v with slots := v.slots.map fun (x : Option Nat) => x.filter fun c => !cs.contains c }
      else v }

/-! Spares (01 R23, 17 R339, R346). -/

/-- The slots of a virtual tile that are not vacant and not about to be. -/
def State.needs (s : State) (v : VTile) : Nat :=
  let out := s.vacating v.ptile
  (v.slots.filter fun x => x.any fun c => !out.contains c).length

/-- A physical tile is an unbound WHITE spare that no rotation has taken. -/
def State.isSpare (s : State) (t : PTile) : Bool :=
  t.service == .white && 12 ≤ t.cores.length && !s.carries t.num && !(s.rotations.any fun r => r.target == t.num || r.source == t.num)

/-- The highest-numbered tile of a list. -/
def highest (l : List PTile) : Option Nat :=
  l.foldl (fun best t => match best with | none => some t.num | some b => some (max b t.num)) none

/-- The spare that the shipped firmware takes for a virtual tile. -/
def State.spareFor (s : State) (vt : Nat) : Option Nat :=
  match s.vtile? vt with
  | none => none
  | some v => highest (s.tiles.filter fun t => s.isSpare t && s.needs v ≤ t.cores.length)

/-- The GREY tile whose routine test is abandoned for want of a spare: of those whose last test passed, whose counters stand below GREY and whose router votes, the one that has been in test longest (17 R345, R346). -/
def State.testToAbandon (s : State) (vt : Nat) : Option Nat :=
  match s.vtile? vt with
  | none => none
  | some v =>
    let ok (t : PTile) : Bool := t.service == .grey && t.routine && t.passed && t.votes && !t.ageing.grey && !s.staged? (.black t.num) && 12 ≤ t.cores.length && s.needs v ≤ t.cores.length
    ((s.tiles.filter ok).foldl (fun best t =>
      match best with
      | none => some t
      | some (b : PTile) => if t.greyClk < b.greyClk then some t else some b) none).map (·.num)

/-- A spare for a replay or a forced rotation, a routine test abandoned where none qualifies; what the test took goes to the device housekeeping account (15 R318). -/
def State.takeSpare (s : State) (vt : Nat) : Option (State × Nat) :=
  match s.spareFor vt with
  | some p => some (s, p)
  | none =>
    match s.testToAbandon vt with
    | none => none
    | some p => some ((s.setService p .white).hkEnergy, p)

/-! Reports. -/

/-- The partitions that have a gang on a virtual tile. -/
def State.partsOn (s : State) (vt : Nat) : List Nat := ((s.gangs.filter fun g => (g.tile? vt).isSome).map (·.part)).eraseDups

/-- A SILICON record in the event stream of each partition with a gang on the tile (19 R381). -/
def State.siliconEvent (s : State) (vt sub source : Nat) : State :=
  (s.partsOn vt).foldl (fun s p => s.event p 0x08 sub 0 (w64 vt) (w64 source)) s

/-- A SILICON record in the housekeeping log. -/
def State.siliconLog (s : State) (vt : Word) (sub source : Nat) : State :=
  s.hkPut 3 0xFF (eventWords 0x08 false sub 0 s.clk vt (w64 source) ++ List.replicate 4 0)

/-! Core tests (17 R348, R349). -/

/-- The value of a test's handle. -/
def testValue (result fail marg : Nat) : BitVec 60 := BitVec.ofNat 60 (result + fail * 2 ^ 16 + marg * 2 ^ 32)

/-- A test ends early: its handle completes ABORTED, and what it took goes to the device housekeeping account (15 R318). -/
def State.abortTest (s : State) (t : CoreTest) : State :=
  ({ s with tests := s.tests.filter fun x => x.id != t.id } : State).completeCmd t.byVt t.byCs t.cmd .ok (testValue 3 0 0) .read |>.hkEnergy

/-- Every test of a virtual tile whose result is not decided is aborted (17 R349). -/
def State.abortTests (s : State) (vt : Nat) : State := (s.tests.filter fun t => t.vt == vt && t.decided.isNone).foldl (fun s t => s.abortTest t) s

/-- The virtual tile that a test instruction names (17 R348, 01 R24). -/
def State.testTile (s : State) (t : Thread) (a : Word) (body : Nat → Res) : Res :=
  let v := a.field 0 12
  let ok := match s.vtile? v with
    | none => false
    | some x => x.backed && v < s.nvtile && (s.part (s.partNum t)).holds v
  if a.field 12 52 ≠ 0 then .fault s.illegal
  else if !ok then .fault { cause := .tileRange, info := w64 v }
  else body v

/-- `scr.run` (17 R348). -/
def execScrRun (p : Pred) (full : Bool) (d : HReg) (a b : SReg) (s : State) : Out :=
  s.issue { Form.blocked 8 p with cap := some 3 } fun s t =>
    let m := t.sreg s.cur.body b
    if m.field 16 48 ≠ 0 || m = 0 then .fault s.illegal
    else
      s.testTile t (t.sreg s.cur.body a) fun v =>
        t.handleGate (some d) s <|
          if s.isAmber v then .wait s (.stall 14)
          else
            let mask := bitsOf m.toNat 16
            let busy := mask.any fun c =>
              (s.pcoreOf v c).isNone || !(s.holders v [c]).isEmpty || s.tests.any fun x => x.vt == v && x.mask.contains c
            if busy then .done (s.modCur fun u => u.setH (some d) (.complete .ok (testValue 4 0 0) .read)) 1 0
            else
              let (s, id) := s.newCmd
              let test : CoreTest := { id := id, vt := v, mask := mask, full := full, cmd := id, byVt := t.vt, byCs := t.cslot }
              .done (({ s with tests := s.tests ++ [test] } : State).modCur fun u => u.setH (some d) (.pending id false)) 1 0

/-- `scr.stat` (17 R350). -/
def execScrStat (p : Pred) (d a : SReg) (s : State) : Out :=
  s.issue { Form.blocked 8 p with cap := some 3 } fun s t =>
    s.testTile t (t.sreg s.cur.body a) fun v =>
      let w : Word := match s.ptile? (s.ptileOf v) with
        | none => 0
        | some p => p.ageing.word
      .done (s.modCur fun u => u.setS d w) 1 0

/-- A BIND held for a tile names a core of a test that is not decided. -/
def State.testLeaving (s : State) (t : CoreTest) : Bool :=
  t.decided.isNone && s.heldBinds.any fun h => h.1 == t.vt && (BindRec.of h.2.2).cmask.any fun c => t.mask.contains c

/-- The handle of a decided test completes (17 R348). -/
def State.endTest (s : State) (t : CoreTest) (v : BitVec 60) : State :=
  ({ s with tests := s.tests.filter fun x => x.id != t.id } : State).completeCmd t.byVt t.byCs t.cmd .ok v .read

/-- SCR_TEST_COMPLETE (17 R348, R349): the result is decided. Failed cores are retired before the handle completes: sealed and out of service at once, while the table update that makes their slots vacant is staged, and the handle completes with its commit (17 R344). -/
def execScrTestComplete (id : Nat) (failMask margMask : BitVec 16) (s : State) : Out :=
  .next <|
    match s.tests.find? fun t => t.id == id && t.decided.isNone with
    | none => s
    | some t =>
      if s.testLeaving t then s
      else
        let p := s.ptileOf t.vt
        let fail := (bitsOf failMask.toNat 16).filter fun c => t.mask.contains c
        let marg := (bitsOf margMask.toNat 16).filter fun c => t.mask.contains c
        let v := testValue (if !fail.isEmpty then 2 else if !marg.isEmpty then 1 else 0) (ofBits fail) (ofBits marg)
        let cs := fail.filterMap fun c => s.pcoreOf t.vt c
        let s := ((cs.foldl (fun s c => s.retireCore p c) s).bumpAge p 3 marg.length).hkEnergy
        if cs.isEmpty then s.endTest t v
        else
          ({ s with tests := s.tests.map fun (x : CoreTest) => if x.id == id then { x with decided := some v, fails := cs } else x } : State).stageVacant
            p cs

/-- TEST_LEAVE_COMPLETE (17 R349): the cores that a held BIND names have left test. -/
def execTestLeaveComplete (vt : Nat) (s : State) : Out :=
  .next <|
    if s.isAmber vt then s
    else
      let l := s.tests.filter fun t => t.vt == vt && s.testLeaving t
      if l.isEmpty then s else (l.foldl (fun s t => s.abortTest t) s).applyHeld vt

/-! The VTILE on its tile (17 R340, R344). -/

/-- The slot map onto a target: the slots that are not vacant take its cores in order. -/
def mapSlots : List (Option Nat) → List Nat → List (Option Nat)
  | [], _ => []
  | none :: r, cs => none :: mapSlots r cs
  | some _ :: r, [] => none :: mapSlots r []
  | some _ :: r, c :: cs => some c :: mapSlots r cs

/-- The routers translate a virtual tile to the target; gangs on it have moved where the target lies in another zone, and its fetch buffers and fetch cache are empty (17 R343, 15 R317). The tile is AMBER until the rotation ends. -/
def State.remap (s : State) (vt target : Nat) : State :=
  let far := s.zoneOf vt ≠ target / 64
  let cores := match s.ptile? target with | none => [] | some p => sortBy (fun a b => a ≤ b) p.cores
  { s.modVTile vt fun v => { v with ptile := target, slots := mapSlots v.slots cores, icache := [] } with
    threads := s.threads.map fun (t : Thread) => if t.vt == vt then { t with fbuf := [], freq := none } else t
    gangs := s.gangs.map fun (g : Gang) => if (g.tile? vt).isSome && far then { g with moved := insertNew vt g.moved } else g }

/-- A rotation is no more. -/
def State.dropRotation (s : State) (vt : Nat) : State := { s with rotations := s.rotations.filter fun r => r.vt != vt }

/-- A rotation whose copy is abandoned: its target is a spare again (15 R318). -/
def State.cancelRotation (s : State) (vt : Nat) : State :=
  (s.rotations.filter fun r => r.vt == vt).foldl (fun s r =>
    if (s.ptile? r.target).any fun t => t.service == .amber then (s.setService r.target .white).hkEnergy else s) (s.dropRotation vt)

/-- Changes a rotation. -/
def State.modRotation (s : State) (vt : Nat) (f : Rotation → Rotation) : State :=
  { s with rotations := modFirst (fun r => r.vt == vt) f s.rotations }

/-- The rotation of a virtual tile. -/
def State.rotation? (s : State) (vt : Nat) : Option Rotation := s.rotations.find? fun r => r.vt == vt

/-- A virtual tile is AMBER no more. -/
def State.clearAmber (s : State) (vt : Nat) : State := s.modVTile vt fun v => { v with amber := false }

/-- A rotation ends at the release of the tile's threads (17 R340): the target is WHITE, the source GREY, held BINDs are applied. A routine rotation, also one that three abandoned attempts forced, sends its source to a routine test. -/
def State.endRotation (s : State) (r : Rotation) : State :=
  let routine := !r.isReplay && (!r.forced || (s.ptile? r.source).any fun t => 3 ≤ t.attempts)
  let s := ((s.dropRotation r.vt).clearAmber r.vt).setService r.target .white
  let s := s.modPTile r.source fun t => { t with attempts := 0, notBefore := 0 }
  ((s.toGrey r.source routine).actOn r.target).applyHeld r.vt

/-- A virtual tile is unbacked (01 R23): the gangs bound on it are reported to their supervisors with an UNBACKED packet, those not released leave every tile, as do those with a BIND held for it (05 R101), and its tile goes to test. -/
def State.unbacked (s : State) (vt : Nat) : State :=
  let p := s.ptileOf vt
  let s := ((s.countMismatches vt).dropRotation vt).modVTile vt fun v => { v with backed := false, amber := false }
  let bound := s.gangs.filter fun g => (g.tile? vt).isSome
  let held := (s.heldBinds.filter fun h => h.1 == vt).map fun h => (BindRec.of h.2.2).gangid
  let leave := (bound.filter fun g => !g.released).map (·.id) ++ held
  let s := bound.foldl (fun s g => s.freezeGang g.id { cause := .unbacked, info := w64 vt }) s
  let s := leave.foldl (fun s g => s.unbind g) { s with heldBinds := s.heldBinds.filter (fun h => h.1 != vt), heldPre := s.heldPre.filter fun h => h.2 != vt }
  s.toGrey p

/-- No spare qualifies for a virtual tile that must move: the update that unbacks it is staged (01 R23, 17 R344); a rotation or replay that was under way leaves it AMBER until then. -/
def State.unback (s : State) (vt : Nat) : State := (s.dropRotation vt).stageUpdate (.unbacked vt)

/-- A thread is quiescent (17 R341): its slot runs nothing, or it sleeps in `step` with the stages of its boundary complete. -/
def State.quiet (s : State) (t : Thread) : Bool :=
  match t.st with
  | .free | .bound | .halted | .frozen => true
  | .run => t.wait == .step && !t.stepRel && s.bounds.any fun b => b.parts.contains (t.vt, t.slot)
  | _ => false

/-- A tile is quiescent (17 R341); a screening mismatch that no replay has answered keeps it from being so, since its replay comes first and counts on the tile that erred (17 R356, R360). -/
def State.quiescent (s : State) (vt : Nat) : Bool :=
  s.mismatches vt == 0 &&
  (s.threads.all fun t => t.vt != vt || s.quiet t) &&
  (s.cores.all fun c => c.vt != vt || (c.mxq.isEmpty && c.stash.all fun e => e.st != .filling && e.st != .draining)) &&
  (match s.vtile? vt with | none => true | some v => v.copies.isEmpty)

/-- The releases of a tile's threads are withheld (17 R341). -/
def State.withheld (s : State) (vt : Nat) : Bool :=
  s.rotations.any fun r => r.vt == vt &&
    (match r.st with
     | .drain => s.quiescent vt
     | .copy | .remap => true
     | .resume => false)

/-- A gang with a thread on the tile that is not quiescent. -/
def State.restless (s : State) (vt : Nat) (g : Gang) : Bool :=
  (s.gangThreads g.id).any fun t => t.vt == vt &&
    (!s.quiet t ||
     (s.core vt t.cslot).mxq.any (fun m => m.slot == t.slot) ||
     (s.core vt t.cslot).stash.any (fun e => e.owner == t.slot && (e.st == .filling || e.st == .draining)) ||
     (match s.vtile? vt with | none => false | some v => v.copies.any fun c => c.slot == t.slot))

/-! Rotations (17 R339, R340). -/

/-- The rotations that count toward the 8 in DRAIN or COPY: one in REMAP counts too, since a rejection may take it back to COPY (17 R339, R345, log entry 68). -/
def State.moving (s : State) : Nat := (s.rotations.filter fun r => r.st != .resume && !r.isReplay).length

/-- The rotations in DRAIN or COPY. -/
def State.copying (s : State) : Nat := (s.rotations.filter fun r => (r.st == .drain || r.st == .copy) && !r.isReplay).length

/-- A forced rotation waits for one of the 8 places; that of a tile whose router rejected a table, for which those in REMAP wait, does not wait for them (17 R339, R345, log entry 68). -/
def State.placesTaken (s : State) (vt : Nat) : Bool :=
  if (s.ptile? (s.ptileOf vt)).any fun t => !t.votes then s.copying ≥ 8 else s.moving ≥ 8

/-- The routers that cast no vote (17 R345). -/
def State.silent (s : State) : List Nat := (s.tiles.filter fun t => !t.votes).map (·.num)

/-- A rotation enters DRAIN: the tile's core tests end, and BINDs held for them are applied (17 R349). -/
def State.startRotation (s : State) (vt target : Nat) (forced : Bool) : State :=
  (({ s with rotations := s.rotations ++
      [{ vt := vt, source := s.ptileOf vt, target := target, st := .drain, forced := forced, isReplay := false, preempted := false,
         since := s.clk, noVote := [], counter := 0, events := 0 }] } : State).abortTests vt).applyHeld vt

/-- The WHITE tile whose last test is oldest, among those that a routine rotation may take now. -/
def State.oldestTested (s : State) : Option PTile :=
  let ok (t : PTile) : Bool :=
    t.service == .white && t.notBefore ≤ s.clk && !(s.rotations.any fun r => r.source == t.num || r.target == t.num)
  (s.tiles.filter ok).foldl (fun best t =>
    match best with
    | none => some t
    | some (b : PTile) => if t.lastTest < b.lastTest || (t.lastTest = b.lastTest && t.num < b.num) then some t else some b) none

/-- ROUTINE_ROTATION (17 R339, 01 R22): the tile tested longest ago goes to test, or its virtual tile is rotated onto a spare; an unbound spare remains. -/
def execRoutineRotation (s : State) : Out :=
  .next <|
    let greys := (s.tiles.filter fun t => t.service == .grey).length
    let spares := (s.tiles.filter s.isSpare).length
    if greys ≥ 32 || s.moving ≥ 8 || spares < 2 then s
    else
      match s.oldestTested with
      | none => s
      | some t =>
        match s.carried t.num with
        | none => s.toGrey t.num true
        | some vt =>
          if s.isAmber vt || s.unbacking vt then s
          else
            match s.spareFor vt with
            | none => s
            | some p => s.startRotation vt p (t.attempts ≥ 3)

/-- The tile of a virtual tile must be moved off: a GREY threshold, fewer than 12 cores, or a router that rejected a table (17 R339). -/
def State.mustMove (s : State) (vt : Nat) : Bool :=
  match s.ptile? (s.ptileOf vt) with
  | none => false
  | some t => t.service == .white && (t.ageing.grey || t.cores.length < 12 || !t.votes)

/-- FORCED_ROTATION (17 R339, R361). -/
def execForcedRotation (vt : Nat) (s : State) : Out :=
  .next <|
    match s.vtile? vt with
    | none => s
    | some v =>
      if !v.backed || v.amber || s.unbacking vt || (s.rotation? vt).isSome || !s.mustMove vt || s.placesTaken vt then s
      else
        match s.takeSpare vt with
        | none => s.unback vt
        | some (s, p) => s.startRotation vt p true

/-- The tiles of a rotation are AMBER. -/
def State.holdTiles (s : State) (r : Rotation) : State :=
  ((s.toAmber r.source).toAmber r.target).modVTile r.vt fun v => { v with amber := true }

/-- ROTATION_QUIESCENT (17 R340): a drained tile enters COPY; so does one that waits for a place to copy onto a new target (17 R339). -/
def execRotationQuiescent (vt : Nat) (s : State) : Out :=
  .next <|
    match s.rotation? vt with
    | none => s
    | some r =>
      if r.st = .drain && s.quiescent vt then
        ((s.modRotation vt fun r => { r with st := .copy, since := s.clk }).holdTiles r).abortTests vt
      else if r.again && s.copying < 8 then s.modRotation vt fun r => { r with st := .copy, again := false, since := s.clk }
      else s

/-! Replay (17 R356, R357). -/

/-- A gang's checkpoint on a tile can be restored. -/
def State.ckptGood (s : State) (vt gid : Nat) : Bool := (s.ckpt vt).has gid && s.ckptSound vt

/-- The gangs bound on a virtual tile. -/
def State.gangsOn (s : State) (vt : Nat) : List Nat := (s.gangs.filter fun g => (g.tile? vt).isSome).map (·.id)

/-- Gangs that were never released and have no checkpoint leave the tile; their records stay staged. -/
def State.unbindFresh (s : State) (vt : Nat) : State :=
  (s.gangs.filter fun g => (g.tile? vt).isSome && !g.released && !s.ckptGood vt g.id).foldl (fun s g => s.unbind g.id) s

/-- The checkpoint of a gang is corrupt: its threads stay FROZEN as they stand, and the tile stays AMBER (17 R357). -/
def State.replayCorrupt (s : State) (vt : Nat) (gids : List Nat) : State :=
  let s := gids.foldl (fun s g => s.freezeGang g { cause := .replay, sub := 1 }) s
  (s.toAmber (s.ptileOf vt)).modVTile vt fun v => { v with amber := true }

/-- The spare of a replay: what no restore rebuilds is not copied from the source (17 R343, R356, log entry 67). Its local stores hold the allocations alone, so its partner's journal is lost, its sepia rings are empty, no word is in error and no matrix unit is stopped. -/
def State.freshSilicon (s : State) (vt : Nat) : State :=
  let s := s.loseRecords vt
  { s with cores := s.cores.map fun (c : Core) =>
    if c.vt == vt then
      { c.onlyIn ((s.holders vt [c.slot]).map s.ownAlloc) with
        bad := [], mxStop := false, acc := c.acc.map Acc.sealed, sepia := [], sepiaLost := 0, sepiaNext := 0 }
    else c }

/-- The reports and counts of a replay (17 R356, 19 R383, 15 R318). -/
def State.reportReplay (s : State) (vt source : Nat) : State :=
  let s := ((s.siliconLog (w64 vt) 2 source).siliconEvent vt 2 source).hkEnergy
  (s.partsOn vt).foldl (fun s p => s.count p 9 1) s

/-- Gangs have been rolled back: until its next committed checkpoint a second fault of a replayed class counts as one (17 R357). -/
def State.markReplayed (s : State) (gids : List Nat) : State :=
  gids.foldl (fun s g => s.modGang g fun x => { x with replayed := true }) s

/-- The gangs of a tile are restored onto a target, whose table update is staged; their next checkpoint ends the time in which a second fault counts as one (17 R356, R357). A copy under way is abandoned (15 R318); mismatches that wait for a replay of their own are answered by this one, and counted (17 R360). -/
def State.replayOnto (s : State) (vt target : Nat) (gids : List Nat) (onTarget : Bool) (counter events : Nat) : State :=
  let r : Rotation :=
    { vt := vt, source := s.ptileOf vt, target := target, st := .remap, forced := true, isReplay := true, preempted := false,
      since := s.clk, noVote := [], counter := counter, events := events }
  let s := s.countMismatches vt
  let s : State :=
    if onTarget then (s.modRotation vt fun x => { x with st := .remap, isReplay := true, counter := counter, events := events }).hkEnergy
    else { s with rotations := s.rotations ++ [r] }
  let s := ((s.holdTiles r).abortTests vt).restoreTile vt gids
  (s.markReplayed gids).freshSilicon vt

/-- A fault of a replayed class is taken up: mismatches are answered, by a replay of another cause too, and a retention loss is reported once. -/
def State.takeFault (s : State) (vt counter : Nat) : State :=
  if counter = 0 then s.answerMismatches vt
  else if counter = 2 then (s.countMismatches vt).modPTile (s.ptileOf vt) fun p => { p with retained := false }
  else s.countMismatches vt

/-- The events that a fault of a replayed class counts (17 R360): every mismatch found, a retention loss, none for any other. -/
def State.faultEvents (s : State) (vt counter : Nat) : Nat :=
  if counter = 0 then max 1 (s.mismatches vt) else if counter = 2 then 1 else 0

/-- A rotation of a virtual tile gives way to a replay: in DRAIN or RESUME it ends (17 R340). -/
def State.yieldRotation (s : State) (vt : Nat) : State :=
  match s.rotation? vt with
  | some r => (match r.st with
    | .drain => s.dropRotation vt
    | .resume => s.endRotation r
    | _ => s)
  | none => s

/-- A tile's gangs are replayed (17 R356): counter 0 is a screening mismatch, 2 a retention loss, any other counts nothing. What a replay counts is counted when its table update commits, after its source went GREY (17 R356, R358); a fault that no replay follows is counted at once. -/
def State.beginReplay (s : State) (vt counter : Nat) : State :=
  match s.vtile? vt with
  | none => s
  | some v =>
    let onTarget := match s.rotation? vt with | some r => if r.st = .copy then some r.target else none | none => none
    if !v.backed || s.unbacking vt || (s.trafficHeld vt && onTarget.isNone) then s
    else
      let n := s.faultEvents vt counter
      let s := ((s.yieldRotation vt).takeFault vt counter).unbindFresh vt
      let gids := s.gangsOn vt
      let second := gids.filter fun g => (s.gang? g).any fun x => x.replayed
      let first := gids.filter fun g => !second.contains g
      let s := second.foldl (fun s g => s.freezeGang g { cause := .replay, sub := 2 }) s
      if first.isEmpty && !gids.isEmpty && onTarget.isNone then s.bumpAge (s.ptileOf vt) counter n
      else if first.any fun g => !s.ckptGood vt g then
        ((s.replayCorrupt vt first).cancelRotation vt).bumpAge (s.ptileOf vt) counter n
      else
        match onTarget with
        | some t => s.replayOnto vt t first true counter n
        | none =>
          match s.takeSpare vt with
          | none => (((s.toAmber (s.ptileOf vt)).modVTile vt fun v => { v with amber := true }).bumpAge (s.ptileOf vt) counter n).unback vt
          | some (s, t) => s.replayOnto vt t first false counter n

/-- What asks for a replay of a tile: screening mismatches, or contents lost in retention. -/
def State.replayDue (s : State) (vt counter : Nat) : Bool :=
  match counter with
  | 0 => s.mismatches vt != 0
  | 2 => s.retentionLost vt
  | _ => false

/-- REPLAY (17 R356): counter 0, the SCRM counter, for a screening mismatch; 2, the RET counter, for a retention loss. -/
def execReplay (vt counter : Nat) (s : State) : Out := .next (if s.replayDue vt counter then s.beginReplay vt counter else s)

/-- PATROL_SCRUB (17 R356, 15 R318): the scrubber reads a core slot's local store; an uncorrectable error there starts a replay. -/
def execPatrolScrub (vt slot : Nat) (s : State) : Out :=
  .next (if (s.core vt slot).bad.isEmpty then s.hkEnergy else s.hkEnergy.beginReplay vt 1)

/-- DRAIN_TIMEOUT (17 R340). -/
def execDrainTimeout (vt : Nat) (s : State) : Out :=
  .next <|
    match s.rotation? vt with
    | none => s
    | some r =>
      if r.st ≠ .drain || s.clk < r.since + 16777216 then s
      else if !r.forced then
        (s.dropRotation vt).modPTile r.source fun (t : PTile) => { t with attempts := t.attempts + 1, notBefore := s.clk + 6300000000000 }
      else
        let rest := s.gangs.filter fun g => s.restless vt g
        if !r.preempted then
          rest.foldl (fun s g => s.preemptGang g) (s.modRotation vt fun r => { r with preempted := true, since := s.clk })
        else
          let s := s.unbindFresh vt
          let gids := (s.gangs.filter fun g => s.restless vt g).map (·.id)
          let s := ((s.modRotation vt fun r => { r with st := .copy, since := s.clk }).holdTiles r).abortTests vt
          if gids.any fun g => !s.ckptGood vt g then (s.replayCorrupt vt gids).cancelRotation vt
          else ((s.restoreTile vt gids).markReplayed gids).reportReplay vt r.source

/-- A word that the state copy reads holds an uncorrectable error, or does not agree with its residue (17 R343). -/
def State.copyMeetsError (s : State) (vt : Nat) : Bool :=
  s.cores.any fun c => c.vt == vt && (!c.bad.isEmpty || c.acc.toList.any fun a => !a.broken.isEmpty)

/-- An accumulator word of the tile does not agree with its residue: a screening mismatch (10 R215). -/
def State.brokenOn (s : State) (vt : Nat) : List Nat :=
  (s.cores.filter fun c => c.vt == vt && c.acc.toList.any fun a => !a.broken.isEmpty).map (·.slot)

/-- STATE_COPY_COMPLETE (17 R340, R343): the copy is whole and the update is staged; a screening mismatch that waits for its replay abandons the copy instead (17 R340, R356). -/
def execStateCopyComplete (vt : Nat) (s : State) : Out :=
  .next <|
    match s.rotation? vt with
    | none => s
    | some r =>
      if r.st = .copy && !s.copyMeetsError vt && s.mismatches vt = 0 then (s.modRotation vt fun r => { r with st := .remap, since := s.clk }).hkEnergy else s

/-- The spare that a rotation takes: only a forced one or a replay has a routine test abandoned (17 R346). -/
def State.nextSpare (s : State) (r : Rotation) : Option (State × Nat) :=
  if r.forced || r.isReplay then s.takeSpare r.vt else (s.spareFor r.vt).map fun p => (s, p)

/-- Another spare for a rotation whose target is lost, and with it the copy under way (15 R318); none unbacks the virtual tile, and what a replay counts is counted all the same (17 R360). Back in DRAIN the tile takes what was held for it (17 R340), and a new DRAIN pre-empts anew; one that would copy beside 8 others in DRAIN or COPY waits for a place (17 R339, log entry 68). -/
def State.retarget (s : State) (r : Rotation) (st : RotState) : State :=
  let s := s.toGrey r.target
  let s := if r.st = .copy || r.isReplay then s.hkEnergy else s
  match s.nextSpare r with
  | none => (s.bumpAge r.source r.counter r.events).unback r.vt
  | some (s, p) =>
    let again := r.st == .remap && st == .copy && s.copying ≥ 8
    let s := s.modRotation r.vt fun r =>
      { r with target := p, st := if again then .remap else st, again := again, since := s.clk, preempted := r.preempted && st != .drain }
    if st = .drain then ((s.setService r.source .white).clearAmber r.vt).applyHeld r.vt else s.toAmber p

/-- STATE_COPY_ERROR (17 R340): an error in a source word restores the gangs onto the target; an error at the target takes another spare. -/
def execStateCopyError (vt : Nat) (atTarget : Bool) (s : State) : Out :=
  .next <|
    match s.rotation? vt with
    | none => s
    | some r =>
      if r.st ≠ .copy then s
      else if atTarget then s.retarget r .drain
      else if s.copyMeetsError vt then
        let cs := s.brokenOn vt
        let s := cs.foldl (fun s c => s.screenMismatch vt c) s
        s.beginReplay vt (if cs.isEmpty then 1 else 0)
      else s

/-! The signed table update (17 R344, R345). -/

/-- The physical tile that a table change takes its virtual tile off, or that it retires. -/
def State.changeSource (s : State) : TableChange → Nat
  | .unbacked vt => s.ptileOf vt
  | .black p => p
  | .vacant p _ => p

/-- The number by which the events name a table change: the virtual tile, 4,096 + PTILE of a tile that goes BLACK, or 8,192 + PTILE of one with failed cores. -/
def TableChange.number : TableChange → Nat
  | .unbacked vt => vt
  | .black p => 4096 + p
  | .vacant p _ => 8192 + p

/-- The staged change of a number. -/
def State.update? (s : State) (n : Nat) : Option TableUpdate := s.updates.find? fun u => u.change.number == n

/-- The update of tile `p`'s own rotation waits, itself or through others, for the rotation of tile `q`. -/
def State.waitsFor (s : State) : Nat → Nat → Nat → Bool
  | 0, _, _ => false
  | n + 1, p, q => s.rotations.any fun r => r.source == p && r.noVote.any fun x => x == q || s.waitsFor n x q

/-- The routers that cast no vote let an update of a source through (17 R345, log entry 68): each is on a tile that carries no virtual tile any more, or the update moves a silent router's own tile. One that rejected this very update from another tile is waited for in each case, until its own rotation; where two tiles would wait for each other, neither does. -/
def State.votesIn (s : State) (source : Nat) (noVote : List Nat) : Bool :=
  (noVote.all fun p => p == source || !s.carries p || s.waitsFor s.rotations.length p source) &&
    (s.silent.contains source || s.silent.all fun p => !s.carries p)

/-- A rotation's update has every vote it needs; one that has lost its target has no update, and one whose source's failed cores have yet to leave the table comes after that. -/
def State.voted (s : State) (r : Rotation) : Bool :=
  r.st == .remap && !r.again && (s.vacating r.source).isEmpty && s.votesIn r.source r.noVote

/-- A replay's update can commit; any other that waits comes after it (17 R339). -/
def State.replayFirst (s : State) : Bool := s.rotations.any fun r => r.isReplay && s.voted r

/-- A rotation's update may commit now. -/
def State.mayCommit (s : State) (r : Rotation) : Bool := s.voted r && (r.isReplay || !s.replayFirst)

/-- The tests of a tile whose failed cores have left the table complete (17 R348), and the BINDs held for those cores are answered. -/
def State.endTests (s : State) (p : Nat) : State :=
  let l := s.tests.filter fun t => t.decided.isSome && s.ptileOf t.vt == p
  let s := l.foldl (fun s t => s.endTest t (t.decided.getD 0)) s
  ((l.map (·.vt)).eraseDups).foldl (fun s v => s.applyHeld v) s

/-- A table change takes effect at its commit. -/
def State.applyChange (s : State) (c : TableChange) : State :=
  match c with
  | .unbacked vt => s.unbacked vt
  | .black p => s.modPTile p fun t => { t with service := if t.service = .grey then .black else t.service }
  | .vacant p cs => (s.vacate p cs).endTests p

/-- No thread of a virtual tile has a phase release to come: none is BOUND, none stands at a boundary (log entry 69). -/
def State.noRelease (s : State) (vt : Nat) : Bool :=
  !(s.threads.any fun t => t.vt == vt && (t.st == .bound || s.bounds.any fun b => b.parts.contains (t.vt, t.slot)))

/-- TABLE_UPDATE_COMMIT (17 R344, R340, R356): every router switches. A replay's source goes GREY at once, and then its event is counted and reported; a rotation's with the next release of the tile's threads, or at once where none is to come. A number without a rotation names another table change. -/
def execTableUpdateCommit (vt : Nat) (s : State) : Out :=
  .next <|
    match s.rotation? vt with
    | some r =>
      if !s.mayCommit r then s
      else if r.isReplay then
        (((s.remap vt r.target).endRotation r).bumpAge r.source r.counter r.events).reportReplay vt r.source
      else
        let s := (s.siliconEvent vt 1 r.source).remap vt r.target
        if s.noRelease vt then s.endRotation r else s.modRotation vt fun r => { r with st := .resume, since := s.clk }
    | none =>
      match s.update? vt with
      | none => s
      | some u =>
        if s.votesIn (s.changeSource u.change) u.noVote && !s.replayFirst then
          ({ s with updates := s.updates.filter fun x => x != u } : State).applyChange u.change
        else s

/-- A rejecting tile is marked for GREY (17 R345): its router votes no more; a spare goes GREY at once, and a rotation that it was the target of chooses another. -/
def State.markSilent (s : State) (p : Nat) : State :=
  let s := s.modPTile p fun t => { t with votes := false }
  match s.rotations.find? fun r => r.target == p && r.st != .resume with
  | some r => s.retarget r (match r.st with | .drain => .drain | .copy => .copy | _ => if r.isReplay then .remap else .copy)
  | none => if (s.ptile? p).any (fun t => t.service == .white) && !s.carries p then s.toGrey p else s

/-- The reports of a rejection (17 R345): the housekeeping log and the host, and each partition with a gang on the virtual tile; P0 is a free value where the update moves none. -/
def State.reportReject (s : State) (vt : Option Nat) (source : Nat) : State :=
  match vt with
  | some v => ((s.siliconLog (w64 v) 3 source).notice).siliconEvent v 3 source
  | none => let w := s.freshWord; (w.1.siliconLog w.2 3 source).notice

/-- TABLE_UPDATE_REJECT (17 R345): a router rejects an update, or does not vote in time. The update stays staged and goes without that router's vote once its tile has moved off. -/
def execTableUpdateReject (vt ptile : Nat) (s : State) : Out :=
  .next <|
    match s.ptile? ptile with
    | none => s
    | some t =>
      if !t.votes then s
      else
        match s.rotation? vt, s.update? vt with
        | some r, _ =>
          if r.st ≠ .remap || r.again then s
          else
            ((s.reportReject (some vt) r.source).modRotation vt fun r => { r with noVote := r.noVote ++ [ptile] }).markSilent ptile
        | none, some u =>
          let v := match u.change with | .unbacked v => some v | .black _ => none | .vacant p _ => s.carried p
          let s := s.reportReject v (s.changeSource u.change)
          ({ s with updates := s.updates.map fun x => if x == u then { x with noVote := x.noVote ++ [ptile] } else x } : State).markSilent ptile
        | none, none => s

/-! Tests of GREY tiles (17 R346). -/

/-- INFIELD_TEST_COMPLETE (17 R346): failing cores are retired, and the tile goes WHITE, BLACK, or to a further test. -/
def execInfieldTestComplete (ptile : Nat) (failCores : BitVec 16) (marg : Nat) (logicFail : Bool) (s : State) : Out :=
  .next <|
    match s.ptile? ptile with
    | none => s
    | some t =>
      if t.service ≠ .grey || s.staged? (.black ptile) then s
      else
        let fail := (bitsOf failCores.toNat 16).filter fun c => t.cores.contains c
        let pass := fail.isEmpty && !logicFail
        let s := (fail.foldl (fun s c => s.retireCore ptile c) s).hkEnergy
        let s := s.modPTile ptile fun t =>
          { t with lastTest := s.clk, passed := pass, greyClk := s.clk, votes := t.votes || pass,
                   ageing := if marg = 0 then t.ageing else t.ageing.set 3 (min (t.ageing.marg + marg) 4095) s.clk }
        match s.ptile? ptile with
        | none => s
        | some t =>
          if t.cores.length < 12 || logicFail || t.ageing.black then s.toBlack ptile
          else if pass && !t.ageing.grey then s.setService ptile .white
          else s

/-! Retention (17 R358). -/

/-- The clk after which an idle tile's local store enters retention. -/
def retentionClk : Nat := 65536

/-- RETENTION_ENTRY (17 R358): every thread slot of the tile has been FREE or asleep in `step` for that long. -/
def execRetentionEntry (ptile : Nat) (s : State) : Out :=
  .next <|
    match s.ptile? ptile, s.carried ptile with
    | some p, some vt =>
      let idle := retentionClk ≤ s.clk && s.threads.all fun t => t.vt != vt ||
        ((t.st == .free || (t.st == .run && t.wait == .step && !t.stepRel)) && t.since + retentionClk ≤ s.clk)
      if p.service == .white && idle then s.modPTile ptile fun p => { p with retained := true } else s
    | _, _ => s

/-! The decay grid and the snapshots (17 R361, R362). -/

/-- A counter after the decay that is due, if any. -/
def Ageing.decay (a : Ageing) (k clk : Nat) : Ageing :=
  let from' := (nth a.clks k 0 + Config.decayPeriod - 1) / Config.decayPeriod
  if a.get k ≠ 0 && from' + decaySpan k ≤ clk / Config.decayPeriod then
    a.set k (a.get k - 1) ((from' + decaySpan k) * Config.decayPeriod)
  else a

/-- AGEING_DECAY (17 R361): each counter whose span has passed loses 1. -/
def execAgeingDecay (s : State) : Out :=
  .next { s with tiles := s.tiles.map fun (t : PTile) =>
    { t with ageing := (List.range 5).foldl (fun a k => a.decay k s.clk) t.ageing } }

/-- AGEING_SNAPSHOT (17 R362): every 2^42 clk. -/
def execAgeingSnapshot (s : State) : Out :=
  .next <|
    if s.snapClk + Config.decayPeriod ≤ s.clk then
      { s with
        snapshots := s.snapshots ++ [{ valid := true, words := s.tiles.map fun t => (t.num, t.ageing) }]
        snapClk := s.snapClk + Config.decayPeriod }
    else s

end Sys2Proof.Machine
end

