-- ==== Sys2Proof/Machine/Phase.lean ====
section
/-! DEFINITION. Supersteps: the arrival at a `step`, the data-movement phase, the checkpoint and the phase release (12 R251, 13 R266-R268, 15 R308, 17 R351, 05 R96). -/

namespace Sys2Proof.Machine

/-- The number of a step level: tile, domain, partition (13 R266). -/
def levelCode : StepLevel → Nat
  | .tile => 1 | .dom => 2 | .part => 3

/-- The level at which a thread's `step` acts: one of a SUPERVISE gang has no partition level (13 R267). -/
def State.stepLevel (s : State) (t : Thread) (l : StepLevel) : StepLevel :=
  if l = .part && s.hasCap t 2 then .dom else l

/-! Participants and arrival (12 R251, 13 R267). -/

/-- A thread has arrived at a level: HALTED and SAVING threads count, and an arrival covers the lower levels. -/
def Thread.arrived (t : Thread) (l : StepLevel) : Bool :=
  t.st == .halted || t.st == .saving ||
    (match t.stepArr with
     | some a => !t.stepRel && levelCode l ≤ levelCode a
     | none => false)

/-- A thread stands at exactly this level. -/
def Thread.standsAt (t : Thread) (l : StepLevel) : Bool := (t.st == .run || t.st == .frozen) && t.stepArr == some l && !t.stepRel

/-- The lowest of a list of numbers. -/
def minOf (d : Nat) (l : List Nat) : Nat := l.foldl min d

/-- The threads of a partition's released gangs without SUPERVISE, which stand at its partition level. -/
def State.partThreads (s : State) (part : Nat) : List Thread :=
  (s.gangs.filter fun x => x.part == part && x.released && !x.cap 2).flatMap fun x => s.gangThreads x.id

/-- How many gangs had been released at the first arrival at a partition's boundary, of those that still wait there; none where no thread has arrived (13 R267). -/
def State.firstArrival (s : State) (part : Nat) : Option Nat :=
  match ((s.partThreads part).filter fun t => t.standsAt .part).map (·.stepSeq) with
  | [] => none
  | n :: l => some (minOf n l)

/-- The thread's gang was released after the first arrival at its partition's boundary: its own `step.part` waits for the next one (13 R267). -/
def State.joinsNext (s : State) (t : Thread) (l : StepLevel) : Bool :=
  s.stepLevel t l == .part && (s.gangOf t).any fun g => (s.firstArrival g.part).any fun n => n < g.relSeq

/-- `step` (13 R266): it waits for the thread's matrix commands and handles and, at partition level, for the boundary that a gang released before its own has begun (13 R267); it then arrives with its charge once its reductions are performed (12 R251), and sleeps until its release. -/
def execStep (lvl : StepLevel) (s : State) : Out :=
  s.issue (Form.blocked 8 Pred.always) fun s t =>
    match t.stepArr with
    | some _ =>
      if t.stepRel then .done (s.modCur fun u => { u with stepArr := none, stepRel := false }) 0 0 else .wait s .step
    | none =>
      if s.mxBusy t || t.pendingHandle then .wait s (.stall 5)
      else
        match t.handleFault? with
        | some f => .fault f
        | none =>
          if s.joinsNext t lvl then .wait s (.stall 5)
          else .wait (((s.settle t).charge t.vt t.slot 1 0).modCur fun u =>
            { u with injarm := false, stepArr := some (s.stepLevel t lvl), stepRel := false, stepSeq := s.relSeq }) .step

/-- The participants of a boundary of a gang's level: the gang's threads on a tile, the gang's threads, or the threads of the partition's gangs without SUPERVISE that were released before the first arrival. -/
def State.participants (s : State) (l : StepLevel) (g : Gang) (vt : Nat) : List Thread :=
  match l with
  | .tile => (s.gangThreads g.id).filter fun t => t.vt == vt
  | .dom => s.gangThreads g.id
  | .part =>
    let first := (s.firstArrival g.part).getD s.relSeq
    (s.partThreads g.part).filter fun t => (s.gangOf t).any fun x => x.relSeq ≤ first

/-- A thread waits for the release of a boundary whose stages are complete. -/
def State.inBoundary (s : State) (t : Thread) : Bool :=
  (t.st == .run || t.st == .frozen) && s.bounds.any fun b => b.parts.contains (t.vt, t.slot)

/-- A participant holds the phase up: engine work of its own still runs, a matrix command of its core uses an entry of its stash (10 R212), or what it holds is for a tile whose traffic is held (17 R342). -/
def State.holdsUp (s : State) (t : Thread) : Bool :=
  s.trafficHeld t.vt || s.copyBusy t || s.stashBusy t || s.stashUsed t || s.mxBusy t || s.outHeld t

/-- The participants of a boundary at which every one has arrived, one at least at this very level: its phase is pending. -/
def State.boundaryArrived (s : State) (l : StepLevel) (g : Gang) (vt : Nat) : Option (List Thread) :=
  let ps := s.participants l g vt
  if g.released && ps.all (fun t => t.arrived l && !s.inBoundary t) && ps.any (fun t => t.standsAt l) then some ps else none

/-- The participants of a boundary whose phase is pending and can run. -/
def State.boundaryReady (s : State) (l : StepLevel) (g : Gang) (vt : Nat) : Option (List Thread) :=
  (s.boundaryArrived l g vt).filter fun ps => !ps.any s.holdsUp

/-- DATA_MOVEMENT_PHASE (12 R251, 13 R267): the stages run over all participants, and their release is pending. -/
def execDataMovementPhase (lvl : StepLevel) (gang vt : Nat) (s : State) : Out :=
  .next <|
    match s.gang? gang with
    | none => s
    | some g =>
      if lvl = .part && g.cap 2 then s
      else
        match s.boundaryReady lvl g vt with
        | none => s
        | some ps =>
          let names := ps.map fun t => (t.vt, t.slot)
          let s := s.runStages names (lvl == .tile)
          { s with bounds := s.bounds ++
              [{ lvl := lvl, gang := gang, vt := vt, parts := names, ckpt := (names.map (·.1)).eraseDups }] }

/-! The checkpoint before a release (17 R351). -/

/-- A gang that is not released holds every slot of every tile BOUND (05 R96). -/
def State.fullyBound (s : State) (g : Gang) : Bool :=
  !g.released && g.tiles.length == recNvt g.task && (s.gangThreads g.id).length == recThreads g.task &&
    (s.gangThreads g.id).all fun t => t.st == .bound

/-- The gangs of a boundary on a tile. -/
def State.gangsAt (s : State) (b : Boundary) (vt : Nat) : List Nat :=
  ((b.parts.filter fun p => p.1 == vt).map fun p => (s.thread p.1 p.2).gang).eraseDups

/-- What a checkpoint write of a tile meets: its journal is full, its partner's traffic is held, an error, or nothing. -/
def State.tryCommit (s : State) (vt : Nat) (gids : List Nat) (done : State → State) : State :=
  if s.trafficHeld vt || s.trafficHeld (partnerOf vt) || s.unbacking vt || !s.ckptFits vt gids then s
  else
    let broken := s.ckptBroken vt gids
    if !broken.isEmpty then (broken.foldl (fun s c => s.screenMismatch vt c) s).beginReplay vt 0
    else if s.ckptBadWord vt gids then s.beginReplay vt 1
    else done (s.commitTile vt gids)

/-- CHECKPOINT_COMMIT (17 R351-R353): the tile's checkpoint for a pending release, or for the first release of a gang, is committed; an error that its reads meet starts a replay. -/
def execCheckpointCommit (vt : Nat) (s : State) : Out :=
  .next <|
    match s.bounds.find? fun b => b.ckpt.contains vt with
    | some b =>
      s.tryCommit vt (s.gangsAt b vt) fun s =>
        { s with bounds := modFirst (fun x => x == b) (fun x => { x with ckpt := x.ckpt.filter fun v => v != vt }) s.bounds }
    | none =>
      match s.gangs.find? fun g => (g.tile? vt).isSome && s.fullyBound g && !(s.ckpt vt).has g.id with
      | none => s
      | some g => s.tryCommit vt [g.id] id

/-! The release (15 R308, 05 R96). -/

/-- A thread slot is released: BOUND threads begin, or are HALTED where their record says so; threads that stand at the level leave their `step`. -/
def Thread.release (t : Thread) (l : StepLevel) (clk : Nat) : Thread :=
  if t.st = .bound then { t with st := if t.halts then .halted else .run, spanClk := clk, headClk := clk + 1 }
  else if t.standsAt l then { t with stepRel := true }
  else t

/-- The level of the lease that covers a gang, 0 for none (19 R381). -/
def Gang.leaseLevel (g : Gang) : Nat := if g.lease.holds then g.lease.level else 0

/-- What a release of any of its threads does to a gang: the watchdog is reloaded (16 R334), the release recorded (19 R381). -/
def State.releaseGang (s : State) (gid : Nat) (l : StepLevel) : State :=
  match s.gang? gid with
  | none => s
  | some g =>
    let s := s.modGang gid fun g => { g with wdtLeft := recWdt g.task, wdtClk := s.clk, wdtStop := false }
    (s.event g.part 0x05 g.leaseLevel gid (w64 g.domid) (w64 (levelCode l))).meter gid

/-- What a release does to a tile: retention is left, and a rotation that waits for the release ends (17 R340, R358). -/
def State.releaseTile (s : State) (vt : Nat) : State :=
  let s := s.modPTile (s.ptileOf vt) fun p => { p with retained := false }
  match s.rotation? vt with
  | some r => if r.st = .resume then s.endRotation r else s
  | none => s

/-- The cores of released threads begin a new compute phase (12 R252). -/
def State.newPhase (s : State) (ps : List (Nat × Nat)) : State :=
  { s with cores := s.cores.map fun (c : Core) =>
      if ps.any fun p => p.1 == c.vt && p.2 / 4 == c.slot then { c with wrote := [] } else c }

/-- The releases of these tiles can take place now. -/
def State.mayRelease (s : State) (tiles : List Nat) : Bool := tiles.all fun v => !s.withheld v && !s.trafficHeld v

/-- Threads leave, in the order of a release: lease decisions, then the threads (15 R308). -/
def State.releaseThreads (s : State) (l : StepLevel) (gids tiles : List Nat) (ps : List (Nat × Nat)) : State :=
  let s := s.decideLeases gids tiles
  let gone := ps.filter fun p => let t := s.thread p.1 p.2; t.st == .bound || t.standsAt l
  let s := gone.foldl (fun s p => s.modThread p.1 p.2 fun t => t.release l s.clk) s
  let s := gids.foldl (fun s g => s.releaseGang g l) s
  tiles.foldl (fun s v => s.releaseTile v) (s.newPhase gone)

/-- The partition has no supervisor and a SUPERVISE gang is released: its first thread takes the role, with one notification where packets wait (16 R323). -/
def State.takeRole (s : State) (g : Gang) : State :=
  let p := s.part g.part
  if !g.cap 2 || p.supv.isSome then s
  else
    match (g.inOrder (s.gangThreads g.id)).head? with
    | none => s
    | some t =>
      if t.st ≠ .run then s
      else
        let s := s.modPart g.part fun p => { p with supv := some (t.vt, t.slot) }
        if p.frtail ≠ p.frhead then s.notifySupervisor g.part else s

/-- The first release of a gang (05 R96, 15 R303, 16 R323, R334): its record leaves the stage. -/
def State.firstRelease (s : State) (g : Gang) : State :=
  let ps := (s.gangThreads g.id).map fun t => (t.vt, t.slot)
  let s := (s.unstage g.qid).modGang g.id fun x => { x with released := true, clkStart := s.clk, relSeq := s.relSeq + 1 }
  let s := ({ s with relSeq := s.relSeq + 1 } : State).releaseThreads .dom [g.id] (g.tiles.map (·.vt)) ps
  let s := if recResume g.task then s.event g.part 0x06 1 g.id (w64 g.reason) (w64 g.resumes) else s
  s.takeRole g

/-- PHASE_RELEASE (15 R308, 05 R96, 04 R80): the next compute phase of a boundary, or the first one of a gang, is released once its checkpoints are committed; a gang whose queue is CLOSING is aborted instead. -/
def execPhaseRelease (lvl : StepLevel) (gang vt : Nat) (s : State) : Out :=
  .next <|
    match s.bounds.find? fun b => b.lvl == lvl && b.gang == gang && (lvl != .tile || b.vt == vt) && b.ckpt.isEmpty with
    | some b =>
      let tiles := (b.parts.map (·.1)).eraseDups
      if !s.mayRelease tiles then s
      else
        match tiles.find? fun v => s.retentionLost v with
        | some v => s.beginReplay v 2
        | none =>
          let gids := (b.parts.map fun p => (s.thread p.1 p.2).gang).eraseDups.filter fun g => (s.gang? g).isSome
          let s : State := { s with bounds := s.bounds.filter fun x => x != b }
          let gone := gids.filter fun g => (s.gang? g).any fun x => s.isClosing x.qid
          let s := gone.foldl (fun s g => s.abortGang g 4 0) s
          let gids := gids.filter fun g => !gone.contains g
          s.releaseThreads lvl gids tiles (b.parts.filter fun p => gids.contains (s.thread p.1 p.2).gang)
    | none =>
      match s.gang? gang with
      | none => s
      | some g =>
        let tiles := g.tiles.map (·.vt)
        if lvl ≠ .dom || !s.fullyBound g || !(tiles.all fun v => (s.ckpt v).has gang) || !s.mayRelease tiles then s
        else
          match tiles.find? fun v => s.retentionLost v with
          | some v => s.beginReplay v 2
          | none => s.firstRelease g

end Sys2Proof.Machine
end

