-- ==== Sys2Proof/Machine/Supervisor.lean ====
section
/-! DEFINITION. `trap`, the supervisor instructions, packets that wait for room, the watchdog, the all-asleep detector and the permit audit (16 R325-R338, 13 R278, R279). -/

namespace Sys2Proof.Machine

/-- `trap` (16 R330): it retires, and the thread freezes after it; the packet holds the address of the `trap`. -/
def execTrap (p : Pred) (a : SReg) (code : BitVec 16) (s : State) : Out :=
  s.issue (Form.blocked 8 p) fun s t =>
    let s := (s.charge t.vt t.slot 1 0).modCur fun u => u.retire false (nextPc t.pc 8)
    .left (s.freeze t.vt t.slot { cause := .trap, addr := w64 code.toNat, info := t.sreg s.cur.body a } t.pc false)

/-! Supervisor instructions (16 R331). -/

/-- A supervisor instruction waits for its target's tile: while it is AMBER, but an abort reaches the gangs that a failed replay left there (17 R357). -/
def State.supWaits (s : State) (vt : Nat) (abort : Bool) : Bool :=
  s.isAmber vt && !(abort && (s.rotation? vt).isNone)

/-- The form of a supervisor instruction. -/
def Form.sup (p : Pred) : Form := { Form.blocked 8 p with cap := some 2 }

/-- A supervisor instruction: its target and its checks; it writes its result, is charged and has retired before it acts (16 R331), so an action that restores the issuing thread too leaves it as restored. `act` gives the result and the action. -/
def State.supOp (s : State) (p : Pred) (d a b : SReg) (abort : Bool) (act : State → Thread → Nat × (State → State)) : Out :=
  s.issue (Form.sup p) fun s t =>
    let x := t.sreg s.cur.body a
    let gid := (t.sreg s.cur.body b).field 0 32
    if x.field 18 46 ≠ 0 then .fault s.illegal
    else
      s.withRank t (x.field 0 16) fun pl =>
        if s.supWaits pl.1 abort then .wait s (.stall 14)
        else
          let u := s.thread pl.1 (4 * pl.2 + x.field 16 2)
          let r : Nat × (State → State) :=
            if u.st = .free || u.gang ≠ gid then (1, id)
            else if u.gang = t.gang then (3, id)
            else act s u
          .left (r.2 (s.finish (Form.sup p) (t.issuePc s.cur.body) (.done (s.modCur fun v => v.setS d (w64 r.1)) 1 0)))

/-- `sup.resume` (16 R331). -/
def execSupResume (p : Pred) (d a b : SReg) (s : State) : Out :=
  s.supOp p d a b false fun _ u => if u.st ≠ .frozen then (2, id) else (0, fun s => s.resumeThread u.vt u.slot)

/-- A gang has a checkpoint on each of its tiles that can be restored. -/
def State.gangGood (s : State) (g : Gang) : Bool := !g.tiles.isEmpty && g.tiles.all fun k => s.ckptGood k.vt g.id

/-- A gang is rolled back in place on every tile but one (16 R331, 15 R289). Until its next checkpoint it counts as replayed, as it does after a rollback onto a spare (17 R357, log entry 49). -/
def State.rollBack (s : State) (g : Gang) (but : Option Nat) : State :=
  ((g.tiles.filter fun k => some k.vt != but).foldl (fun s k => s.restoreTile k.vt [g.id]) s).modGang g.id fun x => { x with replayed := true }

/-- The gang of a target is rolled back onto a spare: the target's virtual tile moves with every gang on it (17 R356). -/
def State.rollOnto (s : State) (g : Gang) (vt target : Nat) : State :=
  let s := (s.yieldRotation vt).unbindFresh vt
  let gids := s.gangsOn vt
  let good := gids.filter fun x => s.ckptGood vt x
  let s := (gids.filter fun x => !good.contains x).foldl (fun s x => s.freezeGang x { cause := .replay, sub := 1 }) s
  (s.rollBack g (some vt)).replayOnto vt target good false 0 0

/-- `sup.restart` with ALT: the rollback onto the spare that R23 gives. -/
def State.restartAlt (s : State) (g : Gang) (vt : Nat) : State :=
  match s.takeSpare vt with
  | none => s
  | some (s', q) => s'.rollOnto g vt q

/-- `sup.restart` (16 R331). -/
def execSupRestart (p : Pred) (alt : Bool) (d a b : SReg) (s : State) : Out :=
  s.supOp p d a b false fun s u =>
    match s.gangOf u with
    | none => (4, id)
    | some g =>
      if u.st ≠ .frozen then (2, id)
      else if !s.gangGood g then (4, id)
      else if alt then
        if (s.vtile? u.vt).any (fun v => v.backed) && !s.unbacking u.vt && (s.takeSpare u.vt).isSome then (0, fun s => s.restartAlt g u.vt)
        else (5, id)
      else (0, fun s => ((s.rollBack g none).count g.part 9 1).hkEnergy)

/-- `sup.abort` (16 R331): status ABORTED with the detail. -/
def execSupAbort (p : Pred) (gang : Bool) (d a b : SReg) (detail : BitVec 8) (s : State) : Out :=
  s.supOp p d a b true fun _ u =>
    (0, fun s => if gang then s.abortGang u.gang 7 detail.toNat else s.abortThread u.vt u.slot 7 detail.toNat)

/-- HELD_PACKET_WRITE (16 R325): a packet held in a slot is written when the ring has room. -/
def execHeldPacketWrite (vt slot : Nat) (s : State) : Out :=
  .next <|
    let t := s.thread vt slot
    match t.pktHeld with
    | none => s
    | some x =>
      let part := s.partNum t
      let q := s.part part
      if q.ringOn && q.ringFull then s
      else (s.modThread vt slot fun t => { t with pktHeld := none }).deliverPacket part (some (vt, slot)) false x

/-! The watchdog (16 R333, R334). -/

/-- The clk of a watchdog unit. -/
def wdtUnit : Nat := 1024

/-- The watchdog of a gang counts. -/
def Gang.wdtOn (g : Gang) : Bool := g.released && recWdt g.task != 0 && !g.wdtStop

/-- WATCHDOG_TICK (16 R334, 17 R342): LEFT falls by 1; a tick passes without effect while every thread is HALTED or SAVING, or a tile of the gang is AMBER. -/
def execWatchdogTick (gang : Nat) (s : State) : Out :=
  .next <|
    match s.gang? gang with
    | none => s
    | some g =>
      if g.wdtOn && g.wdtClk + wdtUnit ≤ s.clk then
        let ts := s.gangThreads gang
        let falls := ts.any (fun t => t.st != .halted && t.st != .saving) && !(ts.any fun t => s.isAmber t.vt)
        s.modGang gang fun g => { g with wdtClk := g.wdtClk + wdtUnit, wdtLeft := if falls then g.wdtLeft - 1 else g.wdtLeft }
      else s

/-- WATCHDOG_EXPIRY (16 R334): the first expiry freezes what runs; a second one is reported to the host and stops the watchdog. -/
def execWatchdogExpiry (gang : Nat) (s : State) : Out :=
  .next <|
    match s.gang? gang with
    | none => s
    | some g =>
      if !g.wdtOn || g.wdtLeft ≠ 0 then s
      else
        let ts := g.inOrder (s.gangThreads gang)
        let live := ts.filter fun t => t.st != .halted && t.st != .saving
        let f : FaultInfo := { cause := .watchdog, info := w64 (recWdt g.task) }
        let frozen := ts.filter fun t => t.st == .frozen
        if live.isEmpty then s
        else if frozen.any (fun t => t.cause == some .watchdog) || live.all (fun t => t.st == .frozen) then
          (s.packetOnly g.part frozen.head? (g.cap 2) { f with sub := 1 } true).modGang gang fun g => { g with wdtStop := true }
        else if live.any fun t => t.st == .run then
          (s.freezeList g live f).modGang gang fun g => { g with wdtLeft := recWdt g.task, wdtClk := s.clk }
        else s

/-! The all-asleep detector (13 R278). -/

/-- The gangs that the detector of a partition watches. -/
def State.watched (s : State) (part : Nat) : List Gang := s.gangs.filter fun g => g.part == part && !g.cap 2

/-- Every watched thread is asleep, HALTED, SCRUB or BOUND, and one is asleep. -/
def State.allAsleep (s : State) (part : Nat) : Bool :=
  let ts := (s.watched part).flatMap fun g => s.gangThreads g.id
  ts.all (fun t => t.st == .halted || t.st == .scrub || t.st == .bound || s.asleep t) && ts.any s.asleep

/-- A signal of the partition is on its way: its target has gone, or its mailbox has room. -/
def State.signalsMove (s : State) (part : Nat) : Bool :=
  s.cores.any fun c => c.sendQ.any fun o => o.spart == part && (!s.signalLands o || (s.thread o.vt o.slot).mailbox.length < 8)

/-- Work of the partition's threads is queued or running in an engine or on the mesh. -/
def State.enginesMove (s : State) (part : Nat) : Bool :=
  s.memOps.any (fun m => m.part == part) || s.vtiles.any (fun v => v.copies.any fun c => c.part == part) ||
    s.cores.any (fun c => c.mxq.any (fun m => s.partOf c.vt m.slot == part) ||
      c.stash.any fun e => (e.st == .filling || e.st == .draining) && s.partOf c.vt e.owner == part) ||
    s.signalsMove part

/-- A boundary, a barrier phase or a release of the partition is pending: a data-movement phase is from the last arrival on, whatever holds it up. -/
def State.releasePending (s : State) (part : Nat) : Bool :=
  let gs := s.gangs.filter fun g => g.part == part
  s.bounds.any (fun b => b.parts.any fun p => s.partOf p.1 p.2 == part) ||
    gs.any fun g => s.fullyBound g || (s.boundaryArrived .dom g 0).isSome || (s.boundaryArrived .part g 0).isSome ||
      g.tiles.any fun k => (s.boundaryArrived .tile g k.vt).isSome || s.barFull g k

/-- A record of the partition can start: one whose SEQ is being re-read is not ready (05 R85) and has its stage place, and one that waits on its dependence word is not ready either. -/
def State.recordStarts (s : State) (part : Nat) : Bool :=
  (s.queues.filter fun q => q.part == part && q.state == .opened).any fun q =>
    match q.staged with
    | none => q.head != q.tail || (s.stageResume q.qid [] q.resume).isSome
    | some r =>
      match r.st with
      | .seqWait _ => false
      | .depWait _ => false
      | .ready _ => r.gang.isNone && !(s.part part).drained && (match s.place q.qid with | .waits => false | _ => true)

/-- The conditions of the all-asleep trap. -/
def State.stuck (s : State) (part : Nat) : Bool :=
  s.allAsleep part && !s.enginesMove part && !s.releasePending part && !s.recordStarts part

/-- The sleeping threads of a gang, lowest rank first. -/
def State.sleepers (s : State) (g : Nat) : List Thread :=
  let key (t : Thread) : Nat := (s.rankOf t.vt t.cslot).getD 65536 * 4 + t.thr
  sortBy (fun a b => key a ≤ key b) ((s.gangThreads g).filter s.asleep)

/-- ALL_ASLEEP_TRAP (13 R278): every thread of the partition that sleeps in that clk freezes, one of a SUPERVISE gang too, with one packet for each gang. -/
def execAllAsleepTrap (part : Nat) (s : State) : Out :=
  .next <|
    if !s.stuck part then s
    else
      ((s.gangs.filter fun g => g.part == part).map fun g => (g, s.sleepers g.id)).foldl (fun s x =>
        if x.2.isEmpty then s else s.freezeList x.1 x.2 { cause := .allAsleep, info := w64 x.2.length }) s

/-- The clk between two audits of a link (13 R279). -/
def auditClk : Nat := 1048576

/-- PERMIT_AUDIT (13 R279, 17 R360): once in each period a link is audited; a mismatch on a link between two tiles is restored, logged, counted on both tiles and sent to the partitions whose packets used it. -/
def execPermitAudit (link found tileA tileB : Nat) (parts : List Nat) (s : State) : Out :=
  .next <|
    let now := s.clk / auditClk
    let last := match s.audits.find? fun a => a.1 == link with | none => 0 | some a => a.2
    if now ≤ last then s
    else
      let s : State := { s with audits := upsert (fun a => a.1 == link) (link, now) (fun _ => (link, now)) s.audits }
      if found = 0 then s
      else
        let s := ((s.hkEvent 10 0xFF (w64 link) (w64 found)).bumpAge tileA 4 1).bumpAge tileB 4 1
        parts.foldl (fun s p => s.packetOnly p none false { cause := .lostPermit, addr := w64 link, info := w64 found } false) s

end Sys2Proof.Machine
end

