-- ==== Sys2Proof/Machine/Outside.lean ====
section
/-! DEFINITION. The outside: device reset, sampling, the host's BAR2, the Gorfy ports, firmware, attestation, temperature, failing slices and soft errors (19 R382-R396, 01 R21, R22, 11 R226, R227, R398, 17 R359, R362). -/

namespace Sys2Proof.Machine

/-! Device reset (19 R391, R393; 01 R21, R22; 17 R362). -/

/-- The log entries that count: those of the blocks whose signatures verify. -/
def State.logEntries (s : State) : List LogEntry := (s.retireLog.filter (·.valid)).flatMap (·.entries)

/-- The entry retires a core of a tile, or the tile with it. -/
def LogEntry.retires (e : LogEntry) (p c : Nat) : Bool :=
  match e with
  | .tile q => q == p
  | .core q d => q == p && d == c
  | .unknown => false

/-- The cores of a physical tile that are in service (01 R21). The fuse that fails a tile as a whole takes none of its cores out of CORES: R21 names a core's own fuse and the log, and leaves that case open (log entry 70). -/
def State.coresOf (s : State) (log : List LogEntry) (p : Nat) : List Nat :=
  (List.range 16).filter fun c => !s.fuseCores.contains (p, c) && !(log.any fun e => e.retires p c)

/-- The last snapshot, where its seal is found broken, passes no more (17 R362). -/
def sealed (snapOk : Bool) (l : List Snapshot) : List Snapshot :=
  if snapOk then l else l.modify (l.length - 1) fun x => { x with valid := false }

/-- A tile's counters at reset: from the last snapshot that passes, else zero (17 R362). -/
def State.ageingOf (s : State) (p : Nat) : Ageing :=
  match (s.snapshots.filter (·.valid)).getLast? with
  | none => Ageing.zero
  | some l => match l.words.find? fun x => x.1 == p with
    | none => Ageing.zero
    | some x => { x.2 with clks := [0, 0, 0, 0, 0] }

/-- A physical tile as the reset finds it: WHITE where eligible, else BLACK. -/
def State.bootTile (s : State) (log : List LogEntry) (p : Nat) : PTile :=
  let cores := s.coresOf log p
  let bad := s.fuseTiles.contains p
  { num := p, fusebad := bad, cores := cores, service := if !bad && 12 ≤ cores.length then .white else .black
    ageing := s.ageingOf p, screens := [], lastTest := 0, passed := false, votes := true, retained := false,
    attempts := 0, notBefore := 0, greyClk := 0, routine := false }

/-- NVTILE for a number of eligible tiles. -/
def tilesOffered (n : Nat) : Nat := if 33 ≤ n then min Config.maxVTile (n - 32) else n - 1

/-- The entries of the VTILE table for tiles in list order, from a VTILE and a rank on; with the next rank. -/
def bootVTiles : List PTile → Nat → Nat → List VTile × Nat
  | [], _, r => ([], r)
  | t :: l, v, r =>
    let k := t.cores.length
    let rest := bootVTiles l (v + 1) (r + k)
    let pad := List.replicate (16 - k) none
    ({ vt := v, ptile := t.num, slots := (t.cores.map some) ++ pad, ranks := ((List.range k).map fun i => some (r + i)) ++ pad,
       backed := true, amber := false, bars := [], copies := [], tlb := [], icache := [] } :: rest.1, rest.2)

/-- The reports of invalid log entries and blocks (01 R21, 19 R386). -/
def State.reportLog (s : State) : State :=
  s.retireLog.zipIdx.foldl (fun s x =>
    if !x.1.valid then s.hkEvent 1 0xFF (w64 x.2) (BitVec.allOnes 64)
    else x.1.entries.zipIdx.foldl (fun s e => if e.1 == .unknown then s.hkEvent 1 0xFF (w64 x.2) (w64 e.2) else s) s) s

/-- The firmware slots in the order in which the boot ROM checks them: the newer first (19 R393). -/
def State.bootOrder (s : State) : List Nat :=
  let v (n : Nat) : Option Nat := match s.fw.slots[n]? with | none => none | some x => x.version
  match v 0, v 1 with
  | none, some _ => [1, 0]
  | some a, some b => if a < b then [1, 0] else [0, 1]
  | _, _ => [0, 1]

/-- Why the boot ROM refuses a slot (19 R391, R393): 1 its image does not verify or its header cannot be read, 2 its version is below the anti-rollback counter; 0 where it accepts it. -/
def State.bootFault (s : State) (sigBad : List Nat) (n : Nat) : Nat :=
  match (s.fw.slots[n]?).bind (·.version) with
  | none => 1
  | some v => if sigBad.contains n then 1 else if v < s.fwRollback.toNat then 2 else 0

/-- The firmware slot that the boot ROM takes: the first that it accepts. -/
def State.bootSlot (s : State) (sigBad : List Nat) : Option Nat := s.bootOrder.find? fun n => s.bootFault sigBad n == 0

/-- What a device reset keeps: the fuses, the non-volatile store, HBM, what the zones hold, and the model's own fields. -/
def State.kept (s : State) : State :=
  { State.reset with
    serial := s.serial, fwRollback := s.fwRollback, fuseTiles := s.fuseTiles, fuseCores := s.fuseCores, retireLog := s.retireLog,
    snapshots := s.snapshots, hbm := s.hbm, hbmBad := s.hbmBad, zones := s.zones
    fw := { State.reset.fw with slots := s.fw.slots }, fresh := s.fresh, nextCmd := s.nextCmd, agenda := s.agenda }

/-- The device is FAILED with a code (19 R391). -/
def State.failed (s : State) (n : Nat) : State := { s with phase := 15, failCode := n }

/-- The report that no snapshot was loaded, or not the last (17 R362, 19 R386): the index of the last one stored, a free value where none is (log entry 40). -/
def State.reportSnapshot (s : State) : State :=
  if s.snapshots.isEmpty then let w := s.freshWord; w.1.hkEvent 11 0xFF w.2 0
  else s.hkEvent 11 0xFF (w64 (s.snapshots.length - 1)) 0

/-- The tables of a device that is READY (01 R22); a shortfall of virtual tiles is reported, and so is a snapshot that does not pass, or that there is none (17 R362, log entry 40). -/
def State.booted (s : State) (slot : Nat) (snapOk : Bool) : State :=
  let s : State := { s with snapshots := sealed snapOk s.snapshots }
  let log := s.logEntries
  let tiles := (List.range Config.nPTile).map (s.bootTile log)
  let fit := tiles.filter fun t => t.service == .white
  let order := (fit.filter fun t => t.cores.length == 16) ++ fit.filter fun t => t.cores.length != 16
  let n := tilesOffered fit.length
  let table := bootVTiles (order.take n) 0 0
  let image := s.fw.slots[slot]?
  let s : State :=
    { s with
      phase := 4, tiles := tiles, vtiles := table.1, nvtile := n, nrank := table.2
      fwVersion := match image.bind (·.version) with | none => 0 | some v => BitVec.ofNat 32 v
      fwMeasure := (List.range 6).map fun i => match image with | none => 0 | some x => Config.imageHash x.chunks x.length i
      fw := { s.fw with running := slot } }
  let s := s.reportLog
  let s := if snapOk && s.snapshots.any (·.valid) then s else s.reportSnapshot
  let s := if n < Config.maxVTile then s.hkReport else s
  (tiles.filter fun t => t.ageing.grey || t.ageing.black).foldl (fun s t => s.actOn t.num) s

/-- The next phase of a reset (19 R391): VERIFY, which ends FAILED where the store cannot be read or no firmware slot is accepted (19 R393), with FAIL telling of the slot checked last (log entry 70); TRAIN, which ends FAILED where a link or the HBM does not train; MAP; READY. What the reset finds was fixed at its start. -/
def State.bootPhase (s : State) : State :=
  let c := s.bootReport.code
  match s.phase with
  | 0 => { s with phase := 1 }
  | 1 =>
    if c = 5 then s.failed 5
    else
      match s.bootSlot s.bootReport.sigBad with
      | none => s.failed (s.bootFault s.bootReport.sigBad (nth s.bootOrder 1 0))
      | some _ => { s with phase := 2 }
  | 2 => if c = 3 ∨ c = 4 then s.failed c else { s with phase := 3 }
  | 3 => (match s.bootSlot s.bootReport.sigBad with
    | none => s
    | some n => s.booted n s.bootSnap)
  | _ => s

/-- DEVICE_RESET (19 R391, R393): the device is in RESET, in whatever phase it stood, with what a reset keeps; `fail` and `snapOk`, which says that the last snapshot verifies, are what its phases will find (log entry 73). -/
def execDeviceReset (fail : BootReport) (snapOk : Bool) (s : State) : Out :=
  .next <|
    if fail.code = 1 ∨ fail.code = 2 ∨ 5 < fail.code then s
    else { s.kept with bootReport := fail, bootSnap := snapOk }

/-! Sampling (19 R382). -/

/-- Another thread of the core has issued in this clk on the port that a thread's scalar head wants (08 R150). -/
def State.portTaken (s : State) (t : Thread) : Bool :=
  let vec := t.headOpc.any vectorOpc
  s.threads.any fun u => u.vt == t.vt && u.cslot == t.cslot && u.slot != t.slot && (if vec then u.vecClk else u.scalClk) == s.clk && s.clk != 0

/-- The first reason of 19 R382 that holds for a thread's scalar head; a thread in no state that the table has a reason for gives a free value (log entry 56). -/
def State.stallCode (s : State) (t : Thread) : Nat :=
  if t.st = .frozen || t.st = .saving then 0
  else if (t.st = .bound || (t.wait = .step && !t.stepRel)) && s.withheld t.vt then 1
  else if t.st = .run && t.wait = .step && !t.stepRel then 2
  else if t.st = .bound || t.st = .halted then
    if (t.buffered (bundleOf t.pc)).isNone then 13 else (Config.freeWord s.fresh).toNat % 256
  else if s.asleep t then (match t.wait with | .bar => 3 | .tag _ _ => 3 | _ => 4)
  else
    match t.wait with
    | .stall 5 => 5
    | .realign _ => 6
    | .stall 7 => 7
    | w =>
      if t.ingrace && t.pend then 8
      else
        match w with
        | .push _ => 10
        | .stall n => n
        | _ => if (t.buffered (bundleOf t.pc)).isNone then 13 else if s.portTaken t then 15 else 16

/-- The clk between two samples of a core (19 R382). -/
def Partition.sampleSpan (p : Partition) : Nat :=
  let n := p.sampctl / 2 % 32
  2 ^ (if 10 ≤ n ∧ n ≤ 24 then n else 24)

/-- The bound threads of a core slot, in slot order (19 R382). -/
def State.sampled (s : State) (vt cs : Nat) : List Nat :=
  (List.range 4).filter fun k =>
    match (s.thread vt (4 * cs + k)).st with
    | .free | .scrub => false
    | _ => true

/-- The thread position after `last` in rotation among those of a list. -/
def nextInTurn (l : List Nat) (last : Nat) : Option Nat :=
  ((List.range 4).map fun i => (last + 1 + i) % 4).find? fun k => l.contains k

/-- PC_SAMPLE (19 R382): once in each span a core samples the next of its bound threads. -/
def execPcSample (vt slot : Nat) (s : State) : Out :=
  .next <|
    let t := s.thread vt slot
    let c := s.core vt t.cslot
    let part := s.partNum t
    let p := s.part part
    if p.sampctl % 2 = 1 && c.sampleClk + p.sampleSpan ≤ s.clk && nextInTurn (s.sampled vt t.cslot) c.sampleThr = some t.thr then
      let code := s.stallCode t
      let s := ({ s with fresh := s.fresh + 1 } : State).modCore vt t.cslot fun c => { c with sampleClk := s.clk, sampleThr := t.thr }
      s.event part 0x01 0 t.gang t.pc (w64 ((s.rankOf vt t.cslot).getD 0 + t.thr * 2 ^ 16 + code * 2 ^ 24))
    else s

/-! BAR2 (19 R387). -/

/-- The bytes that a host read returns: all ones above what partitions may map, a free value where HBM holds an error. -/
def State.hostBytes (s : State) (a n : Nat) : List Byte :=
  (List.range n).map fun i =>
    if s.phase ≠ 4 || Config.hbmTop ≤ a + i then 0xFF
    else if s.hbmBad.contains ((a + i) / 32) then Config.freeByte (s.fresh + i)
    else s.hbm.byte (a + i)

/-- BAR2_READ (19 R387). -/
def execBar2Read (addr width : Nat) (s : State) : Out :=
  .next { s with hostReads := s.hostReads ++ [{ addr := addr, data := s.hostBytes addr width }], fresh := s.fresh + width }

/-- BAR2_WRITE (19 R387): bytes above what partitions may map are dropped. -/
def execBar2Write (addr : Nat) (data : List Byte) (s : State) : Out :=
  .next (if s.phase = 4 then s.putHbm addr (data.take (Config.hbmTop - addr)) else s)

/-! Gorfy ports (19 R389, R390). -/

/-- The clk that a port may stay down. -/
def downLimit : Nat := 1750000000

/-- PORT_LINK_UP (19 R389). -/
def execPortLinkUp (port : Nat) (peer : BitVec 24) (s : State) : Out :=
  .next (if port < 12 then s.modPort port fun p => { p with up := true, retry := false, peer := peer } else s)

/-- PORT_LINK_DOWN (19 R389). -/
def execPortLinkDown (port : Nat) (s : State) : Out :=
  .next (if port < 12 && (s.port port).up then s.modPort port fun p => { p with up := false, downClk := s.clk } else s)

/-- The port has stayed down too long. -/
def State.downLong (s : State) (p : Port) : Bool := !p.up && p.downClk + downLimit ≤ s.clk

/-- Changes a memory-side word of 32 bits of a partition as a port does: one that is not named, not aligned or does not translate is left. -/
def State.portWord32 (s : State) (part : Nat) (va : Nat) (f : Nat → Nat) : State :=
  if va = 0 || va % 4 ≠ 0 then s
  else
    match s.translate (s.part part).space va (needSide true) with
    | .err _ => s
    | .ok m =>
      let s := s.performAll fun x => x.pa / 8 == m.pa / 8
      s.writeHbm m.pa 4 (f (s.hbm.read m.pa 4) % 2 ^ 32)

/-- A descriptor's fields and reserved bits are good (19 R390). -/
def descriptorOk (d : List Word) : Bool :=
  wordsField d 320 64 == 0 && wordsField d 384 64 == 0 && wordsField d 448 64 == 0 && wordsField d 160 32 == 0 &&
    wordsField d 128 32 % 4 == 0 && wordsField d 128 32 ≤ 2 ^ 24

/-- A descriptor ends: RDONE has been incremented by the remote port, LDONE is, or is marked failed. -/
def State.endDescriptor (s : State) (n r : Nat) (d : List Word) (ok : Bool) : State :=
  let part := ((s.port n).ring r).cfg.field 8 8
  let s := s.portWord32 part (wordsField d 192 64) fun w => if ok then w + 1 else (w ||| 2 ^ 31) + 1
  (s.modPort n fun p => p.modRing r fun x =>
    { x with done := x.done + 1, errs := if ok then x.errs else x.errs + 1, desc := none, data := [] }).hkEnergy

/-- The bytes that a port reads at its source: a byte of a granule in error is a free value (19 R390, 11 R398, log entry 7). -/
def State.portRead (s : State) (asid : Space) (src n : Nat) : List Byte :=
  (List.range n).map fun i =>
    match s.translate asid (src + i) (needPlain false) with
    | .ok m => if s.hbmBad.contains (m.pa / 32) then Config.freeByte (s.fresh + i) else s.hbm.byte m.pa
    | .err _ => Config.freeByte (s.fresh + i)

/-- DESCRIPTOR_START (19 R390): the next descriptor of a ring, in order; its source is read, and a bad one fails. -/
def execDescriptorStart (port ring : Nat) (s : State) : Out :=
  .next <|
    let p := s.port port
    let x := p.ring ring
    if !x.cfg.bit 63 || x.head = x.tail || x.desc.isSome || !(p.up || s.downLong p) then s
    else
      let asid := (s.part (x.cfg.field 8 8)).space
      let va := x.base.toNat + 64 * (x.head.toNat % 2 ^ x.cfg.field 0 4)
      let s := s.modPort port fun p => p.modRing ring fun y => { y with head := y.head + 1 }
      match s.readPage asid (needPlain false) va 64 with
      | .error _ => s.endDescriptor port ring (List.replicate 8 0) false
      | .ok bs =>
        let d := bytesWords 8 bs
        let src := wordsField d 0 64
        let n := wordsField d 128 32
        if !descriptorOk d || s.downLong p || (s.checkVirt asid (needPlain false) src n).isSome then s.endDescriptor port ring d false
        else
          { s.modPort port fun p => p.modRing ring fun y => { y with desc := some d, data := s.portRead asid src n } with
            fresh := s.fresh + n }

/-- DESCRIPTOR_COMPLETE (19 R390): `ok` says that the remote port performed the writes. -/
def execDescriptorComplete (port ring : Nat) (ok : Bool) (s : State) : Out :=
  .next <|
    let p := s.port port
    match (p.ring ring).desc with
    | none => s
    | some d => if p.up then s.endDescriptor port ring d ok else if s.downLong p then s.endDescriptor port ring d false else s

/-- A pairing accepts an inbound write (19 R389). -/
def Port.accepts (p : Port) (spart rpart : Nat) : Bool :=
  p.pairings.any fun x => x.2.bit 63 && x.2.field 24 24 == p.peer.toNat && x.2.field 16 8 == spart && x.2.field 8 8 == rpart

/-- INBOUND_WRITE (19 R389, R390): accepted bytes are written, and then RDONE rises by 1; any other write is dropped. -/
def execInboundWrite (port : Nat) (spart rpart : Nat) (dst : Word) (data : List Byte) (rdone : Word) (s : State) : Out :=
  .next <|
    let p := s.port port
    let asid := (s.part rpart).space
    if !p.up || !p.accepts spart rpart || !(s.part rpart).valid || (s.checkVirt asid (needPlain true) dst.toNat data.length).isSome then s
    else (s.writeGlobal asid dst.toNat data).portWord32 rpart rdone.toNat fun w => w + 1

/-! Firmware and attestation (19 R394, R395). -/

/-- FIRMWARE_CHUNK_WRITE (19 R394): the chunk that a GO started is written, or the store reports an error and what it holds there is a free value, as is a byte of the window that nothing wrote (log entry 7); the first chunk holds the header. -/
def execFirmwareChunkWrite (s : State) : Out :=
  .next <|
    if s.fw.busy ≠ 1 then s
    else
      let off := s.fw.upoff.toNat
      let bs := (List.range 4096).map fun i =>
        match if s.fw.storeBad then none else s.fw.window.find? fun x => x.1 == i with
        | none => Config.freeByte (s.fresh + i)
        | some x => x.2
      let put (x : FwSlot) : FwSlot :=
        { x with
          version := if off = 0 then none else x.version
          chunks := upsert (fun c => c.1 == off) (off, bs) (fun _ => (off, bs)) x.chunks }
      { s with
        fresh := s.fresh + 4096
        fw := { s.fw with busy := 0, result := if s.fw.storeBad then 2 else 0, slots := s.fw.slots.modify s.fw.slot put } }

/-- FIRMWARE_COMMIT (19 R394): the image is sealed with its length, or the store reports an error; the version its header gives is a free value. -/
def execFirmwareCommit (storeOk : Bool) (s : State) : Out :=
  .next <|
    if s.fw.busy ≠ 2 then s
    else if !storeOk then { s with fw := { s.fw with busy := 0, result := 2 } }
    else
      let v := (lo32 (Config.freeWord s.fresh)).toNat
      { s with
        fresh := s.fresh + 1
        fw := { s.fw with busy := 0, result := 0,
                          slots := s.fw.slots.modify s.fw.slot fun x => { x with version := some v, length := s.fw.uplen.toNat } } }

/-- The words of the attestation block that a report fills. -/
def reportWords : Nat := 3040

/-- A log entry as the numbers that a hash of its block takes. -/
def LogEntry.numbers (e : LogEntry) : List Nat :=
  match e with
  | .tile p => [0, p]
  | .core p c => [1, p, c]
  | .unknown => [2]

/-- The entries of the last sealed log block (19 R395). -/
def State.lastBlock (s : State) : List (List Nat) :=
  match s.retireLog.getLast? with
  | none => []
  | some b => b.entries.map LogEntry.numbers

/-- ATTESTATION_REPORT_READY (19 R395): the report holds, in the order of the rule, the identity words and the measurement, the hashes of the fuse map and of the last sealed log block, NVTILE and the nonce; what the hashes are of their contents is left open, and signatures and chains are free values (log entry 7). -/
def execAttestationReportReady (s : State) : Out :=
  .next <|
    if !s.att.busy then s
    else
      let free (i n : Nat) : List Word := (List.range n).map fun k => Config.freeWord (s.fresh + i + k)
      let ids := [s.serial, s.identWord 0x10, s.identWord 0x18] ++ s.fwMeasure
      let hashes := (List.range 6).map (Config.fuseHash s.fuseTiles s.fuseCores) ++ (List.range 6).map (Config.blockHash s.lastBlock)
      let rest := [w64 s.nvtile] ++ (List.range 4).map fun i => s.attestWord (0x20 + 8 * i)
      { s with
        att := { s.att with busy := false, report := ids ++ hashes ++ rest ++ free 0 (reportWords - 26) }
        fresh := s.fresh + reportWords }

/-! HBM (19 R396, 11 R227). -/

/-- The temperature at which a step is entered. -/
def stepEnter (k : Nat) : Nat := match k with | 0 => 0 | 1 => 85 | 2 => 95 | 3 => 100 | _ => 105

/-- The highest step of a list that a temperature enters. -/
def stepUp (temp : Nat) (cur : Nat) : Nat := ([1, 2, 3, 4].filter fun k => stepEnter k ≤ temp).foldl max cur

/-- The step after a reading: up where a threshold is reached, down where the present step is left, 3 °C below its entry. -/
def stepDown (temp : Nat) : Nat → Nat
  | 0 => 0
  | k + 1 => if temp + 3 < stepEnter (k + 1) then stepDown temp k else k + 1

/-- HBM_TEMP_READ (19 R396): a failed read is step 4; entry to step 4 gives a host notice, an entry and vector 0 (19 R385). -/
def execHbmTempRead (stack : Nat) (temp : Option Nat) (s : State) : Out :=
  .next <|
    if 24 ≤ stack then s
    else
      let x := s.stack stack
      let step := match temp with
        | none => 4
        | some t => stepUp t (stepDown t x.step)
      let s' := s.modStack stack fun x =>
        { x with
          temp := match temp with | none => x.temp | some t => min t 255
          step := step
          steps := if step = x.step then x.steps else x.steps + 1
          capclk := if 2 ≤ x.step then x.capclk + w64 (s.clk - x.capFrom) else x.capclk
          capFrom := s.clk }
      if step = 4 && x.step ≠ 4 then s'.hkReport.notice else s'

/-- SLICE_FAILURE (11 R227): the pseudo-channel goes into uncached mode. -/
def execSliceFailure (edge pc : Nat) (s : State) : Out :=
  .next (if edge < 12 && pc < 128 then { s with uncached := insertNew (edge, pc) s.uncached } else s)

/-! Soft errors (17 R359, 11 R398, 10 R215). -/

/-- SOFT_ERROR (17 R359): a granule is in error, or a word of an accumulator is changed behind its recorded residue (10 R215); a record of a checkpoint that holds one is not whole (17 R355, `State.ckptSound`). -/
def execSoftError (t : SoftTarget) (s : State) : Out :=
  .next <|
    match t with
    | .ls vt slot word =>
      if word ≥ Config.lsSize / 4 || (s.pcoreOf vt slot).isNone then s
      else s.modCore vt slot fun c => { c with bad := insertNat word c.bad }
    | .hbm pa => if pa ≥ Config.hbmEnd then s else { s with hbmBad := insertNat (pa / 32) s.hbmBad }
    | .acc vt slot acc row col bit =>
      if acc ≥ 8 || row ≥ 16 || col ≥ 16 || bit ≥ 32 || (s.pcoreOf vt slot).isNone then s
      else
        let k := 16 * row + col
        s.modCore vt slot fun c => c.modAcc acc fun a =>
          { a with words := a.words.modify k fun w => w ^^^ BitVec.ofNat 32 (2 ^ bit) }
    | .lsBit vt slot => if (s.pcoreOf vt slot).isNone then s else s.bumpAge (s.ptileOf vt) 1 1
    | .array vt slot => if (s.pcoreOf vt slot).isNone then s else s.modCore vt slot fun c => { c with arrayBad := true }

end Sys2Proof.Machine
end

