-- ==== Sys2Proof/Machine/Dispatch.lean ====
section
/-! DEFINITION. The dispatch: one arm for each constructor of `Instr`, each a direct call of that instruction's meaning. -/

namespace Sys2Proof.Machine

/-- The meaning of an instruction or an event in a state. -/
def exec (i : Instr) (s : State) : Host.Outcome State Fault Refusal :=
  match i with
  | .deviceReset fail snapOk => Sys2Proof.Machine.execDeviceReset fail snapOk s
  | .nop => Sys2Proof.Machine.execNop s
  | .pad => Sys2Proof.Machine.execPad s
  | .br p off => Sys2Proof.Machine.execBr p off s
  | .brLong p off => Sys2Proof.Machine.execBrLong p off s
  | .brReg p a => Sys2Proof.Machine.execBrReg p a s
  | .brC p cc a b off => Sys2Proof.Machine.execBrC p cc a b off s
  | .brCLong p cc a b off => Sys2Proof.Machine.execBrCLong p cc a b off s
  | .brCImm p cc a off imm => Sys2Proof.Machine.execBrCImm p cc a off imm s
  | .call p d off => Sys2Proof.Machine.execCall p d off s
  | .callLong p d off => Sys2Proof.Machine.execCallLong p d off s
  | .callReg p d a => Sys2Proof.Machine.execCallReg p d a s
  | .ret p a => Sys2Proof.Machine.execRet p a s
  | .halt p => Sys2Proof.Machine.execHalt p s
  | .realign p a => Sys2Proof.Machine.execRealign p a s
  | .realignResume vt slot => Sys2Proof.Machine.execRealignResume vt slot s
  | .loop p a off => Sys2Proof.Machine.execLoop p a off s
  | .loopImm p off cnt => Sys2Proof.Machine.execLoopImm p off cnt s
  | .loopEnd p => Sys2Proof.Machine.execLoopEnd p s
  | .rep p a sh => Sys2Proof.Machine.execRep p a sh s
  | .repImm p cnt sh => Sys2Proof.Machine.execRepImm p cnt sh s
  | .qPush p d a => Sys2Proof.Machine.execQPush p d a s
  | .qEos p d => Sys2Proof.Machine.execQEos p d s
  | .qPop p d a => Sys2Proof.Machine.execQPop p d a s
  | .qPeek p d a => Sys2Proof.Machine.execQPeek p d a s
  | .qTest p d a => Sys2Proof.Machine.execQTest p d a s
  | .fetchRequestServe vt => Sys2Proof.Machine.execFetchRequestServe vt s
  | .add p m d a b => Sys2Proof.Machine.execAdd p m d a b s
  | .sub p m d a b => Sys2Proof.Machine.execSub p m d a b s
  | .addImm p m d a imm => Sys2Proof.Machine.execAddImm p m d a imm s
  | .addImmLong p m d a imm => Sys2Proof.Machine.execAddImmLong p m d a imm s
  | .subImm p m d a imm => Sys2Proof.Machine.execSubImm p m d a imm s
  | .subImmLong p m d a imm => Sys2Proof.Machine.execSubImmLong p m d a imm s
  | .mul p m d a b => Sys2Proof.Machine.execMul p m d a b s
  | .mulh p k d a b => Sys2Proof.Machine.execMulh p k d a b s
  | .div p w d a b => Sys2Proof.Machine.execDiv p w d a b s
  | .divU p w d a b => Sys2Proof.Machine.execDivU p w d a b s
  | .rem p w d a b => Sys2Proof.Machine.execRem p w d a b s
  | .remU p w d a b => Sys2Proof.Machine.execRemU p w d a b s
  | .min p d a b => Sys2Proof.Machine.execMin p d a b s
  | .max p d a b => Sys2Proof.Machine.execMax p d a b s
  | .minU p d a b => Sys2Proof.Machine.execMinU p d a b s
  | .maxU p d a b => Sys2Proof.Machine.execMaxU p d a b s
  | .abs p sat d a => Sys2Proof.Machine.execAbs p sat d a s
  | .neg p sat d a => Sys2Proof.Machine.execNeg p sat d a s
  | .and p d a b => Sys2Proof.Machine.execAnd p d a b s
  | .or p d a b => Sys2Proof.Machine.execOr p d a b s
  | .xor p d a b => Sys2Proof.Machine.execXor p d a b s
  | .andn p d a b => Sys2Proof.Machine.execAndn p d a b s
  | .not p d a => Sys2Proof.Machine.execNot p d a s
  | .andImm p d a imm => Sys2Proof.Machine.execAndImm p d a imm s
  | .andImmLong p d a imm => Sys2Proof.Machine.execAndImmLong p d a imm s
  | .orImm p d a imm => Sys2Proof.Machine.execOrImm p d a imm s
  | .orImmLong p d a imm => Sys2Proof.Machine.execOrImmLong p d a imm s
  | .xorImm p d a imm => Sys2Proof.Machine.execXorImm p d a imm s
  | .xorImmLong p d a imm => Sys2Proof.Machine.execXorImmLong p d a imm s
  | .shl p w d a b => Sys2Proof.Machine.execShl p w d a b s
  | .shlImm p w d a n => Sys2Proof.Machine.execShlImm p w d a n s
  | .shr p w d a b => Sys2Proof.Machine.execShr p w d a b s
  | .shrImm p w d a n => Sys2Proof.Machine.execShrImm p w d a n s
  | .sar p w d a b => Sys2Proof.Machine.execSar p w d a b s
  | .sarImm p w d a n => Sys2Proof.Machine.execSarImm p w d a n s
  | .rot p w d a b => Sys2Proof.Machine.execRot p w d a b s
  | .rotImm p w d a n => Sys2Proof.Machine.execRotImm p w d a n s
  | .cmpP p cc d a b => Sys2Proof.Machine.execCmpP p cc d a b s
  | .cmpPImm p cc d a imm => Sys2Proof.Machine.execCmpPImm p cc d a imm s
  | .cmpPImmLong p cc d a imm => Sys2Proof.Machine.execCmpPImmLong p cc d a imm s
  | .cmpS p cc d a b => Sys2Proof.Machine.execCmpS p cc d a b s
  | .cmpSImm p cc d a imm => Sys2Proof.Machine.execCmpSImm p cc d a imm s
  | .cmpSImmLong p cc d a imm => Sys2Proof.Machine.execCmpSImmLong p cc d a imm s
  | .selP p d a b c => Sys2Proof.Machine.execSelP p d a b c s
  | .selS p d a b c => Sys2Proof.Machine.execSelS p d a b c s
  | .bfX p sgn d a pos lenm1 => Sys2Proof.Machine.execBfX p sgn d a pos lenm1 s
  | .bfI p d a pos lenm1 => Sys2Proof.Machine.execBfI p d a pos lenm1 s
  | .clz p w d a => Sys2Proof.Machine.execClz p w d a s
  | .ctz p w d a => Sys2Proof.Machine.execCtz p w d a s
  | .popc p w d a => Sys2Proof.Machine.execPopc p w d a s
  | .lea p sh d a b disp => Sys2Proof.Machine.execLea p sh d a b disp s
  | .leaLong p sh d a b disp => Sys2Proof.Machine.execLeaLong p sh d a b disp s
  | .leaPc p d off => Sys2Proof.Machine.execLeaPc p d off s
  | .li p d imm => Sys2Proof.Machine.execLi p d imm s
  | .liLong p d imm => Sys2Proof.Machine.execLiLong p d imm s
  | .pAnd p d a b => Sys2Proof.Machine.execPAnd p d a b s
  | .pOr p d a b => Sys2Proof.Machine.execPOr p d a b s
  | .pXor p d a b => Sys2Proof.Machine.execPXor p d a b s
  | .pNot p d a => Sys2Proof.Machine.execPNot p d a s
  | .pMov p d a => Sys2Proof.Machine.execPMov p d a s
  | .pMovFromScalar p d a => Sys2Proof.Machine.execPMovFromScalar p d a s
  | .pMovToScalar p d a => Sys2Proof.Machine.execPMovToScalar p d a s
  | .csrRd p d n => Sys2Proof.Machine.execCsrRd p d n s
  | .csrWr p d a n => Sys2Proof.Machine.execCsrWr p d a n s
  | .csrSet p d a n => Sys2Proof.Machine.execCsrSet p d a n s
  | .csrClr p d a n => Sys2Proof.Machine.execCsrClr p d a n s
  | .vAdd p e m d a b => Sys2Proof.Machine.execVAdd p e m d a b s
  | .vSub p e m d a b => Sys2Proof.Machine.execVSub p e m d a b s
  | .vMul p e m d a b => Sys2Proof.Machine.execVMul p e m d a b s
  | .vMulh p e m d a b => Sys2Proof.Machine.execVMulh p e m d a b s
  | .vMac p e m d a b => Sys2Proof.Machine.execVMac p e m d a b s
  | .vMin p e m d a b => Sys2Proof.Machine.execVMin p e m d a b s
  | .vMax p e m d a b => Sys2Proof.Machine.execVMax p e m d a b s
  | .vAbs p e m d a => Sys2Proof.Machine.execVAbs p e m d a s
  | .vNeg p e m d a => Sys2Proof.Machine.execVNeg p e m d a s
  | .vAddScalar p e m d a b => Sys2Proof.Machine.execVAddScalar p e m d a b s
  | .vSubScalar p e m d a b => Sys2Proof.Machine.execVSubScalar p e m d a b s
  | .vMulScalar p e m d a b => Sys2Proof.Machine.execVMulScalar p e m d a b s
  | .vMulhScalar p e m d a b => Sys2Proof.Machine.execVMulhScalar p e m d a b s
  | .vMacScalar p e m d a b => Sys2Proof.Machine.execVMacScalar p e m d a b s
  | .vMinScalar p e m d a b => Sys2Proof.Machine.execVMinScalar p e m d a b s
  | .vMaxScalar p e m d a b => Sys2Proof.Machine.execVMaxScalar p e m d a b s
  | .vAddImm p e m d a imm => Sys2Proof.Machine.execVAddImm p e m d a imm s
  | .vAddImmLong p e m d a imm => Sys2Proof.Machine.execVAddImmLong p e m d a imm s
  | .vSubImm p e m d a imm => Sys2Proof.Machine.execVSubImm p e m d a imm s
  | .vSubImmLong p e m d a imm => Sys2Proof.Machine.execVSubImmLong p e m d a imm s
  | .vMulImm p e m d a imm => Sys2Proof.Machine.execVMulImm p e m d a imm s
  | .vMulImmLong p e m d a imm => Sys2Proof.Machine.execVMulImmLong p e m d a imm s
  | .vMinImm p e m d a imm => Sys2Proof.Machine.execVMinImm p e m d a imm s
  | .vMinImmLong p e m d a imm => Sys2Proof.Machine.execVMinImmLong p e m d a imm s
  | .vMaxImm p e m d a imm => Sys2Proof.Machine.execVMaxImm p e m d a imm s
  | .vMaxImmLong p e m d a imm => Sys2Proof.Machine.execVMaxImmLong p e m d a imm s
  | .vAnd p d a b => Sys2Proof.Machine.execVAnd p d a b s
  | .vOr p d a b => Sys2Proof.Machine.execVOr p d a b s
  | .vXor p d a b => Sys2Proof.Machine.execVXor p d a b s
  | .vAndn p d a b => Sys2Proof.Machine.execVAndn p d a b s
  | .vNot p d a => Sys2Proof.Machine.execVNot p d a s
  | .vShl p e d a b => Sys2Proof.Machine.execVShl p e d a b s
  | .vShlImm p e d a n => Sys2Proof.Machine.execVShlImm p e d a n s
  | .vShr p e d a b => Sys2Proof.Machine.execVShr p e d a b s
  | .vShrImm p e d a n => Sys2Proof.Machine.execVShrImm p e d a n s
  | .vSar p e d a b => Sys2Proof.Machine.execVSar p e d a b s
  | .vSarImm p e d a n => Sys2Proof.Machine.execVSarImm p e d a n s
  | .vRot p e d a b => Sys2Proof.Machine.execVRot p e d a b s
  | .vRotImm p e d a n => Sys2Proof.Machine.execVRotImm p e d a n s
  | .vClz p e d a => Sys2Proof.Machine.execVClz p e d a s
  | .vPopc p e d a => Sys2Proof.Machine.execVPopc p e d a s
  | .vFadd p rm d a b => Sys2Proof.Machine.execVFadd p rm d a b s
  | .vFsub p rm d a b => Sys2Proof.Machine.execVFsub p rm d a b s
  | .vFmul p rm d a b => Sys2Proof.Machine.execVFmul p rm d a b s
  | .vFmin p d a b => Sys2Proof.Machine.execVFmin p d a b s
  | .vFmax p d a b => Sys2Proof.Machine.execVFmax p d a b s
  | .vFaddScalar p rm d a b => Sys2Proof.Machine.execVFaddScalar p rm d a b s
  | .vFsubScalar p rm d a b => Sys2Proof.Machine.execVFsubScalar p rm d a b s
  | .vFmulScalar p rm d a b => Sys2Proof.Machine.execVFmulScalar p rm d a b s
  | .vFminScalar p d a b => Sys2Proof.Machine.execVFminScalar p d a b s
  | .vFmaxScalar p d a b => Sys2Proof.Machine.execVFmaxScalar p d a b s
  | .vFma p rm d a b c => Sys2Proof.Machine.execVFma p rm d a b c s
  | .vFms p rm d a b c => Sys2Proof.Machine.execVFms p rm d a b c s
  | .vFnma p rm d a b c => Sys2Proof.Machine.execVFnma p rm d a b c s
  | .vFdiv p rm d a b => Sys2Proof.Machine.execVFdiv p rm d a b s
  | .vFsqrt p rm d a => Sys2Proof.Machine.execVFsqrt p rm d a s
  | .vFrcp p rm d a => Sys2Proof.Machine.execVFrcp p rm d a s
  | .vFrsq p rm d a => Sys2Proof.Machine.execVFrsq p rm d a s
  | .vFabs p d a => Sys2Proof.Machine.execVFabs p d a s
  | .vFneg p d a => Sys2Proof.Machine.execVFneg p d a s
  | .vFcopysign p d a b => Sys2Proof.Machine.execVFcopysign p d a b s
  | .vFclass p d a => Sys2Proof.Machine.execVFclass p d a s
  | .vFscale p rm d a b => Sys2Proof.Machine.execVFscale p rm d a b s
  | .vFround p rm d a => Sys2Proof.Machine.execVFround p rm d a s
  | .vCmp p cc d a b => Sys2Proof.Machine.execVCmp p cc d a b s
  | .vCmpScalar p cc d a b => Sys2Proof.Machine.execVCmpScalar p cc d a b s
  | .vFcmp p cc d a b => Sys2Proof.Machine.execVFcmp p cc d a b s
  | .vFcmpScalar p cc d a b => Sys2Proof.Machine.execVFcmpScalar p cc d a b s
  | .vPerm p d a b => Sys2Proof.Machine.execVPerm p d a b s
  | .vPerm2 p d a b c => Sys2Proof.Machine.execVPerm2 p d a b c s
  | .vShuf p k d a b => Sys2Proof.Machine.execVShuf p k d a b s
  | .vBcast p d a => Sys2Proof.Machine.execVBcast p d a s
  | .vBcastLane p d a k => Sys2Proof.Machine.execVBcastLane p d a k s
  | .vBcastImm p d imm => Sys2Proof.Machine.execVBcastImm p d imm s
  | .vBcastQ p d a => Sys2Proof.Machine.execVBcastQ p d a s
  | .vSlide p d a b k => Sys2Proof.Machine.execVSlide p d a b k s
  | .vMov p d a => Sys2Proof.Machine.execVMov p d a s
  | .vSel p d a b c => Sys2Proof.Machine.execVSel p d a b c s
  | .vMovToLane p d a k => Sys2Proof.Machine.execVMovToLane p d a k s
  | .vMovFromLane p d a k => Sys2Proof.Machine.execVMovFromLane p d a k s
  | .vRedAdd p m d a => Sys2Proof.Machine.execVRedAdd p m d a s
  | .vRedMin p m d a => Sys2Proof.Machine.execVRedMin p m d a s
  | .vRedMax p m d a => Sys2Proof.Machine.execVRedMax p m d a s
  | .vRedAnd p d a => Sys2Proof.Machine.execVRedAnd p d a s
  | .vRedOr p d a => Sys2Proof.Machine.execVRedOr p d a s
  | .vRedXor p d a => Sys2Proof.Machine.execVRedXor p d a s
  | .vRedFadd p rm d a => Sys2Proof.Machine.execVRedFadd p rm d a s
  | .vRedFmin p d a => Sys2Proof.Machine.execVRedFmin p d a s
  | .vRedFmax p d a => Sys2Proof.Machine.execVRedFmax p d a s
  | .vScanAdd p m d a => Sys2Proof.Machine.execVScanAdd p m d a s
  | .vScanMin p m d a => Sys2Proof.Machine.execVScanMin p m d a s
  | .vScanMax p m d a => Sys2Proof.Machine.execVScanMax p m d a s
  | .vScanXadd p m d a => Sys2Proof.Machine.execVScanXadd p m d a s
  | .vScanFadd p rm d a => Sys2Proof.Machine.execVScanFadd p rm d a s
  | .vScanFmin p d a => Sys2Proof.Machine.execVScanFmin p d a s
  | .vScanFmax p d a => Sys2Proof.Machine.execVScanFmax p d a s
  | .vCvtN p rm ty d a fmt k => Sys2Proof.Machine.execVCvtN p rm ty d a fmt k s
  | .vCvtW p rm ty d a fmt k => Sys2Proof.Machine.execVCvtW p rm ty d a fmt k s
  | .vLd p px d a disp => Sys2Proof.Machine.execVLd p px d a disp s
  | .vLdLong p px d a disp => Sys2Proof.Machine.execVLdLong p px d a disp s
  | .vLdS p px d a b disp => Sys2Proof.Machine.execVLdS p px d a b disp s
  | .vLdSLong p px d a b disp => Sys2Proof.Machine.execVLdSLong p px d a b disp s
  | .vSt p px c a disp => Sys2Proof.Machine.execVSt p px c a disp s
  | .vStLong p px c a disp => Sys2Proof.Machine.execVStLong p px c a disp s
  | .vStS p px c a b disp => Sys2Proof.Machine.execVStS p px c a b disp s
  | .vStSLong p px c a b disp => Sys2Proof.Machine.execVStSLong p px c a b disp s
  | .vLdQ p px d a disp => Sys2Proof.Machine.execVLdQ p px d a disp s
  | .vLdQLong p px d a disp => Sys2Proof.Machine.execVLdQLong p px d a disp s
  | .vLdQS p px d a b disp => Sys2Proof.Machine.execVLdQS p px d a b disp s
  | .vLdQSLong p px d a b disp => Sys2Proof.Machine.execVLdQSLong p px d a b disp s
  | .vStQ p px c a disp => Sys2Proof.Machine.execVStQ p px c a disp s
  | .vStQLong p px c a disp => Sys2Proof.Machine.execVStQLong p px c a disp s
  | .vStQS p px c a b disp => Sys2Proof.Machine.execVStQS p px c a b disp s
  | .vStQSLong p px c a b disp => Sys2Proof.Machine.execVStQSLong p px c a b disp s
  | .vGath p px d a b sh disp => Sys2Proof.Machine.execVGath p px d a b sh disp s
  | .vScat p px c a b sh disp => Sys2Proof.Machine.execVScat p px c a b sh disp s
  | .vTdec p px rm int d t a => Sys2Proof.Machine.execVTdec p px rm int d t a s
  | .vTdecLong p px rm int d t a axis stp => Sys2Proof.Machine.execVTdecLong p px rm int d t a axis stp s
  | .vTdecQ p px rm int d t a => Sys2Proof.Machine.execVTdecQ p px rm int d t a s
  | .vTdecQLong p px rm int d t a axis stp => Sys2Proof.Machine.execVTdecQLong p px rm int d t a axis stp s
  | .vTenc p px rm int c t a => Sys2Proof.Machine.execVTenc p px rm int c t a s
  | .vTencLong p px rm int c t a axis stp => Sys2Proof.Machine.execVTencLong p px rm int c t a axis stp s
  | .vTencQ p px rm int c t a => Sys2Proof.Machine.execVTencQ p px rm int c t a s
  | .vTencQLong p px rm int c t a axis stp => Sys2Proof.Machine.execVTencQLong p px rm int c t a axis stp s
  | .mxMma p i32 accz d ta tb c nslm1 h => Sys2Proof.Machine.execMxMma p i32 accz d ta tb c nslm1 h s
  | .mxMmaLong p i32 accz d ta tb c nslm1 h fa fb => Sys2Proof.Machine.execMxMmaLong p i32 accz d ta tb c nslm1 h fa fb s
  | .mxMmaQ p i32 accz d ta tb c nslm1 h => Sys2Proof.Machine.execMxMmaQ p i32 accz d ta tb c nslm1 h s
  | .mxMmaQLong p i32 accz d ta tb c nslm1 h fa fb => Sys2Proof.Machine.execMxMmaQLong p i32 accz d ta tb c nslm1 h fa fb s
  | .mxPlane p rm ta tb c nb0m1 nb1m1 h => Sys2Proof.Machine.execMxPlane p rm ta tb c nb0m1 nb1m1 h s
  | .mxPlaneLong p rm ta tb c nb0m1 nb1m1 h o0 o1 => Sys2Proof.Machine.execMxPlaneLong p rm ta tb c nb0m1 nb1m1 h o0 o1 s
  | .mxPlaneQ p rm ta tb c nb0m1 nb1m1 h => Sys2Proof.Machine.execMxPlaneQ p rm ta tb c nb0m1 nb1m1 h s
  | .mxPlaneQLong p rm ta tb c nb0m1 nb1m1 h o0 o1 => Sys2Proof.Machine.execMxPlaneQLong p rm ta tb c nb0m1 nb1m1 h o0 o1 s
  | .mxUnplane p rm ta tb c nb0m1 nb1m1 h => Sys2Proof.Machine.execMxUnplane p rm ta tb c nb0m1 nb1m1 h s
  | .mxUnplaneLong p rm ta tb c nb0m1 nb1m1 h o0 o1 => Sys2Proof.Machine.execMxUnplaneLong p rm ta tb c nb0m1 nb1m1 h o0 o1 s
  | .mxUnplaneQ p rm ta tb c nb0m1 nb1m1 h => Sys2Proof.Machine.execMxUnplaneQ p rm ta tb c nb0m1 nb1m1 h s
  | .mxUnplaneQLong p rm ta tb c nb0m1 nb1m1 h o0 o1 => Sys2Proof.Machine.execMxUnplaneQLong p rm ta tb c nb0m1 nb1m1 h o0 o1 s
  | .mxSt p rm i32 a tb c h => Sys2Proof.Machine.execMxSt p rm i32 a tb c h s
  | .mxStLong p rm i32 a tb c h f2 f3 => Sys2Proof.Machine.execMxStLong p rm i32 a tb c h f2 f3 s
  | .mxStQ p rm i32 a tb c h => Sys2Proof.Machine.execMxStQ p rm i32 a tb c h s
  | .mxStQLong p rm i32 a tb c h f2 f3 => Sys2Proof.Machine.execMxStQLong p rm i32 a tb c h f2 f3 s
  | .mxLd p d a rows h => Sys2Proof.Machine.execMxLd p d a rows h s
  | .mxZero p d rows => Sys2Proof.Machine.execMxZero p d rows s
  | .mxMask p a => Sys2Proof.Machine.execMxMask p a s
  | .mxMaskImm p row col dep => Sys2Proof.Machine.execMxMaskImm p row col dep s
  | .mxMovToVector p d a m => Sys2Proof.Machine.execMxMovToVector p d a m s
  | .mxMovToAcc p d a m => Sys2Proof.Machine.execMxMovToAcc p d a m s
  | .mxScr p d => Sys2Proof.Machine.execMxScr p d s
  | .mxScrInj p a => Sys2Proof.Machine.execMxScrInj p a s
  | .mxCommandStart vt slot => Sys2Proof.Machine.execMxCommandStart vt slot s
  | .mxCommandComplete vt slot => Sys2Proof.Machine.execMxCommandComplete vt slot s
  | .ldB p px d a disp => Sys2Proof.Machine.execLdB p px d a disp s
  | .ldH p px d a disp => Sys2Proof.Machine.execLdH p px d a disp s
  | .ldW p px d a disp => Sys2Proof.Machine.execLdW p px d a disp s
  | .ldD p px d a disp => Sys2Proof.Machine.execLdD p px d a disp s
  | .ldBs p px d a disp => Sys2Proof.Machine.execLdBs p px d a disp s
  | .ldHs p px d a disp => Sys2Proof.Machine.execLdHs p px d a disp s
  | .ldWs p px d a disp => Sys2Proof.Machine.execLdWs p px d a disp s
  | .stB p px a b disp => Sys2Proof.Machine.execStB p px a b disp s
  | .stH p px a b disp => Sys2Proof.Machine.execStH p px a b disp s
  | .stW p px a b disp => Sys2Proof.Machine.execStW p px a b disp s
  | .stD p px a b disp => Sys2Proof.Machine.execStD p px a b disp s
  | .gldB p at' d a disp => Sys2Proof.Machine.execGldB p at' d a disp s
  | .gldH p at' d a disp => Sys2Proof.Machine.execGldH p at' d a disp s
  | .gldW p at' d a disp => Sys2Proof.Machine.execGldW p at' d a disp s
  | .gldD p at' d a disp => Sys2Proof.Machine.execGldD p at' d a disp s
  | .gldBs p at' d a disp => Sys2Proof.Machine.execGldBs p at' d a disp s
  | .gldHs p at' d a disp => Sys2Proof.Machine.execGldHs p at' d a disp s
  | .gldWs p at' d a disp => Sys2Proof.Machine.execGldWs p at' d a disp s
  | .gstB p at' a b disp => Sys2Proof.Machine.execGstB p at' a b disp s
  | .gstH p at' a b disp => Sys2Proof.Machine.execGstH p at' a b disp s
  | .gstW p at' a b disp => Sys2Proof.Machine.execGstW p at' a b disp s
  | .gstD p at' a b disp => Sys2Proof.Machine.execGstD p at' a b disp s
  | .staMap p px keep a b e z => Sys2Proof.Machine.execStaMap p px keep a b e z s
  | .staMapLong p px keep a b e z disp => Sys2Proof.Machine.execStaMapLong p px keep a b e z disp s
  | .staFill p px e h => Sys2Proof.Machine.execStaFill p px e h s
  | .staDrop p px discard e => Sys2Proof.Machine.execStaDrop p px discard e s
  | .staWb p px e h => Sys2Proof.Machine.execStaWb p px e h s
  | .staTest p px d e => Sys2Proof.Machine.execStaTest p px d e s
  | .stashFillComplete vt slot e => Sys2Proof.Machine.execStashFillComplete vt slot e s
  | .stashWritebackComplete vt slot e => Sys2Proof.Machine.execStashWritebackComplete vt slot e s
  | .stFarB p at' a b c => Sys2Proof.Machine.execStFarB p at' a b c s
  | .stFarH p at' a b c => Sys2Proof.Machine.execStFarH p at' a b c s
  | .stFarW p at' a b c => Sys2Proof.Machine.execStFarW p at' a b c s
  | .stFarD p at' a b c => Sys2Proof.Machine.execStFarD p at' a b c s
  | .cpGet p at' a b len h => Sys2Proof.Machine.execCpGet p at' a b len h s
  | .cpGetMc p at' a b len cmask h => Sys2Proof.Machine.execCpGetMc p at' a b len cmask h s
  | .cpPut p at' a b len h => Sys2Proof.Machine.execCpPut p at' a b len h s
  | .cpDeferGet p at' a b len h => Sys2Proof.Machine.execCpDeferGet p at' a b len h s
  | .cpDeferPut p at' a b len h => Sys2Proof.Machine.execCpDeferPut p at' a b len h s
  | .cpCvt p at' rm ta tb c n0 n1 h => Sys2Proof.Machine.execCpCvt p at' rm ta tb c n0 n1 h s
  | .copyComplete vt id => Sys2Proof.Machine.execCopyComplete vt id s
  | .futWait p d a => Sys2Proof.Machine.execFutWait p d a s
  | .futTest p d a => Sys2Proof.Machine.execFutTest p d a s
  | .futPass p d a t => Sys2Proof.Machine.execFutPass p d a t s
  | .futCancel p a => Sys2Proof.Machine.execFutCancel p a s
  | .asyncFaultFreeze vt slot => Sys2Proof.Machine.execAsyncFaultFreeze vt slot s
  | .wdAsk p d a km1 => Sys2Proof.Machine.execWdAsk p d a km1 s
  | .wdAskLong p d a km1 disp => Sys2Proof.Machine.execWdAskLong p d a km1 disp s
  | .wdAskComplete id => Sys2Proof.Machine.execWdAskComplete id s
  | .tgLd p px take d a disp => Sys2Proof.Machine.execTgLd p px take d a disp s
  | .tgSt p px a b disp => Sys2Proof.Machine.execTgSt p px a b disp s
  | .tgSet p px d a disp => Sys2Proof.Machine.execTgSet p px d a disp s
  | .tgClr p px d a disp => Sys2Proof.Machine.execTgClr p px d a disp s
  | .tagWaitRetest vt slot => Sys2Proof.Machine.execTagWaitRetest vt slot s
  | .barArr p d => Sys2Proof.Machine.execBarArr p d s
  | .barWait p => Sys2Proof.Machine.execBarWait p s
  | .barWaitGen p a => Sys2Proof.Machine.execBarWaitGen p a s
  | .barTest p d a => Sys2Proof.Machine.execBarTest p d a s
  | .barrierPhaseComplete vt bar => Sys2Proof.Machine.execBarrierPhaseComplete vt bar s
  | .step lvl => Sys2Proof.Machine.execStep lvl s
  | .dataMovementPhase lvl gang vt => Sys2Proof.Machine.execDataMovementPhase lvl gang vt s
  | .checkpointCommit vt => Sys2Proof.Machine.execCheckpointCommit vt s
  | .phaseRelease lvl gang vt => Sys2Proof.Machine.execPhaseRelease lvl gang vt s
  | .fence p at' => Sys2Proof.Machine.execFence p at' s
  | .atSwap p at' dw d a b disp => Sys2Proof.Machine.execAtSwap p at' dw d a b disp s
  | .atCas p at' dw d a b c disp => Sys2Proof.Machine.execAtCas p at' dw d a b c disp s
  | .atAdd p at' dw d a b disp => Sys2Proof.Machine.execAtAdd p at' dw d a b disp s
  | .atAnd p at' dw d a b disp => Sys2Proof.Machine.execAtAnd p at' dw d a b disp s
  | .atOr p at' dw d a b disp => Sys2Proof.Machine.execAtOr p at' dw d a b disp s
  | .atXor p at' dw d a b disp => Sys2Proof.Machine.execAtXor p at' dw d a b disp s
  | .atMin p at' dw d a b disp => Sys2Proof.Machine.execAtMin p at' dw d a b disp s
  | .atMax p at' dw d a b disp => Sys2Proof.Machine.execAtMax p at' dw d a b disp s
  | .atMinu p at' dw d a b disp => Sys2Proof.Machine.execAtMinu p at' dw d a b disp s
  | .atMaxu p at' dw d a b disp => Sys2Proof.Machine.execAtMaxu p at' dw d a b disp s
  | .atFadd p at' d a b disp => Sys2Proof.Machine.execAtFadd p at' d a b disp s
  | .redAdd p at' dw a b disp => Sys2Proof.Machine.execRedAdd p at' dw a b disp s
  | .redAnd p at' dw a b disp => Sys2Proof.Machine.execRedAnd p at' dw a b disp s
  | .redOr p at' dw a b disp => Sys2Proof.Machine.execRedOr p at' dw a b disp s
  | .redXor p at' dw a b disp => Sys2Proof.Machine.execRedXor p at' dw a b disp s
  | .redMin p at' dw a b disp => Sys2Proof.Machine.execRedMin p at' dw a b disp s
  | .redMax p at' dw a b disp => Sys2Proof.Machine.execRedMax p at' dw a b disp s
  | .redMinu p at' dw a b disp => Sys2Proof.Machine.execRedMinu p at' dw a b disp s
  | .redMaxu p at' dw a b disp => Sys2Proof.Machine.execRedMaxu p at' dw a b disp s
  | .redFadd p at' a b disp => Sys2Proof.Machine.execRedFadd p at' a b disp s
  | .reductionPerform id => Sys2Proof.Machine.execReductionPerform id s
  | .wqWait p at' d a b disp => Sys2Proof.Machine.execWqWait p at' d a b disp s
  | .wqWake p at' d a b c disp => Sys2Proof.Machine.execWqWake p at' d a b c disp s
  | .sigSend p a b => Sys2Proof.Machine.execSigSend p a b s
  | .sigTake p poll d => Sys2Proof.Machine.execSigTake p poll d s
  | .signalDelivery vt slot => Sys2Proof.Machine.execSignalDelivery vt slot s
  | .allAsleepTrap part => Sys2Proof.Machine.execAllAsleepTrap part s
  | .permitAudit link found tileA tileB parts => Sys2Proof.Machine.execPermitAudit link found tileA tileB parts s
  | .cont yield lives livev r0 r1 r2 r3 => Sys2Proof.Machine.execCont yield lives livev r0 r1 r2 r3 s
  | .saveComplete gang => Sys2Proof.Machine.execSaveComplete gang s
  | .spawn p d a b disp => Sys2Proof.Machine.execSpawn p d a b disp s
  | .budAdd p mem d a => Sys2Proof.Machine.execBudAdd p mem d a s
  | .budGive p mem d a b => Sys2Proof.Machine.execBudGive p mem d a b s
  | .budgetFault vt slot => Sys2Proof.Machine.execBudgetFault vt slot s
  | .graceDecay vt slot => Sys2Proof.Machine.execGraceDecay vt slot s
  | .leaseReq p l a => Sys2Proof.Machine.execLeaseReq p l a s
  | .leaseReqImm p l dur => Sys2Proof.Machine.execLeaseReqImm p l dur s
  | .leaseEnd p => Sys2Proof.Machine.execLeaseEnd p s
  | .leaseTest p d => Sys2Proof.Machine.execLeaseTest p d s
  | .leasePeriodEnd gang => Sys2Proof.Machine.execLeasePeriodEnd gang s
  | .zoneHardLimit zone melt => Sys2Proof.Machine.execZoneHardLimit zone melt s
  | .zoneRefreezeChange zone melt => Sys2Proof.Machine.execZoneRefreezeChange zone melt s
  | .trap p a code => Sys2Proof.Machine.execTrap p a code s
  | .supResume p d a b => Sys2Proof.Machine.execSupResume p d a b s
  | .supRestart p alt d a b => Sys2Proof.Machine.execSupRestart p alt d a b s
  | .supAbort p gang d a b detail => Sys2Proof.Machine.execSupAbort p gang d a b detail s
  | .heldPacketWrite vt slot => Sys2Proof.Machine.execHeldPacketWrite vt slot s
  | .watchdogTick gang => Sys2Proof.Machine.execWatchdogTick gang s
  | .watchdogExpiry gang => Sys2Proof.Machine.execWatchdogExpiry gang s
  | .scrRun p full d a b => Sys2Proof.Machine.execScrRun p full d a b s
  | .scrStat p d a => Sys2Proof.Machine.execScrStat p d a s
  | .scrTestComplete id failMask margMask => Sys2Proof.Machine.execScrTestComplete id failMask margMask s
  | .testLeaveComplete vt => Sys2Proof.Machine.execTestLeaveComplete vt s
  | .infieldTestComplete ptile failCores marg logicFail => Sys2Proof.Machine.execInfieldTestComplete ptile failCores marg logicFail s
  | .routineRotation => Sys2Proof.Machine.execRoutineRotation s
  | .forcedRotation vt => Sys2Proof.Machine.execForcedRotation vt s
  | .rotationQuiescent vt => Sys2Proof.Machine.execRotationQuiescent vt s
  | .drainTimeout vt => Sys2Proof.Machine.execDrainTimeout vt s
  | .stateCopyComplete vt => Sys2Proof.Machine.execStateCopyComplete vt s
  | .stateCopyError vt atTarget => Sys2Proof.Machine.execStateCopyError vt atTarget s
  | .tableUpdateCommit vt => Sys2Proof.Machine.execTableUpdateCommit vt s
  | .tableUpdateReject vt ptile => Sys2Proof.Machine.execTableUpdateReject vt ptile s
  | .replay vt counter => Sys2Proof.Machine.execReplay vt counter s
  | .journalFold vt slot => Sys2Proof.Machine.execJournalFold vt slot s
  | .retentionEntry ptile => Sys2Proof.Machine.execRetentionEntry ptile s
  | .ageingDecay => Sys2Proof.Machine.execAgeingDecay s
  | .ageingSnapshot => Sys2Proof.Machine.execAgeingSnapshot s
  | .doorbell qid val => Sys2Proof.Machine.execDoorbell qid val s
  | .queueCreate src q0 arg1 => Sys2Proof.Machine.execQueueCreate src q0 arg1 s
  | .queueDestroy src qid => Sys2Proof.Machine.execQueueDestroy src qid s
  | .queueRestart src qid => Sys2Proof.Machine.execQueueRestart src qid s
  | .queueCredit src qid arg1 arg2 => Sys2Proof.Machine.execQueueCredit src qid arg1 arg2 s
  | .queueClose qid => Sys2Proof.Machine.execQueueClose qid s
  | .recordRead qid => Sys2Proof.Machine.execRecordRead qid s
  | .seqRetry qid => Sys2Proof.Machine.execSeqRetry qid s
  | .dependenceReread qid => Sys2Proof.Machine.execDependenceReread qid s
  | .selectionRound => Sys2Proof.Machine.execSelectionRound s
  | .recordReserving qid => Sys2Proof.Machine.execRecordReserving qid s
  | .bind vt rec bindRec => Sys2Proof.Machine.execBind vt rec bindRec s
  | .release vt bindRec => Sys2Proof.Machine.execRelease vt bindRec s
  | .preempt vt bindRec => Sys2Proof.Machine.execPreempt vt bindRec s
  | .scrubComplete vt slot => Sys2Proof.Machine.execScrubComplete vt slot s
  | .gangRetire gang => Sys2Proof.Machine.execGangRetire gang s
  | .translationInvalidate => Sys2Proof.Machine.execTranslationInvalidate s
  | .partitionDescriptorWrite part val => Sys2Proof.Machine.execPartitionDescriptorWrite part val s
  | .savePoolWrite part size val => Sys2Proof.Machine.execSavePoolWrite part size val s
  | .faultRingWrite part size val => Sys2Proof.Machine.execFaultRingWrite part size val s
  | .frheadWrite part val => Sys2Proof.Machine.execFrheadWrite part val s
  | .drain part => Sys2Proof.Machine.execDrain part s
  | .reset part => Sys2Proof.Machine.execReset part s
  | .undrain part => Sys2Proof.Machine.execUndrain part s
  | .debugWindowWrite src off width val => Sys2Proof.Machine.execDebugWindowWrite src off width val s
  | .sepiaClr vt slot => Sys2Proof.Machine.execSepiaClr vt slot s
  | .eventStreamWrite part which val => Sys2Proof.Machine.execEventStreamWrite part which val s
  | .evheadWrite part val => Sys2Proof.Machine.execEvheadWrite part val s
  | .pcSample vt slot => Sys2Proof.Machine.execPcSample vt slot s
  | .registerWrite src off width val => Sys2Proof.Machine.execRegisterWrite src off width val s
  | .bar2Read addr width => Sys2Proof.Machine.execBar2Read addr width s
  | .bar2Write addr data => Sys2Proof.Machine.execBar2Write addr data s
  | .portLinkUp port peer => Sys2Proof.Machine.execPortLinkUp port peer s
  | .portRingEnable port ring val => Sys2Proof.Machine.execPortRingEnable port ring val s
  | .portDoorbell port ring val => Sys2Proof.Machine.execPortDoorbell port ring val s
  | .descriptorStart port ring => Sys2Proof.Machine.execDescriptorStart port ring s
  | .descriptorComplete port ring ok => Sys2Proof.Machine.execDescriptorComplete port ring ok s
  | .inboundWrite port spart rpart dst data rdone => Sys2Proof.Machine.execInboundWrite port spart rpart dst data rdone s
  | .firmwareChunkWrite => Sys2Proof.Machine.execFirmwareChunkWrite s
  | .firmwareCommit storeOk => Sys2Proof.Machine.execFirmwareCommit storeOk s
  | .attestation => Sys2Proof.Machine.execAttestation s
  | .attestationReportReady => Sys2Proof.Machine.execAttestationReportReady s
  | .hbmTempRead stack temp => Sys2Proof.Machine.execHbmTempRead stack temp s
  | .sliceFailure edge pc => Sys2Proof.Machine.execSliceFailure edge pc s
  | .copyCommandStart vt => Sys2Proof.Machine.execCopyCommandStart vt s
  | .patrolScrub vt slot => Sys2Proof.Machine.execPatrolScrub vt slot s
  | .softError t => Sys2Proof.Machine.execSoftError t s
  | .portLinkDown port => Sys2Proof.Machine.execPortLinkDown port s

end Sys2Proof.Machine
end

