-- ==== Sys2Proof/Machine/Schedule.lean ====
section
/-! DEFINITION. What moves next: a thread's scalar stream, its sequencer, an event or time; the order that the machine takes where nothing outside fixes one; and a program put in place (07 R124-R126, R144, R147, log entries 2 and 13). -/

namespace Sys2Proof.Machine

/-- The state at a thread's issue: a clk has passed, the thread is the one whose instruction runs, and its fetch port request stands (07 R124). -/
def State.atIssue (s : State) (vt slot : Nat) (body : Bool) : State :=
  let s : State := { s.tick 1 with cur := { vt := vt, slot := slot, body := body } }
  if body then s else s.modThread vt slot fun t => t.request s.clk

/-- A fault met where an instruction would have been: it precedes decoding, and what precedes every instruction precedes it (15 R292, 11 R240). -/
def State.issueFault (s : State) (f : FaultInfo) : Out := s.issue (Form.beside 8 Pred.always) fun _ _ => .fault f

/-- What a thread's next scalar instruction is: its bundle has not come, its fetch met a fault (07 R126), or what the bundle holds there (06 R103, R113). -/
inductive Fetched
  | waits
  | fault (f : FaultInfo)
  | ok (i : Instr)

/-- What a decoded place gives (06 R113, 16 R322). -/
def Fetched.ofDecoded (t : Thread) : Decoded → Fetched
  | .fetchSplit => .fault { cause := .fetchSplit, addr := t.pc }
  | .illegal _ _ => .fault { cause := .illegal, addr := (t.wordsAt t.pc).1, info := (t.wordsAt t.pc).2 }
  | .ok i _ => .ok i

/-- The next scalar instruction of a thread. Where its address breaks 06 R103 and its bundle does not translate, the translation fault is taken (log entry 35). -/
noncomputable def Thread.fetched (t : Thread) : Fetched :=
  match t.buffered (bundleOf t.pc) with
  | none => .waits
  | some b =>
    match b.fault with
    | some f => .fault { f with addr := t.pc }
    | none => Fetched.ofDecoded t (decodeAt b.bytes (t.pc.toNat % 32))

/-- The turn of a thread's scalar stream: its instruction is run, or its fault taken, or it waits for its bundle. -/
noncomputable def State.issueTurn (s : State) (vt slot : Nat) : Out :=
  let s1 := s.atIssue vt slot false
  if !s.issues vt slot then .next (s.tick 1)
  else
    match (s1.thread vt slot).fetched with
    | .waits => .next s1
    | .fault f => s1.issueFault f
    | .ok i => exec i s1

/-- The sequencer issues its next instruction. -/
def State.bodyIssue (s : State) : Out :=
  match (s.thread s.cur.vt s.cur.slot).bodyInstr with
  | none => .next s
  | some b => exec b.ins s

/-- The turn of a thread's sequencer: its next instruction, behind the stream test of an iteration that begins (07 R144, R147). The test takes no turn of its own; an EOS ends the run and issues nothing. -/
def State.bodyTurn (s : State) (vt slot : Nat) : Out :=
  let s1 := s.atIssue vt slot true
  if !s.issues vt slot then .next (s.tick 1)
  else
    match (s1.thread vt slot).seqTest with
    | .wait => .next s1.bodyWait
    | .ended t' => .next (s1.modCur fun _ => t')
    | .passed t' => (s1.modCur fun _ => t').bodyIssue
    | .ready => s1.bodyIssue

/-! The issue ports of a core (08 R150-R153). -/

/-- The bundle of a thread's next instruction has come (07 R124, R126). -/
def Thread.hasHead (t : Thread) : Bool := ((t.buffered (bundleOf t.pc)).filter fun b => !(b.ahead && b.fault.isSome)).isSome

/-- A head of a thread: of its scalar stream, or of its sequencer. -/
abbrev Head := Thread × Bool

/-- The port that a head wants: `true` is the vector port. -/
def Head.vector (h : Head) : Bool := h.2 || (h.1.headOpc.any vectorOpc)

/-- The age stamp of a head (08 R152). -/
def Head.stamp (h : Head) : Nat := if h.2 then h.1.seqClk else h.1.headClk

/-- The sequencer's next instruction is behind an EOS, which ends its run: it has no head (07 R147). -/
def Thread.atEos (t : Thread) : Bool :=
  match t.seqTest with
  | .ended _ => true
  | _ => false

/-- A thread's sequencer has a head: it runs and is not at its end. -/
def Thread.hasBody (t : Thread) : Bool := t.rep.isSome && !t.atEos

/-- The heads of a core that want a port (08 R151). -/
def State.heads (s : State) (vt cs : Nat) (vec : Bool) : List Head :=
  ((s.threads.filter fun t => t.vt == vt && t.cslot == cs && s.issues t.vt t.slot).flatMap fun t =>
    (if t.hasHead then [(t, false)] else []) ++ if t.hasBody then [(t, true)] else []).filter fun h => Head.vector h == vec

/-- Where a sequencer stands: its iteration and the place in its body. -/
def Thread.seqAt (t : Thread) : Option (Nat × Nat) := t.rep.map fun r => (r.iter, r.idx)

/-- Between these states of a thread its head has issued and is the head no more: the thread has left RUN, its sequencer has moved past an instruction, or its instruction has retired. -/
def Thread.leftHead (t u : Thread) (body : Bool) : Bool :=
  u.st != .run || (if body then u.seqAt != t.seqAt else u.wait == .none)

/-- Between these states a head has issued: it is the head no more, or it sleeps from now on with an effect of its own done, an arrival at a `step` or a place in a waiter queue. An instruction that only waits, asleep or not, has not issued: it was not ready (08 R151, 13 R262). -/
def State.issuedHead (s s' : State) (vt slot : Nat) (body : Bool) : Bool :=
  let t := s.thread vt slot
  let u := s'.thread vt slot
  s.issues vt slot && (if body then t.hasBody else t.hasHead) &&
    (t.leftHead u body || u.stepArr != t.stepArr || (u.node.isSome && t.node.isNone))

/-- What an issue leaves in its thread: the clk of the issue on its port and, where the head is the head no more, the stamp of the next one; a sequencer that begins is stamped with it. -/
def Thread.stamped (t : Thread) (body vec begins left : Bool) (clk : Nat) : Thread :=
  { t with
    headClk := if left && !body then clk + 1 else t.headClk
    seqClk := if (left && body) || begins then clk + 1 else t.seqClk
    scalClk := if vec then t.scalClk else clk
    vecClk := if vec then clk else t.vecClk }

/-- What follows the outcome of a head's turn from `s`: the stamps of an issue (08 R152), and the fetch request that it makes where a place of the buffer is free or it took a branch (07 R124). -/
def State.noteIssue (s : State) (vt slot : Nat) (body : Bool) (o : Out) : Out :=
  match o with
  | .next s' =>
    let t := s.thread vt slot
    .next (if s.issuedHead s' vt slot body then
        s'.modThread vt slot fun u =>
          let u := u.stamped body (Head.vector (t, body)) (t.rep.isNone && u.rep.isSome) (t.leftHead u body) s'.clk
          if u.st = .run then u.request s'.clk else u
      else s')
  | .fault f => .fault f
  | .refused r => .refused r

/-- The turn of a head, once the lanes that precede it have landed: its issue is stamped, and with it what becomes a head by it (08 R152). -/
noncomputable def State.headTurn (s : State) (vt slot : Nat) (body : Bool) : Out :=
  let s := s.landFor vt slot body
  s.noteIssue vt slot body (if body then s.bodyTurn vt slot else s.issueTurn vt slot)

/-- The head is ready: it would issue now (08 R151). -/
noncomputable def State.headReady (s : State) (h : Head) : Bool :=
  let s := s.landFor h.1.vt h.1.slot h.2
  match if h.2 then s.bodyTurn h.1.vt h.1.slot else s.issueTurn h.1.vt h.1.slot with
  | .next s' => s.issuedHead s' h.1.vt h.1.slot h.2
  | _ => false

/-- The thread position that last issued on a port of a core; none has yet: the order starts at position 0 (08 R152). -/
def State.lastOn (s : State) (vt cs : Nat) (vec : Bool) : Nat :=
  let clk (t : Thread) : Nat := if vec then t.vecClk else t.scalClk
  ((s.threads.filter fun t => t.vt == vt && t.cslot == cs).foldl (fun best t => if clk t > best.1 then (clk t, t.thr) else best) (0, 3)).2

/-- The head whose turn it is (08 R151, R152): of the ready heads the one with the smallest stamp, the first of them in rotating order. A head named that is not ready takes its own turn, which issues nothing and keeps no other from its port: its wait goes on, with the work that it starts (log entry 62). -/
noncomputable def State.portPick (s : State) (vt slot : Nat) (body : Bool) : Nat × Bool :=
  let cs := slot / 4
  let vec := Head.vector (s.thread vt slot, body)
  match s.heads vt cs vec with
  | [] => (slot, body)
  | [_] => (slot, body)
  | l =>
    let last := s.lastOn vt cs vec
    let key (h : Head) : Nat := 4 * Head.stamp h + (h.1.thr + 3 - last) % 4
    let ready := l.filter s.headReady
    if !(ready.any fun h => h.1.slot == slot && h.2 == body) then (slot, body)
    else
      match ready.foldl (fun (best : Option Head) h =>
          match best with
          | none => some h
          | some b => if key h < key b then some h else some b) none with
      | none => (slot, body)
      | some h => (h.1.slot, h.2)

/-- The turn of the port that a thread's head wants; the end of a run at an EOS wants no port. -/
noncomputable def State.portTurn (s : State) (vt slot : Nat) (body : Bool) : Out :=
  let h := if body && (s.thread vt slot).atEos then (slot, body) else s.portPick vt slot body
  s.headTurn vt h.1 h.2

/-- A turn of what is no thread's head, on a state in which every lane has landed. An instruction row is no event: it runs only from its thread. -/
noncomputable def State.otherTurn (s : State) : Turn → Out
  | .issue _ _ => .next s
  | .body _ _ => .next s
  | .lane _ _ => .next s
  | .event i => if i.enc.isNone then exec i s else .next s
  | .elapse n => .next (s.tick n)
  | .saved vt slot => .next (s.writeRecord vt slot)
  | .cache vt asid va => .next (s.cachePath vt asid va)
  | .uncache vt asid va => .next (s.modVTile vt fun v => { v with tlb := v.tlb.filter fun e => !(e.asid == asid && e.meets va 1) })
  | .window => .next s.windowTurn
  | .linkRetry port on => .next (if port < 12 then s.modPort port fun p => { p with retry := on && p.up } else s)
  | .ballast => .next s.hkEnergy
  | .boot => .next s.bootPhase
  | .command => .next s.commandTurn
  | .storeFault on => .next { s with fw := { s.fw with storeBad := on } }
  | .evict vt pa => .next (s.modVTile vt fun v => { v with icache := v.icache.filter fun l => l.pa != pa })

/-- A turn: of a thread's head, of time or of a lane, while lanes of vector accesses may be on their way (09 R188), or any other. -/
noncomputable def State.turn (s : State) (t : Turn) : Out :=
  match t with
  | .issue vt slot => s.portTurn vt slot false
  | .body vt slot => s.portTurn vt slot true
  | .elapse n => .next (s.tick n)
  | .lane vt slot => .next (s.landLane vt slot)
  | t => s.landAll.otherTurn t

/-! The order the machine takes by itself (log entry 2). -/

/-- The events of a core slot. -/
noncomputable def Core.events (c : Core) : List Instr :=
  [.mxCommandComplete c.vt c.slot, .mxCommandStart c.vt c.slot, .signalDelivery c.vt c.slot] ++
    (c.stash.filter fun e => e.st == .filling).map (fun e => .stashFillComplete c.vt c.slot e.num) ++
    (c.stash.filter fun e => e.st == .draining).map fun e => .stashWritebackComplete c.vt c.slot e.num

/-- The events of a thread slot. -/
noncomputable def Thread.events (t : Thread) : List Instr :=
  if t.st = .free then []
  else
    [.scrubComplete t.vt t.slot, .asyncFaultFreeze t.vt t.slot, .budgetFault t.vt t.slot, .heldPacketWrite t.vt t.slot,
     .tagWaitRetest t.vt t.slot, .realignResume t.vt t.slot, .graceDecay t.vt t.slot]

/-- The events of a virtual tile. -/
noncomputable def VTile.events (v : VTile) : List Instr :=
  [.fetchRequestServe v.vt] ++ v.copies.map (fun c => .copyComplete v.vt c.id) ++ [.copyCommandStart v.vt] ++
    (List.range 16).map (fun b => .barrierPhaseComplete v.vt b) ++
    [.stateCopyComplete v.vt, .tableUpdateCommit v.vt, .drainTimeout v.vt, .rotationQuiescent v.vt, .testLeaveComplete v.vt,
     .replay v.vt 0, .replay v.vt 2, .forcedRotation v.vt, .checkpointCommit v.vt]

/-- The events of a gang. -/
noncomputable def Gang.events (g : Gang) : List Instr :=
  g.tiles.map (fun k => .dataMovementPhase .tile g.id k.vt) ++ [.dataMovementPhase .dom g.id 0, .dataMovementPhase .part g.id 0] ++
    g.tiles.map (fun k => .phaseRelease .tile g.id k.vt) ++ [.phaseRelease .dom g.id 0, .phaseRelease .part g.id 0,
      .saveComplete g.id, .gangRetire g.id, .leasePeriodEnd g.id, .watchdogTick g.id, .watchdogExpiry g.id]

/-- The events of a queue. -/
noncomputable def Queue.events (q : Queue) : List Instr :=
  [.queueClose q.qid, .recordRead q.qid, .seqRetry q.qid, .dependenceReread q.qid, .recordReserving q.qid]

/-- The events that the machine takes by itself: those that no outside choice enters. -/
noncomputable def State.ownEvents (s : State) : List Instr :=
  s.threads.flatMap Thread.events ++ s.cores.flatMap Core.events ++ s.vtiles.flatMap VTile.events ++
    s.memOps.map (fun m => if m.op = 32 then .wdAskComplete m.id else .reductionPerform m.id) ++ s.gangs.flatMap Gang.events ++
    s.ckpts.flatMap (fun (k : Ckpt) => k.cores.map fun c => .journalFold k.vt c.slot) ++ s.queues.flatMap Queue.events ++ [.selectionRound, .translationInvalidate] ++ s.parts.map (fun p => .allAsleepTrap p.num) ++ s.updates.map (fun u => .tableUpdateCommit u.change.number) ++ [.ageingDecay, .ageingSnapshot]

/-- What an event makes of the state, where it changes it. -/
def State.moved (s : State) (i : Instr) : Option State :=
  match exec i s with
  | .next s' => if s' = s then none else some s'
  | .fault _ => none
  | .refused _ => none

/-- The threads' turns: each issuing thread's scalar stream, its sequencer where one runs, the record of a SAVING thread, the host's held window writes, and the queue command that runs. -/
def State.ownTurns (s : State) : List Turn :=
  ((s.threads.filter fun t => s.issues t.vt t.slot).flatMap fun t =>
    if t.rep.isSome then [.body t.vt t.slot, .issue t.vt t.slot] else [.issue t.vt t.slot]) ++
    ((s.threads.filter fun t => t.st == .saving).map fun t => .saved t.vt t.slot) ++ (if s.windowHeld.isEmpty then [] else [.window]) ++ if s.qcmd.busy then [.command] else []

/-- The threads' ports take turns by the clk; what a port issues is its own choice (08 R152). -/
def State.threadTurn (s : State) : Option Turn :=
  let l := s.ownTurns
  l[s.clk / 2 % l.length]?

/-- Where nothing outside says what moves: a device that is not up goes through the phases of its reset (19 R391); else threads and events go first by turns, and a clk passes. -/
noncomputable def State.ownTurn (s : State) : Out :=
  if s.phase < 4 then .next s.bootPhase
  else
    let late := (s.tick 1).landAll
    if s.clk % 2 = 0 then
      match s.threadTurn with
      | some t => s.turn t
      | none => .next ((s.ownEvents.findSome? late.moved).getD late)
    else
      match s.ownEvents.findSome? late.moved with
      | some s' => .next s'
      | none => match s.threadTurn with
        | some t => s.turn t
        | none => .next late

/-! A program put in place (log entry 13). -/

/-- The thread that the next step runs: the one whose turn it is, or slot 0 of virtual tile 0. -/
def State.fetchPlace (s : State) : Nat × Nat :=
  match s.agenda with
  | .issue vt slot :: _ => (vt, slot)
  | _ => (0, 0)

/-- A task record of one thread on one core, with every capability and ample budgets (04 R66). -/
def placedTask : List Word :=
  [0x10000, 0, 0, 0, 0, 0, 0, 0, w64 (2 ^ 40), w64 (2 ^ 40), w64 (1 + 2 ^ 16 + 2 ^ 21 + 2 ^ 32 * 4096 + 2 ^ 56 * 0xF),
   w64 (448 + 8 * 2 ^ 10), 0, 1, 0, 0]

/-- The bind record of that task on virtual tile `vt`. -/
def placedTile (vt slot : Nat) : GangTile :=
  { vt := vt, vtidx := 0, cmask := [slot / 4], tmask := [slot % 4], barid := 0, gslot := 0,
    amask := List.replicate 4 [0, 1, 2, 3, 4, 5, 6, 7], lsb := [0, 0, 0, 0], raw := [] }

/-- The gang of that task. -/
def placedGang (vt slot : Nat) : Gang :=
  { id := 1, domid := 0, qid := 0, part := 0, asid := 0, pvtbase := vt, pvtcnt := 1, vtbase := vt, tiles := [placedTile vt slot],
    task := placedTask, src := { task := placedTask, parent := none, bics := [], bmcs := [], debitI := 0, debitM := 0, resv := none, leftI := 0, leftM := 0 },
    released := true, clkStart := 0, relSeq := 0, lease := Lease.fresh, wdtLeft := 0, wdtClk := 0, wdtStop := false,
    yielding := false, reason := 0, resumes := 0, abortSt := none, moved := [], replayed := false, mxBusy := 0, energy := 0,
    doneBic := 0, doneBmc := 0, runBic := 0, runBmc := 0, wbLost := false, saved := [] }

/-- The virtual tile that carries it. -/
def placedVTile (vt : Nat) : VTile :=
  { vt := vt, ptile := 0, slots := (List.range 16).map some, ranks := (List.range 16).map some, backed := true, amber := false,
    bars := [], copies := [], tlb := [], icache := [] }

/-- The physical tile below. -/
def placedPTile : PTile :=
  { num := 0, fusebad := false, cores := List.range 16, service := .white, ageing := Ageing.zero, screens := [], lastTest := 0,
    passed := false, votes := true, retained := false, attempts := 0, notBefore := 0, greyClk := 0, routine := false }

/-- The thread, at its code. -/
def placedThread (vt slot : Nat) : Thread :=
  { Thread.fresh vt slot with st := .run, gang := 1, pc := 0x10000, bic := 2 ^ 40, bmc := 2 ^ 40, grace := 4096 }

/-- The page tables of that task's address space: the first 1 GiB is one leaf, readable, writable and executable (11 R222). -/
def placedTables (m : Memory) : Memory := (m.write 0x1000 8 0x2001).write 0x2000 8 0x27

/-- A device that runs one thread, where the state has none at that place. -/
def State.prepared (s : State) (vt slot : Nat) : State :=
  if s.issues vt slot && (s.gangOf (s.thread vt slot)).isSome then s
  else
    ({ s with
      phase := 4, nvtile := max s.nvtile (vt + 1), nrank := max s.nrank 16
      tiles := upsert (fun p => p.num == 0) placedPTile (fun _ => placedPTile) s.tiles
      vtiles := upsert (fun v => v.vt == vt) (placedVTile vt) (fun _ => placedVTile vt) s.vtiles
      gangs := upsert (fun g => g.id == 1) (placedGang vt slot) (fun _ => placedGang vt slot) s.gangs
      gangSeq := 2
      roots := upsert (fun r => r.1 == 0) (0, 0) (fun _ => (0, 0x1001)) s.roots
      hbm := placedTables s.hbm } : State).modPart 0 (fun p => { p with valid := true, pvtbase := vt, pvtcnt := 1 })
      |>.modQueue 0 (fun q => if q.state = .disabled then { q with state := .opened, inflight := 1 } else q)
      |>.putThread (placedThread vt slot)

/-- These bytes are the code of a thread's next instruction: in its fetch buffer and, where its address translates, in memory; the PC goes to the start of its bundle. -/
def State.placeCode (s : State) (vt slot : Nat) (bs : List Byte) : State :=
  let t := s.thread vt slot
  let a := bundleOf t.pc
  let s := match s.translate (s.spaceOf t) a needFetch with
    | .ok m => s.putHbm m.pa bs
    | .err _ => s
  s.modThread vt slot fun t =>
    { t with pc := w64 a, fbuf := { addr := a, bytes := bs, fault := none, ahead := false } :: t.fbuf.filter fun b => b.addr != a }

/-- The state in which the next step runs the instruction that these bytes hold. -/
def State.placed (s : State) (bs : List Byte) : State :=
  let p := s.fetchPlace
  let s := (s.prepared p.1 p.2).placeCode p.1 p.2 bs
  match s.agenda with
  | .issue _ _ :: _ => s
  | _ => { s with agenda := .issue p.1 p.2 :: s.agenda }

end Sys2Proof.Machine
end

