-- ==== Sys2Proof/Machine/Step.lean ====
section
/-! DEFINITION. The step: the agenda's first turn, or the turn the machine takes by itself; and an instruction put where the next step fetches. -/

namespace Sys2Proof.Machine

/-- One step of the panel. -/
noncomputable def step (s : State) : Host.Outcome State Fault Refusal :=
  match s.agenda with
  | [] => s.ownTurn
  | t :: r => ({ s with agenda := r } : State).turn t

/-- `s` with the instruction whose bits are `w` stored where `step` fetches its next instruction (log entry 13). -/
def State.withFetchWord (s : State) (nbits w : Nat) : State := s.placed (tableBytes nbits w)

end Sys2Proof.Machine
end

