-- ==== Sys2Proof/Safety.lean ====
section
/-! DEFINITION. What claims are stated in: when an instruction is issued and carried out, what its retirement, its transfer, its wait and its fault make of the state, the frame of an instruction that changes only its thread, and what counts as a safe run. -/

namespace Sys2Proof.Machine

/-- An instruction of form `f` is issued and carried out: `t` is the thread behind `cur`, it is in RUN, nothing that precedes the instruction stands against it (15 R292, 11 R240), no running sequencer that it would wait for (07 R148), it has the capability it needs (06 R113), and a predicate that rules the whole instruction is true (06 R109). -/
structure State.Issues (s : State) (t : Thread) (f : Form) : Prop where
  here  : s.curThread? = some t
  run   : t.st = .run
  calm  : t.pend = true → f.wins = true
  quiet : t.asyncF = none
  free  : s.cur.body = false → t.rep.isSome = true → f.free = true
  able  : ∀ c, f.cap = some c → s.hasCap t c = true
  pred  : f.lane = false → (t.predMask f.pred).getLsbD 0 = true

/-- The capability that an OPC and FN need (04 R67): matrix screening and the core test SCREEN, `bud.add` TOPUP, `lease.req` SPRINT, the supervisor's instructions SUPERVISE. -/
def needsCap (opc fn : Nat) : Option Nat :=
  if opc = 0x98 ∨ opc = 0xDE then some 3
  else if opc = 0xDA ∧ fn = 0 then some 0
  else if opc = 0xDB ∧ fn = 0 then some 1
  else if opc = 0xDD then some 2
  else none

/-- The predicate registers that a scalar row of OPC 0x20-0x2C has as operands (08 R157). -/
def predOperands (f : Fields) : List (BitVec 6) :=
  match f.opc.toNat, f.fn.toNat with
  | 0x26, 0 => [f.d]
  | 0x26, 1 => [f.d]
  | 0x27, 0 => [f.c]
  | 0x2A, 0 => [f.d, f.a, f.b]
  | 0x2A, 1 => [f.d, f.a, f.b]
  | 0x2A, 2 => [f.d, f.a, f.b]
  | 0x2A, 3 => [f.d, f.a]
  | 0x2A, 4 => [f.d, f.a]
  | 0x2A, 5 => [f.d]
  | 0x2A, 6 => [f.a]
  | _, _ => []

/-- The row issues beside a running sequencer (07 R148). -/
def issuesBeside (f : Fields) : Bool :=
  let opc := f.opc.toNat
  [0, 1, 2, 3, 5, 6, 8, 0xA8, 0xA9].contains opc ||
    (0x20 ≤ opc && opc ≤ 0x2C && !(opc == 0x2B && f.fn != 0) && f.pr == 0 && (predOperands f).all fun r => r == 0)

/-- The form of an instruction row, read off its encoding: its length (06 R102), its predicate, whether that works lane by lane (06 R109), the capability it needs (04 R67), whether it issues beside a running sequencer (07 R148), and whether it goes before a pending budget fault: `halt` and `cont` (15 R292). -/
def formOf (i : Instr) : Form :=
  match i.enc with
  | none => Form.blocked 0 Pred.always
  | some w =>
    let opc := w.f.opc.toNat
    { len := 4 * (encode i).length
      pred := { reg := ⟨w.f.pr.toNat, w.f.pr.isLt⟩, neg := w.f.pn == 1 }
      lane := 0x50 ≤ opc && opc ≤ 0x6F
      cap := needsCap opc w.f.fn.toNat
      free := issuesBeside w.f
      wins := opc == 0x04 || opc == 0xD8 }

/-- The outcome of an instruction that retires: its own effects made `s'` of the state, `u` units and `b` bytes are charged, and the thread goes on behind it. -/
def State.completes (s : State) (t : Thread) (f : Form) (s' : State) (u b : Nat) : Out :=
  .next (s.finish f (t.issuePc s.cur.body) (.done s' u b))

/-- The outcome of an instruction that passes control to `a`. -/
def State.jumps (s : State) (t : Thread) (f : Form) (s' : State) (a : Word) (u : Nat) : Out :=
  .next (s.finish f (t.issuePc s.cur.body) (.jump s' a u))

/-- The outcome of an instruction that waits in the state `s'`. -/
def State.waits (s : State) (t : Thread) (f : Form) (s' : State) (w : WaitKind) : Out :=
  .next (s.finish f (t.issuePc s.cur.body) (.wait s' w))

/-- The outcome of an instruction that faults: its thread freezes and a packet is formed. -/
def State.faults (s : State) (t : Thread) (f : Form) (i : FaultInfo) : Out :=
  .next (s.finish f (t.issuePc s.cur.body) (.fault i))

/-- The outcome of a scalar instruction that writes `v` to `d`, ORs the flags `fl` and is charged one unit. -/
def State.writesS (s : State) (t : Thread) (f : Form) (d : SReg) (v : Word) (fl : FFlags) : Out :=
  s.completes t f (s.modCur fun x => (x.setS d v).orFlags fl) 1 0

/-- The outcome of an instruction that writes `v` to the predicate register `d` and is charged one unit. -/
def State.writesP (s : State) (t : Thread) (f : Form) (d : PReg) (v : BitVec 32) : Out :=
  s.completes t f (s.modCur fun x => x.setP d v) 1 0

/-- The outcome of a vector instruction: each active lane of `d` gets `g`, the flags `fl` are ORed, `u` units are charged and one issue is counted (19 R383). -/
def State.writesV (s : State) (t : Thread) (f : Form) (d : VReg) (g : Fin 32 → Lane) (fl : FFlags) (u : Nat) : Out :=
  s.completes t f
    ((s.modCur fun x => (x.setV s.cur.body d (t.predMask f.pred) g).orFlags fl).count (s.partNum t) 3 1) u 0

/-- `saturate(x, lo, hi)` of 00 R10. -/
def saturate (lo hi x : Int) : Int := max lo (min hi x)

/-- SATURATE where the clamp acts. -/
def satFlag (lo hi x : Int) : FFlags := if lo ≤ x ∧ x ≤ hi then 0 else flagSaturate

/-- The result of `add`, `sub` and `mul` in each mode, as the table of 08 R158 gives it: `f` is the exact operation. -/
def aluResult (m : AluMode) (f : Int → Int → Int) (a b : Word) : Word × FFlags :=
  let s := f a.toInt b.toInt
  let u := f a.toNat b.toNat
  let s32 := f (a.setWidth 32).toInt (b.setWidth 32).toInt
  let u32 := f (a.setWidth 32).toNat (b.setWidth 32).toNat
  match m with
  | .wrap => (BitVec.ofInt 64 s, 0)
  | .w => ((BitVec.ofInt 32 s32).signExtend 64, 0)
  | .ss => (BitVec.ofInt 64 (saturate (-2 ^ 63) (2 ^ 63 - 1) s), satFlag (-2 ^ 63) (2 ^ 63 - 1) s)
  | .us => (BitVec.ofInt 64 (saturate 0 (2 ^ 64 - 1) u), satFlag 0 (2 ^ 64 - 1) u)
  | .wss => (BitVec.ofInt 64 (saturate (-2 ^ 31) (2 ^ 31 - 1) s32), satFlag (-2 ^ 31) (2 ^ 31 - 1) s32)
  | .wus => (BitVec.ofInt 64 (saturate 0 (2 ^ 32 - 1) u32), satFlag 0 (2 ^ 32 - 1) u32)

/-- An element of width `w` under a mode of 09 R178: the exact result wrapped, or saturated to the signed or the unsigned range. -/
def vecResult (w : Nat) (m : VMode) (x : Int) : BitVec w × FFlags :=
  match m with
  | .m0 => (BitVec.ofInt w x, 0)
  | .ss => (BitVec.ofInt w (saturate (-2 ^ (w - 1)) (2 ^ (w - 1) - 1) x), satFlag (-2 ^ (w - 1)) (2 ^ (w - 1) - 1) x)
  | .us => (BitVec.ofInt w (saturate 0 (2 ^ w - 1) x), satFlag 0 (2 ^ w - 1) x)

/-- A pattern read under a mode of 09 R178: unsigned in mode 10, else signed. -/
def vecRead (w : Nat) (m : VMode) (x : BitVec w) : Int := if m = .us then x.toNat else x.toInt

/-- `o` is a vector instruction that puts `r i k` into element `k` of width `w` of each active lane `i`, and raises the flags of the active lanes' elements (09 R175, R176). -/
def State.WritesElems (s : State) (t : Thread) (f : Form) (d : VReg) (w : Nat) (r : Fin 32 → Nat → BitVec w × FFlags) (o : Out) : Prop :=
  ∃ g fl, o = s.writesV t f d g fl 2 ∧
    (∀ i k, k < 32 / w → (g i).extractLsb' (w * k) w = (r i k).1) ∧
    (∀ n : Nat, fl.getLsbD n = true ↔
      ∃ (i : Fin 32) (k : Nat), (t.predMask f.pred).getLsbD i.val = true ∧ k < 32 / w ∧ (r i k).2.getLsbD n = true)

/-- `o` is a vector instruction that puts `r i` into each active lane `i`, raises the flags of the active lanes, and leaves `seed` as the generator's state (09 R176, 02 R41). -/
def State.WritesLanes (s : State) (t : Thread) (f : Form) (d : VReg) (r : Fin 32 → Lane × FFlags) (seed : Word) (o : Out) : Prop :=
  ∃ fl, o = s.completes t f
      ((s.modCur fun x => { (x.setV s.cur.body d (t.predMask f.pred) fun i => (r i).1).orFlags fl with seed := seed }).count
        (s.partNum t) 3 1) 2 0 ∧
    (∀ n : Nat, fl.getLsbD n = true ↔ ∃ i : Fin 32, (t.predMask f.pred).getLsbD i.val = true ∧ (r i).2.getLsbD n = true)

/-- `o` is a comparison that puts `r i` into bit `i` of `d` for each active lane `i` and leaves the other bits (09 R182). -/
def State.WritesMask (s : State) (t : Thread) (f : Form) (d : PReg) (r : Fin 32 → Bool × FFlags) (o : Out) : Prop :=
  ∃ (v : BitVec 32) (fl : FFlags),
    o = s.completes t f ((s.modCur fun x => (x.setP d v).orFlags fl).count (s.partNum t) 3 1) 2 0 ∧
    (∀ i : Fin 32, v.getLsbD i.val = if (t.predMask f.pred).getLsbD i.val then (r i).1 else (t.preg d).getLsbD i.val) ∧
    (∀ n : Nat, fl.getLsbD n = true ↔ ∃ i : Fin 32, (t.predMask f.pred).getLsbD i.val = true ∧ (r i).2.getLsbD n = true)

/-- An access of a thread that its core's local store lets through, errors apart (11 R218): aligned, inside the gang's allocations, every stash entry it meets READY, no page it may not write. -/
structure State.LsReach (s : State) (t : Thread) (x : LsAccess) : Prop where
  aligned  : x.width = 0 ∨ x.addr % x.width = 0
  inside   : s.reaches t.gang t.vt t.cslot x.addr x.bytes = true
  ready    : ∀ e ∈ (s.core t.vt t.cslot).stash, e.meets x.addr x.bytes = true → e.st = .ready
  writable : x.write = true → ∀ e ∈ (s.core t.vt t.cslot).stash, e.meets x.addr x.bytes = true →
    e.readOnlyPage x.addr x.bytes = none

/-- An access that passes every check of 11 R218: it reads no word in error. -/
structure State.LsFree (s : State) (t : Thread) (x : LsAccess) : Prop where
  reach : s.LsReach t x
  sound : x.write = false → ∀ w ∈ (s.core t.vt t.cslot).bad, ¬ (4 * w < x.addr + x.bytes ∧ x.addr < 4 * w + 4)

/-- A handle that a command may name: it is neither PENDING nor does it hold FAULT (11 R240). -/
def Thread.HandleFree (t : Thread) (h : Option HReg) : Prop :=
  ∀ k, h = some k → (∀ c b, t.h[k] ≠ .pending c b) ∧ ∀ v kind n, t.h[k] ≠ .complete .fault v kind n

/-- The state with a matrix command queued, its handle PENDING on it, and `n` draws taken from the generator under STOCH (10 R193-R195, 02 R43). -/
def State.mxQueued (s : State) (t : Thread) (h : Option HReg) (n : Nat) (c : MxCmd) : State :=
  (({ s with nextCmd := s.nextCmd + 1 } : State).modCore t.vt t.cslot fun k =>
      { k with mxq := k.mxq ++ [{ c with id := s.nextCmd }] }).modCur fun u =>
    let v := u.setH h (.pending s.nextCmd false)
    if c.mode = RM.code .stoch then { v with seed := advance n v.seed } else v

/-- `s'` differs from `s` only in the record of one thread slot and in the counters of partitions. -/
structure State.OnlyThread (s s' : State) (vt slot : Nat) : Prop where
  rest    : s' = { s with threads := s'.threads, parts := s'.parts }
  others  : ∀ v k, (v, k) ≠ (vt, slot) → s'.thread v k = s.thread v k
  parts   : ∀ n, { s'.part n with counters := [] } = { s.part n with counters := [] }
  hbm     : ∀ a, s'.hbm.byte a = s.hbm.byte a
  local'  : ∀ v c a, (s'.core v c).ls.byte a = (s.core v c).ls.byte a

/-- Every memory of the panel stands in its canonical form. -/
def State.memoryWf (s : State) : Bool :=
  s.hbm.wf && (s.cores.all fun c => c.ls.wf) && s.ckpts.all fun k => k.cores.all fun c => c.core.ls.wf

/-- A step stops: with a fault of the model or a refusal. -/
def Stops (o : Out) : Prop := ∀ s', o ≠ .next s'

/-- A run of `n` steps from a state stops nowhere. -/
def SafeFor (n : Nat) (s : State) : Prop := ∃ s', Sys2Proof.core.run n s = .next s'

end Sys2Proof.Machine
end

