-- ==== Sys2Proof/Certificates/Slice0/Obligations.lean ====
section
/-! DEFINITION. The statements for the provers: what the instructions and events of each chapter do, where they fault, what they leave unchanged, and what holds of every step. `Issues`, `completes`, `jumps`, `waits`, `faults`, `writesS`, `writesP`, `writesV` and `OnlyThread` are those of Safety.lean. -/

open Sys2Proof Sys2Proof.Machine


/-- 08 R158: `add`, `sub` and `mul` of registers and of immediates, in every mode; 08 R159, R160: the high half of a product in its three kinds; quotient and remainder at both widths, by zero too. -/
def Obligations.ScalarArithmetic : Prop :=
  (∀ (s : State) (t : Thread) (p : Pred) (m : AluMode) (d a b : SReg) (i : BitVec 16) (j : BitVec 32),
    let f8 := Form.scalar 8 p []
    let f12 := Form.scalar 12 p []
    let x := t.sreg s.cur.body a
    let y := t.sreg s.cur.body b
    let out (f : Form) (r : Word × FFlags) := s.writesS t f d r.1 r.2
    (s.Issues t f8 →
      exec (.add p m d a b) s = out f8 (aluResult m (· + ·) x y) ∧
      exec (.sub p m d a b) s = out f8 (aluResult m (· - ·) x y) ∧
      exec (.mul p m d a b) s = out f8 (aluResult m (· * ·) x y) ∧
      exec (.addImm p m d a i) s = out f8 (aluResult m (· + ·) x (i.signExtend 64)) ∧
      exec (.subImm p m d a i) s = out f8 (aluResult m (· - ·) x (i.signExtend 64))) ∧
    (s.Issues t f12 →
      exec (.addImmLong p m d a j) s = out f12 (aluResult m (· + ·) x (j.signExtend 64)) ∧
      exec (.subImmLong p m d a j) s = out f12 (aluResult m (· - ·) x (j.signExtend 64)))) ∧
  (∀ (s : State) (t : Thread) (p : Pred) (d a b : SReg), s.Issues t (Form.scalar 8 p []) →
    let f := Form.scalar 8 p []
    let x := t.sreg s.cur.body a
    let y := t.sreg s.cur.body b
    let lo (z : Word) : BitVec 32 := z.setWidth 32
    let zero (z : Nat) : FFlags := if z = 0 then flagInvalid else flagDivzero
    exec (.mulh p .ss d a b) s = s.writesS t f d (BitVec.ofInt 64 (x.toInt * y.toInt / 2 ^ 64)) 0 ∧
    exec (.mulh p .uu d a b) s = s.writesS t f d (BitVec.ofNat 64 (x.toNat * y.toNat / 2 ^ 64)) 0 ∧
    exec (.mulh p .su d a b) s = s.writesS t f d (BitVec.ofInt 64 (x.toInt * y.toNat / 2 ^ 64)) 0 ∧
    (y = 0 →
      exec (.div p false d a b) s = s.writesS t f d (BitVec.allOnes 64) (zero x.toNat) ∧
      exec (.divU p false d a b) s = s.writesS t f d (BitVec.allOnes 64) (zero x.toNat) ∧
      exec (.rem p false d a b) s = s.writesS t f d x (zero x.toNat) ∧
      exec (.remU p false d a b) s = s.writesS t f d x (zero x.toNat)) ∧
    (y ≠ 0 →
      exec (.div p false d a b) s = s.writesS t f d (BitVec.ofInt 64 (x.toInt.tdiv y.toInt)) 0 ∧
      exec (.divU p false d a b) s = s.writesS t f d (BitVec.ofNat 64 (x.toNat / y.toNat)) 0 ∧
      exec (.rem p false d a b) s = s.writesS t f d (BitVec.ofInt 64 (x.toInt - x.toInt.tdiv y.toInt * y.toInt)) 0 ∧
      exec (.remU p false d a b) s = s.writesS t f d (BitVec.ofNat 64 (x.toNat - x.toNat / y.toNat * y.toNat)) 0) ∧
    (lo y = 0 →
      exec (.div p true d a b) s = s.writesS t f d (BitVec.allOnes 64) (zero (lo x).toNat) ∧
      exec (.divU p true d a b) s = s.writesS t f d 0xFFFFFFFF (zero (lo x).toNat) ∧
      exec (.rem p true d a b) s = s.writesS t f d ((lo x).signExtend 64) (zero (lo x).toNat) ∧
      exec (.remU p true d a b) s = s.writesS t f d ((lo x).setWidth 64) (zero (lo x).toNat)) ∧
    (lo y ≠ 0 →
      exec (.div p true d a b) s =
        s.writesS t f d ((BitVec.ofInt 32 ((lo x).toInt.tdiv (lo y).toInt)).signExtend 64) 0 ∧
      exec (.divU p true d a b) s = s.writesS t f d (BitVec.ofNat 64 ((lo x).toNat / (lo y).toNat)) 0 ∧
      exec (.rem p true d a b) s =
        s.writesS t f d (BitVec.ofInt 64 ((lo x).toInt - (lo x).toInt.tdiv (lo y).toInt * (lo y).toInt)) 0 ∧
      exec (.remU p true d a b) s = s.writesS t f d (BitVec.ofNat 64 ((lo x).toNat % (lo y).toNat)) 0))

/-- 08 R161, R162: minimum and maximum, absolute value and negation, and the logic instructions. -/
def Obligations.ScalarMinMaxLogic : Prop :=
  ∀ (s : State) (t : Thread) (p : Pred) (d a b : SReg) (i : BitVec 16) (j : BitVec 32),
    let f := Form.scalar 8 p []
    let f12 := Form.scalar 12 p []
    let x := t.sreg s.cur.body a
    let y := t.sreg s.cur.body b
    let lo : Int := -2 ^ 63
    let hi : Int := 2 ^ 63 - 1
    (s.Issues t f →
      exec (.min p d a b) s = s.writesS t f d (BitVec.ofInt 64 (min x.toInt y.toInt)) 0 ∧
      exec (.max p d a b) s = s.writesS t f d (BitVec.ofInt 64 (max x.toInt y.toInt)) 0 ∧
      exec (.minU p d a b) s = s.writesS t f d (BitVec.ofNat 64 (min x.toNat y.toNat)) 0 ∧
      exec (.maxU p d a b) s = s.writesS t f d (BitVec.ofNat 64 (max x.toNat y.toNat)) 0 ∧
      exec (.abs p false d a) s = s.writesS t f d (BitVec.ofInt 64 x.toInt.natAbs) 0 ∧
      exec (.abs p true d a) s =
        s.writesS t f d (BitVec.ofInt 64 (saturate lo hi x.toInt.natAbs)) (satFlag lo hi x.toInt.natAbs) ∧
      exec (.neg p false d a) s = s.writesS t f d (-x) 0 ∧
      exec (.neg p true d a) s = s.writesS t f d (BitVec.ofInt 64 (saturate lo hi (-x.toInt))) (satFlag lo hi (-x.toInt)) ∧
      exec (.and p d a b) s = s.writesS t f d (x &&& y) 0 ∧
      exec (.or p d a b) s = s.writesS t f d (x ||| y) 0 ∧
      exec (.xor p d a b) s = s.writesS t f d (x ^^^ y) 0 ∧
      exec (.andn p d a b) s = s.writesS t f d (x &&& ~~~ y) 0 ∧
      exec (.not p d a) s = s.writesS t f d (~~~ x) 0 ∧
      exec (.andImm p d a i) s = s.writesS t f d (x &&& i.signExtend 64) 0 ∧
      exec (.orImm p d a i) s = s.writesS t f d (x ||| i.signExtend 64) 0 ∧
      exec (.xorImm p d a i) s = s.writesS t f d (x ^^^ i.signExtend 64) 0) ∧
    (s.Issues t f12 →
      exec (.andImmLong p d a j) s = s.writesS t f12 d (x &&& j.signExtend 64) 0 ∧
      exec (.orImmLong p d a j) s = s.writesS t f12 d (x ||| j.signExtend 64) 0 ∧
      exec (.xorImmLong p d a j) s = s.writesS t f12 d (x ^^^ j.signExtend 64) 0)

/-- 08 R163, R166, R167: shifts and rotations at both widths, bit fields and counts. -/
def Obligations.ScalarShiftFieldCount : Prop :=
  ∀ (s : State) (t : Thread) (p : Pred) (d a b : SReg) (n pos lenm1 : BitVec 6) (w : Bool),
    s.Issues t (Form.scalar 8 p []) →
    let f := Form.scalar 8 p []
    let x := t.sreg s.cur.body a
    let y := t.sreg s.cur.body b
    let x32 : BitVec 32 := x.setWidth 32
    let n64 := y.toNat % 64
    let n32 := y.toNat % 32
    let bits := if w then 32 else 64
    exec (.shl p false d a b) s = s.writesS t f d (BitVec.ofNat 64 (x.toNat * 2 ^ n64)) 0 ∧
    exec (.shr p false d a b) s = s.writesS t f d (BitVec.ofNat 64 (x.toNat / 2 ^ n64)) 0 ∧
    exec (.sar p false d a b) s = s.writesS t f d (BitVec.ofInt 64 (x.toInt / 2 ^ n64)) 0 ∧
    exec (.rot p false d a b) s = s.writesS t f d (BitVec.ofNat 64 (x.toNat / 2 ^ n64 + x.toNat * 2 ^ (64 - n64))) 0 ∧
    exec (.shl p true d a b) s = s.writesS t f d ((BitVec.ofNat 32 (x32.toNat * 2 ^ n32)).signExtend 64) 0 ∧
    exec (.shr p true d a b) s = s.writesS t f d (BitVec.ofNat 64 (x32.toNat / 2 ^ n32)) 0 ∧
    exec (.sar p true d a b) s = s.writesS t f d (BitVec.ofInt 64 (x32.toInt / 2 ^ n32)) 0 ∧
    exec (.rot p true d a b) s =
      s.writesS t f d ((BitVec.ofNat 32 (x32.toNat / 2 ^ n32 + x32.toNat * 2 ^ (32 - n32))).signExtend 64) 0 ∧
    exec (.shlImm p false d a n) s = s.writesS t f d (BitVec.ofNat 64 (x.toNat * 2 ^ n.toNat)) 0 ∧
    exec (.shrImm p false d a n) s = s.writesS t f d (BitVec.ofNat 64 (x.toNat / 2 ^ n.toNat)) 0 ∧
    exec (.sarImm p false d a n) s = s.writesS t f d (BitVec.ofInt 64 (x.toInt / 2 ^ n.toNat)) 0 ∧
    exec (.rotImm p false d a n) s =
      s.writesS t f d (BitVec.ofNat 64 (x.toNat / 2 ^ n.toNat + x.toNat * 2 ^ (64 - n.toNat))) 0 ∧
    (n.toNat < 32 →
      exec (.shlImm p true d a n) s = s.writesS t f d ((BitVec.ofNat 32 (x32.toNat * 2 ^ n.toNat)).signExtend 64) 0 ∧
      exec (.shrImm p true d a n) s = s.writesS t f d (BitVec.ofNat 64 (x32.toNat / 2 ^ n.toNat)) 0 ∧
      exec (.sarImm p true d a n) s = s.writesS t f d (BitVec.ofInt 64 (x32.toInt / 2 ^ n.toNat)) 0 ∧
      exec (.rotImm p true d a n) s =
        s.writesS t f d ((BitVec.ofNat 32 (x32.toNat / 2 ^ n.toNat + x32.toNat * 2 ^ (32 - n.toNat))).signExtend 64) 0) ∧
    (pos.toNat + lenm1.toNat < 64 →
      exec (.bfX p false d a pos lenm1) s =
        s.writesS t f d (BitVec.ofNat 64 (x.toNat / 2 ^ pos.toNat % 2 ^ (lenm1.toNat + 1))) 0 ∧
      exec (.bfX p true d a pos lenm1) s =
        s.writesS t f d ((BitVec.ofNat (lenm1.toNat + 1) (x.toNat / 2 ^ pos.toNat)).signExtend 64) 0 ∧
      ∃ v, exec (.bfI p d a pos lenm1) s = s.writesS t f d v 0 ∧
        ∀ k < 64, v.getLsbD k =
          if pos.toNat ≤ k ∧ k ≤ pos.toNat + lenm1.toNat then x.getLsbD (k - pos.toNat) else (t.sreg s.cur.body d).getLsbD k) ∧
    (∃ v : Nat, exec (.clz p w d a) s = s.writesS t f d (BitVec.ofNat 64 v) 0 ∧ v ≤ bits ∧
      (∀ k < v, x.getLsbD (bits - 1 - k) = false) ∧ (v < bits → x.getLsbD (bits - 1 - v) = true)) ∧
    (∃ v : Nat, exec (.ctz p w d a) s = s.writesS t f d (BitVec.ofNat 64 v) 0 ∧ v ≤ bits ∧
      (∀ k < v, x.getLsbD k = false) ∧ (v < bits → x.getLsbD v = true)) ∧
    exec (.popc p w d a) s =
      s.writesS t f d (BitVec.ofNat 64 ((List.range bits).countP fun k => x.getLsbD k)) 0

/-- 08 R164, R165, R168-R170: compares, selections, addresses, constants and predicate logic. -/
def Obligations.ScalarCompareSelectMove : Prop :=
  ∀ (s : State) (t : Thread) (p : Pred) (cc : Cond) (d a b c : SReg) (q r u : PReg) (sh : BitVec 3)
    (i : BitVec 16) (j : BitVec 32) (k : BitVec 64),
    let x := t.sreg s.cur.body a
    let y := t.sreg s.cur.body b
    let f (n : Nat) (l : List PReg) := Form.scalar n p l
    let bit (v : Bool) : Word := if v then 1 else 0
    let all (v : Bool) : BitVec 32 := if v then BitVec.allOnes 32 else 0
    (s.Issues t (f 8 [q]) →
      exec (.cmpP p cc q a b) s = s.writesP t (f 8 [q]) q (all (condHolds cc x y)) ∧
      exec (.cmpPImm p cc q a i) s = s.writesP t (f 8 [q]) q (all (condHolds cc x (i.signExtend 64))) ∧
      exec (.pMovFromScalar p q a) s = s.writesP t (f 8 [q]) q (x.setWidth 32)) ∧
    (s.Issues t (f 12 [q]) →
      exec (.cmpPImmLong p cc q a j) s = s.writesP t (f 12 [q]) q (all (condHolds cc x (j.signExtend 64)))) ∧
    (s.Issues t (f 8 []) →
      exec (.cmpS p cc d a b) s = s.writesS t (f 8 []) d (bit (condHolds cc x y)) 0 ∧
      exec (.cmpSImm p cc d a i) s = s.writesS t (f 8 []) d (bit (condHolds cc x (i.signExtend 64))) 0 ∧
      exec (.selS p d a b c) s = s.writesS t (f 8 []) d (if t.sreg s.cur.body c ≠ 0 then x else y) 0 ∧
      exec (.lea p sh d a b i) s = s.writesS t (f 8 []) d (x + BitVec.ofNat 64 (y.toNat * 2 ^ sh.toNat) + i.signExtend 64) 0) ∧
    (s.Issues t (f 12 []) →
      exec (.cmpSImmLong p cc d a j) s = s.writesS t (f 12 []) d (bit (condHolds cc x (j.signExtend 64))) 0 ∧
      exec (.leaLong p sh d a b j) s = s.writesS t (f 12 []) d (x + BitVec.ofNat 64 (y.toNat * 2 ^ sh.toNat) + j.signExtend 64) 0 ∧
      exec (.leaPc p d j) s = s.writesS t (f 12 []) d (t.pc + j.signExtend 64) 0 ∧
      exec (.li p d j) s = s.writesS t (f 12 []) d (j.signExtend 64) 0) ∧
    (s.Issues t (f 16 []) → exec (.liLong p d k) s = s.writesS t (f 16 []) d k 0) ∧
    (s.Issues t (f 8 [r]) →
      exec (.selP p d a b r) s = s.writesS t (f 8 [r]) d (if (t.preg r).getLsbD 0 then x else y) 0 ∧
      exec (.pMovToScalar p d r) s = s.writesS t (f 8 [r]) d (BitVec.ofNat 64 (t.preg r).toNat) 0) ∧
    (s.Issues t (f 8 [q, r]) →
      exec (.pNot p q r) s = s.writesP t (f 8 [q, r]) q (~~~ t.preg r) ∧
      exec (.pMov p q r) s = s.writesP t (f 8 [q, r]) q (t.preg r)) ∧
    (s.Issues t (f 8 [q, r, u]) →
      exec (.pAnd p q r u) s = s.writesP t (f 8 [q, r, u]) q (t.preg r &&& t.preg u) ∧
      exec (.pOr p q r u) s = s.writesP t (f 8 [q, r, u]) q (t.preg r ||| t.preg u) ∧
      exec (.pXor p q r u) s = s.writesP t (f 8 [q, r, u]) q (t.preg r ^^^ t.preg u))

/-- 06 R108: what the registers of a thread read as after a write, `s0` and `p0` among them; 08 R171, R172 with 06 R115: `csr.rd`, `csr.wr`, `csr.set` and `csr.clr` write the old value to sD and the new one field by field; a write that 02 R40 or 11 R221 rejects faults ILLEGAL; what the read-only, the supervisor's and the plain registers take. -/
def Obligations.RegistersCsrs : Prop :=
  (∀ (t : Thread) (d e : SReg) (q r : PReg) (x : Word) (y : BitVec 32),
    (t.setS d x).sreg false e = (if e = 0 then 0 else if e = d then x else t.sreg false e) ∧
    (t.setP q y).preg r = (if r = 0 then BitVec.allOnes 32 else if r = q then y else t.preg r) ∧
    (t.setS 0 x = t ∧ t.setP 0 y = t) ∧
    ({ t.setS d x with s := t.s } = t ∧ { t.setP q y with p := t.p } = t)) ∧
  (∀ (s : State) (t : Thread) (p : Pred) (d a : SReg) (n : BitVec 12),
    let f := Form.blocked 8 p
    let x := t.sreg s.cur.body a
    let old := s.csrRead t n.toNat
    let out (new : Word) : Out :=
      if csrRejects n.toNat new then s.faults t f s.illegal
      else s.completes t f ((s.csrWrite t n.toNat new).modCur fun u => u.setS d old) 1 0
    (s.Issues t (Form.scalar 8 p []) →
      exec (.csrRd p d n) s = s.completes t (Form.scalar 8 p []) (s.modCur fun u => u.setS d old) 1 0) ∧
    (s.Issues t f →
      exec (.csrWr p d a n) s = out x ∧ exec (.csrSet p d a n) s = out (old ||| x) ∧ exec (.csrClr p d a n) s = out (old &&& ~~~ x)) ∧
    (∀ v : Word, (csrRejects n.toNat v = true ↔
      (n = 0x021 ∧ 4 < (v.extractLsb' 0 3).toNat) ∨ (n = 0x020 ∧ v.extractLsb' 3 3 = 7))) ∧
    (∀ v : Word, n.toNat ∈ [0x003, 0x004, 0x005, 0x008, 0x009, 0x010, 0x011, 0x012, 0x013, 0x014, 0x015, 0x030] →
      s.csrWrite t n.toNat v = s) ∧
    (∀ v : Word, n.toNat ∈ [0x000, 0x001, 0x002] → s.isSupervisor t = false → s.csrWrite t n.toNat v = s) ∧
    (∀ v : Word, s.curThread? = some t →
      let after (k : Nat) (y : Word) : Prop := ∀ u, (s.csrWrite t k v).curThread? = some u → (s.csrWrite t k v).csrRead u k = y
      after 0x020 (v &&& 0xFF) ∧ after 0x021 (v &&& 0x3F) ∧ after 0x022 (v &&& 0x3F) ∧ after 0x023 v ∧ after 0x024 (v &&& 0x7F000)))

/-- 06 R104, R105, 07 R129-R131: `nop`, `pad`, branches, calls and returns. -/
def Obligations.ControlTransfers : Prop :=
  ∀ (s : State) (t : Thread) (p : Pred) (cc : Cond) (d a b : SReg) (i : BitVec 16) (j : BitVec 32),
    let f := Form.beside 8 p
    let f12 := Form.beside 12 p
    let u := Form.beside 8 Pred.always
    let x := t.sreg s.cur.body a
    let y := t.sreg s.cur.body b
    let by' (k : Int) : Word := t.pc + BitVec.ofInt 64 (4 * k)
    let go (f : Form) (dest : Word) := s.jumps t f (s.modCur fun w => { w with loops := loopLeave dest w.loops }) dest 1
    let call (f : Form) (n : Nat) (dest : Word) := s.jumps t f (s.modCur fun w => w.setS d (nextPc t.pc n)) dest 1
    (s.Issues t u →
      exec .nop s = s.completes t u s 1 0 ∧
      exec .pad s = s.jumps t u s (BitVec.ofNat 64 (t.pc.toNat / 32 * 32 + 32)) 0) ∧
    (s.Issues t f →
      exec (.br p i) s = go f (by' i.toInt) ∧
      exec (.brReg p a) s = go f x ∧
      exec (.ret p a) s = go f x ∧
      exec (.brC p cc a b i) s = (if condHolds cc x y then go f (by' i.toInt) else s.completes t f s 1 0) ∧
      exec (.call p d i) s = call f 8 (by' i.toInt) ∧
      exec (.callReg p d a) s = call f 8 x) ∧
    (s.Issues t f12 →
      exec (.brLong p j) s = go f12 (by' j.toInt) ∧
      exec (.brCLong p cc a b j) s = (if condHolds cc x y then go f12 (by' j.toInt) else s.completes t f12 s 1 0) ∧
      exec (.brCImm p cc a i j) s =
        (if condHolds cc x (j.signExtend 64) then go f12 (by' i.toInt) else s.completes t f12 s 1 0) ∧
      exec (.callLong p d j) s = call f12 12 (by' j.toInt)) ∧
    (∀ v w : Word,
      (condHolds .eq v w = true ↔ v = w) ∧ (condHolds .ne v w = true ↔ v ≠ w) ∧
      (condHolds .lt v w = true ↔ v.toInt < w.toInt) ∧ (condHolds .ge v w = true ↔ v.toInt ≥ w.toInt) ∧
      (condHolds .ltu v w = true ↔ v.toNat < w.toNat) ∧ (condHolds .geu v w = true ↔ v.toNat ≥ w.toNat) ∧
      (condHolds .tst v w = true ↔ v &&& w ≠ 0) ∧ (condHolds .tstn v w = true ↔ v &&& w = 0))

/-- 07 R132, R127: `halt`, before which the thread's waiting reductions are performed (12 R251, log entry 58); `realign` with no other member, `realign` whose condition holds, and REALIGN_RESUME. -/
def Obligations.HaltRealign : Prop :=
  ∀ (s : State) (t : Thread) (p : Pred) (a : SReg) (vt slot : Nat) (l : List Nat),
    let f : Form := { Form.blocked 8 p with wins := true }
    let g := Form.beside 8 p
    (s.Issues t f → s.engineBusy t = false → t.handleFault? = none →
      exec (.halt p) s = s.completes t f (((s.settle t).endSupervisor t).modCur fun x => { x with st := .halted }) 1 0) ∧
    (s.Issues t f → s.engineBusy t = false → ∀ i, t.handleFault? = some i → exec (.halt p) s = s.faults t f i) ∧
    (s.Issues t f → s.engineBusy t = true → exec (.halt p) s = s.waits t f s (.stall 5)) ∧
    (s.Issues t g → (∀ m, t.wait ≠ .realign m) → s.realignSet t (t.sreg s.cur.body a) = [] →
      exec (.realign p a) s = s.completes t g s 1 0) ∧
    (s.Issues t g → t.wait = .realign l → s.realigned t = true →
      exec (.realign p a) s =
        s.completes t g (s.retireRealign ((s.realignReady t.vt).filter fun u => u.slot != t.slot)) 1 0) ∧
    (s.thread? vt slot = some t → t.st = .run → s.realigned t = true →
      exec (.realignResume vt slot) s = .next (s.retireRealign (s.realignReady vt)))

/-- 07 R134, R135: `loop` opens a loop, skips its body or faults LOOP; `loop.end` goes back, leaves or falls through; 07 R137: `loop_leave` pops the innermost entries that do not hold the target, and no other. -/
def Obligations.HardwareLoops : Prop :=
  (∀ (s : State) (t : Thread) (p : Pred) (a : SReg) (i : BitVec 16) (j : BitVec 32) (e : LoopEntry) (r : List LoopEntry),
    let f := Form.beside 8 p
    let f12 := Form.beside 12 p
    let fin : Word := t.pc + BitVec.ofInt 64 (4 * i.toInt)
    let opened (f : Form) (n c : Nat) : Out :=
      if 2 ^ 32 ≤ c then s.faults t f { cause := .loop, info := BitVec.ofNat 64 c }
      else if c = 0 then s.jumps t f s (nextPc fin 8) 1
      else if t.loops.length = 4 then s.faults t f { cause := .loop, info := BitVec.ofNat 64 c }
      else s.completes t f (s.modCur fun x =>
        { x with loops := { start := nextPc t.pc n, fin := fin, count := BitVec.ofNat 32 (c - 1) } :: x.loops }) 1 0
    (s.Issues t f → exec (.loop p a i) s = opened f 8 (t.sreg s.cur.body a).toNat) ∧
    (s.Issues t f12 → exec (.loopImm p i j) s = opened f12 12 j.toNat) ∧
    (s.Issues t f →
      ((t.loops = [] ∨ (t.loops = e :: r ∧ e.fin ≠ t.pc)) → exec (.loopEnd p) s = s.completes t f s 1 0) ∧
      (t.loops = e :: r → e.fin = t.pc → e.count = 0 →
        exec (.loopEnd p) s = s.completes t f (s.modCur fun x => { x with loops := r }) 1 0) ∧
      (t.loops = e :: r → e.fin = t.pc → e.count ≠ 0 →
        exec (.loopEnd p) s =
          s.jumps t f (s.modCur fun x => { x with loops := { e with count := e.count - 1 } :: r }) e.start 1))) ∧
  (∀ (a : Word) (l : List LoopEntry), ∃ gone, l = gone ++ loopLeave a l ∧
    (∀ e ∈ gone, ¬ (e.start.toNat ≤ a.toNat ∧ a.toNat ≤ e.fin.toNat)) ∧
    (∀ e, (loopLeave a l).head? = some e → e.start.toNat ≤ a.toNat ∧ a.toNat ≤ e.fin.toNat))

/-- 07 R145, R146: `rep` captures its body and goes on behind it; a count of 0 skips the body, one above 2^32 - 1 faults LOOP, and what capturing meets is the fault of the `rep`. That the count is checked before anything is captured and that a body is captured at a count of 0 too is the model's reading (log entry 15); 07 R147: the register a vector name means in an iteration of the rotating window. -/
def Obligations.Repetition : Prop :=
  (∀ (s : State) (t : Thread) (p : Pred) (a : SReg) (j : BitVec 32) (sh : RepShape),
    let f := Form.blocked 8 p
    let f12 := Form.blocked 12 p
    let body (n : Nat) := s.capture t s.illegal captureFuel (sh.lenm1.val + 1) (nextPc t.pc n) []
    let run (f : Form) (c : Nat) (b : List BodyInstr) (after : Word) : Out :=
      if c = 0 then s.jumps t f s after 1
      else s.jumps t f (s.modCur fun x =>
        { x with rep := some { body := b, count := c, iter := 0, idx := 0, tested := false, wbase := sh.wbase.val,
                               wsize := sh.wsize.val, rot := 0, stream := sh.stream, sregs := t.s } }) after 1
    let c := (t.sreg s.cur.body a).toNat
    (s.Issues t f →
      (∀ b after, c < 2 ^ 32 → body 8 = .ok b after → exec (.rep p a sh) s = run f c b after) ∧
      (∀ i, c < 2 ^ 32 → body 8 = .fault i → exec (.rep p a sh) s = s.faults t f i) ∧
      (2 ^ 32 ≤ c → exec (.rep p a sh) s = s.faults t f { cause := .loop, info := BitVec.ofNat 64 c })) ∧
    (s.Issues t f12 →
      (∀ b after, body 12 = .ok b after → exec (.repImm p j sh) s = run f12 j.toNat b after) ∧
      (∀ i, body 12 = .fault i → exec (.repImm p j sh) s = s.faults t f12 i))) ∧
  (∀ wbase wsize i n : Nat, wbase + wsize ≤ 32 → n < 32 →
    ((2 ≤ wsize ∧ wbase ≤ n ∧ n < wbase + wsize) →
      (rotateName wbase wsize i n : Int) = wbase + ((n : Int) - wbase - i) % wsize) ∧
    (¬ (2 ≤ wsize ∧ wbase ≤ n ∧ n < wbase + wsize) → rotateName wbase wsize i n = n))

/-- 07 R141-R143: pushes, pops, peeks and tests of a queue register, with their QUEUE faults. -/
def Obligations.QueueRegisters : Prop :=
  ∀ (s : State) (t : Thread) (p : Pred) (d : SReg) (q : QReg) (a : SReg) (w : Word) (r : List QEntry),
    let f := Form.beside 8 p
    let put (e : QEntry) := s.completes t f (s.modCur fun x => { x with q := x.q.set q (t.q[q] ++ [e]) }) 1 0
    let bad := s.faults t f { cause := .queue, info := BitVec.ofNat 64 q.val }
    let b2 (x : Bool) (n : Nat) := if x then n else 0
    (s.Issues t f →
      (t.q[q].length < 8 → exec (.qPush p q a) s = put (.val (t.sreg s.cur.body a)) ∧ exec (.qEos p q) s = put .eos) ∧
      (8 ≤ t.q[q].length → t.rep = none → exec (.qPush p q a) s = bad ∧ exec (.qEos p q) s = bad) ∧
      (t.q[q] = .val w :: r →
        exec (.qPop p d q) s = s.completes t f (s.modCur fun x => ({ x with q := x.q.set q r } : Thread).setS d w) 1 0 ∧
        exec (.qPeek p d q) s = s.completes t f (s.modCur fun x => x.setS d w) 1 0) ∧
      (t.q[q] = .eos :: r →
        exec (.qPop p d q) s = s.completes t f (s.modCur fun x => ({ x with q := x.q.set q r } : Thread).setS d 0) 1 0 ∧
        exec (.qPeek p d q) s = s.completes t f (s.modCur fun x => x.setS d 0) 1 0) ∧
      (t.q[q] = [] → exec (.qPop p d q) s = bad ∧ exec (.qPeek p d q) s = bad) ∧
      exec (.qTest p d q) s = s.completes t f (s.modCur fun x => x.setS d (BitVec.ofNat 64
        (t.q[q].length + b2 (t.q[q].head? = some .eos) 16 + b2 (t.q[q].contains .eos) 32))) 1 0)

/-- 09 R178, R175, R176: the integer vector instructions, element by element, at every width, in every mode, with a vector, a scalar or an immediate operand; 09 R179: logic on whole lanes; shifts, rotations and counts by elements. -/
def Obligations.VectorInteger : Prop :=
  (∀ (s : State) (t : Thread) (p : Pred) (e : VWidth) (m : VMode) (d a b : VReg) (c : SReg) (j : BitVec 16) (l : BitVec 32),
    let f := Form.lanes 8 p
    let f12 := Form.lanes 12 p
    let w := e.bits
    let elem (r : VReg) (i : Fin 32) (k : Nat) : BitVec w := (t.vreg s.cur.body r)[i].extractLsb' (w * k) w
    let rd : BitVec w → Int := vecRead w m
    let low (x : Word) : BitVec w := x.setWidth w
    let gives (f : Form) (o : Out) (op : BitVec w → BitVec w → BitVec w → BitVec w × FFlags) (y : Fin 32 → Nat → BitVec w) :=
      s.WritesElems t f d w (fun i k => op (elem d i k) (elem a i k) (y i k)) o
    let add (_ x y : BitVec w) := vecResult w m (rd x + rd y)
    let sub (_ x y : BitVec w) := vecResult w m (rd x - rd y)
    let mul (_ x y : BitVec w) := vecResult w m (rd x * rd y)
    let mac (z x y : BitVec w) := vecResult w m (rd z + rd x * rd y)
    let mulh (_ x y : BitVec w) : BitVec w × FFlags := (BitVec.ofInt w (rd x * rd y / 2 ^ w), 0)
    let min' (_ x y : BitVec w) : BitVec w × FFlags := (if rd x ≤ rd y then x else y, 0)
    let max' (_ x y : BitVec w) : BitVec w × FFlags := (if rd x ≤ rd y then y else x, 0)
    let vec (i : Fin 32) (k : Nat) := elem b i k
    let sca (_ : Fin 32) (_ : Nat) := low (t.sreg s.cur.body c)
    let imm (_ : Fin 32) (_ : Nat) := low (j.signExtend 64)
    let lng (_ : Fin 32) (_ : Nat) := low (l.signExtend 64)
    (s.Issues t f →
      gives f (exec (.vAdd p e m d a b) s) add vec ∧ gives f (exec (.vSub p e m d a b) s) sub vec ∧
      gives f (exec (.vMul p e m d a b) s) mul vec ∧ gives f (exec (.vMulh p e m d a b) s) mulh vec ∧
      gives f (exec (.vMac p e m d a b) s) mac vec ∧ gives f (exec (.vMin p e m d a b) s) min' vec ∧
      gives f (exec (.vMax p e m d a b) s) max' vec ∧
      gives f (exec (.vAddScalar p e m d a c) s) add sca ∧ gives f (exec (.vSubScalar p e m d a c) s) sub sca ∧
      gives f (exec (.vMulScalar p e m d a c) s) mul sca ∧ gives f (exec (.vMulhScalar p e m d a c) s) mulh sca ∧
      gives f (exec (.vMacScalar p e m d a c) s) mac sca ∧ gives f (exec (.vMinScalar p e m d a c) s) min' sca ∧
      gives f (exec (.vMaxScalar p e m d a c) s) max' sca ∧
      gives f (exec (.vAddImm p e m d a j) s) add imm ∧ gives f (exec (.vSubImm p e m d a j) s) sub imm ∧
      gives f (exec (.vMulImm p e m d a j) s) mul imm ∧ gives f (exec (.vMinImm p e m d a j) s) min' imm ∧
      gives f (exec (.vMaxImm p e m d a j) s) max' imm ∧
      gives f (exec (.vAbs p e m d a) s) (fun _ x _ => vecResult w m x.toInt.natAbs) vec ∧
      gives f (exec (.vNeg p e m d a) s) (fun _ x _ => vecResult w m (-x.toInt)) vec) ∧
    (s.Issues t f12 →
      gives f12 (exec (.vAddImmLong p e m d a l) s) add lng ∧ gives f12 (exec (.vSubImmLong p e m d a l) s) sub lng ∧
      gives f12 (exec (.vMulImmLong p e m d a l) s) mul lng ∧ gives f12 (exec (.vMinImmLong p e m d a l) s) min' lng ∧
      gives f12 (exec (.vMaxImmLong p e m d a l) s) max' lng)) ∧
  (∀ (s : State) (t : Thread) (p : Pred) (e : VWidth) (d a b : VReg) (n : BitVec 5),
    let f := Form.lanes 8 p
    s.Issues t f →
    let w := e.bits
    let x (i : Fin 32) : Lane := (t.vreg s.cur.body a)[i]
    let y (i : Fin 32) : Lane := (t.vreg s.cur.body b)[i]
    let lanes (o : Out) (g : Fin 32 → Lane) : Prop := o = s.writesV t f d g 0 2
    let elem (r : VReg) (i : Fin 32) (k : Nat) : BitVec w := (t.vreg s.cur.body r)[i].extractLsb' (w * k) w
    let gives (o : Out) (op : BitVec w → Nat → BitVec w) (z : Fin 32 → Nat → Nat) :=
      s.WritesElems t f d w (fun i k => (op (elem a i k) (z i k), 0)) o
    let shl (v : BitVec w) (n : Nat) : BitVec w := BitVec.ofNat w (v.toNat * 2 ^ n)
    let shr (v : BitVec w) (n : Nat) : BitVec w := BitVec.ofNat w (v.toNat / 2 ^ n)
    let sar (v : BitVec w) (n : Nat) : BitVec w := BitVec.ofInt w (v.toInt / 2 ^ n)
    let rot (v : BitVec w) (n : Nat) : BitVec w := BitVec.ofNat w (v.toNat / 2 ^ n + v.toNat * 2 ^ (w - n))
    let vec (i : Fin 32) (k : Nat) := (elem b i k).toNat % w
    let imm (_ : Fin 32) (_ : Nat) := n.toNat
    lanes (exec (.vAnd p d a b) s) (fun i => x i &&& y i) ∧ lanes (exec (.vOr p d a b) s) (fun i => x i ||| y i) ∧
    lanes (exec (.vXor p d a b) s) (fun i => x i ^^^ y i) ∧ lanes (exec (.vAndn p d a b) s) (fun i => x i &&& ~~~ y i) ∧
    lanes (exec (.vNot p d a) s) (fun i => ~~~ x i) ∧
    gives (exec (.vShl p e d a b) s) shl vec ∧ gives (exec (.vShr p e d a b) s) shr vec ∧
    gives (exec (.vSar p e d a b) s) sar vec ∧ gives (exec (.vRot p e d a b) s) rot vec ∧
    (n.toNat < w →
      gives (exec (.vShlImm p e d a n) s) shl imm ∧ gives (exec (.vShrImm p e d a n) s) shr imm ∧
      gives (exec (.vSarImm p e d a n) s) sar imm ∧ gives (exec (.vRotImm p e d a n) s) rot imm) ∧
    gives (exec (.vClz p e d a) s) (fun v _ => BitVec.ofNat w (if v = 0 then w else w - 1 - v.toNat.log2)) imm ∧
    gives (exec (.vPopc p e d a) s) (fun v _ => BitVec.ofNat w ((List.range w).countP fun k => v.getLsbD k)) imm)

/-- 09 R180, R176: the FP32 arithmetic that rounds: the exact result of each lane rounded once by the mode with the lane's draw, NaNs and subnormals as 02 R32, R33 say. The integral values of `v.fround` are the last clause. That DAZ acts on FP32 operands by their value is log entry 44. -/
def Obligations.VectorFloat : Prop :=
  ∀ (s : State) (t : Thread) (p : Pred) (rm : RM) (d a b c : VReg) (kr : SReg),
    let f := Form.lanes 8 p
    s.Issues t f →
    let mode := if rm = .dyn then RM.ofCode (t.rmode.toNat % 8) else rm
    let dr := if mode = .stoch then draws 32 t.seed else ([], t.seed)
    let x (i : Fin 32) := t.fread (t.vreg s.cur.body a)[i]
    let y (i : Fin 32) := t.fread (t.vreg s.cur.body b)[i]
    let z (i : Fin 32) := t.fread (t.vreg s.cur.body c)[i]
    let k := t.fread ((t.sreg s.cur.body kr).setWidth 32)
    let gives (o : Out) (r : Fin 32 → FVal × FFlags) :=
      s.WritesLanes t f d (fun i => t.fround mode (nth dr.1 i.val 0) (r i)) dr.2 o
    gives (exec (.vFadd p rm d a b) s) (fun i => fadd mode (x i) (y i)) ∧
    gives (exec (.vFsub p rm d a b) s) (fun i => fadd mode (x i) (y i).negate) ∧
    gives (exec (.vFmul p rm d a b) s) (fun i => fmul (x i) (y i)) ∧
    gives (exec (.vFaddScalar p rm d a kr) s) (fun i => fadd mode (x i) k) ∧
    gives (exec (.vFsubScalar p rm d a kr) s) (fun i => fadd mode (x i) k.negate) ∧
    gives (exec (.vFmulScalar p rm d a kr) s) (fun i => fmul (x i) k) ∧
    gives (exec (.vFma p rm d a b c) s) (fun i => ffma mode (x i) (y i) (z i)) ∧
    gives (exec (.vFms p rm d a b c) s) (fun i => ffma mode (x i) (y i) (z i).negate) ∧
    gives (exec (.vFnma p rm d a b c) s) (fun i => ffma mode (x i).negate (y i) (z i)) ∧
    gives (exec (.vFdiv p rm d a b) s) (fun i => fdiv (x i) (y i)) ∧
    gives (exec (.vFsqrt p rm d a) s) (fun i => fsqrt (x i)) ∧
    gives (exec (.vFrcp p rm d a) s) (fun i => fdiv (.fin false 1 0 false) (x i)) ∧
    gives (exec (.vFrsq p rm d a) s) (fun i => frsq (x i)) ∧
    gives (exec (.vFscale p rm d a b) s) (fun i => fscale (x i) (t.vreg s.cur.body b)[i].toInt) ∧
    s.WritesLanes t f d (fun i => t.fround .rne 0 (toIntegral mode (nth dr.1 i.val 0) (x i))) dr.2 (exec (.vFround p rm d a) s) ∧
    -- The integral value of `m × 2^e`, by mode, with INEXACT where it changes.
    (∀ (mode : RM) (neg : Bool) (draw m n : Nat) (e : Int) (v : FVal),
      let q := m / 2 ^ n
      let r := m % 2 ^ n
      let up : Prop :=
        match mode with
        | .rtz => False
        | .rup => neg = false ∧ r ≠ 0
        | .rdn => neg = true ∧ r ≠ 0
        | .stoch => 65536 ≤ r * 65536 / 2 ^ n + draw
        | _ => 2 ^ n < 2 * r ∨ (2 * r = 2 ^ n ∧ q % 2 = 1)
      let whole (k : Nat) : FVal × FFlags := (.fin neg k 0 false, if r = 0 then 0 else flagInexact)
      ((0 ≤ e ∨ m = 0) → toIntegral mode draw (.fin neg m e false) = (.fin neg m e false, 0)) ∧
      (m ≠ 0 → 0 < n → (up → toIntegral mode draw (.fin neg m (-(n : Int)) false) = whole (q + 1)) ∧
        (¬ up → toIntegral mode draw (.fin neg m (-(n : Int)) false) = whole q)) ∧
      ((v.isNan = true ∨ v.isInf = true) → toIntegral mode draw v = (v, 0)))

/-- 09 R180, 02 R50: the exact results that addition, multiplication, division, square root and their like round, and their special cases. A quotient or root is given by 64 bits or more of it, `st` saying that something is left. -/
def Obligations.FloatSpecialCases : Prop :=
  ∀ (mode : RM) (n n' g g' : Bool) (m m' : Nat) (e e' : Int) (x : FVal) (draw y : Nat) (k : Int),
    let v : FVal := .fin n m e false
    let w : FVal := .fin n' m' e' false
    let signed (n : Bool) (m : Nat) : Int := if n then -(m : Int) else m
    let zero (n : Bool) : FVal := .fin n 0 0 false
    let bad : FVal × FFlags := (.nan false false, flagInvalid)
    fadd mode (.inf n) (.inf (!n)) = bad ∧ fadd mode (.inf n) v = (.inf n, 0) ∧
    fadd mode (zero n) (zero n') = (zero (if n = n' then n else mode = .rdn), 0) ∧
    fadd mode v v.negate = (zero (mode = .rdn), 0) ∧
    (fadd mode (.nan n g) x).1 = .nan false false ∧ (fadd mode x (.nan n g)).1 = .nan false false ∧
    (fadd mode (.nan n g) (.nan n' g')).2 = (if g || g' then flagInvalid else 0) ∧
    fmul (.inf n) (zero n') = bad ∧ fmul (zero n) (.inf n') = bad ∧
    fmul v (.fin n' m' e' false) = (.fin (n != n') (m * m') (e + e') false, 0) ∧
    ffma mode (.inf n) (zero n') x = bad ∧ ffma mode (zero n) (.inf n') x = bad ∧
    fdiv (zero n) (zero n') = bad ∧ fdiv (.inf n) (.inf n') = bad ∧
    (m ≠ 0 → fdiv v (zero n') = (.inf (n != n'), flagDivzero)) ∧
    fdiv (.fin false 1 0 false) (zero n') = (.inf n', flagDivzero) ∧
    fsqrt (zero n) = (zero n, 0) ∧ fsqrt (.inf false) = (.inf false, 0) ∧ fsqrt (.inf true) = bad ∧
    (m ≠ 0 → fsqrt (.fin true m e false) = bad ∧ frsq (.fin true m e false) = bad) ∧
    frsq (zero n) = (.inf n, flagDivzero) ∧ frsq (.inf false) = (zero false, 0) ∧
    (∃ (s : Bool) (p : Nat) (j : Int), fadd mode v w = (.fin s p j false, 0) ∧ (p = 0 → s = if n = n' then n else mode = .rdn) ∧
      ∀ K : Int, 0 ≤ e + K → 0 ≤ e' + K → 0 ≤ j + K →
        signed s (p * 2 ^ (j + K).toNat) = signed n (m * 2 ^ (e + K).toNat) + signed n' (m' * 2 ^ (e' + K).toNat)) ∧
    ffma mode v w x = fadd mode (.fin (n != n') (m * m') (e + e') false) x ∧
    (m ≠ 0 → m' ≠ 0 → ∃ (p c : Nat) (st : Bool), fdiv v w = (.fin (n != n') p (e - e' - c) st, 0) ∧ 2 ^ 63 ≤ p ∧
      p * m' ≤ m * 2 ^ c ∧ m * 2 ^ c < (p + 1) * m' ∧ (st = false ↔ p * m' = m * 2 ^ c)) ∧
    (m ≠ 0 → m < 2 ^ 24 →
      (∃ (p : Nat) (c : Int) (st : Bool), fsqrt (.fin false m e false) = (.fin false p c st, 0) ∧ 2 ^ 63 ≤ p ∧ 2 * c ≤ e ∧
        p * p ≤ m * 2 ^ (e - 2 * c).toNat ∧ m * 2 ^ (e - 2 * c).toNat < (p + 1) * (p + 1) ∧
        (st = false ↔ p * p = m * 2 ^ (e - 2 * c).toNat)) ∧
      (∃ (p : Nat) (c : Int) (st : Bool), frsq (.fin false m e false) = (.fin false p c st, 0) ∧ 2 ^ 63 ≤ p ∧ 2 * c ≤ -e ∧
        p * p * m ≤ 2 ^ (-e - 2 * c).toNat ∧ 2 ^ (-e - 2 * c).toNat < (p + 1) * (p + 1) * m ∧
        (st = false ↔ p * p * m = 2 ^ (-e - 2 * c).toNat))) ∧
    (fscale (.inf n) k = (.inf n, 0) ∧ fscale (.nan n g) k = (.nan n g, 0)) ∧
    (y < 2 ^ 32 → draw < 2 ^ 16 → decodeF fp32 y = v →
      encodeF fp32 mode false draw (fscale v k).1 = encodeF fp32 mode false draw (.fin n m (e + k) false) ∧ (fscale v k).2 = 0)

/-- 02 R44, R39, R41, R31: a finite magnitude `m × 2^e`, with `sticky` a little more, that lies from code `n` up to the next code of a floating-point format is encoded as the one of the two that the mode takes, or overflows; a value that the format represents is encoded as its own code with no flag; 02 R44, R39, R35-R38, R45-R47: encoding a finite value of magnitude m × 2^e, e ≤ 0, into an integer range that holds it: the four directed modes and nearest-even. What the block formats encode: an MX scale and its elements, a GS scale and its integers, a QX exponent, its shifts and its magnitudes; blocks that an MX format of codes 10-13 or a QX format holds are encoded exactly, without a flag; an exponent stream reads back as the exponents it was written from. That a quad wholly beyond the extent takes SH = 3 is log entry 64. -/
def Obligations.EncodeNumbers : Prop :=
  (∀ (f : FFmt) (mode : RM) (satc : Bool) (draw x : Nat),
    f ∈ [fp32, fp16, bf16, fp19, e4m3, e5m2, e3m2, e2m3, e2m1] → draw < 2 ^ 16 → x < 2 ^ (f.ebits + f.fbits + 1) →
    ((decodeF f x).isNan = false → encodeF f mode satc draw (decodeF f x) = (x, 0)) ∧
    (∀ (neg sticky : Bool) (m n K : Nat) (e : Int), mode ≠ .dyn → m ≠ 0 → (sticky = true → 2 ^ (f.fbits + 17) ≤ m) →
      0 ≤ e + K → f.bias + f.fbits ≤ K →
      let at' (c : Nat) : Nat :=
        if c < 2 ^ f.fbits then c * 2 ^ (K + 1 - f.bias - f.fbits)
        else (2 ^ f.fbits + c % 2 ^ f.fbits) * 2 ^ (c / 2 ^ f.fbits + K - f.bias - f.fbits)
      let v := m * 2 ^ (e + K).toNat
      at' n ≤ v → v < at' (n + 1) →
      let inexact := sticky = true ∨ at' n < v
      let up : Prop :=
        match mode with
        | .rtz => False
        | .rup => neg = false ∧ inexact
        | .rdn => neg = true ∧ inexact
        | .stoch => 65536 ≤ (v - at' n) * 65536 / (at' (n + 1) - at' n) + draw
        | _ => at' n + at' (n + 1) < 2 * v ∨ (at' n + at' (n + 1) = 2 * v ∧ (sticky = true ∨ n % 2 = 1))
      let toInf : Bool := match mode with | .rtz => false | .rup => !neg | .rdn => neg | _ => true
      let sign := if neg then 2 ^ (f.ebits + f.fbits) else 0
      let rounded (c : Nat) : Nat × FFlags :=
        if f.top < c then
          (sign + (match f.inf with | some i => if satc = false ∧ toInf then i else f.top | none => f.top), flagOverflow ||| flagInexact)
        else (sign + c, (if inexact then flagInexact else 0) ||| (if inexact ∧ c < 2 ^ f.fbits then flagUnderflow else 0))
      (up → encodeF f mode satc draw (.fin neg m e sticky) = rounded (n + 1)) ∧
      (¬ up → encodeF f mode satc draw (.fin neg m e sticky) = rounded n))) ∧
  ((∀ (lo hi : Int) (neg : Bool) (m n : Nat),
    let d : Int := 2 ^ n
    let x : Int := if neg then -(m : Int) else m
    let enc (mode : RM) := encodeI lo hi mode 0 (.fin neg m (-(n : Int)) false)
    let clampTo (z : Int) : Int × FFlags :=
      if z < lo then (lo, flagOverflow ||| flagInexact) else if hi < z then (hi, flagOverflow ||| flagInexact)
      else (z, if x % d = 0 then 0 else flagInexact)
    enc .rdn = clampTo (x / d) ∧ enc .rup = clampTo (-(-x / d)) ∧ enc .rtz = clampTo (x.tdiv d) ∧
    (∃ z : Int, enc .rne = clampTo z ∧ 2 * (x - z * d).natAbs ≤ 2 ^ n ∧ (2 * (x - z * d).natAbs = 2 ^ n → z % 2 = 0))) ∧
  ∀ (c : Nat) (mode : RM) (satc : Bool) (l : List ElemWrite) (pos : ElemWrite → Nat) (M : Int) (fm : FFmt),
    let plain : Prop := ∀ y ∈ l, ∃ n m x, y.val = .fin n m x false
    let special : Prop := ∃ y ∈ l, y.val.isNan = true ∨ y.val.isInf = true
    let nans : FFlags := if l.any fun y => y.val.isNan then flagInvalid else 0
    let infs : FFlags := if l.any fun y => y.val.isInf then flagOverflow else 0
    let zeros : Prop := ∀ y ∈ l, ∃ n x, y.val = .fin n 0 x false
    -- M is floor(log2 amax).
    let top : Prop := (∃ y ∈ l, y.val.log2? = some M) ∧ ∀ y ∈ l, ∀ p, y.val.log2? = some p → p ≤ M
    (let b := encodeMx c mode satc false l
     let emax : Int := match c with | 9 => 8 | 10 => 15 | 11 => 4 | 12 => 2 | 13 => 2 | _ => 0
     let s := max 0 (min 254 (M - emax + 127))
     let elem (y : ElemWrite) : Nat × FFlags :=
       if c = 14 then encodeElem 21 mode satc y.draw ((y.val.shift (127 - s)).shift 6) else encodeF fm mode satc y.draw (y.val.shift (127 - s))
     9 ≤ c → c ≤ 14 → (c ≤ 13 → floatFmt (c - 5) = some fm) →
     (special → b.scale = 255 ∧ b.codes = l.map (fun _ => 0) ∧ b.flags = nans ||| infs) ∧
     (zeros → b.scale = 0 ∧ b.codes = l.map (fun _ => 0) ∧ b.flags = 0) ∧
     (plain → top → (b.scale : Int) = s ∧ b.codes = l.map (fun y => (elem y).1) ∧ ∀ k : Nat, b.flags.getLsbD k = true ↔
       (∃ y ∈ l, (elem y).2.getLsbD k = true) ∨ (254 < M - emax + 127 ∧ flagOverflow.getLsbD k = true)) ∧
     -- What codes 10 to 13 hold, they hold again.
     (10 ≤ c → c ≤ 13 → ∀ (s0 : Nat) (code : ElemWrite → Nat), s0 ≤ 254 →
       (∀ y ∈ l, y.draw < 2 ^ 16 ∧ code y < 2 ^ (fm.ebits + fm.fbits + 1) ∧ (decodeF fm (code y)).isNan = false ∧ (decodeF fm (code y)).isInf = false ∧
         y.val = (decodeF fm (code y)).shift ((s0 : Int) - 127)) →
       b.flags = 0 ∧ ∀ (j : Nat) (y : ElemWrite), l[j]? = some y → ∃ z, b.codes[j]? = some z ∧
         ∀ n m x n' m' x', decodeF fm (code y) = .fin n m x false → decodeF fm z = .fin n' m' x' false →
           (¬ zeros → n' = n) ∧ ∀ K : Int, 0 ≤ x + s0 + K → 0 ≤ x' + b.scale + K →
             m' * 2 ^ (x' + b.scale + K).toNat = m * 2 ^ (x + s0 + K).toNat)) ∧
    (let b := encodeGs c mode l
     let q : Nat := if c = 30 then 7 else 127
     let w := if c = 30 then 4 else 8
     let s0 := (encodeF fp16 .rne false 0 (fdiv (maxMag l).abs (.ofInt q)).1).1
     let elem (s : Nat) (y : ElemWrite) : Int × FFlags := encodeI (-(q : Int)) q mode y.draw (fdiv y.val (decodeF fp16 s)).1
     c = 30 ∨ c = 31 → plain →
     (∀ y ∈ l, magLt (maxMag l) y.val = false) ∧ ((∃ y ∈ l, y.val = maxMag l) ∨ maxMag l = .fin false 0 0 false) ∧
     b.scale = min s0 0x7BFF ∧
     (s0 = 0 → b.codes = l.map fun _ => 0) ∧
     (s0 ≠ 0 → b.codes = l.map fun y => ((elem (min s0 0x7BFF) y).1 % (2 ^ w : Nat)).toNat) ∧
     ∀ z ∈ b.codes, -(q : Int) ≤ signedOf w z ∧ signedOf w z ≤ q) ∧
    (let b := encodeQx c mode pos l
     let k := qxK c
     let quad (j : Nat) : List ElemWrite := l.filter fun y => pos y % 32 / 4 = j
     15 ≤ c → c ≤ 20 →
     (special → b.scale = 255) ∧ (zeros → b.scale = 0 ∧ b.flags = 0) ∧
     (plain → top →
       let E := max 0 (min 255 (M + 127))
       (b.scale : Int) = E ∧
       (∀ j < 8, ∃ z : Nat, b.sh[j]? = some z ∧
         ((∀ y ∈ quad j, y.val.log2? = none) → z = 3) ∧
         (∀ m : Int, (∃ y ∈ quad j, y.val.log2? = some m) → (∀ y ∈ quad j, ∀ p, y.val.log2? = some p → p ≤ m) → (z : Int) = max 0 (min 3 (E - 127 - m)))) ∧
       ∀ (j : Nat) (y : ElemWrite), l[j]? = some y → ∀ n m x (t : Nat), y.val = .fin n m x false →
         x + 127 + nth b.sh (pos y % 32 / 4) 0 + (k - 1 : Nat) - E = -(t : Int) → 0 < t →
         let v := m / 2 ^ t
         let r := m % 2 ^ t
         let up : Prop :=
           match mode with
           | .rtz => False
           | .rup => n = false ∧ r ≠ 0
           | .rdn => n = true ∧ r ≠ 0
           | .stoch => 65536 ≤ r * 65536 / 2 ^ t + y.draw
           | _ => 2 ^ t < 2 * r ∨ (2 * r = 2 ^ t ∧ v % 2 = 1)
         let code (a : Nat) := (if n then 2 ^ k else 0) + min a (2 ^ k - 1)
         (up → b.codes[j]? = some (code (v + 1))) ∧ (¬ up → b.codes[j]? = some (code v))) ∧
     -- What a QX block holds, it holds again.
     (∀ (E : Nat) (SH : Nat → Nat) (sg : ElemWrite → Bool) (mg : ElemWrite → Nat), E ≤ 255 → (∀ j, SH j ≤ 3) →
       (∀ y ∈ l, y.draw < 2 ^ 16 ∧ mg y < 2 ^ k ∧ y.val = .fin (sg y) (mg y) ((E : Int) - 127 - SH (pos y % 32 / 4) - (k - 1 : Nat)) false) →
       b.flags = 0 ∧ b.scale ≤ 255 ∧ ∀ (j : Nat) (y : ElemWrite), l[j]? = some y →
         let sh := nth b.sh (pos y % 32 / 4) 0
         ∃ z, b.codes[j]? = some z ∧ sh ≤ 3 ∧ z / 2 ^ k = (if sg y then 1 else 0) ∧
           z % 2 ^ k * 2 ^ (b.scale + 3 - sh) = mg y * 2 ^ (E + 3 - SH (pos y % 32 / 4)))) ∧
    (∀ (es : List Nat) (e : TidEntry) (rd : Nat → Nat) (r : Nat), (∀ x ∈ es, x < 256) →
      let bs := nibbleBytes (streamNibbles none es)
      (∀ j (_ : j < bs.length), rd (e.sbase + r * e.srow + j) = bs[j]) → ∀ q (_ : q < es.length), ∃ n, e.stream rd r q = .ok es[q] n) ∧
    nibbleBytes (streamNibbles none [128, 130, 112, 113]) = [0x08, 0x28, 0x08, 0x17])

/-- 09 R181, R182: minimum, maximum, sign operations, classification and comparison. -/
def Obligations.VectorFloatCompare : Prop :=
  ∀ (s : State) (t : Thread) (p : Pred) (cc : Cond) (fc : FCond) (d a b : VReg) (q : PReg) (k : SReg),
    let f := Form.lanes 8 p
    s.Issues t f →
    let x (i : Fin 32) : Lane := (t.vreg s.cur.body a)[i]
    let y (i : Fin 32) : Lane := (t.vreg s.cur.body b)[i]
    let z : Lane := (t.sreg s.cur.body k).setWidth 32
    let in' (v : Lane) : Lane := if t.daz ∧ v &&& 0x7F800000 = 0 then v &&& 0x80000000 else v
    let nan (v : Lane) : Bool := 0x7F800000 < (v &&& 0x7FFFFFFF).toNat
    let sig (v : Lane) : Bool := nan v && !v.getLsbD 22
    let num (v : Lane) : Int := if v.getLsbD 31 then -((v &&& 0x7FFFFFFF).toNat : Int) else (v &&& 0x7FFFFFFF).toNat
    let fl (c : Bool) : FFlags := if c then flagInvalid else 0
    let less (v w : Lane) : Bool := num v < num w || (num v = num w && v.getLsbD 31 && !w.getLsbD 31)
    let mn (v w : Lane) : Lane × FFlags := if nan v || nan w then (0x7FC00000, fl (sig v || sig w)) else (if less w v then w else v, 0)
    let mx (v w : Lane) : Lane × FFlags := if nan v || nan w then (0x7FC00000, fl (sig v || sig w)) else (if less v w then w else v, 0)
    let cmp (v w : Lane) : Bool × FFlags :=
      let un := nan v || nan w
      let s' := fl (sig v || sig w)
      match fc with
      | .eq => (!un && num v = num w, s') | .ne => (un || num v ≠ num w, s')
      | .lt => (!un && num v < num w, fl un) | .le => (!un && num v ≤ num w, fl un)
      | .gt => (!un && num v > num w, fl un) | .ge => (!un && num v ≥ num w, fl un)
      | .un => (un, s') | .ord => (!un, s')
    let int (v w : Lane) : Bool × FFlags :=
      (match cc with
        | .eq => v = w | .ne => v ≠ w | .lt => v.toInt < w.toInt | .ge => v.toInt ≥ w.toInt
        | .ltu => v.toNat < w.toNat | .geu => v.toNat ≥ w.toNat | .tst => v &&& w ≠ 0 | .tstn => v &&& w = 0, 0)
    let lanes (o : Out) (r : Fin 32 → Lane × FFlags) := s.WritesLanes t f d r t.seed o
    lanes (exec (.vFmin p d a b) s) (fun i => mn (in' (x i)) (in' (y i))) ∧
    lanes (exec (.vFmax p d a b) s) (fun i => mx (in' (x i)) (in' (y i))) ∧
    lanes (exec (.vFminScalar p d a k) s) (fun i => mn (in' (x i)) (in' z)) ∧
    lanes (exec (.vFmaxScalar p d a k) s) (fun i => mx (in' (x i)) (in' z)) ∧
    lanes (exec (.vFabs p d a) s) (fun i => (x i &&& 0x7FFFFFFF, 0)) ∧
    lanes (exec (.vFneg p d a) s) (fun i => (x i ^^^ 0x80000000, 0)) ∧
    lanes (exec (.vFcopysign p d a b) s) (fun i => ((x i &&& 0x7FFFFFFF) ||| (y i &&& 0x80000000), 0)) ∧
    lanes (exec (.vFclass p d a) s) (fun i => (fclass (x i), 0)) ∧
    s.WritesMask t f q (fun i => int (x i) (y i)) (exec (.vCmp p cc q a b) s) ∧
    s.WritesMask t f q (fun i => int (x i) z) (exec (.vCmpScalar p cc q a k) s) ∧
    s.WritesMask t f q (fun i => cmp (in' (x i)) (in' (y i))) (exec (.vFcmp p fc q a b) s) ∧
    s.WritesMask t f q (fun i => cmp (in' (x i)) (in' z)) (exec (.vFcmpScalar p fc q a k) s) ∧
    (∀ v : Lane, ∃ n < 10, fclass v = BitVec.ofNat 32 (2 ^ n) ∧ (8 ≤ n ↔ nan v = true) ∧ (n = 8 ↔ sig v = true) ∧
      ((n = 0 ∨ n = 7) ↔ v &&& 0x7FFFFFFF = 0x7F800000) ∧ ((n = 3 ∨ n = 4) ↔ v &&& 0x7FFFFFFF = 0) ∧
      ((n = 2 ∨ n = 5) ↔ v &&& 0x7F800000 = 0 ∧ v &&& 0x007FFFFF ≠ 0) ∧ (n < 4 → v.getLsbD 31 = true) ∧
      (4 ≤ n ∧ n < 8 → v.getLsbD 31 = false))

/-- 09 R183: permutations, broadcasts, moves and selections, lane by lane; the queue source. -/
def Obligations.VectorPermute : Prop :=
  ∀ (s : State) (t : Thread) (p : Pred) (d a b c : VReg) (r : SReg) (dq : SReg) (q : PReg) (u : QReg) (k : BitVec 5) (j : BitVec 32)
    (w : Word) (l : List QEntry),
    let f := Form.lanes 8 p
    let f12 := Form.lanes 12 p
    let at' (v : VReg) (n : Nat) (h : n < 32) : Lane := (t.vreg s.cur.body v)[n]
    let pick (v w : VReg) (n : Nat) : Lane :=
      if h : n < 32 then at' v n h else if h : n - 32 < 32 then at' w (n - 32) h else 0
    let gives (o : Out) (g : Fin 32 → Lane) := o = s.writesV t f d g 0 2
    let x (i : Fin 32) : Nat := ((t.vreg s.cur.body b)[i]).toNat
    (s.Issues t f →
      gives (exec (.vPerm p d a b) s) (fun i => pick a a (x i % 32)) ∧
      gives (exec (.vPerm2 p d a b c) s) (fun i => pick a c (x i % 64)) ∧
      gives (exec (.vShuf p .rev d a b) s) (fun i => pick a a (31 - i.val)) ∧
      gives (exec (.vShuf p .swap d a b) s) (fun i => pick a a (if i.val % 2 = 0 then i.val + 1 else i.val - 1)) ∧
      gives (exec (.vShuf p .zlo d a b) s) (fun i => pick (if i.val % 2 = 0 then a else b) a (i.val / 2)) ∧
      gives (exec (.vShuf p .zhi d a b) s) (fun i => pick (if i.val % 2 = 0 then a else b) a (16 + i.val / 2)) ∧
      gives (exec (.vShuf p .even d a b) s) (fun i => pick a b (2 * i.val)) ∧
      gives (exec (.vShuf p .odd d a b) s) (fun i => pick a b (2 * i.val + 1)) ∧
      gives (exec (.vBcast p d r) s) (fun _ => (t.sreg s.cur.body r).setWidth 32) ∧
      gives (exec (.vBcastLane p d a k) s) (fun _ => pick a a k.toNat) ∧
      gives (exec (.vSlide p d a b k) s) (fun i => pick a b (i.val + k.toNat)) ∧
      gives (exec (.vMov p d a) s) (fun i => pick a a i.val) ∧
      gives (exec (.vSel p d a b q) s) (fun i => pick (if (t.preg q).getLsbD i.val then a else b) a i.val) ∧
      gives (exec (.vMovToLane p d r k) s)
        (fun i => if i.val = k.toNat then (t.sreg s.cur.body r).setWidth 32 else pick d d i.val) ∧
      exec (.vMovFromLane p dq a k) s = s.completes t f
        ((if (t.predMask p).getLsbD k.toNat then s.modCur fun y => y.setS dq ((pick a a k.toNat).setWidth 64) else s).count
          (s.partNum t) 3 1) 2 0 ∧
      (t.q[u] = .val w :: l →
        exec (.vBcastQ p d u) s = s.completes t f
          ((s.modCur fun y => ({ y with q := y.q.set u l } : Thread).setV s.cur.body d (t.predMask p) fun _ => w.setWidth 32).count
            (s.partNum t) 3 1) 2 0) ∧
      (t.q[u] = .eos :: l → exec (.vBcastQ p d u) s = s.faults t f { cause := .queue, info := BitVec.ofNat 64 u.val }) ∧
      (t.q[u] = [] → exec (.vBcastQ p d u) s = s.waits t f s (.stall 10))) ∧
    (s.Issues t f12 → exec (.vBcastImm p d j) s = s.writesV t f12 d (fun _ => j) 0 2)

/-- 09 R184: the integer reductions over the active lanes, and nothing written where none is active; 09 R184: `v.red.fadd` adds in its fixed tree, `T k j` being node j of level k with the flags gathered below it; `v.red.fmin` and `v.red.fmax`. -/
def Obligations.VectorReduce : Prop :=
  (∀ (s : State) (t : Thread) (p : Pred) (m : VMode) (d a : VReg),
    let f := Form.lanes 8 p
    s.Issues t f →
    let on (i : Fin 32) : Bool := (t.predMask p).getLsbD i.val
    let x (i : Fin 32) : Lane := (t.vreg s.cur.body a)[i]
    let all (o : Out) (r : Lane × FFlags) := o = s.writesV t f d (fun _ => r.1) r.2 2
    let none' (o : Out) := o = s.completes t f (s.count (s.partNum t) 3 1) 2 0
    let sum : Int := ((List.finRange 32).map fun i => if on i then vecRead 32 m (x i) else 0).sum
    ((∀ i, on i = false) →
      none' (exec (.vRedAdd p m d a) s) ∧ none' (exec (.vRedMin p m d a) s) ∧ none' (exec (.vRedMax p m d a) s) ∧
      none' (exec (.vRedAnd p d a) s) ∧ none' (exec (.vRedOr p d a) s) ∧ none' (exec (.vRedXor p d a) s) ∧
      none' (exec (.vRedFmin p d a) s) ∧ none' (exec (.vRedFmax p d a) s)) ∧
    ((∃ i, on i = true) →
      all (exec (.vRedAdd p m d a) s) (vecResult 32 m sum) ∧
      (∃ i, on i = true ∧ all (exec (.vRedMin p m d a) s) (x i, 0) ∧ ∀ j, on j = true → vecRead 32 m (x i) ≤ vecRead 32 m (x j)) ∧
      (∃ i, on i = true ∧ all (exec (.vRedMax p m d a) s) (x i, 0) ∧ ∀ j, on j = true → vecRead 32 m (x j) ≤ vecRead 32 m (x i)) ∧
      (∃ v, all (exec (.vRedAnd p d a) s) (v, 0) ∧ ∀ n < 32, v.getLsbD n = true ↔ ∀ i, on i = true → (x i).getLsbD n = true) ∧
      (∃ v, all (exec (.vRedOr p d a) s) (v, 0) ∧ ∀ n < 32, v.getLsbD n = true ↔ ∃ i, on i = true ∧ (x i).getLsbD n = true) ∧
      (∃ v, all (exec (.vRedXor p d a) s) (v, 0) ∧
        ∀ n < 32, v.getLsbD n = true ↔ ((List.finRange 32).countP fun i => on i && (x i).getLsbD n) % 2 = 1))) ∧
  (∀ (s : State) (t : Thread) (p : Pred) (rm : RM) (d a : VReg) (T : Nat → Nat → Option Lane × FFlags),
    let f := Form.lanes 8 p
    s.Issues t f →
    let on (i : Fin 32) : Bool := (t.predMask p).getLsbD i.val
    let x (i : Fin 32) : Lane := (t.vreg s.cur.body a)[i]
    let in' (i : Fin 32) : Lane := if t.daz ∧ x i &&& 0x7F800000 = 0 then x i &&& 0x80000000 else x i
    let nan (v : Lane) : Bool := 0x7F800000 < (v &&& 0x7FFFFFFF).toNat
    let mode := if rm = .dyn then RM.ofCode (t.rmode.toNat % 8) else rm
    let dr := if mode = .stoch then draws 31 t.seed else ([], t.seed)
    let canon (v : Lane) : Lane := if nan v then 0x7FC00000 else v
    let join (n : Nat) (u v : Option Lane × FFlags) : Option Lane × FFlags :=
      match u.1, v.1 with
      | none, w => (w, u.2 ||| v.2)
      | w, none => (w, u.2 ||| v.2)
      | some y, some z =>
        let r := t.fround mode (nth dr.1 n 0) (fadd mode (decodeF fp32 y.toNat) (decodeF fp32 z.toNat))
        (some r.1, u.2 ||| v.2 ||| r.2)
    let out (v : Option Lane × FFlags) : Out := s.completes t f
      ((s.modCur fun u => match v.1 with
        | none => { u with seed := dr.2 }
        | some y => (({ u with seed := dr.2 } : Thread).setV s.cur.body d (t.predMask p) fun _ => canon y).orFlags v.2).count
          (s.partNum t) 3 1) 2 0
    let signal : FFlags := if ∃ i, on i = true ∧ nan (x i) = true ∧ (x i).getLsbD 22 = false then flagInvalid else 0
    ((∀ i : Fin 32, T 0 i.val = (if on i then some (in' i) else none, 0)) →
      (∀ k < 5, ∀ j < 2 ^ (4 - k), T (k + 1) j = join (32 - 2 ^ (5 - k) + j) (T k (2 * j)) (T k (2 * j + 1))) →
      exec (.vRedFadd p rm d a) s = out ((T 5 0).1, (T 5 0).2 ||| signal)) ∧
    ((∃ i, on i = true) →
      (∃ i, on i = true ∧ exec (.vRedFmin p d a) s = s.writesV t f d (fun _ => if ∃ j, on j = true ∧ nan (x j) = true then 0x7FC00000 else in' i) signal 2 ∧
        ((∀ j, on j = true → nan (x j) = false) → ∀ j, on j = true → forder (in' i) ≤ forder (in' j))) ∧
      (∃ i, on i = true ∧ exec (.vRedFmax p d a) s = s.writesV t f d (fun _ => if ∃ j, on j = true ∧ nan (x j) = true then 0x7FC00000 else in' i) signal 2 ∧
        ((∀ j, on j = true → nan (x j) = false) → ∀ j, on j = true → forder (in' j) ≤ forder (in' i)))))

/-- 09 R185: the scans: each active lane gets the result over the active lanes up to its own; `A n` is the accumulator of `v.scan.fadd` before lane n. -/
def Obligations.VectorScan : Prop :=
  ∀ (s : State) (t : Thread) (p : Pred) (m : VMode) (rm : RM) (d a : VReg) (A : Nat → Option Lane),
    let f := Form.lanes 8 p
    s.Issues t f →
    let on (i : Fin 32) : Bool := (t.predMask p).getLsbD i.val
    let x (i : Fin 32) : Lane := (t.vreg s.cur.body a)[i]
    let in' (i : Fin 32) : Lane := if t.daz ∧ x i &&& 0x7F800000 = 0 then x i &&& 0x80000000 else x i
    let nan (v : Lane) : Bool := 0x7F800000 < (v &&& 0x7FFFFFFF).toNat
    let canon (v : Lane) : Lane := if nan v then 0x7FC00000 else v
    let upto (i : Fin 32) (last : Bool) : Int :=
      ((List.finRange 32).map fun j => if on j && (j < i || (last && j = i)) then vecRead 32 m (x j) else 0).sum
    let gives (o : Out) (r : Fin 32 → Lane × FFlags) := ∃ g fl, o = s.writesV t f d g fl 2 ∧
      (∀ i, on i = true → g i = (r i).1) ∧ (∀ n : Nat, fl.getLsbD n = true ↔ ∃ i, on i = true ∧ (r i).2.getLsbD n = true)
    let best (o : Out) (fl : FFlags) (canon : Lane → Lane) (le : Lane → Lane → Prop) (y : Fin 32 → Lane) := ∃ g, o = s.writesV t f d g fl 2 ∧
      ∀ i, on i = true → ∃ j ≤ i, on j = true ∧ g i = canon (y j) ∧ ∀ k ≤ i, on k = true → le (y j) (y k)
    let mode := if rm = .dyn then RM.ofCode (t.rmode.toNat % 8) else rm
    let dr := if mode = .stoch then draws 32 t.seed else ([], t.seed)
    let add (y z : Lane) (n : Nat) := t.fround mode (nth dr.1 n 0) (fadd mode (decodeF fp32 y.toNat) (decodeF fp32 z.toNat))
    let signal : FFlags := if ∃ i, on i = true ∧ nan (x i) = true ∧ (x i).getLsbD 22 = false then flagInvalid else 0
    gives (exec (.vScanAdd p m d a) s) (fun i => vecResult 32 m (upto i true)) ∧
    gives (exec (.vScanXadd p m d a) s) (fun i => vecResult 32 m (upto i false)) ∧
    best (exec (.vScanMin p m d a) s) 0 id (fun y z => vecRead 32 m y ≤ vecRead 32 m z) x ∧
    best (exec (.vScanMax p m d a) s) 0 id (fun y z => vecRead 32 m z ≤ vecRead 32 m y) x ∧
    best (exec (.vScanFmin p d a) s) signal canon (fun y z => nan y = true ∨ (nan z = false ∧ forder y ≤ forder z)) in' ∧
    best (exec (.vScanFmax p d a) s) signal canon (fun y z => nan y = true ∨ (nan z = false ∧ forder z ≤ forder y)) in' ∧
    (A 0 = none →
      (∀ i : Fin 32, A (i.val + 1) = if on i then some (match A i.val with | none => in' i | some y => (add y (in' i) i.val).1) else A i.val) →
      ∃ g fl, exec (.vScanFadd p rm d a) s = s.completes t f
          ((s.modCur fun u => { (u.setV s.cur.body d (t.predMask p) g).orFlags (fl ||| signal) with seed := dr.2 }).count (s.partNum t) 3 1) 2 0 ∧
        (∀ (i : Fin 32) (y : Lane), on i = true → A (i.val + 1) = some y → g i = canon y) ∧
        (∀ n : Nat, fl.getLsbD n = true ↔ ∃ (i : Fin 32) (y : Lane), on i = true ∧ A i.val = some y ∧ (add y (in' i) i.val).2.getLsbD n = true))

/-- 09 R186, 02 R33: conversions between lanes and slice K of a register: element n of the slice is bits [w × n + w - 1 : w × n] of it, read with its format's subnormals as zero under DAZ (that DAZ reaches every floating-point element format is log entry 44). -/
def Obligations.VectorConvert : Prop :=
  ∀ (s : State) (t : Thread) (p : Pred) (rm : RM) (ty : CvtType) (d a : VReg) (fmt k : BitVec 5),
    let f := Form.lanes 8 p
    s.Issues t f → (fmt.toNat ≤ 8 ∨ (21 ≤ fmt.toNat ∧ fmt.toNat ≤ 29)) → k.toNat < 32 / elemWidth fmt.toNat →
    let w := elemWidth fmt.toNat
    let base := 32 * w * k.toNat
    let on (i : Nat) : Bool := (t.predMask p).getLsbD i
    let bit (v : Vector Lane 32) (n : Nat) : Bool := (nth v.toList (n / 32) 0).getLsbD (n % 32)
    let x (i : Fin 32) : FVal :=
      let v := (t.vreg s.cur.body a)[i]
      match ty with | .fl => t.fread v | .si => .ofInt v.toInt | .ui => .ofInt v.toNat
    let mode := if rm = .dyn then RM.ofCode (t.rmode.toNat % 8) else rm
    let dr := if mode = .stoch then draws 32 t.seed else ([], t.seed)
    let c (i : Fin 32) := t.flushElem fmt.toNat (encodeElem fmt.toNat mode t.satc (nth dr.1 i.val 0) (x i))
    let e (i : Fin 32) : Nat := ofBits ((List.range w).filter fun j => bit (t.vreg s.cur.body a) (base + w * i.val + j))
    (∃ (g : Vector Lane 32) (fl : FFlags),
      exec (.vCvtN p rm ty d a fmt k) s = s.completes t f
        ((s.modCur fun u => { (u.setV s.cur.body d (BitVec.allOnes 32) fun i => g[i]).orFlags fl with seed := dr.2 }).count (s.partNum t) 3 1) 2 0 ∧
      (∀ n < 1024, bit g n =
        if h : base ≤ n ∧ n < base + 32 * w ∧ (n - base) / w < 32 then
          if on ((n - base) / w) then (c ⟨(n - base) / w, h.2.2⟩).1.testBit ((n - base) % w) else bit (t.vreg s.cur.body d) n
        else bit (t.vreg s.cur.body d) n) ∧
      (∀ n : Nat, fl.getLsbD n = true ↔ ∃ i : Fin 32, on i.val = true ∧ (c i).2.getLsbD n = true)) ∧
    s.WritesLanes t f d (fun i =>
      let v := t.eread fmt.toNat (e i)
      let r := widenLane t ty mode (nth dr.1 i.val 0) v.1
      (r.1, v.2 ||| r.2)) dr.2 (exec (.vCvtW p rm ty d a fmt k) s) ∧
    (∀ (g : FFmt) (n : Nat), floatFmt fmt.toNat = some g → n < 2 ^ w →
      let m := if fmt = 3 then n / 2 ^ 13 else n
      t.eread fmt.toNat n =
        (if t.daz = true ∧ m % 2 ^ (g.ebits + g.fbits) < 2 ^ g.fbits then .fin (m.testBit (g.ebits + g.fbits)) 0 0 false
         else decodeF g m, 0)) ∧
    (floatFmt fmt.toNat = none → ∀ n, t.eread fmt.toNat n = decodeElem fmt.toNat n)

/-- 11 R218, R220, R228: the scalar loads and stores of the local store: the address, the value loaded with its extension, the bytes stored, after the thread's waiting operations where ordering and scope make the store a release (06 R110-R112, log entry 58). The failed translation behind a page that a store may not write is log entry 16; 11 R218, R230: what a word access to the local store meets, in the order of the checks: ALIGN, LS-RANGE, a stash entry that is not READY (an EMPTY one starts its fill), and for a load the lowest word in error. -/
def Obligations.LocalLoadStore : Prop :=
  (∀ (s : State) (t : Thread) (p : Pred) (px : Option Prefix) (d a b : SReg) (disp : BitVec 16),
    let f := Form.beside (plen px 8) p
    s.Issues t f →
    let at' := t.sreg s.cur.body a + dispOf px disp
    let v (n : Nat) : Nat := ((s.core t.vt t.cslot).ls).read at'.toNat n
    let can (n : Nat) (w : Bool) := s.LsFree t { addr := at'.toNat, width := n, bytes := n, write := w }
    let load (x : Word) := s.completes t f (s.modCur fun u => u.setS d x) 1 0
    let store (n : Nat) := s.completes t f
      ((s.released t (t.attrOf px)).modCore t.vt t.cslot fun c => c.store at'.toNat (natBytes n (t.sreg s.cur.body b).toNat)) 1 0
    (can 1 false → exec (.ldB p px d a disp) s = load (BitVec.ofNat 64 (v 1)) ∧
      exec (.ldBs p px d a disp) s = load ((BitVec.ofNat 8 (v 1)).signExtend 64)) ∧
    (can 2 false → exec (.ldH p px d a disp) s = load (BitVec.ofNat 64 (v 2)) ∧
      exec (.ldHs p px d a disp) s = load ((BitVec.ofNat 16 (v 2)).signExtend 64)) ∧
    (can 4 false → exec (.ldW p px d a disp) s = load (BitVec.ofNat 64 (v 4)) ∧
      exec (.ldWs p px d a disp) s = load ((BitVec.ofNat 32 (v 4)).signExtend 64)) ∧
    (can 8 false → exec (.ldD p px d a disp) s = load (BitVec.ofNat 64 (v 8))) ∧
    (can 1 true → exec (.stB p px a b disp) s = store 1) ∧ (can 2 true → exec (.stH p px a b disp) s = store 2) ∧
    (can 4 true → exec (.stW p px a b disp) s = store 4) ∧ (can 8 true → exec (.stD p px a b disp) s = store 8)) ∧
  (∀ (s : State) (t : Thread) (p : Pred) (px : Option Prefix) (d a b : SReg) (disp : BitVec 16),
    let f := Form.beside (plen px 8) p
    s.Issues t f →
    let at' := t.sreg s.cur.body a + dispOf px disp
    let c := s.core t.vt t.cslot
    let inside := s.reaches t.gang t.vt t.cslot at'.toNat 4 = true
    let both (o : Out) := exec (.ldW p px d a disp) s = o ∧ exec (.stW p px a b disp) s = o
    (at'.toNat % 4 ≠ 0 → both (s.faults t f { cause := .align, addr := at' })) ∧
    (at'.toNat % 4 = 0 → ¬ inside → both (s.faults t f { cause := .lsRange, addr := at' })) ∧
    (at'.toNat % 4 = 0 → inside → ∀ e, c.stash.find? (fun e => e.meets at'.toNat 4 && e.st != .ready) = some e →
      both (s.waits t f
        (if e.st = .empty then s.startFill t.vt t.cslot e.num none (some s.cur.stream)
         else if e.st = .filling ∧ e.fillBy = none then
           s.modCore t.vt t.cslot fun c => c.modStash e.num fun x => { x with fillBy := some s.cur.stream }
         else s) (.stall 12))) ∧
    (s.LsReach t { addr := at'.toNat, width := 4, bytes := 4, write := false } → at'.toNat / 4 ∈ c.bad →
      exec (.ldW p px d a disp) s = s.faults t f { cause := .memErr, addr := at' }))

/-- 11 R219, R230, R398: what storing bytes into a local store makes of its bytes, tags, errors and dirty marks; 00 R2, 11 R217: a number written into a memory is read back, least significant byte at the lowest address, and no other byte changes; a store to HBM clears the errors of the 32-byte granules it covers. -/
def Obligations.MemoryBytes : Prop :=
  (∀ (c : Core) (a : Nat) (bs : List Byte), c.ls.wf = true →
    let d := c.store a bs
    let in' (x : Nat) : Prop := a ≤ x ∧ x < a + bs.length
    (∀ x, d.ls.byte x = if in' x then nth bs (x - a) 0 else c.ls.byte x) ∧ d.ls.wf = true ∧
    (∀ w, w ∈ d.full ↔ w ∈ c.full ∨ ∃ x, in' x ∧ x / 4 = w) ∧
    (∀ w, w ∈ d.wrote ↔ w ∈ c.wrote ∨ ∃ x, in' x ∧ x / 4 = w) ∧
    (∀ w, w ∈ d.bad ↔ w ∈ c.bad ∧ ¬ (in' (4 * w) ∧ in' (4 * w + 3))) ∧
    (∀ x, (∃ e ∈ d.stash, e.st = .ready ∧ e.lbase ≤ x ∧ x - e.lbase ∈ e.dirty) ↔
      (∃ e ∈ c.stash, e.st = .ready ∧ e.lbase ≤ x ∧ (x - e.lbase ∈ e.dirty ∨ (in' x ∧ x < e.lbase + e.size)))) ∧
    (d.acc = c.acc ∧ d.mxq = c.mxq ∧ d.vt = c.vt ∧ d.slot = c.slot)) ∧
  ((∀ (m : Memory) (a n x : Nat), m.wf = true →
    (m.write a n x).read a n = x % 2 ^ (8 * n) ∧ (m.write a n x).wf = true ∧
    (∀ k < n, (m.write a n x).byte (a + k) = BitVec.ofNat 8 (x / 2 ^ (8 * k))) ∧
    (∀ b, (b < a ∨ a + n ≤ b) → (m.write a n x).byte b = m.byte b)) ∧
  (∀ (s : State) (pa n x : Nat),
    (s.writeHbm pa n x).hbm = s.hbm.write pa n x ∧ (s.writeHbm pa n x).cores = s.cores ∧ (s.writeHbm pa n x).memOps = s.memOps ∧
    ∀ g, g ∈ (s.writeHbm pa n x).hbmBad ↔ g ∈ s.hbmBad ∧ ¬ (pa ≤ 32 * g ∧ 32 * g + 32 ≤ pa + n)))

/-- 09 R187-R189: the vector loads, stores, gathers and scatters: each lane's address, the lanes leaving in ascending order, a store's after the thread's waiting operations where it is a release (log entry 58); a base from a queue register. And how they are applied: one at a time in that order, so that another thread of the core can find part of them, and all of them before anything but a local-store access of another thread; a store's lane puts its four bytes into that core's local store alone, a load's takes them into its lane of the register. Which turns find them applied is the model's reading (log entry 8). -/
def Obligations.VectorMemory : Prop :=
  ∀ (s : State) (t : Thread) (p : Pred) (px : Option Prefix) (v b : VReg) (a k : SReg) (q : QReg) (sh : BitVec 2)
    (i16 : BitVec 16) (i32 : BitVec 32) (w : Word) (r : List QEntry),
    let f := Form.lanes (plen px 8) p
    let f12 := Form.lanes (plen px 12) p
    let x := t.sreg s.cur.body a
    let lanes := (List.finRange 32).filter fun i => (t.predMask p).getLsbD i.val
    let row (base disp step : Word) (i : Fin 32) : Word := base + disp + BitVec.ofNat 64 i.val * step
    let spread (i : Fin 32) : Word := x + dispOf px i16 + ((t.vreg s.cur.body b)[i]).setWidth 64 <<< sh.toNat
    let can (s : State) (wr : Bool) (g : Fin 32 → Word) := ∀ i ∈ lanes, s.LsFree t { addr := (g i).toNat, width := 4, bytes := 4, write := wr }
    let loads (s : State) (f : Form) (o : Out) (g : Fin 32 → Word) := can s false g →
      o = s.completes t f ((s.modCur fun u =>
        { u with lanes := u.lanes ++ lanes.map fun i => .load (g i).toNat (u.vname s.cur.body v) i }).count (s.partNum t) 3 1) 2 0
    let stores (s : State) (f : Form) (o : Out) (g : Fin 32 → Word) := can s true g →
      o = s.completes t f (((s.released t (t.attrOf px)).modCur fun u =>
        { u with lanes := u.lanes ++ lanes.map fun i => .store (g i).toNat (t.vreg s.cur.body v)[i] }).count (s.partNum t) 3 1) 2 0
    let d16 := dispOf px i16
    let d32 := i32.signExtend 64
    let y := t.sreg s.cur.body k
    let popped := s.modCur fun _ => { t with q := t.q.set q r }
    (s.Issues t f →
      loads s f (exec (.vLd p px v a i16) s) (row x d16 4) ∧ stores s f (exec (.vSt p px v a i16) s) (row x d16 4) ∧
      loads s f (exec (.vLdS p px v a k i16) s) (row x d16 y) ∧ stores s f (exec (.vStS p px v a k i16) s) (row x d16 y) ∧
      loads s f (exec (.vGath p px v a b sh i16) s) spread ∧ stores s f (exec (.vScat p px v a b sh i16) s) spread ∧
      (t.q[q] = .val w :: r →
        loads popped f (exec (.vLdQ p px v q i16) s) (row w d16 4) ∧ stores popped f (exec (.vStQ p px v q i16) s) (row w d16 4) ∧
        loads popped f (exec (.vLdQS p px v q k i16) s) (row w d16 y) ∧ stores popped f (exec (.vStQS p px v q k i16) s) (row w d16 y)) ∧
      (t.q[q] = [] → exec (.vLdQ p px v q i16) s = s.waits t f s (.stall 10) ∧ exec (.vStQ p px v q i16) s = s.waits t f s (.stall 10))) ∧
    (s.Issues t f12 →
      loads s f12 (exec (.vLdLong p px v a i32) s) (row x d32 4) ∧ stores s f12 (exec (.vStLong p px v a i32) s) (row x d32 4) ∧
      loads s f12 (exec (.vLdSLong p px v a k i32) s) (row x d32 y) ∧ stores s f12 (exec (.vStSLong p px v a k i32) s) (row x d32 y) ∧
      (t.q[q] = .val w :: r →
        loads popped f12 (exec (.vLdQLong p px v q i32) s) (row w d32 4) ∧ stores popped f12 (exec (.vStQLong p px v q i32) s) (row w d32 4) ∧
        loads popped f12 (exec (.vLdQSLong p px v q k i32) s) (row w d32 y) ∧
        stores popped f12 (exec (.vStQSLong p px v q k i32) s) (row w d32 y))) ∧
    (∀ (vt slot : Nat) (z : LaneOp) (l : List LaneOp) (is : List (Fin 32)) (ad : Fin 32 → Nat) (d : VReg),
      let u := s.thread vt slot
      let home := s.core vt (slot / 4)
      let put (c : Core) (z : LaneOp) : Core := match z with | .store a x => c.store a (natBytes 4 x.toNat) | .load _ _ _ => c
      let get (u : Thread) (z : LaneOp) : Thread := match z with
        | .store _ _ => u
        | .load a d i => { u with v := u.v.set d ((u.v[d]).set i (BitVec.ofNat 32 (home.ls.read a 4))) }
      let one := s.landLane vt slot
      let all := s.landThread vt slot
      (u.lanes = [] → one = s ∧ all = s) ∧
      (u.lanes = z :: l → one.core vt (slot / 4) = put home z ∧ one.thread vt slot = get { u with lanes := l } z) ∧
      all.core vt (slot / 4) = u.lanes.foldl put home ∧ (all.thread vt slot).lanes = [] ∧ all.hbm = s.hbm ∧
      -- The lanes of a load, where no store comes between them: the active lanes read their words, the others keep theirs.
      (u.lanes = is.map (fun i => .load (ad i) d i) →
        (∀ i : Fin 32, ((all.thread vt slot).v[d])[i] = if i ∈ is then BitVec.ofNat 32 (home.ls.read (ad i) 4) else (u.v[d])[i]) ∧
        ∀ k : VReg, k ≠ d → (all.thread vt slot).v[k] = u.v[k]) ∧
      (∀ v c, (v, c) ≠ (vt, slot / 4) → one.core v c = s.core v c ∧ all.core v c = s.core v c) ∧
      (∀ v n, (v, n) ≠ (vt, slot) → one.thread v n = s.thread v n ∧ all.thread v n = s.thread v n)) ∧
    (∀ v n, (s.landAll.thread v n).lanes = []) ∧
    ((∀ u ∈ s.threads, u.lanes = []) → s.landAll = s ∧ ∀ v n body, s.landFor v n body = s)

/-- 09 R190-R192, 03 R56, R59, R60, R62, 02 R35-R38: `v.tdec` and `v.tenc`: the tuple of each lane, lanes outside the extents reading +0, the element values converted, the encoded bytes stored; the value of a packed element of a block format from its bytes, and what a packed block reads back as once written. The sign of a GS zero is log entry 64. Which elements DAZ takes for zero and what `v.tenc` does at the edges of its rules are the model's choices (log entries 44, 43), a release's order is log entry 58. -/
def Obligations.TensorAccess : Prop :=
  ∀ (s : State) (t : Thread) (p : Pred) (px : Option Prefix) (rm : RM) (int : Bool) (v : VReg) (n : TidN) (a : SReg) (q : QReg)
    (axis : BitVec 2) (stp : BitVec 16) (w : Word) (r : List QEntry),
    let f := Form.lanes (plen px 8) p
    let f12 := Form.lanes (plen px 12) p
    let x := t.sreg s.cur.body a
    let mode := if rm = .dyn then RM.ofCode (t.rmode.toNat % 8) else rm
    let dr := if mode = .stoch then draws 32 t.seed else ([], t.seed)
    let entryAt : Nat := (t.tidbase + 64 * n.val) % 2 ^ 64
    let c := s.core t.vt t.cslot
    let e := TidEntry.parse n.val (c.ls.bytes entryAt 64)
    let lanes := (List.finRange 32).filter fun i => (t.predMask p).getLsbD i.val
    let tuple (b : Word) (ax st : Nat) (i : Fin 32) : Idx :=
      let o (k : Nat) := if ax = k then i.val * st else 0
      { i0 := b.toNat % 2 ^ 16 + o 0, i1 := b.toNat / 2 ^ 16 % 2 ^ 16 + o 1, i2 := b.toNat / 2 ^ 32 % 2 ^ 16 + o 2, i3 := b.toNat / 2 ^ 48 + o 3 }
    let reads (s : State) : Prop := s.LsFree t { addr := entryAt, width := 4, bytes := 64, write := false }
    let dec (s : State) (f : Form) (o : Out) (b : Word) (ax st : Nat) : Prop :=
      reads s → e.ok false = true → e.global = false → (int = true → isIntCode e.fmt = true) →
      (∀ i ∈ lanes, e.has (tuple b ax st i) = true →
        (∀ y ∈ e.spans c.rd (tuple b ax st i), s.LsFree t { addr := y.1, width := 0, bytes := y.2, write := false }) ∧
        ∀ z, e.value c.rd (tuple b ax st i) t.daz ≠ .format z) →
      s.WritesLanes t f v (fun i =>
        if e.has (tuple b ax st i) then
          match e.value c.rd (tuple b ax st i) t.daz with
          | .format _ => (0, 0)
          | .val y g =>
            if int then (BitVec.ofInt 32 (encodeI (-2 ^ 31) (2 ^ 31 - 1) .rne 0 y).1, g)
            else
              let z := flush fp32 t.ftz (encodeF fp32 mode t.satc (nth dr.1 i.val 0) y)
              (BitVec.ofNat 32 z.1, z.2 ||| g)
        else (0, 0)) dr.2 o
    let enc (s : State) (f : Form) (o : Out) (b : Word) (ax st : Nat) : Prop :=
      let win := lanes.filter fun i => e.has (tuple b ax st i)
      let z := e.write c.rd mode t.satc t.ftz (win.map fun i =>
        let l := (t.vreg s.cur.body v)[i]
        { idx := tuple b ax st i, val := if int then .ofInt l.toInt else t.fread l, draw := nth dr.1 i.val 0 })
      reads s → e.ok true = true → e.global = false → st ≠ 0 → e.covers (win.map (tuple b ax st)) = true →
      (∀ i ∈ win, ∀ y ∈ e.elemSpans (tuple b ax st i), s.LsFree t { addr := y.1, width := 0, bytes := y.2, write := true }) →
      (∀ y ∈ overRuns z.laid, s.LsFree t { addr := y.1, width := 0, bytes := y.2.length, write := true }) →
      o = s.completes t f ((((s.released t (t.attrOf px)).modCore t.vt t.cslot fun c => (overRuns z.laid).foldl (fun c y => c.store y.1 y.2) c).modCur fun u =>
        { u.orFlags z.flags with seed := dr.2 }).count (s.partNum t) 3 1) 2 0
    let popped := s.modCur fun _ => { t with q := t.q.set q r }
    (s.Issues t f →
      dec s f (exec (.vTdec p px rm int v n a) s) x 0 1 ∧ enc s f (exec (.vTenc p px rm int v n a) s) x 0 1 ∧
      (t.q[q] = .val w :: r →
        dec popped f (exec (.vTdecQ p px rm int v n q) s) w 0 1 ∧ enc popped f (exec (.vTencQ p px rm int v n q) s) w 0 1) ∧
      (reads s → e.ok false = false → exec (.vTdec p px rm int v n a) s = s.faults t f { cause := .tensor, tidn := n.val }) ∧
      (reads s → e.ok true = false → exec (.vTenc p px rm int v n a) s = s.faults t f { cause := .tensor, tidn := n.val })) ∧
    (s.Issues t f12 →
      dec s f12 (exec (.vTdecLong p px rm int v n a axis stp) s) x axis.toNat stp.toNat ∧
      enc s f12 (exec (.vTencLong p px rm int v n a axis stp) s) x axis.toNat stp.toNat ∧
      (t.q[q] = .val w :: r →
        dec popped f12 (exec (.vTdecQLong p px rm int v n q axis stp) s) w axis.toNat stp.toNat ∧
        enc popped f12 (exec (.vTencQLong p px rm int v n q axis stp) s) w axis.toNat stp.toNat)) ∧
    -- The value of a packed element of a block format, from the bytes of its row and of its scale.
    (∀ (e : TidEntry) (rd : Nat → Nat) (i : Idx) (fm : FFmt), (∀ a, rd a < 256) → e.planes = false → e.saxis = false →
      let le (a n : Nat) : Nat := (List.range n).foldr (fun j x => rd (a + j) + 256 * x) 0
      let bits (a p w : Nat) : Nat := le a ((w * (p + 1) + 7) / 8) / 2 ^ (w * p) % 2 ^ w
      let row := e.base + i.i1 * e.s1 + i.i2 * e.s2 + i.i3 * e.s3
      let line := (i.i3 * e.d2 + i.i2) * e.d1 + i.i1
      let q := i.i0 / 32
      (9 ≤ e.fmt → e.fmt ≤ 14 →
        let s := rd (e.sbase + line * e.srow + q)
        let code := bits row i.i0 (elemWidth e.fmt)
        (s = 255 → e.value rd i = .val (.nan false false) 0) ∧
        (s ≠ 255 → e.fmt ≤ 13 → floatFmt (e.fmt - 5) = some fm →
          e.value rd i = .val (match decodeF fm code with | .fin n m x st => .fin n m (x + ((s : Int) - 127)) st | y => y) 0) ∧
        (s ≠ 255 → e.fmt = 14 → e.value rd i = .val (.fin (signedOf 8 code < 0) (signedOf 8 code).natAbs ((s : Int) - 127 - 6) false) 0)) ∧
      (e.fmt = 30 ∨ e.fmt = 31 →
        let s := le (e.sbase + line * e.srow + 2 * q) 2
        let z := signedOf (elemWidth e.fmt) (bits row i.i0 (elemWidth e.fmt))
        (∀ n m x, decodeF fp16 s = .fin n m x false → e.value rd i = .val (.fin ((z < 0) != n) (z.natAbs * m) x false) 0) ∧
        (∀ n, decodeF fp16 s = .inf n → e.value rd i = .val (if z = 0 then .nan false false else .inf ((z < 0) != n)) flagInvalid) ∧
        (∀ n g, decodeF fp16 s = .nan n g → e.value rd i = .val (.nan false false) flagInvalid)) ∧
      (15 ≤ e.fmt → e.fmt ≤ 20 →
        let k := qxK e.fmt
        let delta : Prop := 18 ≤ e.fmt
        let blk := row + q * qxSize e.fmt
        let o := if 18 ≤ e.fmt then 0 else 1
        let sh := le (blk + o) 2 / 4 ^ (i.i0 % 32 / 4) % 4
        let code := bits (blk + o + 2) (i.i0 % 32) (k + 1)
        let is (E : Nat) : ElemRead := .val (.fin (code / 2 ^ k = 1) (code % 2 ^ k) ((E : Int) - 127 - sh - (k - 1 : Nat)) false) 0
        (¬ delta → e.value rd i = is (rd blk)) ∧
        (delta → (∀ E n, e.stream rd line q = .ok E n → e.value rd i = is E) ∧
          ∀ n, e.stream rd line q = .bad n → e.value rd i = .format (e.sbase + line * e.srow + n / 2)))) ∧
    -- Bits written read back, and no others change; a packed block reads back as the codes, scale and shifts it was encoded to.
    (∀ (rd : Nat → Nat) (o : Overlay) (a n x b k : Nat), (∀ a, rd a < 256) → (∀ y ∈ o, y.2 < 256) → 0 < n →
      let m := overByte rd (overBits rd a n x o)
      readBits m a n = x % 2 ^ n ∧ ((b + k ≤ a ∨ a + n ≤ b) → readBits m b k = readBits (overByte rd o) b k)) ∧
    (∀ (e : TidEntry) (rd : Nat → Nat) (mode : RM) (satc : Bool) (l : List ElemWrite) (i : Idx) (q : Nat),
      (∀ a, rd a < 256) → e.planes = false → e.saxis = false → (isMx e.fmt = true ∨ isGs e.fmt = true ∨ isQxPlain e.fmt = true) →
      l ≠ [] → (l.map fun y => y.idx.i0).Nodup →
      (∀ y ∈ l, y.kept = none ∧ y.idx.i0 / 32 = q ∧ y.idx.i0 < e.d0 ∧ y.idx.i1 = i.i1 ∧ y.idx.i2 = i.i2 ∧ y.idx.i3 = i.i3) →
      let line := (i.i3 * e.d2 + i.i2) * e.d1 + i.i1
      (e.scaleAt line q + e.scaleSize ≤ e.row i ∨ e.row i + e.rowBytes ≤ e.scaleAt line q) →
      let b := if isMx e.fmt then encodeMx e.fmt mode satc false l else if isGs e.fmt then encodeGs e.fmt mode l
        else encodeQx e.fmt mode (fun y => y.idx.i0) l
      let w := e.write rd mode satc false l
      let m := overByte rd w.laid
      let blk := e.row i + q * qxSize e.fmt
      w.flags = b.flags ∧
      (isQxPlain e.fmt = false → readBits m (8 * e.scaleAt line q) (8 * e.scaleSize) = b.scale % 2 ^ (8 * e.scaleSize)) ∧
      (isQxPlain e.fmt = true → readBits m (8 * blk) 8 = b.scale % 256 ∧
        ∀ y ∈ l, readBits m (8 * (blk + 1) + 2 * (y.idx.i0 % 32 / 4)) 2 = nth b.sh (y.idx.i0 % 32 / 4) 0 % 4) ∧
      ∀ (j : Nat) (y : ElemWrite), l[j]? = some y →
        let width := if isQxPlain e.fmt then qxK e.fmt + 1 else elemWidth e.fmt
        ∃ c, b.codes[j]? = some c ∧ readBits m (e.packedBit y.idx) width = c % 2 ^ width)

/-- 10 R193-R195, R199-R203, R206-R210, 02 R43: a matrix command at issue captures its masks, mode, seed and tensor entries, enters the core's queue and is charged its units; its handle becomes PENDING. That `tidA` is the first identifier of TENSOR and that `mx.mov` to a vector waits on a broken residue are log entry 42. -/
def Obligations.MatrixIssue : Prop :=
  ∀ (s : State) (t : Thread) (p : Pred) (rm : RM) (i32 accz : Bool) (d : AReg) (ta tb : TidN) (k : SReg) (q : QReg) (nsl : BitVec 10)
    (h : Option HReg) (u v : BitVec 16) (n0 n1 : BitVec 5) (rows : BitVec 16) (m : BitVec 3) (vr : VReg) (w : Word) (r : List QEntry) (pa : Nat),
    let f := Form.blocked 8 p
    let f12 := Form.blocked 12 p
    let c := s.core t.vt t.cslot
    let entryAt (n : TidN) : Nat := (t.tidbase + 64 * n.val) % 2 ^ 64
    let ent (n : TidN) := TidEntry.parse n.val (c.ls.bytes (entryAt n) 64)
    let a := ent ta
    let b := ent tb
    let reads (s : State) (n : TidN) : Prop := s.LsFree t { addr := entryAt n, width := 4, bytes := 64, write := false }
    let reach (s : State) (wr : Bool) (l : List (Nat × Nat)) : Prop :=
      ∀ y ∈ l, s.LsReach t { addr := y.1, width := 0, bytes := y.2, write := wr }
    let mode := if rm = .dyn then RM.ofCode (t.rmode.toNat % 8) else rm
    let cmd (op : MxOp) (mode : RM) (units : Nat) (inj : Option Nat) (hh : Option HReg) : MxCmd :=
      { id := 0, op := op, slot := t.slot, gang := t.gang, hasH := hh.isSome, mrow := t.mrow, mcol := t.mcol, mdep := t.mdep, mode := RM.code mode,
        satc := t.satc, seed := t.seed, inj := inj, issued := s.clk, units := units, done := none }
    let row0 (w : Word) := w.toNat % 2 ^ 16
    let col0 (w : Word) := w.toNat / 2 ^ 16 % 2 ^ 16
    let low (w : Word) := w.toNat / 2 ^ 32 % 2 ^ 16
    let ready (hh : Option HReg) : Prop := c.mxWaiting.length < 16 ∧ t.HandleFree hh
    let mma (s : State) (f : Form) (o : Out) (w : Word) (fa fb : Nat) : Prop :=
      let n := nsl.toNat + 1
      let units := planesFig a.fmt * (if b.fmt = 0 ∨ b.fmt = 26 then 2 else 1) * n
      let inj := if t.injarm ∧ t.injpl.toNat < planesFig a.fmt then some t.injpl.toNat else none
      let x := cmd (.mma i32 accz pa a b (row0 w) (col0 w) (low w) n fa fb) .rne units inj h
      ready h → s.physAcc t d.val = some pa → reads s ta → reads s tb →
      a.ok false = true → b.ok false = true → a.global = false → b.global = false → a.planes = true → b.planes = true →
      row0 w % 16 = 0 → col0 w % 16 = 0 → low w % 16 = 0 → fa < a.d2 → fb < b.d2 →
      (i32 = true → isIntCode a.fmt = true ∧ isIntCode b.fmt = true) → units ≤ 1024 →
      (∀ i ∈ (activeRC t.mrow t.mcol (row0 w) a.d1 (col0 w) b.d0).1, i ∉ (c.accum pa).poison) →
      reach s false (x.spans c.rd).1 →
      o = s.completes t f (s.mxQueued t h 0 x) units 0
    let plane (un : Bool) (s : State) (f : Form) (o : Out) (w : Word) (long : Bool) : Prop :=
      let o0 := if long then u.toNat else col0 w
      let o1 := if long then v.toNat else row0 w
      let nb0 := n0.toNat + 1
      let nb1 := n1.toNat + 1
      let x := cmd (.plane un a b (row0 w) (col0 w) (low w) nb0 nb1 o0 o1) mode (2 * nb0 * nb1) none h
      ready h → reads s ta → reads s tb → a.ok false = true → b.ok true = true → a.global = false → b.global = false →
      (un = true → a.planes = true) → b.planes = !un →
      (a.planes = true → row0 w % 16 = 0 ∧ col0 w % 16 = 0) → (b.planes = true → o0 % 16 = 0 ∧ o1 % 16 = 0) →
      low w < a.d2 → low w < b.d2 → 2 * nb0 * nb1 ≤ 1024 →
      b.covers (((planePairs (row0 w) (col0 w) (low w) nb0 nb1 o0 o1).map (·.2)).filter b.has) = true →
      reach s false (x.spans c.rd).1 → reach s true (x.spans c.rd).2 →
      o = s.completes t f (s.mxQueued t h (256 * nb0 * nb1) x) (2 * nb0 * nb1) 0
    let store (s : State) (f : Form) (o : Out) (w : Word) (f2 f3 : Nat) : Prop :=
      let x := cmd (.st i32 pa b (row0 w) (col0 w) f2 f3) mode 2 none h
      ready h → s.physAcc t d.val = some pa → reads s tb → b.ok true = true → b.global = false →
      (b.planes = true → row0 w % 16 = 0 ∧ col0 w % 16 = 0) → f2 < b.d2 → f3 < b.d3 →
      b.covers ((stPairs b t.mrow t.mcol (row0 w) (col0 w) f2 f3).map (·.2)) = true →
      (∀ i ∈ (activeRC t.mrow t.mcol (row0 w) b.d1 (col0 w) b.d0).1, i ∉ (c.accum pa).poison) →
      reach s true (x.spans c.rd).2 →
      o = s.completes t f (s.mxQueued t h 256 x) 2 0
    let popped := s.modCur fun _ => { t with q := t.q.set q r }
    let x := t.sreg s.cur.body k
    (s.Issues t f →
      mma s f (exec (.mxMma p i32 accz d ta tb k nsl h) s) x 0 0 ∧
      plane false s f (exec (.mxPlane p rm ta tb k n0 n1 h) s) x false ∧
      plane true s f (exec (.mxUnplane p rm ta tb k n0 n1 h) s) x false ∧
      store s f (exec (.mxSt p rm i32 d tb k h) s) x 0 0 ∧
      (t.q[q] = .val w :: r →
        mma popped f (exec (.mxMmaQ p i32 accz d ta tb q nsl h) s) w 0 0 ∧
        plane false popped f (exec (.mxPlaneQ p rm ta tb q n0 n1 h) s) w false ∧
        plane true popped f (exec (.mxUnplaneQ p rm ta tb q n0 n1 h) s) w false ∧
        store popped f (exec (.mxStQ p rm i32 d tb q h) s) w 0 0) ∧
      (ready h → s.physAcc t d.val = some pa → x.toNat % 64 = 0 →
        reach s false ((maskRows rows.toNat).map fun i => (x.toNat + 64 * i, 64)) →
        exec (.mxLd p d k rows h) s = s.completes t f (s.mxQueued t h 0 (cmd (.ld pa x.toNat rows.toNat) .rne 2 none h)) 2 0) ∧
      (ready h → s.physAcc t d.val = some pa → x.toNat % 64 ≠ 0 → exec (.mxLd p d k rows h) s = s.faults t f { cause := .align, addr := x }) ∧
      (ready none → s.physAcc t d.val = some pa →
        exec (.mxZero p d rows) s = s.completes t f (s.mxQueued t none 0 (cmd (.zero pa rows.toNat) .rne 1 none none)) 1 0 ∧
        exec (.mxMovToAcc p d vr m) s = s.completes t f
          (s.mxQueued t none 0 (cmd (.movA pa m.toNat (t.vreg s.cur.body vr).toList) .rne 2 none none)) 2 0) ∧
      (ready none → s.physAcc t d.val = some pa → c.accBusy t.slot pa = false → c.mxStop = false →
        (∀ i ∈ [2 * m.toNat, 2 * m.toNat + 1], i ∉ (c.accum pa).poison) →
        (∀ i ∈ (c.accum pa).broken, i / 32 ≠ m.toNat) →
        exec (.mxMovToVector p vr d m) s = s.completes t f
          ((s.modCur fun u => u.setV s.cur.body vr (BitVec.allOnes 32) fun i => nth (c.accum pa).words (32 * m.toNat + i.val) 0).mxQueued
            t none 0 (cmd (.movV (t.vname s.cur.body vr).val pa m.toNat) .rne 2 none none)) 2 0)) ∧
    (s.Issues t f12 →
      mma s f12 (exec (.mxMmaLong p i32 accz d ta tb k nsl h u v) s) x u.toNat v.toNat ∧
      plane false s f12 (exec (.mxPlaneLong p rm ta tb k n0 n1 h u v) s) x true ∧
      plane true s f12 (exec (.mxUnplaneLong p rm ta tb k n0 n1 h u v) s) x true ∧
      store s f12 (exec (.mxStLong p rm i32 d tb k h u v) s) x u.toNat v.toNat ∧
      (t.q[q] = .val w :: r →
        mma popped f12 (exec (.mxMmaQLong p i32 accz d ta tb q nsl h u v) s) w u.toNat v.toNat ∧
        plane false popped f12 (exec (.mxPlaneQLong p rm ta tb q n0 n1 h u v) s) w true ∧
        plane true popped f12 (exec (.mxUnplaneQLong p rm ta tb q n0 n1 h u v) s) w true ∧
        store popped f12 (exec (.mxStQLong p rm i32 d tb q h u v) s) w u.toNat v.toNat))

/-- 10 R193, R195, R197, R203, R206-R208, R210, R214, 03 R56, R59: where every form of a matrix command waits or faults at issue: the queue full, a handle PENDING or holding FAULT, a queue source with nothing or EOS, an accumulator the gang does not hold, an entry out of reach, TENSOR, POISON, LS-RANGE, an accumulator still written. That A's entry is read before B's is log entry 64. The wait codes of a PENDING handle and of a busy accumulator are log entry 25; 10 R205, R216: the mask instructions and the screening status, which need the SCREEN capability. -/
def Obligations.MatrixStopsMaskScreen : Prop :=
  (∀ (s : State) (t : Thread) (p : Pred) (rm : RM) (i32 accz : Bool) (d : AReg) (ta tb : TidN) (k : SReg) (q : QReg) (nsl : BitVec 10)
    (h : Option HReg) (h' : HReg) (u v : BitVec 16) (n0 n1 : BitVec 5) (rows : BitVec 16) (m : BitVec 3) (vr : VReg) (w : Word) (l : List QEntry)
    (n : Nat) (b : Bool) (val : BitVec 60) (kind : AccKind) (tid pa i : Nat),
    let f8 := Form.blocked 8 p
    let f12 := Form.blocked 12 p
    let c := s.core t.vt t.cslot
    let x := t.sreg s.cur.body k
    let entryAt (n : TidN) : Nat := (t.tidbase + 64 * n.val) % 2 ^ 64
    let ent (n : TidN) := TidEntry.parse n.val (c.ls.bytes (entryAt n) 64)
    let reads (n : TidN) : Prop := s.LsFree t { addr := entryAt n, width := 4, bytes := 64, write := false }
    let ea := ent ta
    let eb := ent tb
    let place := c.mxWaiting.length < 16
    let ready := place ∧ t.HandleFree h
    let lone : Prop := t.q[q] = .val w :: l
    let row0 (o : Word) := o.toNat % 2 ^ 16
    let col0 (o : Word) := o.toNat / 2 ^ 16 % 2 ^ 16
    let low (o : Word) := o.toNat / 2 ^ 32 % 2 ^ 16
    let mmas (r : Form → Word → Nat → Nat → Out → Prop) : Prop :=
      (s.Issues t f8 → r f8 x 0 0 (exec (.mxMma p i32 accz d ta tb k nsl h) s) ∧ (lone → r f8 w 0 0 (exec (.mxMmaQ p i32 accz d ta tb q nsl h) s))) ∧
      (s.Issues t f12 → r f12 x u.toNat v.toNat (exec (.mxMmaLong p i32 accz d ta tb k nsl h u v) s) ∧
        (lone → r f12 w u.toNat v.toNat (exec (.mxMmaQLong p i32 accz d ta tb q nsl h u v) s)))
    let planes (r : Bool → Form → Word → Nat → Nat → Out → Prop) : Prop :=
      (s.Issues t f8 →
        r false f8 x (col0 x) (row0 x) (exec (.mxPlane p rm ta tb k n0 n1 h) s) ∧ r true f8 x (col0 x) (row0 x) (exec (.mxUnplane p rm ta tb k n0 n1 h) s) ∧
        (lone → r false f8 w (col0 w) (row0 w) (exec (.mxPlaneQ p rm ta tb q n0 n1 h) s) ∧
          r true f8 w (col0 w) (row0 w) (exec (.mxUnplaneQ p rm ta tb q n0 n1 h) s))) ∧
      (s.Issues t f12 →
        r false f12 x u.toNat v.toNat (exec (.mxPlaneLong p rm ta tb k n0 n1 h u v) s) ∧
        r true f12 x u.toNat v.toNat (exec (.mxUnplaneLong p rm ta tb k n0 n1 h u v) s) ∧
        (lone → r false f12 w u.toNat v.toNat (exec (.mxPlaneQLong p rm ta tb q n0 n1 h u v) s) ∧
          r true f12 w u.toNat v.toNat (exec (.mxUnplaneQLong p rm ta tb q n0 n1 h u v) s)))
    let stores (r : Form → Word → Nat → Nat → Out → Prop) : Prop :=
      (s.Issues t f8 → r f8 x 0 0 (exec (.mxSt p rm i32 d tb k h) s) ∧ (lone → r f8 w 0 0 (exec (.mxStQ p rm i32 d tb q h) s))) ∧
      (s.Issues t f12 → r f12 x u.toNat v.toNat (exec (.mxStLong p rm i32 d tb k h u v) s) ∧
        (lone → r f12 w u.toNat v.toNat (exec (.mxStQLong p rm i32 d tb q h u v) s)))
    let ld (r : Out → Prop) : Prop := s.Issues t f8 → r (exec (.mxLd p d k rows h) s)
    let bare (r : Out → Prop) : Prop :=
      s.Issues t f8 → r (exec (.mxZero p d rows) s) ∧ r (exec (.mxMovToAcc p d vr m) s) ∧ r (exec (.mxMovToVector p vr d m) s)
    let withAcc (r : Form → Out) : Prop :=
      mmas (fun f _ _ _ o => o = r f) ∧ stores (fun f _ _ _ o => o = r f) ∧ ld (fun o => o = r f8)
    let all (r : Form → Out) : Prop := withAcc r ∧ planes fun _ f _ _ _ o => o = r f
    let accRange (f : Form) : Out := s.faults t f { cause := .accRange, info := BitVec.ofNat 64 d.val }
    let badMma (o : Word) (fa fb : Nat) : Prop :=
      ea.ok false = false ∨ eb.ok false = false ∨ ea.global = true ∨ eb.global = true ∨ ea.planes = false ∨ eb.planes = false ∨
      row0 o % 16 ≠ 0 ∨ col0 o % 16 ≠ 0 ∨ low o % 16 ≠ 0 ∨ ea.d2 ≤ fa ∨ eb.d2 ≤ fb ∨
      (i32 = true ∧ (isIntCode ea.fmt = false ∨ isIntCode eb.fmt = false)) ∨
      1024 < planesFig ea.fmt * (if eb.fmt = 0 ∨ eb.fmt = 26 then 2 else 1) * (nsl.toNat + 1)
    let badPlane (un : Bool) (o : Word) (o0 o1 : Nat) : Prop :=
      ea.ok false = false ∨ eb.ok true = false ∨ ea.global = true ∨ eb.global = true ∨ (un = true ∧ ea.planes = false) ∨ eb.planes = un ∨
      (ea.planes = true ∧ (row0 o % 16 ≠ 0 ∨ col0 o % 16 ≠ 0)) ∨ (eb.planes = true ∧ (o0 % 16 ≠ 0 ∨ o1 % 16 ≠ 0)) ∨
      ea.d2 ≤ low o ∨ eb.d2 ≤ low o ∨ 1024 < 2 * (n0.toNat + 1) * (n1.toNat + 1) ∨
      eb.covers (((planePairs (row0 o) (col0 o) (low o) (n0.toNat + 1) (n1.toNat + 1) o0 o1).map (·.2)).filter eb.has) = false
    let badSt (o : Word) (f2 f3 : Nat) : Prop :=
      eb.ok true = false ∨ eb.global = true ∨ (eb.planes = true ∧ (row0 o % 16 ≠ 0 ∨ col0 o % 16 ≠ 0)) ∨ eb.d2 ≤ f2 ∨ eb.d3 ≤ f3 ∨
      eb.covers ((stPairs eb t.mrow t.mcol (row0 o) (col0 o) f2 f3).map (·.2)) = false
    let tensor (f : Form) (a b : Nat) : Out := s.faults t f { cause := .tensor, info := BitVec.ofNat 64 b, tidn := a }
    let poison (f : Form) (ill : List Nat) : Out :=
      s.faults t f { cause := .poison, info := BitVec.ofNat 64 (ofBits ill + d.val * 2 ^ 16) }
    let ill (rs : List Nat) := rs.filter fun i => (c.accum pa).poison.contains i
    (16 ≤ c.mxWaiting.length → all (fun f => s.waits t f s (.stall 7)) ∧ bare fun o => o = s.waits t f8 s (.stall 7)) ∧
    (place → h = some h' → t.h[h'] = .pending n b → all fun f => s.waits t f s (.stall 5)) ∧
    (place → h = some h' → t.h[h'] = .complete .fault val kind tid → all fun f => s.faults t f (handleFault h'.val val kind tid)) ∧
    (ready → s.physAcc t d.val = none → withAcc accRange) ∧ (place → s.physAcc t d.val = none → bare fun o => o = accRange f8) ∧
    (t.q[q] = [] →
      (s.Issues t f8 → ∀ o ∈ [exec (.mxMmaQ p i32 accz d ta tb q nsl h) s, exec (.mxPlaneQ p rm ta tb q n0 n1 h) s,
        exec (.mxUnplaneQ p rm ta tb q n0 n1 h) s, exec (.mxStQ p rm i32 d tb q h) s], o = s.waits t f8 s (.stall 10)) ∧
      (s.Issues t f12 → ∀ o ∈ [exec (.mxMmaQLong p i32 accz d ta tb q nsl h u v) s, exec (.mxPlaneQLong p rm ta tb q n0 n1 h u v) s,
        exec (.mxUnplaneQLong p rm ta tb q n0 n1 h u v) s, exec (.mxStQLong p rm i32 d tb q h u v) s], o = s.waits t f12 s (.stall 10))) ∧
    (t.q[q] = .eos :: l →
      (s.Issues t f8 → ∀ o ∈ [exec (.mxMmaQ p i32 accz d ta tb q nsl h) s, exec (.mxPlaneQ p rm ta tb q n0 n1 h) s,
        exec (.mxUnplaneQ p rm ta tb q n0 n1 h) s, exec (.mxStQ p rm i32 d tb q h) s],
        o = s.faults t f8 { cause := .queue, info := BitVec.ofNat 64 q.val }) ∧
      (s.Issues t f12 → ∀ o ∈ [exec (.mxMmaQLong p i32 accz d ta tb q nsl h u v) s, exec (.mxPlaneQLong p rm ta tb q n0 n1 h u v) s,
        exec (.mxUnplaneQLong p rm ta tb q n0 n1 h u v) s, exec (.mxStQLong p rm i32 d tb q h u v) s],
        o = s.faults t f12 { cause := .queue, info := BitVec.ofNat 64 q.val })) ∧
    (ready → s.physAcc t d.val = some pa → entryAt ta % 4 = 0 → s.reaches t.gang t.vt t.cslot (entryAt ta) 64 = false →
      mmas (fun f _ _ _ o => o = s.faults t f { cause := .lsRange, addr := BitVec.ofNat 64 (entryAt ta), tidn := ta.val }) ∧
      planes fun _ f _ _ _ o => o = s.faults t f { cause := .lsRange, addr := BitVec.ofNat 64 (entryAt ta), tidn := ta.val }) ∧
    (ready → reads ta → reads tb →
      planes (fun un f o o0 o1 out => badPlane un o o0 o1 → out = tensor f ta.val tb.val) ∧
      (s.physAcc t d.val = some pa →
        mmas (fun f o fa fb out => badMma o fa fb → out = tensor f ta.val tb.val) ∧
        mmas (fun f o fa fb out => ¬ badMma o fa fb → ill (activeRC t.mrow t.mcol (row0 o) ea.d1 (col0 o) eb.d0).1 ≠ [] →
          out = poison f (ill (activeRC t.mrow t.mcol (row0 o) ea.d1 (col0 o) eb.d0).1)))) ∧
    (ready → reads tb → s.physAcc t d.val = some pa →
      stores (fun f o f2 f3 out => badSt o f2 f3 → out = tensor f tb.val 0) ∧
      stores (fun f o f2 f3 out => ¬ badSt o f2 f3 → ill (activeRC t.mrow t.mcol (row0 o) eb.d1 (col0 o) eb.d0).1 ≠ [] →
        out = poison f (ill (activeRC t.mrow t.mcol (row0 o) eb.d1 (col0 o) eb.d0).1))) ∧
    (ready → s.physAcc t d.val = some pa → x.toNat % 64 = 0 → i ∈ maskRows rows.toNat →
      (∀ j ∈ maskRows rows.toNat, j < i → s.LsReach t { addr := x.toNat + 64 * j, width := 0, bytes := 64, write := false }) →
      s.reaches t.gang t.vt t.cslot (x.toNat + 64 * i) 64 = false →
      ld fun o => o = s.faults t f8 { cause := .lsRange, addr := BitVec.ofNat 64 (x.toNat + 64 * i) }) ∧
    (place → s.physAcc t d.val = some pa → s.Issues t f8 →
      (c.accBusy t.slot pa = true → exec (.mxMovToVector p vr d m) s = s.waits t f8 s (.stall 14)) ∧
      (c.accBusy t.slot pa = false → ill [2 * m.toNat, 2 * m.toNat + 1] ≠ [] →
        exec (.mxMovToVector p vr d m) s = poison f8 (ill [2 * m.toNat, 2 * m.toNat + 1])))) ∧
  (∀ (s : State) (t : Thread) (p : Pred) (a d : SReg) (row col dep : BitVec 16) (pt : PTile) (c : Nat),
    let f := Form.blocked 8 p
    let f12 := Form.blocked 12 p
    let g : Form := { Form.blocked 8 p with cap := some 3 }
    let x := t.sreg s.cur.body a
    let mask (f : Form) (m : Word) := s.completes t f
      (s.modCur fun u => { u with mrow := m.extractLsb' 0 16, mcol := m.extractLsb' 16 16, mdep := m.extractLsb' 32 16 }) 1 0
    let bit (b : Bool) : Nat := if b then 1 else 0
    (s.Issues t f → exec (.mxMask p a) s = mask f x) ∧
    (s.Issues t f12 → exec (.mxMaskImm p row col dep) s = mask f12 ((dep ++ col ++ row : BitVec 48).setWidth 64)) ∧
    (s.Issues t g → s.ptile? (s.ptileOf t.vt) = some pt → s.pcoreOf t.vt t.cslot = some c →
      exec (.mxScr p d) s = s.completes t g (s.modCur fun u => u.setS d (BitVec.ofNat 64
        (bit (pt.screen c).lastok + 2 * bit t.injarm + (pt.screen c).injok % 2 ^ 16 * 2 ^ 16 + (pt.screen c).mism * 2 ^ 32))) 1 0) ∧
    (s.Issues t g → x.toNat < 32 →
      exec (.mxScrInj p a) s = s.completes t g
        ((s.modCore t.vt t.cslot fun c => c.disarm t.slot).modCur fun u => { u with injpl := x.extractLsb' 0 5, injarm := true }) 1 0) ∧
    (∀ (c : Core) (k : Nat),
      c.disarm k = { c with mxq := c.mxq.map fun (m : MxCmd) => if m.slot = k ∧ m.done = none then { m with inj := none } else m }) ∧
    (s.Issues t g → 32 ≤ x.toNat → exec (.mxScrInj p a) s = s.faults t g s.illegal))

/-- 10 R193, R195, R196, R202, R206-R216, 19 R381, R383: MX_COMMAND_START runs the oldest command, which keeps its place, takes an injection in its first slice, or meets a screening mismatch; MX_COMMAND_COMPLETE delivers its flags and its handle's status, or counts and records it alone where its thread has left; what each command makes of the accumulators and of local memory, poison and a malformed stream included. `T n i j` is the word (i, j) with the flags of its last slice after n slices of an `mx.mma`. What is read first of several errors is log entry 64, when an effect lands log entry 46. What equal block formats keep, and which command takes an injection, is log entry 42, the clk counted as busy log entry 9. -/
def Obligations.MatrixRun : Prop :=
  ∀ (s : State) (vt slot : Nat) (m : MxCmd) (r : List MxCmd) (c c' : Core) (res : MxResult) (acc rows addr k : Nat) (l : List Lane) (fresh : Nat),
    (c = s.core vt slot → c.mxq = m :: r → c.mxStop = false → m.done = none →
      let s1 := s.inject vt slot m
      let takes : Prop := m.inj.isSome = true ∧ (s.thread vt m.slot).gang = m.gang ∧ (s.thread vt m.slot).injarm = true ∧ m.begins c = true
      (¬ takes → s1 = s) ∧
      (takes → s1 = ((s.modScreen vt slot fun x => { x with injok := (x.injok + 1) % 2 ^ 16, lastok := true }).modCore vt slot fun c =>
        c.disarm m.slot).modThread vt m.slot fun t => { t with injarm := false }) ∧
      (runMx c m s.fresh = .ok c' res →
        exec (.mxCommandStart vt slot) s =
          .next { s1.modCore vt slot fun k => { c' with mxq := { m with done := some res } :: k.mxq.tail } with fresh := s.fresh + 256 }) ∧
      (runMx c m s.fresh = .mismatch → exec (.mxCommandStart vt slot) s = .next
        ((s1.modCore vt slot fun c => { c with mxStop := true, arrayBad := false, mismatch := c.mismatch + 1 }).modScreen vt slot fun x =>
          { x with mism := min (x.mism + 1) 0xFFFFFFFF }))) ∧
    ((s.core vt slot).mxq = m :: r → m.done = some res →
      let t := s.thread vt m.slot
      let s1 := (((s.modCore vt slot fun c => { c with mxq := r }).modGang m.gang fun g => { g with mxBusy := g.mxBusy + mxClk m }).count
        (s.partAt vt) 2 (mxClk m)).event (s.partAt vt) 0x02 res.st.code m.gang (BitVec.ofNat 64 m.issued) (BitVec.ofNat 64 m.units)
      (t.gang = m.gang → t.st ≠ .free → (res.st ≠ .fault ∨ m.hasH = true) →
        exec (.mxCommandComplete vt slot) s = .next
          ((s1.modThread vt m.slot fun t => t.orFlags res.flags).completeCmd vt slot m.id res.st res.val res.info.kind res.info.tidn)) ∧
      (t.gang = m.gang → t.st ≠ .free → res.st = .fault → m.hasH = false →
        exec (.mxCommandComplete vt slot) s = .next
          (((s1.modThread vt m.slot fun t => t.orFlags res.flags).completeCmd vt slot m.id res.st res.val res.info.kind res.info.tidn).asyncFault
            vt m.slot res.info)) ∧
      ((t.gang ≠ m.gang ∨ t.st = .free) →
        exec (.mxCommandComplete vt slot) s = .next (s1.completeCmd vt slot m.id res.st res.val res.info.kind res.info.tidn))) ∧
    (∀ (q : MxOp), m.op = q → runMx c m fresh = .ok c' res → acc < 8 →
      let x := c.accum acc
      let y := c'.accum acc
      let word (a : Acc) (n : Nat) : Lane := nth a.words n 0
      x.words.length = 256 → (∀ i ∈ x.poison, i < 16) → c.ls.wf = true →
      (q = .zero acc rows → rows < 2 ^ 16 → res.st = .ok ∧
        (∀ n < 256, word y n = if rows.testBit (n / 16) then 0 else word x n) ∧ (∀ i, i ∈ y.poison ↔ i ∈ x.poison ∧ rows.testBit i = false)) ∧
      (q = .movA acc k l → k < 8 → l.length = 32 → res.st = .ok ∧
        (∀ n < 256, word y n = if n / 32 = k then nth l (n % 32) 0 else word x n) ∧ (∀ i, i ∈ y.poison ↔ i ∈ x.poison ∧ i / 2 ≠ k)) ∧
      (q = .ld acc addr rows → rows < 2 ^ 16 →
        let bad (n : Nat) : Prop := ∃ w ∈ c.bad, 4 * w < addr + 4 * n + 4 ∧ addr + 4 * n < 4 * w + 4
        let hurt (i : Nat) : Prop := i < 16 ∧ rows.testBit i = true ∧ ∃ n, n / 16 = i ∧ bad n
        (∀ n < 256, ¬ bad n → word y n = if rows.testBit (n / 16) then BitVec.ofNat 32 (c.ls.read (addr + 4 * n) 4) else word x n) ∧
        (∀ i, i ∈ y.poison ↔ hurt i ∨ (i ∈ x.poison ∧ rows.testBit i = false)) ∧
        ((∃ i, hurt i) → res.st = .poison) ∧ ((∀ i, ¬ hurt i) → res.st = .ok)) ∧
      ((q = .zero acc rows ∨ q = .movA acc k l ∨ q = .ld acc addr rows) → c'.ls = c.ls ∧ ∀ n < 8, n ≠ acc → c'.accum n = c.accum n) ∧
      (∀ (i32 accz : Bool) (a b : TidEntry) (row0 col0 dep0 nsl fa fb : Nat) (T : Nat → Nat → Nat → Lane × FFlags),
        q = .mma i32 accz acc a b row0 col0 dep0 nsl fa fb →
        let rc := activeRC m.mrow m.mcol row0 a.d1 col0 b.d0
        let active (i j : Nat) : Prop := i ∈ rc.1 ∧ j ∈ rc.2
        let ia (k i d : Nat) : Idx := { i0 := dep0 + 16 * k + d, i1 := row0 + i, i2 := fa, i3 := 0 }
        let ib (k j d : Nat) : Idx := { i0 := col0 + j, i1 := dep0 + 16 * k + d, i2 := fb, i3 := 0 }
        let pairs (k i j : Nat) : List ((FVal × FFlags) × FVal × FFlags) := (List.range 16).filterMap fun d =>
          if m.mdep.getLsbD d ∧ dep0 + 16 * k + d < a.d0 ∧ dep0 + 16 * k + d < b.d1 ∧
              a.present c.rd (ia k i d) = true ∧ b.present c.rd (ib k j d) = true then
            match a.value c.rd (ia k i d), b.value c.rd (ib k j d) with
            | .val v f, .val w g => some ((v, f), (w, g))
            | _, _ => none
          else none
        let step (k i j : Nat) : Lane × FFlags :=
          let ps := (pairs k i j).map fun z => (z.1.1, z.2.1)
          let z := if i32 then sliceInt (T k i j).1 ps else sliceFp (T k i j).1 ps
          (z.1, (pairs k i j).foldl (fun f x => f ||| x.1.2 ||| x.2.2) z.2)
        let bad (k : Nat) : Bool := c.anyBad (mmaSpans c.rd a b fa fb row0 col0 (dep0 + 16 * k) rc (sliceDepths m.mdep a b (dep0 + 16 * k)))
        (∀ i j, active i j → T 0 i j = (if accz then 0 else word x (16 * i + j), 0)) →
        (∀ k i j, active i j → T (k + 1) i j = step k i j) →
        c'.ls = c.ls ∧ (∀ n < 8, n ≠ acc → c'.accum n = c.accum n) ∧
        (∀ n < 256, ¬ active (n / 16) (n % 16) → word y n = word x n) ∧
        ((∃ i ∈ rc.1, i ∈ x.poison) → c' = c ∧ res.st = .poison ∧ res.flags = 0) ∧
        (res.st = .fault → c' = c ∧ res.flags = 0) ∧
        (0 < nsl → (m.begins c = true ↔ (∀ i ∈ rc.1, i ∉ x.poison) ∧ res.st ≠ .fault ∧ bad 0 = false)) ∧
        ((∀ i ∈ rc.1, i ∉ x.poison) → res.st ≠ .fault →
          ((∀ k < nsl, bad k = false) → res.st = .ok ∧ (∀ i j, active i j → word y (16 * i + j) = (T nsl i j).1) ∧ (∀ i, i ∈ y.poison ↔ i ∈ x.poison) ∧
            (∀ n : Nat, res.flags.getLsbD n = true ↔ ∃ k < nsl, ∃ i j, active i j ∧ (T (k + 1) i j).2.getLsbD n = true)) ∧
          (∀ e < nsl, bad e = true → (∀ k < e, bad k = false) → res.st = .poison ∧ res.flags = 0 ∧
            (∀ i j, active i j → word y (16 * i + j) = (T e i j).1) ∧ (∀ i, i ∈ y.poison ↔ i ∈ x.poison ∨ i ∈ rc.1)))) ∧
      (∀ (i32 : Bool) (b : TidEntry) (row0 col0 f2 f3 : Nat), q = .st i32 acc b row0 col0 f2 f3 →
        let ps := stPairs b m.mrow m.mcol row0 col0 f2 f3
        let dr := if m.mode = 4 then (draws 256 m.seed).1 else []
        let w := b.write c.rd (RM.ofCode m.mode) m.satc false (ps.map fun p =>
          { idx := p.2, val := if i32 then .ofInt (word x p.1).toInt else decodeF fp32 (word x p.1).toNat, draw := nth dr p.1 0 })
        let ill : Prop := ∃ i ∈ (activeRC m.mrow m.mcol row0 b.d1 col0 b.d0).1, i ∈ x.poison
        (ill → c' = c ∧ res.st = .poison ∧ res.flags = 0) ∧
        (¬ ill → res.st = .ok ∧ res.flags = w.flags ∧ c' = (overRuns w.laid).foldl (fun c z => c.store z.1 z.2) c ∧ c'.acc = c.acc ∧
          ∀ a, (∀ z ∈ w.laid, z.1 ≠ a) → c'.ls.byte a = c.ls.byte a)) ∧
      (∀ (un : Bool) (a b : TidEntry) (row0 col0 face nb0 nb1 o0 o1 : Nat), q = .plane un a b row0 col0 face nb0 nb1 o0 o1 →
        let ps := planePairs row0 col0 face nb0 nb1 o0 o1
        let dr := if m.mode = 4 then (draws (256 * nb0 * nb1) m.seed).1 else []
        let src (i : Idx) : FVal × FFlags :=
          if a.has i = true ∧ a.present c.rd i = true then
            match a.value c.rd i with | .val v f => (v, f) | .format _ => (.fin false 0 0 false, 0)
          else (.fin false 0 0 false, 0)
        let w := b.write c.rd (RM.ofCode m.mode) m.satc false (ps.zipIdx.filterMap fun z =>
          if b.has z.1.2 then some { idx := z.1.2, val := (src z.1.1).1, draw := nth dr z.2 0 } else none)
        let malformed : Prop := ∃ z ∈ ps, a.has z.1 = true ∧ isQxDelta a.fmt = true ∧ ∃ n, a.value c.rd z.1 = .format n
        (malformed → c' = c ∧ res.st = .fault ∧ res.flags = 0) ∧
        (¬ malformed → c.anyBad (m.spans c.rd).1 = true → c' = c ∧ res.st = .poison ∧ res.flags = 0) ∧
        (¬ malformed → c.anyBad (m.spans c.rd).1 = false → res.st = .ok ∧ c'.acc = c.acc ∧
          (b.bmap = false → (a.fmt ≠ b.fmt ∨ isBlock b.fmt = false) → c' = (overRuns w.laid).foldl (fun c z => c.store z.1 z.2) c ∧
            ∀ a, (∀ z ∈ w.laid, z.1 ≠ a) → c'.ls.byte a = c.ls.byte a) ∧
          (a.fmt = b.fmt → res.flags = 0) ∧
          (∀ n : Nat, a.fmt ≠ b.fmt → (res.flags.getLsbD n = true ↔ w.flags.getLsbD n = true ∨ ∃ z ∈ ps, (src z.1).2.getLsbD n = true)))))

/-- 02 R52, R51: one slice of an `mx.mma` on an INT32 word adds the exact sum of products once and saturates; on an FP32 word a NaN, an infinity or opposite infinities decide it, absent and zero products leave it, and finite ones are truncated to the 48-bit window below the largest, summed exactly and added with one rounding. -/
def Obligations.MatrixSlice : Prop :=
  ∀ (acc : Lane) (xs : List (Int × Int)) (ps : List (FVal × FVal)) (E : Int),
    let sum : Int := (xs.map fun x => x.1 * x.2).sum
    let fp := decodeF fp32 acc.toNat
    let term (v : FVal) : Int × Bool :=
      match v with
      | .fin n m e _ =>
        let y : Nat := if E - 46 ≤ e then m * 2 ^ (e - (E - 46)).toNat else m / 2 ^ (E - 46 - e).toNat
        (if n then -(y : Int) else y, decide (e < E - 46 ∧ m % 2 ^ (E - 46 - e).toNat ≠ 0))
      | _ => (0, false)
    let terms := ps.map fun p => term (fmul p.1 p.2).1
    let S : Int := (terms.map (·.1)).sum
    let cut : FFlags := if ∃ z ∈ terms, z.2 = true then flagInexact else 0
    let q := fadd .rne fp (.fin (S < 0) S.natAbs (E - 46) false)
    let z := encodeF fp32 .rne false 0 q.1
    sliceInt acc (xs.map fun x => (FVal.ofInt x.1, FVal.ofInt x.2)) =
      (BitVec.ofInt 32 (saturate (-2 ^ 31) (2 ^ 31 - 1) (acc.toInt + sum)), satFlag (-2 ^ 31) (2 ^ 31 - 1) (acc.toInt + sum)) ∧
    sliceFp acc [] = (acc, 0) ∧
    ((∃ p ∈ ps, (fmul p.1 p.2).1.isNan = true) → (sliceFp acc ps).1 = 0x7FC00000) ∧
    ((∃ p ∈ ps, (fmul p.1 p.2).1 = .inf false) → (∃ p ∈ ps, (fmul p.1 p.2).1 = .inf true) →
      (sliceFp acc ps).1 = 0x7FC00000 ∧ (sliceFp acc ps).2 &&& flagInvalid = flagInvalid) ∧
    ((∀ p ∈ ps, (fmul p.1 p.2).1.isNan = false) → (∃ p ∈ ps, (fmul p.1 p.2).1 = .inf false) →
      (∀ p ∈ ps, (fmul p.1 p.2).1 ≠ .inf true) → fp.isNan = false → fp ≠ .inf true → (sliceFp acc ps).1 = 0x7F800000) ∧
    ((∀ p ∈ ps, (fmul p.1 p.2).1.isNan = false) → (∃ p ∈ ps, (fmul p.1 p.2).1 = .inf true) →
      (∀ p ∈ ps, (fmul p.1 p.2).1 ≠ .inf false) → fp.isNan = false → fp ≠ .inf false → (sliceFp acc ps).1 = 0xFF800000) ∧
    ((∀ p ∈ ps, ∃ n e, (fmul p.1 p.2).1 = .fin n 0 e false) → sliceFp acc ps = (acc, 0)) ∧
    ((∀ p ∈ ps, ∃ n m e, (fmul p.1 p.2).1 = .fin n m e false ∧ (m ≠ 0 → e + m.log2 ≤ E)) →
      (∃ p ∈ ps, ∃ n m e, (fmul p.1 p.2).1 = .fin n m e false ∧ m ≠ 0 ∧ e + m.log2 = E) →
      sliceFp acc ps = if S = 0 then (acc, cut) else (BitVec.ofNat 32 z.1, cut ||| q.2 ||| z.2))

/-- 11 R228, R230, 12 R247: `gld` and `gst` at HBM, at the base logic, through the thread's own stash entry and in the register window; misaligned addresses, failed translations, the debug window without SUPERVISE. A release store comes after the thread's waiting operations (log entry 58); how an access goes through a stash entry is log entry 34; the code of the wait on a held debug window is log entry 25. -/
def Obligations.GlobalLoadStore : Prop :=
  ∀ (s : State) (t : Thread) (p : Pred) (att : Attr) (d a b : SReg) (disp : BitVec 24),
    let f := Form.blocked 12 p
    s.Issues t f →
    let va := t.sreg s.cur.body a + disp.signExtend 64
    let y := t.sreg s.cur.body b
    let c := s.core t.vt t.cslot
    let mine (n : Nat) (e : Stash) : Bool := e.owner == t.slot && e.meetsGlobal va.toNat n
    let need (w : Bool) (n : Nat) := s.translate (s.spaceOf t) va.toNat (needDirect w n)
    let s1 := s.released t att
    let put (n : Nat) (sgn : Bool) (x : Nat) (s : State) : State :=
      s.modCur fun u => u.setS d (if sgn then (BitVec.ofNat (8 * n) x).signExtend 64 else BitVec.ofNat 64 x)
    let load (n : Nat) (sgn : Bool) (o : Out) : Prop :=
      (va.toNat % n ≠ 0 → o = s.faults t f { cause := .align, addr := va }) ∧
      (va.toNat % n = 0 → ∀ e, need false n = .err e → o = s.faults t f { cause := .translation, addr := va, sub := e, kind := .read }) ∧
      (va.toNat % n = 0 → ∀ m, need false n = .ok m →
        (c.stash.find? (mine n) = none → m.io = false →
          (m.ms = false → s.badGran m.pa n = none → o = s.completes t f (put n sgn (s.hbm.read m.pa n) s) 1 n) ∧
          (m.ms = false → ∀ g, s.badGran m.pa n = some g → o = s.faults t f
            { cause := .memErr, addr := BitVec.ofNat 64 (va.toNat / 4096 * 4096 + g * 32 % 4096), kind := .read }) ∧
          (m.ms = true → (s.flushWords t m.pa n).badGran m.pa n = none →
            o = s.completes t f (put n sgn ((s.flushWords t m.pa n).hbm.read m.pa n) (s.flushWords t m.pa n)) 1 n)) ∧
        (∀ e, c.stash.find? (mine n) = some e →
          let at' := e.lbase + (va.toNat - e.gbase)
          s.LsFree t { addr := at', width := n, bytes := n, write := false } →
          o = s.completes t f (put n sgn (c.ls.read at' n) s) 1 0) ∧
        (c.stash.find? (mine n) = none → m.io = true →
          let off := m.pa - Config.regBase
          (inDebugWindow off = true → s.hasCap t 2 = false → o = s.faults t f { cause := .capability, addr := va, info := 2 }) ∧
          ((inDebugWindow off = true → s.hasCap t 2 = true) → off < blockBase → s.trafficHeld (off / 0x1000000) = true →
            o = s.waits t f s (.stall 14)) ∧
          ((inDebugWindow off = true → s.hasCap t 2 = true) → (off < blockBase → s.trafficHeld (off / 0x1000000) = false) →
            o = s.completes t f (put n sgn (s.readReg off n) s) 1 n)))
    let store (n : Nat) (o : Out) : Prop :=
      (va.toNat % n ≠ 0 → o = s.faults t f { cause := .align, addr := va }) ∧
      (va.toNat % n = 0 → ∀ e, need true n = .err e → o = s.faults t f { cause := .translation, addr := va, sub := e, kind := .write }) ∧
      (va.toNat % n = 0 → ∀ m, need true n = .ok m →
        (c.stash.find? (mine n) = none → m.io = false →
          (m.ms = false → o = s.completes t f (s1.writeHbm m.pa n y.toNat) 1 n) ∧
          (m.ms = true → o = s.completes t f ((s1.flushWords t m.pa n).writeHbm m.pa n y.toNat) 1 n)) ∧
        (∀ e, c.stash.find? (mine n) = some e →
          let at' := e.lbase + (va.toNat - e.gbase)
          s.LsFree t { addr := at', width := n, bytes := n, write := true } →
          o = s.completes t f (s1.modCore t.vt t.cslot fun k => k.store at' (natBytes n y.toNat)) 1 0) ∧
        (c.stash.find? (mine n) = none → m.io = true →
          let off := m.pa - Config.regBase
          (inDebugWindow off = true → s.hasCap t 2 = false → o = s.faults t f { cause := .capability, addr := va, info := 2 }) ∧
          ((inDebugWindow off = true → s.hasCap t 2 = true) →
            o = s.completes t f (s1.modCur fun u => { u with ioHeld := u.ioHeld ++ [{ va := va.toNat, off := off, width := n, val := y }] }) 1 n)))
    load 1 false (exec (.gldB p att d a disp) s) ∧ load 2 false (exec (.gldH p att d a disp) s) ∧
    load 4 false (exec (.gldW p att d a disp) s) ∧ load 8 false (exec (.gldD p att d a disp) s) ∧
    load 1 true (exec (.gldBs p att d a disp) s) ∧ load 2 true (exec (.gldHs p att d a disp) s) ∧
    load 4 true (exec (.gldWs p att d a disp) s) ∧
    store 1 (exec (.gstB p att a b disp) s) ∧ store 2 (exec (.gstH p att a b disp) s) ∧
    store 4 (exec (.gstW p att a b disp) s) ∧ store 8 (exec (.gstD p att a b disp) s)

/-- 11 R222-R224: what the walk answers: the four levels, the subcodes in their order; a tile's walk takes the entries that its cache holds, a controller's none. Which entries a tile caches is log entry 12, the subcodes that R223's list does not name are log entry 16. -/
def Obligations.Translation : Prop :=
  ∀ (s : State) (sp : Space) (va asid : Nat) (n : Need),
    let root := s.root sp.asid
    let cached (level : Nat) : Option Word := s.held sp (level + 1) (va / 2 ^ (12 + 9 * level))
    let entry (table level : Nat) : Word :=
      (cached level).getD (BitVec.ofNat 64 (s.hbm.read (table + 8 * (va / 2 ^ (12 + 9 * level) % 512)) 8))
    let frame (e : Word) : Nat := e.toNat / 2 ^ 12 % 2 ^ 40 * 4096
    let clean (e : Word) : Prop := e &&& 0xFFF0000000000F18 = 0
    let next (e : Word) : Prop := e.getLsbD 0 = true ∧ clean e ∧ e.getLsbD 5 = false
    let leaf (e : Word) (level : Nat) : Prop := e.getLsbD 0 = true ∧ clean e ∧ e.getLsbD 5 = true ∧ frame e % 2 ^ (12 + 9 * level) = 0
    let bent (e : Word) (level : Nat) : Prop := e.getLsbD 0 = true ∧ (¬ clean e ∨ (e.getLsbD 5 = true ∧ frame e % 2 ^ (12 + 9 * level) ≠ 0))
    let in' (t level : Nat) : Prop := (cached level).isSome = true ∨ t + 4096 ≤ 0x165A0BC0000
    let t4 := frame root
    let e4 := entry t4 3
    let e3 := entry (frame e4) 2
    let e2 := entry (frame e3) 1
    let e1 := entry (frame e2) 0
    let gives (k : Nat) : Prop := s.translate sp va n = .err k
    let reaches (e : Word) (level : Nat) : Prop :=
      let pa := frame e + va % 2 ^ (12 + 9 * level)
      let window : Bool := decide (0x1F000000000 ≤ pa ∧ pa < 0x20000000000)
      s.translate sp va n =
        if ¬ (pa < 0x145A0BC0000 ∨ window) then .err 6
        else if e.getLsbD 7 ≠ window ∨ n.suits (e.getLsbD 6) (e.getLsbD 7) = false then .err 5
        else if n.write ∧ e.getLsbD 1 = false then .err 3
        else if n.fetch ∧ e.getLsbD 2 = false then .err 4
        else .ok { pa := pa, ms := e.getLsbD 6, io := e.getLsbD 7, w := e.getLsbD 1, x := e.getLsbD 2 }
    (∀ level key, s.held (.panel asid) level key = none) ∧
    (2 ^ 48 ≤ va → gives 0) ∧
    (va < 2 ^ 48 → root.getLsbD 0 = false → gives 1) ∧
    (va < 2 ^ 48 → root.getLsbD 0 = true →
      (¬ in' t4 3 → gives 6) ∧
      (in' t4 3 →
        (e4.getLsbD 0 = false → gives 1) ∧ (e4.getLsbD 0 = true → (¬ clean e4 ∨ e4.getLsbD 5 = true) → gives 2) ∧
        (next e4 → ¬ in' (frame e4) 2 → gives 6) ∧
        (next e4 → in' (frame e4) 2 →
          (leaf e3 2 → reaches e3 2) ∧ (e3.getLsbD 0 = false → gives 1) ∧ (bent e3 2 → gives 2) ∧
          (next e3 → ¬ in' (frame e3) 1 → gives 6) ∧
          (next e3 → in' (frame e3) 1 →
            (leaf e2 1 → reaches e2 1) ∧ (e2.getLsbD 0 = false → gives 1) ∧ (bent e2 1 → gives 2) ∧
            (next e2 → ¬ in' (frame e2) 0 → gives 6) ∧
            (next e2 → in' (frame e2) 0 →
              (leaf e1 0 → reaches e1 0) ∧ (e1.getLsbD 0 = false → gives 1) ∧ (bent e1 0 → gives 2) ∧ (next e1 → gives 2))))))

/-- 11 R229, R230, R232, R240: the `sta.*` instructions; 11 R230, 17 R342: the end of a fill and of a write-back: the bytes, the state of the entry, the handle; no fill ends into a tile whose traffic a rotation holds. -/
def Obligations.StashFills : Prop :=
  (∀ (s : State) (t : Thread) (p : Pred) (px : Option Prefix) (keep discard : Bool) (a b d : SReg) (e : BitVec 8) (z : BitVec 3)
    (disp : BitVec 32) (h : Option HReg) (x : Stash),
    let f := Form.blocked (plen px 8) p
    let f12 := Form.blocked (plen px 12) p
    let c := s.core t.vt t.cslot
    let n := e.toNat
    let own := s.ownAlloc t
    let map (f : Form) (o : Out) (g : Word) : Prop :=
      let l := t.sreg s.cur.body a
      let size := 256 * 2 ^ z.toNat
      let legal : Prop := (∀ y ∈ c.stash, y.num ≠ n) ∧ z.toNat ≤ 6 ∧ l.toNat % size = 0 ∧ g.toNat % size = 0 ∧
        own.1 ≤ l.toNat ∧ l.toNat + size ≤ own.1 + own.2 ∧
        (∀ y ∈ c.stash, ¬ (l.toNat < y.lbase + y.size ∧ y.lbase < l.toNat + size)) ∧
        (∀ y ∈ c.stash, y.owner = t.slot → ¬ (g.toNat < y.gbase + y.size ∧ y.gbase < g.toNat + size))
      (legal → o = s.completes t f (s.modCore t.vt t.cslot fun c => { c with stash := c.stash ++
        [{ num := n, owner := t.slot, st := .empty, lbase := l.toNat, gbase := g.toNat, size := size, z := z.toNat, keep := keep,
           evict := evictOf t px, dirty := [], cmd := none, fillBy := none, ro := [] }] }) 1 0) ∧
      (¬ legal → o = s.faults t f { cause := .stash, info := BitVec.ofNat 64 n })
    let s1 : State := { s with nextCmd := s.nextCmd + 1 }
    let id : Option Nat := if h = none then none else some s.nextCmd
    let bad := s.faults t f { cause := .stash, info := BitVec.ofNat 64 n }
    let atOnce := s.completes t f (s.modCur fun u => u.setH h (.complete .ok 0 .fill)) 1 0
    let pend (r : State) := s.completes t f (r.modCur fun u => u.setH h (.pending s.nextCmd false)) 1 0
    (s.Issues t f →
      map f (exec (.staMap p px keep a b e z) s) (t.sreg s.cur.body b) ∧
      (t.HandleFree h → c.entry? n = some x → x.owner = t.slot →
        (x.st = .empty → exec (.staFill p px e h) s = pend (s1.startFill t.vt t.cslot x.num id none)) ∧
        (x.st ≠ .empty → exec (.staFill p px e h) s = atOnce) ∧
        (x.st = .ready → x.dirty ≠ [] → c.stashInUse x = false →
          exec (.staWb p px e h) s = pend (s1.startDrain t.vt t.cslot x.num id)) ∧
        ((x.st ≠ .ready ∨ x.dirty = []) → exec (.staWb p px e h) s = atOnce)) ∧
      (t.HandleFree h → (c.entry? n = none ∨ (c.entry? n = some x ∧ x.owner ≠ t.slot)) →
        exec (.staFill p px e h) s = bad ∧ exec (.staWb p px e h) s = bad ∧ exec (.staDrop p px discard e) s = bad) ∧
      (c.entry? n = some x → x.owner = t.slot → x.st ≠ .filling → x.st ≠ .draining → c.stashInUse x = false →
        ((discard = true ∨ x.st = .empty ∨ x.dirty = []) →
          exec (.staDrop p px discard e) s = s.completes t f
            (s.modCore t.vt t.cslot fun c => { c with stash := c.stash.filter fun y => y.num != x.num }) 1 0) ∧
        (discard = false → x.st = .ready → x.dirty ≠ [] →
          exec (.staDrop p px discard e) s = s.waits t f ((s.startDrain t.vt t.cslot x.num none).modCore t.vt t.cslot fun c =>
            c.modStash x.num fun y => { y with fillBy := some s.cur.stream }) (.stall 12))) ∧
      (c.entry? n = none → exec (.staTest p px d e) s = s.completes t f (s.modCur fun u => u.setS d 0) 1 0) ∧
      (c.entry? n = some x → x.owner = t.slot → exec (.staTest p px d e) s = s.completes t f (s.modCur fun u => u.setS d (BitVec.ofNat 64
        ((match x.st with | .empty => 0 | .filling => 1 | .ready => 2 | .draining => 3) + 4 + (if x.dirty = [] then 0 else 8) +
          (if x.keep then 16 else 0) + 32 * x.evict.toNat + 256 * x.z))) 1 0) ∧
      (c.entry? n = some x → x.owner ≠ t.slot → exec (.staTest p px d e) s = bad)) ∧
    (s.Issues t f12 → map f12 (exec (.staMapLong p px keep a b e z disp) s) (t.sreg s.cur.body b + disp.signExtend 64))) ∧
  (∀ (s : State) (vt cs e : Nat) (x : Stash),
    let asid := s.spaceOf (s.thread vt x.owner)
    let part := s.partNum (s.thread vt x.owner)
    let done (s : State) (k : AccKind) : State := match x.cmd with | none => s | some id => s.completeCmd vt cs id .ok 0 k
    (s.core vt cs).entry? e = some x →
    (x.st = .filling → s.trafficHeld vt = false → ∀ bs, s.fillBytes asid x = .ok bs →
      exec (.stashFillComplete vt cs e) s = .next (done ((s.modCore vt cs fun c =>
        (c.putLs x.lbase bs).modStash e fun y =>
          { y with st := .ready, cmd := none, fillBy := none, dirty := [], ro := s.readOnlyPages asid y.gbase y.size }).count part 5 x.size) .fill)) ∧
    (x.st = .filling → s.trafficHeld vt = false → ∀ g, s.fillBytes asid x = .error g → x.fillBy = none →
      exec (.stashFillComplete vt cs e) s = .next
        (let s1 := s.modCore vt cs fun c => c.modStash e fun y => { y with st := .empty, cmd := none, fillBy := none }
         match x.cmd with | none => s1 | some id => s1.completeCmd vt cs id .fault (faultValue g) .fill)) ∧
    (x.st = .draining → s.drainFault asid vt cs x = none →
      exec (.stashWritebackComplete vt cs e) s = .next (done (((((s.modCore vt cs fun c =>
          c.modStash e fun y => { y with st := .ready, cmd := none, fillBy := none }).drainBytes asid vt cs x).modCore vt cs fun c =>
        c.modStash e fun y => { y with dirty := [] })).count part 6 x.dirty.length) .writeBack)) ∧
    ((x.st ≠ .filling ∨ s.trafficHeld vt = true) → exec (.stashFillComplete vt cs e) s = .next s) ∧ (x.st ≠ .draining → exec (.stashWritebackComplete vt cs e) s = .next s))

/-- 11 R233, 01 R24, 12 R247, R252, R253: `st.far` queues a store for the target rank's core, after the thread's waiting operations where it is a release; its arrival writes the bytes and, on a word already written in the superstep, the sepia ring, unless the target does not admit it; one sender's stores arrive in their order. That each arrives in a clk of its own and which sender's comes next is log entry 59. A release's order is log entry 58. -/
def Obligations.RemoteStores : Prop :=
  ∀ (s : State) (t : Thread) (p : Pred) (att : Attr) (a b c : SReg) (vt cs slot : Nat) (tileOnly : Bool) (r : RemoteStore),
    let f := Form.blocked 12 p
    let x := t.sreg s.cur.body a
    let at' := t.sreg s.cur.body b
    let store (n : Nat) (o : Out) : Prop :=
      let q := (s.core t.vt t.cslot).remoteQ
      (256 ≤ q.length → o = s.waits t f s (.stall 9)) ∧
      (q.length < 256 → 2 ^ 16 ≤ x.toNat → o = s.faults t f s.illegal) ∧
      (q.length < 256 → x.toNat < 2 ^ 16 →
        ((s.rankPlace x.toNat = none ∨ s.nrank ≤ x.toNat) → o = s.faults t f { cause := .rankRange, info := x }) ∧
        (s.rankPlace x.toNat = some (vt, cs) → (s.part (s.partNum t)).holds vt = false → o = s.faults t f { cause := .rankRange, info := x }) ∧
        (x.toNat < s.nrank → s.rankPlace x.toNat = some (vt, cs) → (s.part (s.partNum t)).holds vt = true →
          (at'.toNat % n ≠ 0 → o = s.faults t f { cause := .align, addr := at' }) ∧
          (at'.toNat % n = 0 → 0x70000 ≤ at'.toNat → o = s.faults t f { cause := .lsRange, addr := at' }) ∧
          (at'.toNat % n = 0 → at'.toNat < 0x70000 → o = s.completes t f
            ((s.released t att).modCore t.vt t.cslot fun k => { k with remoteQ := k.remoteQ ++
              [{ slot := t.slot, gang := t.gang, srank := (s.rankOf t.vt t.cslot).getD 0, trank := x.toNat, addr := at'.toNat,
                 width := n, val := t.sreg s.cur.body c }] }) 1 (if vt = t.vt then 0 else n))))
    let touched : Prop := ∃ w ∈ (s.core vt cs).wrote, 4 * w < r.addr + r.width ∧ r.addr < 4 * w + 4
    let admitted : Prop := s.reaches r.gang vt cs r.addr r.width = true ∧ ∀ e ∈ (s.core vt cs).stash, e.meets r.addr r.width = false
    let entry : SepiaEntry := { srank := r.srank, sthr := r.slot % 4, width := r.width, addr := r.addr, clk := s.clk }
    let part := match s.gang? r.gang with | none => 0 | some g => g.part
    (s.Issues t f → store 1 (exec (.stFarB p att a b c) s) ∧ store 2 (exec (.stFarH p att a b c) s) ∧
      store 4 (exec (.stFarW p att a b c) s) ∧ store 8 (exec (.stFarD p att a b c) s)) ∧
    (s.rankPlace r.trank = some (vt, cs) → admitted → 0 < r.width →
      (¬ touched → s.deliverRemote r = s.modCore vt cs fun c => c.writeLs r.addr r.width r.val.toNat) ∧
      (touched → (s.core vt cs).sepia.length < 256 →
        s.deliverRemote r = s.modCore vt cs fun c =>
          { c.writeLs r.addr r.width r.val.toNat with sepia := c.sepia ++ [entry], sepiaNext := (c.sepiaNext + 1) % 256 }) ∧
      (touched → 256 ≤ (s.core vt cs).sepia.length →
        s.deliverRemote r = s.modCore vt cs fun c =>
          { c.writeLs r.addr r.width r.val.toNat with
            sepia := c.sepia.drop 1 ++ [entry], sepiaNext := (c.sepiaNext + 1) % 256, sepiaLost := min (c.sepiaLost + 1) 0xFFFFFFFF })) ∧
    ((s.rankPlace r.trank = none ∨ (s.rankPlace r.trank = some (vt, cs) ∧ ¬ admitted)) →
      s.deliverRemote r = s.event part 0x07 1 r.gang (BitVec.ofNat 64 r.trank) (BitVec.ofNat 64 r.addr)) ∧
    (let due (x : RemoteStore) : Bool := x.slot == slot && x.gang == (s.thread vt slot).gang &&
        (!tileOnly || match s.rankPlace x.trank with | none => true | some p => p.1 == vt)
     s.deliverAll [(vt, slot)] tileOnly = ((s.core vt (slot / 4)).remoteQ.filter due).foldl (fun s x => (s.tick 1).deliverRemote x)
       (s.modCore vt (slot / 4) fun c => { c with remoteQ := c.remoteQ.filter fun x => !due x }))

/-- 11 R234-R238, R240, 12 R247: the copy commands at issue: each waits on a full queue (the deferred forms do not) and on a PENDING handle (log entry 25), faults what a FAULT handle holds, ALIGN, LS-RANGE, CMASK beyond the gang's own mask as LS-RANGE, and STASH; else it ANSWERS A NEXT STATE, queued or deferred, its handle PENDING, charged 4 units and its bytes, after the thread's waiting operations where it is a release (log entry 58); `cp.cvt` with its tensors, its bytes counted in memory as it stands (log entry 31), TENSOR naming tidA first (log entry 42). -/
def Obligations.CopyIssue : Prop :=
  ∀ (s : State) (t : Thread) (p : Pred) (att : Attr) (rm : RM) (ta tb : TidN) (a b k : SReg) (len : BitVec 24) (cmask n0 n1 : BitVec 16)
    (h : Option HReg) (gt : GangTile),
    let f := Form.blocked 12 p
    let f16 := Form.blocked 16 p
    let l := t.sreg s.cur.body a
    let g := t.sreg s.cur.body b
    let n := len.toNat
    let c := s.core t.vt t.cslot
    let s0 := s.released t att
    let cmd (op : CopyOp) (l g len : Nat) : CopyCmd :=
      { id := s0.nextCmd, op := op, slot := t.slot, gang := t.gang, asid := s.asidOf t, part := s.partNum t, localA := l, globalA := g,
        len := len, hasH := h.isSome, running := false, issued := s.clk, bytes := len }
    let room : Prop := s.copyWaiting t.vt < 64
    let stash (e : Stash) : FaultInfo := { cause := .stash, info := BitVec.ofNat 64 e.num }
    -- A local range on a core slot, and a global range: what lets it pass, and what stops it.
    let clearL (cs x n : Nat) : Prop := s.reaches t.gang t.vt cs x n = true ∧ ∀ e ∈ (s.core t.vt cs).stash, e.meets x n = false
    let stopL (cs x n : Nat) (i : FaultInfo) : Prop :=
      (s.reaches t.gang t.vt cs x n = false ∧ i = { cause := .lsRange, addr := BitVec.ofNat 64 x }) ∨
      (s.reaches t.gang t.vt cs x n = true ∧ ∃ e, (s.core t.vt cs).stash.find? (fun e => e.meets x n) = some e ∧ i = stash e)
    let clearG (x n : Nat) : Prop := ∀ e ∈ c.stash, e.owner = t.slot → e.meetsGlobal x n = false
    let stopG (x n : Nat) (i : FaultInfo) : Prop :=
      ∃ e, c.stash.find? (fun e => e.owner == t.slot && e.meetsGlobal x n) = some e ∧ i = stash e
    let queued (s0 : State) (f : Form) (x : CopyCmd) : State := s.finish f (t.issuePc s.cur.body) (.done
      ((({ s0 with nextCmd := s0.nextCmd + 1 } : State).modVTile t.vt fun v => { v with copies := v.copies ++ [{ x with id := s0.nextCmd }] }).modCur fun u =>
        u.setH h (.pending s0.nextCmd false)) 4 x.bytes)
    let deferred (x : CopyCmd) : State := s.finish f (t.issuePc s.cur.body) (.done
      ((({ s0 with nextCmd := s0.nextCmd + 1 } : State).modCur fun u => { u with deferred := u.deferred ++ [x] }).modCur fun u =>
        u.setH h (.pending s0.nextCmd true)) 4 x.bytes)
    -- The queue and the handle, which every command meets first.
    let gates (o : Out) (f : Form) (place : Prop) : Prop :=
      (¬ place → o = s.waits t f s (.stall 9)) ∧
      (place → ∀ r, h = some r →
        (∀ m x, t.h[r] = .pending m x → o = s.waits t f s (.stall 5)) ∧
        (∀ v kind tid, t.h[r] = .complete .fault v kind tid → o = s.faults t f
          { cause := Cause.ofCode (v.toNat % 256), sub := v.toNat / 256 % 16, addr := BitVec.ofNat 64 (v.toNat / 4096),
            info := BitVec.ofNat 64 r.val, kind := kind, tidn := tid, async := true }))
    -- `cp.get`, `cp.get.mc`, `cp.put` and their deferred forms.
    let plain (o : Out) (f : Form) (place own : Prop) (slots : List Nat) (t' : State) : Prop :=
      gates o f place ∧
      (place → t.HandleFree h →
        (l.toNat % 4 ≠ 0 → o = s.faults t f { cause := .align, addr := l }) ∧
        (l.toNat % 4 = 0 → g.toNat % 4 ≠ 0 → o = s.faults t f { cause := .align, addr := g }) ∧
        (l.toNat % 4 = 0 → g.toNat % 4 = 0 →
          (¬ own → o = s.faults t f { cause := .lsRange, addr := l }) ∧
          (own → ∀ pre cs post i, slots = pre ++ cs :: post → (∀ y ∈ pre, clearL y l.toNat n) → stopL cs l.toNat n i → o = s.faults t f i) ∧
          (own → (∀ y ∈ slots, clearL y l.toNat n) → ∀ i, stopG g.toNat n i → o = s.faults t f i) ∧
          (own → (∀ y ∈ slots, clearL y l.toNat n) → clearG g.toNat n → o = .next t')))
    let mode := if rm = .dyn then RM.ofCode (t.rmode.toNat % 8) else rm
    (s.Issues t f →
      plain (exec (.cpGet p att a b len h) s) f room True [t.cslot] (queued s0 f (cmd (.get [t.cslot]) l.toNat g.toNat n)) ∧
      plain (exec (.cpPut p att a b len h) s) f room True [t.cslot] (queued s0 f (cmd .put l.toNat g.toNat n)) ∧
      plain (exec (.cpDeferGet p att a b len h) s) f True True [t.cslot] (deferred (cmd (.get [t.cslot]) l.toNat g.toNat n)) ∧
      plain (exec (.cpDeferPut p att a b len h) s) f True True [t.cslot] (deferred (cmd .put l.toNat g.toNat n))) ∧
    (s.Issues t f16 → s.tileOf t = some gt →
      let slots := (List.range 16).filter fun i => cmask.getLsbD i
      plain (exec (.cpGetMc p att a b len cmask h) s) f16 room (∀ i ∈ slots, i ∈ gt.cmask) slots (queued s0 f16 (cmd (.get slots) l.toNat g.toNat n))) ∧
    (s.Issues t f16 →
      let o := exec (.cpCvt p att rm ta tb k n0 n1 h) s
      let entryAt (n : TidN) : Nat := (t.tidbase + 64 * n.val) % 2 ^ 64
      let ent (n : TidN) := TidEntry.parse n.val (c.ls.bytes (entryAt n) 64)
      let x := ent ta
      let y := ent tb
      let org := Idx.ofWord (t.sreg s.cur.body k)
      let win := windowOf org.i0 org.i1 org.i2 org.i3 n0.toNat n1.toNat
      let bytes := s.cvtBytes t x y org n0.toNat n1.toNat mode
      let well : Prop := x.ok false = true ∧ y.ok true = true ∧ n0.toNat * n1.toNat ≤ 65536 ∧ y.covers (win.filter y.has) = true
      -- The spans of a tensor, each in its own space.
      let clear (e : TidEntry) (r : Nat × Nat) : Prop := if e.global then clearG r.1 r.2 else clearL t.cslot r.1 r.2
      let stop (e : TidEntry) (r : Nat × Nat) (i : FaultInfo) : Prop := if e.global then stopG r.1 r.2 i else stopL t.cslot r.1 r.2 i
      let spansA := x.copyReach (win.filter x.has)
      let spansB := y.copyWrites (win.filter y.has)
      gates o f16 room ∧
      (room → t.HandleFree h → (∀ n ∈ [ta, tb], s.LsFree t { addr := entryAt n, width := 4, bytes := 64, write := false }) →
        (¬ well → o = s.faults t f16 { cause := .tensor, tidn := ta.val, info := BitVec.ofNat 64 tb.val }) ∧
        (well → ∀ pre r post i, spansA = pre ++ r :: post → (∀ z ∈ pre, clear x z) → stop x r i → o = s.faults t f16 i) ∧
        (well → (∀ z ∈ spansA, clear x z) → ∀ pre r post i, spansB = pre ++ r :: post → (∀ z ∈ pre, clear y z) → stop y r i → o = s.faults t f16 i) ∧
        (well → (∀ z ∈ spansA, clear x z) → (∀ z ∈ spansB, clear y z) →
          o = .next (queued ((if mode = .stoch then s.modCur fun u => { u with seed := advance (n0.toNat * n1.toNat) u.seed } else s).released t att) f16
            (cmd (.cvt x y org.i0 org.i1 org.i2 org.i3 n0.toNat n1.toNat (RM.code mode) t.satc t.seed) 0 0 bytes)))) ∧
      (let rd (e : TidEntry) := s.tensorRd (s.spaceOf t) t.vt t.cslot e
       let touched (l : List (Nat × Nat)) : List Nat := (l.flatMap fun r => (List.range r.2).map fun i => r.1 + i).eraseDups
       bytes = (if x.global then (touched ((win.filter x.has).flatMap (x.spans (rd x))).eraseDups).length else 0) +
         (if y.global then (cvtWrite x y (rd x) (rd y) org n0.toNat n1.toNat mode t.satc t.seed).laid.length else 0)))

/-- 11 R234, R236, R238-R240, 02 R49, 17 R342: a copy begins; it ends with its bytes moved, its handle complete, its flags and its event, and not while a rotation holds its tile's traffic; what `cp.get`, `cp.put` and `cp.cvt` write, granule by granule, past errors in their source and up to a page that does not translate. `T` is the state after so many granules of a `cp.put`. That bytes move in ascending granules is log entry 29, that they move at the completion log entry 46. What is found first of a malformed stream and an error is log entry 64. -/
def Obligations.CopyRun : Prop :=
  ∀ (s : State) (vt id j : Nat) (v : VTile) (c : CopyCmd) (T : Nat → State),
    (exec (.copyCommandStart vt) s = .next (s.modVTile vt fun v =>
      { v with copies := modFirst (fun c => !c.running) (fun c => { c with running := true }) v.copies })) ∧
    (s.vtile? vt = some v → s.trafficHeld vt = false → v.copies.find? (fun c => c.id == id && c.running) = some c →
      let s1 := s.modVTile vt fun v => { v with copies := v.copies.filter fun x => x.id != id }
      let s2 := (s1.runCopy vt c).1
      let res := (s1.runCopy vt c).2
      let here : Prop := (s2.thread vt c.slot).gang = c.gang ∧ (s2.thread vt c.slot).st ≠ .free
      let told := (s2.count c.part 4 c.bytes).event c.part 0x03 res.st.code c.gang (BitVec.ofNat 64 c.issued) (BitVec.ofNat 64 c.bytes)
      let done (s : State) := s.completeCmd vt (c.slot / 4) c.id res.st (if res.st = .fault then faultValue res.info else 0) .copy res.info.tidn
      (here → (res.st ≠ .fault ∨ c.hasH = true) →
        exec (.copyComplete vt id) s = .next (done (told.modThread vt c.slot fun t => t.orFlags res.flags))) ∧
      (here → res.st = .fault → c.hasH = false →
        exec (.copyComplete vt id) s = .next ((done (told.modThread vt c.slot fun t => t.orFlags res.flags)).asyncFault vt c.slot res.info)) ∧
      (¬ here → exec (.copyComplete vt id) s = .next (done told))) ∧
    ((∀ v, s.vtile? vt = some v → s.trafficHeld vt = false → v.copies.find? (fun c => c.id == id && c.running) = none) → exec (.copyComplete vt id) s = .next s) ∧
    (let sp : Space := .onTile c.asid vt
     let l := c.localA
     let g := c.globalA
     let cs := c.slot / 4
     (∀ slots, c.op = .get slots → slots.Nodup → (∀ k ∈ slots, (s.core vt k).ls.wf = true) →
       let G := granules l c.len
       j ≤ G.length →
       (∀ y ∈ G.take j, s.checkVirt sp (needPlain false) (g + y.1) y.2 = none) →
       (∀ y, G[j]? = some y → s.checkVirt sp (needPlain false) (g + y.1) y.2 ≠ none) →
       let bad (y : Nat × Nat) : Prop := s.badGlobal sp (needPlain false) (g + y.1) y.2 ≠ none
       let res := s.runCopy vt c
       (j < G.length → res.2.st = .fault) ∧ (j = G.length → (∃ y ∈ G, bad y) → res.2.st = .poison) ∧
       (j = G.length → (∀ y ∈ G, ¬ bad y) → res.2.st = .ok) ∧ res.2.flags = 0 ∧ res.1.hbm = s.hbm ∧
       ∀ k ∈ slots, ∀ x,
         (∀ y ∈ G.take j, ¬ bad y → l + y.1 ≤ x → x < l + y.1 + y.2 →
           (res.1.core vt k).ls.byte x = nth (s.readGlobal sp (needPlain false) (g + y.1) y.2) (x - (l + y.1)) 0) ∧
         ((∀ y ∈ G.take j, ¬ bad y → ¬ (l + y.1 ≤ x ∧ x < l + y.1 + y.2)) → (res.1.core vt k).ls.byte x = (s.core vt k).ls.byte x)) ∧
     (c.op = .put → T 0 = s →
       let G := granules g c.len
       (∀ i y, G[i]? = some y → T (i + 1) =
         if (s.core vt cs).badWord (l + y.1) y.2 = none then (T i).writeGlobal sp (g + y.1) ((s.core vt cs).ls.bytes (l + y.1) y.2) else T i) →
       j ≤ G.length →
       (∀ i < j, ∀ y, G[i]? = some y → (T i).checkVirt sp (needPlain true) (g + y.1) y.2 = none) →
       (∀ y, G[j]? = some y → (T j).checkVirt sp (needPlain true) (g + y.1) y.2 ≠ none) →
       let res := s.runCopy vt c
       res.1 = T j ∧ res.2.flags = 0 ∧ (j < G.length → res.2.st = .fault) ∧
       (j = G.length → (∃ y ∈ G, (s.core vt cs).badWord (l + y.1) y.2 ≠ none) → res.2.st = .poison) ∧
       (j = G.length → (∀ y ∈ G, (s.core vt cs).badWord (l + y.1) y.2 = none) → res.2.st = .ok)) ∧
     (∀ (va : Nat) (bs : List Byte) (m : Mapped), s.hbm.wf = true → bs ≠ [] → va / 4096 = (va + bs.length - 1) / 4096 →
       s.translate sp va (needPlain true) = .ok m → ∀ a,
       (s.writeGlobal sp va bs).hbm.byte a = if m.pa ≤ a ∧ a < m.pa + bs.length then nth bs (a - m.pa) 0 else s.hbm.byte a) ∧
     (∀ (a b : TidEntry) (i0 i1 i2 i3 n0 n1 mode : Nat) (satc : Bool) (seed : Word), c.op = .cvt a b i0 i1 i2 i3 n0 n1 mode satc seed →
       let win := (List.range n1).flatMap fun y => (List.range n0).map fun x => ({ i0 := i0 + x, i1 := i1 + y, i2 := i2, i3 := i3 } : Idx)
       let inA := win.filter a.has
       let inB := win.filter b.has
       let rdA := s.tensorRd sp vt cs a
       let reads := (inA.flatMap (a.spans rdA)).eraseDups
       let malformed : Prop := isQxDelta a.fmt = true ∧ ∃ i ∈ inA, ∃ n, a.value rdA i = .format n
       let dr := if mode = 4 then (draws (n0 * n1) seed).1 else []
       let val (i : Idx) : FVal × FFlags :=
         if a.has i then match a.value rdA i with | .val v f => (v, f) | .format _ => (.fin false 0 0 false, 0) else (.fin false 0 0 false, 0)
       let w := b.write (s.tensorRd sp vt cs b) (RM.ofCode mode) satc false (win.zipIdx.filterMap fun z =>
         if b.has z.1 then some { idx := z.1, val := (val z.1).1, draw := nth dr z.2 0 } else none)
       let writes := (overRuns w.laid).map fun y => (y.1, y.2.length)
       let ill := inB.filter fun i => a.has i && (a.spans rdA i).any fun y => s.tensorBad sp vt cs a y
       let skip := (b.wroteSpans w.streams (b.spoiled inB ill)).flatMap fun y => unitsOf 64 y.1 y.2
       let apart : Prop := a.global ≠ b.global ∨ ∀ y ∈ s.tensorPlaces sp false a reads, ∀ z ∈ s.tensorPlaces sp true b writes, ¬ (y.1 < z.1 + z.2 ∧ z.1 < y.1 + y.2)
       let res := s.runCopy vt c
       (s.tensorMiss sp false a reads ≠ none → res.1 = s ∧ res.2.st = .fault ∧ res.2.flags = 0) ∧
       (s.tensorMiss sp false a reads = none → malformed → res.1 = s ∧ res.2.st = .fault ∧ res.2.flags = 0 ∧ res.2.info.cause = .format) ∧
       (s.tensorMiss sp false a reads = none → ¬ malformed →
         (s.tensorMiss sp true b writes ≠ none → res.1 = s ∧ res.2.st = .fault ∧ res.2.flags = 0) ∧
         (s.tensorMiss sp true b writes = none →
           (ill = [] → res.2.st = .ok ∧ ∀ n : Nat, res.2.flags.getLsbD n = true ↔
             w.flags.getLsbD n = true ∨ ∃ i ∈ inB, (val i).2.getLsbD n = true) ∧
           (ill ≠ [] → res.2.st = .poison ∧ res.2.flags = 0) ∧
           (apart → res.1 = s.tensorPut sp vt cs b (overRuns (w.laid.filter fun y => !skip.contains (y.1 / 64))))))))

/-- 11 R237, R240, R241: the handle instructions and the freeze of a fault that no handle took. That `fut.wait` on any deferred PENDING handle faults FUTURE, and that the INFO of `fut.pass`'s FUTURE is its source handle, is log entry 28; the wait code of a `fut.cancel` on a running command is log entry 25. -/
def Obligations.Futures : Prop :=
  ∀ (s : State) (t : Thread) (p : Pred) (d : SReg) (a b : HReg) (n : BitVec 2) (cmd tn : Nat) (x : Bool) (st : HStatus) (v : BitVec 60) (kind : AccKind) (s1 : State),
    let f := Form.blocked 8 p
    let word (c : Nat) : Word := BitVec.ofNat 64 (c * 2 ^ 60 + v.toNat)
    let code (st : HStatus) : Nat := match st with | .ok => 0 | .poison => 1 | .cancelled => 2 | .fault => 3
    let gives (y : Word) := s.completes t f (s.modCur fun u => u.setS d y) 1 0
    let bad (a : HReg) := s.faults t f { cause := .future, info := BitVec.ofNat 64 a.val }
    (s.Issues t f →
    (t.h[a] = .empty → exec (.futWait p d a) s = gives 0 ∧ exec (.futTest p d a) s = gives 0 ∧ exec (.futCancel p a) s = s.completes t f s 1 0) ∧
    (t.h[a] = .complete st v kind tn →
      exec (.futTest p d a) s = gives (word (code st)) ∧
      (st ≠ .fault → exec (.futWait p d a) s = gives (word (code st)) ∧ exec (.futCancel p a) s = s.completes t f s 1 0) ∧
      (st = .fault →
        exec (.futWait p d a) s = s.faults t f
          { cause := Cause.ofCode (v.toNat % 256), sub := v.toNat / 256 % 16, addr := BitVec.ofNat 64 (v.toNat / 4096), info := BitVec.ofNat 64 a.val, kind := kind, tidn := tn, async := true } ∧
        exec (.futCancel p a) s = s.completes t f ((s.event (s.partNum t) 0x07 3 t.gang
          (BitVec.ofNat 64 ((s.rankOf t.vt t.cslot).getD 0)) (BitVec.ofNat 64 a.val)).modCur fun u => u.setH (some a) (.complete .cancelled 0 .read)) 1 0)) ∧
    (t.h[a] = .pending cmd x →
      exec (.futTest p d a) s = gives 0xF000000000000000 ∧
      (x = false → exec (.futWait p d a) s = s.waits t f s (.stall 5)) ∧ (x = true → exec (.futWait p d a) s = bad a) ∧
      (s.removeCmd t.vt t.cslot cmd = some s1 → exec (.futCancel p a) s = s.completes t f (s1.completeCmd t.vt t.cslot cmd .cancelled 0 .read) 1 0) ∧
      (s.removeCmd t.vt t.cslot cmd = none → exec (.futCancel p a) s = s.waits t f s (.stall 5))) ∧
    (let slot := 4 * t.cslot + n.toNat
     let u := s.thread t.vt slot
     let pending : Prop := ∃ c x, u.h[b] = .pending c x
     let allowed : Prop := slot ≠ t.slot ∧ u.st ≠ .free ∧ u.gang = t.gang ∧ t.h[a] ≠ .empty ∧ ¬ pending
     (allowed → exec (.futPass p b a n) s = s.completes t f
       ((s.modThread t.vt slot fun u => u.setH (some b) t.h[a]).modCur fun u => u.setH (some a) .empty) 1 0) ∧
     (¬ allowed → exec (.futPass p b a n) s = bad a))) ∧
    (∀ (vt slot : Nat) (i : FaultInfo), (s.thread vt slot).asyncF = some i → (s.thread vt slot).st = .run →
      exec (.asyncFaultFreeze vt slot) s = .next
        ((s.modThread vt slot fun t => { t with asyncF := none }).freeze vt slot i (s.thread vt slot).pc false))

/-- 13 R270, R271, 12 R247: the atomics: the old value to sD, the new value to the word, both widths, after the thread's waiting operations on the word and, for a release, after all of them (log entry 58); what each computes; what stops one, an address that does not translate with the kind write (log entry 16). -/
def Obligations.Atomics : Prop :=
  ∀ (s : State) (t : Thread) (p : Pred) (att : Attr) (dw : Bool) (d a b c : SReg) (disp : BitVec 24),
    let f := Form.blocked 12 p
    s.Issues t f →
    let va := t.sreg s.cur.body a + disp.signExtend 64
    let all (dw : Bool) (fn : Nat → Nat → Nat → Nat × FFlags) (bytes : Nat) (o : Out) : Prop :=
      let n := if dw then 8 else 4
      (va.toNat % n ≠ 0 → o = s.faults t f { cause := .align, addr := va }) ∧
      (va.toNat % n = 0 → ∀ e, s.translate (s.spaceOf t) va.toNat (needSide true) = .err e →
        o = s.faults t f { cause := .translation, addr := va, sub := e, kind := .write }) ∧
      (va.toNat % n = 0 → ∀ m, s.translate (s.spaceOf t) va.toNat (needSide true) = .ok m →
        let s1 := (s.released t att).flushWords t m.pa n
        (∀ g, s1.badGran m.pa n = some g → o = s.faults t f
          { cause := .memErr, addr := BitVec.ofNat 64 (va.toNat / 4096 * 4096 + g * 32 % 4096), kind := .read }) ∧
        (s1.badGran m.pa n = none →
        let old := s1.hbm.read m.pa n
        let r := fn old ((t.sreg s.cur.body b).toNat % 2 ^ (8 * n)) ((t.sreg s.cur.body c).toNat % 2 ^ (8 * n))
        o = s.completes t f ((s1.writeHbm m.pa n r.1).modCur fun u => (u.setS d (BitVec.ofNat 64 old)).orFlags r.2) 1 (bytes * n)))
    let w : Nat := if dw then 64 else 32
    let sg (x : Nat) : Int := (BitVec.ofNat w x).toInt
    all dw (fun _ b _ => (b, 0)) 2 (exec (.atSwap p att dw d a b disp) s) ∧
    all dw (fun old b c => (if old = c then b else old, 0)) 3 (exec (.atCas p att dw d a b c disp) s) ∧
    all dw (fun old b _ => ((old + b) % 2 ^ w, 0)) 2 (exec (.atAdd p att dw d a b disp) s) ∧
    all dw (fun old b _ => (old &&& b, 0)) 2 (exec (.atAnd p att dw d a b disp) s) ∧
    all dw (fun old b _ => (old ||| b, 0)) 2 (exec (.atOr p att dw d a b disp) s) ∧
    all dw (fun old b _ => (old ^^^ b, 0)) 2 (exec (.atXor p att dw d a b disp) s) ∧
    all dw (fun old b _ => (if sg b < sg old then b else old, 0)) 2 (exec (.atMin p att dw d a b disp) s) ∧
    all dw (fun old b _ => (if sg old < sg b then b else old, 0)) 2 (exec (.atMax p att dw d a b disp) s) ∧
    all dw (fun old b _ => (min old b, 0)) 2 (exec (.atMinu p att dw d a b disp) s) ∧
    all dw (fun old b _ => (max old b, 0)) 2 (exec (.atMaxu p att dw d a b disp) s) ∧
    all false (fun old b _ =>
      let r := fadd .rne (decodeF fp32 old) (decodeF fp32 b)
      let e := encodeF fp32 .rne false 0 r.1
      (e.1, r.2 ||| e.2)) 2 (exec (.atFadd p att d a b disp) s)

/-- 13 R271, 11 R242, 12 R247: the reductions and `wd.ask` leave an operation at the base logic; its performance, after the earlier operations of its thread on the same word, writes the word and completes the query's handle, or meets an error; what a release and an access to a word perform. When an operation is performed is log entry 46, what a release waits for log entry 58, the kind of a failed translation log entry 16. -/
def Obligations.Reductions : Prop :=
  ∀ (s : State) (t : Thread) (p : Pred) (att : Attr) (dw : Bool) (a b : SReg) (disp : BitVec 24) (d : HReg) (km1 : BitVec 12) (j : BitVec 32) (m : MemOp),
    let f := Form.blocked 12 p
    let f8 := Form.blocked 8 p
    let s1 : State := { s with nextCmd := s.nextCmd + 1 }
    let s0 := s.released t att
    let op (va : Word) (pa fn : Nat) (wide : Bool) (v : Word) (k : Nat) : MemOp :=
      { id := s.nextCmd, vt := t.vt, slot := t.slot, gang := t.gang, part := s.partNum t, asid := s.asidOf t, va := va.toNat, pa := pa, op := fn,
        wide := wide, val := v, k := k }
    let red (dw : Bool) (fn : Nat) (o : Out) : Prop :=
      let va := t.sreg s.cur.body a + disp.signExtend 64
      let n := if dw then 8 else 4
      (va.toNat % n ≠ 0 → o = s.faults t f { cause := .align, addr := va }) ∧
      (va.toNat % n = 0 → ∀ m, s.translate (s.spaceOf t) va.toNat (needSide true) = .ok m →
        o = s.completes t f { s0 with nextCmd := s0.nextCmd + 1, memOps := s0.memOps ++
          [{ op va m.pa fn dw (t.sreg s.cur.body b) 0 with id := s0.nextCmd }] } 1 n) ∧
      (va.toNat % n = 0 → ∀ e, s.translate (s.spaceOf t) va.toNat (needSide true) = .err e →
        o = s.faults t f { cause := .translation, addr := va, sub := e, kind := .write })
    let ask (f : Form) (va : Word) (o : Out) : Prop := t.HandleFree (some d) →
      (va.toNat % 8 ≠ 0 → o = s.faults t f { cause := .align, addr := va }) ∧
      (va.toNat % 8 = 0 → ∀ m, s.translate (s.spaceOf t) va.toNat (needSide true) = .ok m →
        o = s.completes t f (({ s1 with memOps := s1.memOps ++ [op va m.pa 32 true 0 (km1.toNat + 1)] } : State).modCur fun u =>
          u.setH (some d) (.pending s.nextCmd false)) 1 0) ∧
      (va.toNat % 8 = 0 → ∀ e, s.translate (s.spaceOf t) va.toNat (needSide true) = .err e →
        o = s.completes t f (s.modCur fun u => u.setH (some d) (.complete .fault
          (faultValue { cause := .translation, addr := va, sub := e, kind := .distributor }) .distributor)) 1 0)
    (s.Issues t f →
      red dw 2 (exec (.redAdd p att dw a b disp) s) ∧ red dw 3 (exec (.redAnd p att dw a b disp) s) ∧ red dw 4 (exec (.redOr p att dw a b disp) s) ∧
      red dw 5 (exec (.redXor p att dw a b disp) s) ∧ red dw 6 (exec (.redMin p att dw a b disp) s) ∧ red dw 7 (exec (.redMax p att dw a b disp) s) ∧
      red dw 8 (exec (.redMinu p att dw a b disp) s) ∧ red dw 9 (exec (.redMaxu p att dw a b disp) s) ∧ red false 10 (exec (.redFadd p att a b disp) s) ∧
      ask f (t.sreg s.cur.body a + j.signExtend 64) (exec (.wdAskLong p d a km1 j) s)) ∧
    (s.Issues t f8 → ask f8 (t.sreg s.cur.body a) (exec (.wdAsk p d a km1) s)) ∧
    (let mates (x : MemOp) : Bool := x.id ≤ m.id && x.vt == m.vt && x.slot == m.slot && x.gang == m.gang && x.pa / 8 == m.pa / 8
     let all (is : MemOp → Bool) (s : State) : State := (s.memOps.filter is).foldl (fun s x => s.perform x) s
     (s.memOps.find? (fun x => x.id == m.id && x.op != 32) = some m → exec (.reductionPerform m.id) s = .next (all mates s)) ∧
     (s.memOps.find? (fun x => x.id == m.id && x.op == 32) = some m → exec (.wdAskComplete m.id) s = .next (all mates s)) ∧
     (s.memOps.find? (fun x => x.id == m.id && x.op != 32) = none → exec (.reductionPerform m.id) s = .next s) ∧
     (s.memOps.find? (fun x => x.id == m.id && x.op == 32) = none → exec (.wdAskComplete m.id) s = .next s) ∧
     (∀ pa n, s.flushWords t pa n = all (fun x => x.isOf t && (unitsOf 8 pa n).contains (x.pa / 8)) s) ∧
     s0 = (if att.ord.getLsbD 1 = true ∧ att.scope ≠ 0 then
         all (fun x => x.isOf t &&
           (x.op != 32 || s.memOps.any fun y => y.isOf t && y.op != 32 && x.id < y.id && y.pa / 8 == x.pa / 8)) s
       else s)) ∧
    (let s0 : State := { s with memOps := s.memOps.filter fun x => x.id != m.id }
     let n := if m.wide then 8 else 4
     (s.badGran m.pa n = none → m.op ≠ 32 → s.perform m =
       s0.writeHbm m.pa n (atomicNew m.op m.wide (s.hbm.read m.pa n) (m.val.toNat % 2 ^ (8 * n)) 0).1) ∧
     (∀ g, s.badGran m.pa n = some g → m.op ≠ 32 → s.perform m = s0.noticeBoth m.part 3 m.va) ∧
     (∀ g, s.badGran m.pa n = some g → m.op = 32 → s.perform m = s0.completeCmd m.vt (m.slot / 4) m.id .fault
       (faultValue { cause := .memErr, addr := BitVec.ofNat 64 (m.va / 4096 * 4096 + g * 32 % 4096), kind := .distributor }) .distributor) ∧
     (s.badGran m.pa n = none → m.op = 32 →
       let w := s.hbm.read m.pa 8
       let next := w % 2 ^ 32
       let limit := w / 2 ^ 32
       let gr := min m.k (limit - next)
       s.perform m = if limit ≤ next then (s0.writeHbm m.pa 8 w).completeCmd m.vt (m.slot / 4) m.id .ok (BitVec.ofNat 60 (2 ^ 48 + next)) .distributor
         else (s0.writeHbm m.pa 8 (limit * 2 ^ 32 + next + gr)).completeCmd m.vt (m.slot / 4) m.id .ok
           (BitVec.ofNat 60 (gr * 2 ^ 32 + next)) .distributor))

/-- 13 R260-R265, R269, 12 R247: the tag instructions, tile barriers and fences; a release and an arrival come after the thread's waiting operations (log entry 58). How `tg.set` and `tg.clr` reach their word and what a fence performs are log entry 21; that a member that has arrived waits in `bar.arr` is log entry 56, the code of that wait log entry 25. -/
def Obligations.TagsBarriersFences : Prop :=
  ∀ (s : State) (t : Thread) (p : Pred) (px : Option Prefix) (att : Attr) (d a b : SReg) (disp : BitVec 16) (g : Gang) (k : GangTile) (vt : VTile)
    (x : BitVec 16) (l r : List Gang),
    let f := Form.blocked 8 p
    let fp := Form.blocked (plen px 8) p
    let at' := t.sreg s.cur.body a + dispOf px disp
    let c := s.core t.vt t.cslot
    let n := at'.toNat
    let full : Prop := n / 4 ∈ c.full
    let can (w : Bool) := s.LsFree t { addr := n, width := 4, bytes := 4, write := w }
    let gives (s : State) (y : Word) : State := s.modCur fun u => u.setS d y
    let s1 := s.released t (t.attrOf px)
    let tag' (v : Bool) : State := s1.modCore t.vt t.cslot fun c => c.setTag (n / 4) v
    let bit (b : Prop) [Decidable b] : Word := if b then 1 else 0
    let y := s.bar t.vt k.barid
    let here : Prop := s.gangOf t = some g ∧ g.tile? t.vt = some k
    let low : BitVec 16 := (t.sreg s.cur.body a).setWidth 16
    let all : Prop := ∀ i ∈ k.members, i = t.slot ∨ i ∈ y.arr ∨ s.countsAway g.id t.vt i = true
    (s.Issues t fp →
      (can false → full →
        exec (.tgLd p px false d a disp) s = s.completes t fp (gives s (BitVec.ofNat 64 (c.ls.read n 4))) 1 0 ∧
        exec (.tgLd p px true d a disp) s = s.completes t fp (gives (tag' false) (BitVec.ofNat 64 (c.ls.read n 4))) 1 0) ∧
      (can false → ¬ full → ∀ take, exec (.tgLd p px take d a disp) s = s.waits t fp s (.tag n true)) ∧
      (can true → ¬ full → exec (.tgSt p px a b disp) s = s.completes t fp
        (s1.modCore t.vt t.cslot fun c => c.store n (natBytes 4 (t.sreg s.cur.body b).toNat)) 1 0) ∧
      (can true → full → exec (.tgSt p px a b disp) s = s.waits t fp s (.tag n false)) ∧
      (can false → exec (.tgSet p px d a disp) s = s.completes t fp (gives (tag' true) (bit full)) 1 0 ∧
        exec (.tgClr p px d a disp) s = s.completes t fp (gives (tag' false) (bit full)) 1 0)) ∧
    (∀ (c : Core) (w z : Nat) (v : Bool), (z ∈ (c.setTag w v).full ↔ if z = w then v = true else z ∈ c.full) ∧ (c.setTag w v).ls = c.ls ∧
      (z ∈ (c.setTag w v).gran ↔ z = w / 64 ∨ z ∈ c.gran)) ∧
    (∀ (vt slot a : Nat) (v : Bool), (s.thread vt slot).st = .run → (s.thread vt slot).wait = .tag a v →
      (v = true ↔ a / 4 ∈ (s.core (s.thread vt slot).vt (s.thread vt slot).cslot).full) →
      exec (.tagWaitRetest vt slot) s = .next (s.modThread vt slot fun t => { t with wait := .none })) ∧
    (s.Issues t f → here →
      (t.slot ∉ y.arr → exec (.barArr p d) s = s.completes t f (gives (s.arrive t g k) (y.gen.setWidth 64)) 1 0) ∧
      (t.slot ∈ y.arr → exec (.barArr p d) s = s.waits t f s (.stall 3)) ∧
      (t.barGen = none → t.slot ∉ y.arr →
        (s.vtile? t.vt = some vt → all → exec (.barWait p) s = s.completes t f (s.arrive t g k) 1 0) ∧
        (¬ all → exec (.barWait p) s = s.waits t f ((s.arrive t g k).modCur fun u => { u with barGen := some y.gen }) .bar)) ∧
      (t.barGen = none → t.slot ∈ y.arr → exec (.barWait p) s = s.waits t f s .bar) ∧
      (t.barGen = some x → x ≠ y.gen → exec (.barWait p) s = s.completes t f (s.modCur fun u => { u with barGen := none }) 1 0) ∧
      (t.barGen = some x → x = y.gen → exec (.barWait p) s = s.waits t f s .bar) ∧
      (y.gen ≠ low → exec (.barWaitGen p a) s = s.completes t f s 1 0) ∧
      (y.gen = low → t.slot ∈ y.arr → exec (.barWaitGen p a) s = s.waits t f s .bar) ∧
      (y.gen = low → t.slot ∉ y.arr → exec (.barWaitGen p a) s = s.faults t f { cause := .barrier, info := y.gen.setWidth 64 }) ∧
      exec (.barTest p d a) s = s.completes t f (gives s (BitVec.ofNat 64
        ((if y.gen = low then 0 else 2 ^ 32) + (y.gen - low).toNat * 2 ^ 16 + y.gen.toNat))) 1 0 ∧
      (s.vtile? t.vt = some vt → t.slot ∉ y.arr →
        let z := (s.arrive t g k).bar t.vt k.barid
        (all → z.gen = y.gen + 1 ∧ z.arr = []) ∧ (¬ all → z.gen = y.gen ∧ ∀ i, i ∈ z.arr ↔ i = t.slot ∨ i ∈ y.arr))) ∧
    (∀ (v b : Nat), s.gangs = l ++ g :: r → g.tile? v = some k → k.barid = b → (∀ h ∈ l ++ r, ∀ k', h.tile? v = some k' → k'.barid ≠ b) →
      exec (.barrierPhaseComplete v b) s = .next (s.completeBar g k)) ∧
    (s.Issues t f →
      (att.ord.getLsbD 1 = true ∧ att.scope ≠ 0 →
        exec (.fence p att) s = s.completes t f (s.settle t) 1 0) ∧
      (¬ (att.ord.getLsbD 1 = true ∧ att.scope ≠ 0) → exec (.fence p att) s = s.completes t f s 1 0))

/-- 13 R273-R277, 12 R247: waiter queues and signals; a release comes after the thread's waiting operations (log entry 58). That a signal waits with its sender until the mailbox has room is log entry 41; P1 of a discarded signal's event is a free value (log entry 37). The kinds of a header's failed translation and of a granule in error are log entry 16, the code of the wait on a full send queue log entry 25. -/
def Obligations.WaitersSignals : Prop :=
  ∀ (s : State) (t : Thread) (p : Pred) (att : Attr) (poll : Bool) (d a b : SReg) (c : Option SReg) (disp : BitVec 24) (m : Mapped)
    (vt cs n : Nat) (g : Signal) (r : List Signal) (o : OutSignal) (i : Nat),
    let f := Form.blocked 12 p
    let f8 := Form.blocked 8 p
    let va := t.sreg s.cur.body a + disp.signExtend 64
    let y := t.sreg s.cur.body b
    let x := t.sreg s.cur.body a
    let gives (s : State) (y : Word) : State := s.modCur fun u => u.setS d y
    let z := (s.released t att).flushWords t m.pa 16
    let kept : Bool := (z.waiters m.pa).isSome
    let q : State := if kept then z else (z.writeHbm (m.pa + 8) 8 0).noticeBoth (s.partNum t) 4 va.toNat
    let l : List Nat := (z.waiters m.pa).getD []
    let found : Prop := va.toNat % 16 = 0 ∧ s.translate (s.spaceOf t) va.toNat (needSide true) = .ok m
    let reached : Prop := found ∧ z.badGran m.pa 16 = none
    let k := min y.toNat l.length
    let both (i : FaultInfo) : Prop :=
      ((∀ z, t.wait ≠ .wq z) → exec (.wqWait p att d a b disp) s = s.faults t f i) ∧ exec (.wqWake p att d a b c disp) s = s.faults t f i
    (s.Issues t f →
      ((∀ z, t.wait ≠ .wq z) → reached → BitVec.ofNat 64 (q.hbm.read m.pa 8) ≠ y →
        exec (.wqWait p att d a b disp) s = s.completes t f (gives q 1) 1 16) ∧
      ((∀ z, t.wait ≠ .wq z) → reached → BitVec.ofNat 64 (q.hbm.read m.pa 8) = y →
        exec (.wqWait p att d a b disp) s = s.waits t f (q.setWaiters m.pa (l ++ [t.vt * 64 + t.slot])) (.wq m.pa)) ∧
      (t.wait = .wq n → t.woken = some i → exec (.wqWait p att d a b disp) s = s.completes t f (gives s (BitVec.ofNat 64 i)) 1 16) ∧
      (t.wait = .wq n → t.woken = none → exec (.wqWait p att d a b disp) s = s.waits t f s (.wq n)) ∧
      (reached → exec (.wqWake p att d a b c disp) s = s.completes t f
        (gives (((match c with | none => q | some r => q.writeHbm m.pa 8 (t.sreg s.cur.body r).toNat).wakeAll (l.take k)).setWaiters m.pa (l.drop k))
          (BitVec.ofNat 64 k)) 1 16) ∧
      (va.toNat % 16 ≠ 0 → both { cause := .align, addr := va }) ∧
      (va.toNat % 16 = 0 → ∀ e, s.translate (s.spaceOf t) va.toNat (needSide true) = .err e →
        both { cause := .translation, addr := va, sub := e, kind := .write }) ∧
      (found → ∀ g, z.badGran m.pa 16 = some g →
        both { cause := .memErr, addr := BitVec.ofNat 64 (va.toNat / 4096 * 4096 + g * 32 % 4096), kind := .read })) ∧
    (s.Issues t f8 →
      ((s.core t.vt t.cslot).sendQ.length < 16 → x.toNat < 2 ^ 18 →
        let rank := x.toNat % 2 ^ 16
        (s.rankPlace rank = some (vt, cs) → rank < s.nrank → (s.part (s.partNum t)).holds vt = true →
          exec (.sigSend p a b) s = s.completes t f8 ((s.settle t).modCore t.vt t.cslot fun c => { c with sendQ := c.sendQ ++
            [{ sig := { srank := (s.rankOf t.vt t.cslot).getD 0, sthr := t.slot % 4, data := y.setWidth 32 }, spart := s.partNum t, sgang := t.gang,
               vt := vt, slot := 4 * cs + x.toNat / 2 ^ 16 }] }) 1 0) ∧
        ((s.rankPlace rank = none ∨ s.nrank ≤ rank) →
          exec (.sigSend p a b) s = s.faults t f8 { cause := .rankRange, info := BitVec.ofNat 64 rank })) ∧
      (16 ≤ (s.core t.vt t.cslot).sendQ.length → exec (.sigSend p a b) s = s.waits t f8 s (.stall 9)) ∧
      (t.mailbox = g :: r → ¬ (t.wait = .sig ∧ t.woken.isSome = true) →
        exec (.sigTake p poll d) s = s.completes t f8 (s.modCur fun u => ({ u with mailbox := r } : Thread).setS d
          (BitVec.ofNat 64 (2 ^ 63 + g.sthr * 2 ^ 48 + g.srank * 2 ^ 32 + g.data.toNat))) 1 0) ∧
      (t.mailbox = [] → ¬ (t.wait = .sig ∧ t.woken.isSome = true) →
        exec (.sigTake p true d) s = s.completes t f8 (gives s 0) 1 0 ∧ exec (.sigTake p false d) s = s.waits t f8 s .sig) ∧
      (t.wait = .sig → t.woken = some n → exec (.sigTake p poll d) s = s.completes t f8 (gives s 0) 1 0)) ∧
    (((s.core vt cs).sendQ.findIdx? fun o => !s.trafficHeld o.vt && !s.mute vt && (!s.signalLands o || (s.thread o.vt o.slot).mailbox.length < 8)) = some i →
      (s.core vt cs).sendQ[i]? = some o →
      let s1 := s.modCore vt cs fun c => { c with sendQ := c.sendQ.eraseIdx i }
      (s.signalLands o = true →
        exec (.signalDelivery vt cs) s = .next (s1.modThread o.vt o.slot fun t => { t with mailbox := t.mailbox ++ [o.sig] })) ∧
      (s.signalLands o = false → ∃ w, exec (.signalDelivery vt cs) s = .next
        (({ s1 with fresh := s1.fresh + 1 } : State).event o.spart 0x07 2 o.sgang (BitVec.ofNat 64 ((s.rankOf o.vt (o.slot / 4)).getD 0)) w)))

/-- 13 R266-R268, 12 R251, 15 R308, 17 R351, R353, 05 R96, 10 R212: a `step` arrives and sleeps until its release, and one of a gang released after the first arrival at its partition's boundary waits, unarrived, for the next (log entry 53); the phase, the checkpoint and the releases. What a phase waits for and the order in it are log entries 46 and 53, what a commit finds and writes log entry 47. What a replay does that a commit starts is log entry 49. The code of a `step` that waits for matrix work or a handle is log entry 25, the stamp that a release puts log entry 62, that the waiting operations come before the arrival log entry 58. -/
def Obligations.StepsPhases : Prop :=
  ∀ (s : State) (t : Thread) (lvl : StepLevel) (gang vt : Nat) (g : Gang) (ps : List Thread) (b : Boundary) (i : FaultInfo),
    let f := Form.blocked 8 Pred.always
    let names := ps.map fun t => (t.vt, t.slot)
    let tiles := (b.parts.map (·.1)).eraseDups
    let gids := ((b.parts.map fun p => (s.thread p.1 p.2).gang).eraseDups.filter fun g => (s.gang? g).isSome)
    let mine (b : Boundary) : Bool := b.lvl == lvl && b.gang == gang && (lvl != .tile || b.vt == vt) && b.ckpt.isEmpty
    (s.Issues t f →
      (t.stepArr = none → (s.mxBusy t = true ∨ t.pendingHandle = true) → exec (.step lvl) s = s.waits t f s (.stall 5)) ∧
      (t.stepArr = none → s.mxBusy t = false → t.pendingHandle = false → t.handleFault? = some i → exec (.step lvl) s = s.faults t f i) ∧
      (t.stepArr = none → s.mxBusy t = false → t.pendingHandle = false → t.handleFault? = none → s.joinsNext t lvl = true →
        exec (.step lvl) s = s.waits t f s (.stall 5)) ∧
      (t.stepArr = none → s.mxBusy t = false → t.pendingHandle = false → t.handleFault? = none → s.joinsNext t lvl = false →
        exec (.step lvl) s = s.waits t f (((s.settle t).charge t.vt t.slot 1 0).modCur fun u =>
          { u with injarm := false, stepArr := some (if lvl = .part ∧ s.hasCap t 2 = true then .dom else lvl), stepRel := false, stepSeq := s.relSeq }) .step) ∧
      (t.stepArr.isSome = true → t.stepRel = false → exec (.step lvl) s = s.waits t f s .step) ∧
      (t.stepArr.isSome = true → t.stepRel = true →
        exec (.step lvl) s = s.completes t f (s.modCur fun u => { u with stepArr := none, stepRel := false }) 0 0)) ∧
    (lvl = .part → s.hasCap t 2 = false → s.gangOf t = some g → (s.joinsNext t lvl = true ↔ ∃ n, s.firstArrival g.part = some n ∧ n < g.relSeq)) ∧
    ((lvl ≠ .part ∨ s.hasCap t 2 = true) → s.joinsNext t lvl = false) ∧
    (∀ n part, s.firstArrival part = some n ↔
      (∃ u ∈ s.partThreads part, u.standsAt .part = true ∧ u.stepSeq = n) ∧ ∀ u ∈ s.partThreads part, u.standsAt .part = true → n ≤ u.stepSeq) ∧
    (s.gang? gang = some g → (lvl = .part → g.cap 2 = false) → g.released = true → s.participants lvl g vt = ps →
      (∀ t ∈ ps, t.arrived lvl = true ∧ s.inBoundary t = false ∧ s.holdsUp t = false) → (∃ t ∈ ps, t.standsAt lvl = true) →
      exec (.dataMovementPhase lvl gang vt) s = .next
        { s.runStages names (lvl == .tile) with bounds := (s.runStages names (lvl == .tile)).bounds ++
            [{ lvl := lvl, gang := gang, vt := vt, parts := names, ckpt := (names.map (·.1)).eraseDups }] }) ∧
    (s.gang? gang = some g → s.participants lvl g vt = ps → (∃ t ∈ ps, s.holdsUp t = true) → exec (.dataMovementPhase lvl gang vt) s = .next s) ∧
    ((∃ x ∈ t.ioHeld, x.off < blockBase ∧ s.heldFrom t.gang (x.off / 0x1000000) = true) ∨
      (∃ x ∈ (s.core t.vt t.cslot).remoteQ, x.slot = t.slot ∧ ∃ q, s.rankPlace x.trank = some q ∧ q.1 ≠ t.vt ∧ s.heldFrom t.gang q.1 = true) →
      s.outHeld t = true ∧ s.holdsUp t = true) ∧
    (s.stashUsed t = true → s.holdsUp t = true) ∧
    (s.stashUsed t = true ↔ ∃ e ∈ (s.core t.vt t.cslot).stash, e.owner = t.slot ∧ (s.core t.vt t.cslot).stashInUse e = true) ∧
    (s.bounds.find? (fun b => b.ckpt.contains vt) = some b → s.trafficHeld vt = false → s.trafficHeld (partnerOf vt) = false →
      s.unbacking vt = false → s.ckptFits vt (s.gangsAt b vt) = true → s.ckptBroken vt (s.gangsAt b vt) = [] → s.ckptBadWord vt (s.gangsAt b vt) = false →
      exec (.checkpointCommit vt) s = .next
        { s.commitTile vt (s.gangsAt b vt) with
          bounds := modFirst (fun x => x == b) (fun x => { x with ckpt := x.ckpt.filter fun v => v != vt }) (s.commitTile vt (s.gangsAt b vt)).bounds }) ∧
    (s.bounds.find? (fun b => b.ckpt.contains vt) = some b → s.trafficHeld vt = false → s.trafficHeld (partnerOf vt) = false →
      s.unbacking vt = false → s.ckptFits vt (s.gangsAt b vt) = true →
      (s.ckptBroken vt (s.gangsAt b vt) = [] → s.ckptBadWord vt (s.gangsAt b vt) = true →
        exec (.checkpointCommit vt) s = .next (s.beginReplay vt 1)) ∧
      (∀ x, s.ckptBroken vt (s.gangsAt b vt) = [x] → exec (.checkpointCommit vt) s = .next ((s.screenMismatch vt x).beginReplay vt 0))) ∧
    (s.bounds.find? mine = some b → s.mayRelease tiles = true → (∀ v ∈ tiles, s.retentionLost v = false) →
      (∀ x ∈ gids, ∀ g, s.gang? x = some g → s.isClosing g.qid = false) →
      exec (.phaseRelease lvl gang vt) s = .next
        (({ s with bounds := s.bounds.filter fun x => x != b } : State).releaseThreads lvl gids tiles
          (b.parts.filter fun p => gids.contains (s.thread p.1 p.2).gang))) ∧
    (s.bounds.find? mine = none → lvl = .dom → s.gang? gang = some g → s.fullyBound g = true →
      (∀ k ∈ g.tiles, (s.ckpt k.vt).has gang = true ∧ s.retentionLost k.vt = false) → s.mayRelease (g.tiles.map (·.vt)) = true →
      exec (.phaseRelease lvl gang vt) s = .next (s.firstRelease g)) ∧
    (∀ (t : Thread) (l : StepLevel) (clk : Nat),
      (t.st = .bound → t.halts = false → t.release l clk = { t with st := .run, spanClk := clk, headClk := clk + 1 }) ∧
      (t.st = .bound → t.halts = true → t.release l clk = { t with st := .halted, spanClk := clk, headClk := clk + 1 }) ∧
      ((t.st = .run ∨ t.st = .frozen) → t.stepArr = some l → t.stepRel = false → t.release l clk = { t with stepRel := true }))

/-- 17 R351-R355: a checkpoint record's header, its sections, where it is written, the wait for room, the fold of a journal into the other base image (not while a rotation holds the traffic of the partner that takes the control, 17 R342), what makes a checkpoint corrupt, and what a restore takes from the copy. The order of the words in a thread's extension and the layout of the journal's control are the model's choices (log entry 47), the polynomial of CRC-32C is taken from outside (log entry 39). -/
def Obligations.CheckpointRecords : Prop :=
  ∀ (s : State) (vt cs gen : Nat) (gids : List Nat) (k : CkptCore) (bs : List Byte) (t : Thread) (b : Boundary),
    let r := s.recordBytes vt cs gen gids
    let n := bytesNat (r.take 64)
    let own := s.covered vt cs gids
    let e := s.ckptEntry t
    let h := bytesNat (e.take 256)
    let at' (o w : Nat) : Nat := n / 2 ^ o % 2 ^ w
    r.length % 64 = 0 ∧
    (vt < 2 ^ 12 → cs < 16 → gen < 2 ^ 64 → own.length ≤ 4 → (s.newGranules vt cs own).length < 2 ^ 16 → r.length < 2 ^ 32 →
      at' 0 8 = 1 ∧ at' 8 8 = 0 ∧ at' 16 1 = (if s.hasBars vt cs = true then 1 else 0) ∧ at' 17 31 = 0 ∧ at' 48 4 = cs ∧ at' 52 12 = vt ∧ at' 64 64 = gen ∧
      at' 128 3 = own.length ∧ at' 131 13 = 0 ∧ at' 144 16 = (s.newGranules vt cs own).length ∧ at' 160 32 = r.length ∧ at' 192 64 = s.clk % 2 ^ 64 ∧
      at' 256 224 = 0 ∧ at' 480 32 = crc32c (r.take 60 ++ List.replicate 4 0 ++ r.drop 64)) ∧
    (s.hasBars vt cs = true → (r.drop 64).take 256 =
      (List.range 16).flatMap fun j => natBytes 16 ((s.bar vt j).gen.toNat + ofBits (s.bar vt j).arr * 2 ^ 16)) ∧
    (h % 2 ^ 64 = (if t.stepArr.isSome = true ∧ t.stepRel = false then nextPc t.pc 8 else t.pc).toNat ∧ h / 2 ^ 64 % 2 ^ 64 = t.bic % 2 ^ 64 ∧
      h / 2 ^ 128 % 2 ^ 64 = t.bmc % 2 ^ 64 ∧ h / 2 ^ 192 % 2 ^ 64 = t.seed.toNat ∧
      bytesNat ((e.drop 256).take 8) = t.heldBic % 2 ^ 64 ∧ bytesNat ((e.drop 264).take 8) = t.heldBmc % 2 ^ 64) ∧
    (s.partnerTakes vt cs = true ↔ ∃ v c, s.vtile? (vt ^^^ 1) = some v ∧ v.backed = true ∧ vt ^^^ 1 < s.nvtile ∧ nth v.slots cs none = some c) ∧
    (s.partnerTakes vt cs = true → k.used + bs.length ≤ 65536 - 64 → (s.core (vt ^^^ 1) cs).ls.wf = true →
      ∀ j (_ : j < bs.length), ((s.putRecord vt cs k bs).core (vt ^^^ 1) cs).ls.byte (0x70000 + 64 + k.used + j) = bs[j]) ∧
    (s.partnerTakes vt cs = false ∨ 65536 - 64 < k.used + bs.length → s.hbm.wf = true →
      ∀ j (_ : j < bs.length), (s.putRecord vt cs k bs).hbm.byte
        (0x145A0BC0000 + 0x2000000 * vt + 0x200000 * cs + 2 * 560 * 1024 + (k.journal - k.used) + j) = bs[j]) ∧
    (s.bounds.find? (fun b => b.ckpt.contains vt) = some b → s.ckptFits vt (s.gangsAt b vt) = false → exec (.checkpointCommit vt) s = .next s) ∧
    (∀ (dst src : Core) (rs : List (Nat × Nat)) (accs : List Nat) (a : Nat), dst.ls.wf = true → src.ls.wf = true →
      ((∃ x ∈ rs, x.1 ≤ a ∧ a < x.1 + x.2) → (dst.overlay src rs accs).ls.byte a = src.ls.byte a) ∧
      ((∀ x ∈ rs, ¬ (x.1 ≤ a ∧ a < x.1 + x.2)) → (dst.overlay src rs accs).ls.byte a = dst.ls.byte a)) ∧
    (let y := (s.ckpt vt).core cs
     let into : Bool := y.base == some false
     let home := 0x145A0BC0000 + 0x2000000 * vt + 0x200000 * cs + (if into then 560 * 1024 else 0)
     let y' : CkptCore := { y with base := some into, baseGen := y.gen, recs := [], used := 0, journal := 0 }
     (384 * 1024 < y.journal → (s.partnerTakes vt cs = false ∨ s.trafficHeld (partnerOf vt) = false) → ∃ x, exec (.journalFold vt cs) s = .next
       (((s.putHbm home (y.core.ls.bytes 0 0x80000 ++ tagBytes y.core 0 16384 ++ x)).putCkpt
         { s.ckpt vt with cores := (s.ckpt vt).cores.map fun z => if z.slot == cs then y' else z }).putControl vt y')) ∧
     ((y.journal ≤ 384 * 1024 ∨ (s.partnerTakes vt cs = true ∧ s.trafficHeld (partnerOf vt) = true)) → exec (.journalFold vt cs) s = .next s)) ∧
    (∀ y ∈ (s.ckpt vt).cores,
      (y.recs.map (·.gen) ≠ (List.range (y.gen - y.baseGen)).map (fun i => y.baseGen + 1 + i) → s.ckptSound vt = false) ∧
      ∀ x ∈ y.recs,
        (s.recRead vt y.slot x = none → s.ckptSound vt = false) ∧
        (∀ bs, s.recRead vt y.slot x = some bs →
          (bytesNat (bs.take 1) ≠ 1 ∨ bytesNat ((bs.drop 60).take 4) ≠ crc32c (bs.take 60 ++ List.replicate 4 0 ++ bs.drop 64)) →
          s.ckptSound vt = false))

/-- 15 R289-R292, R296-R305, 19 R375, 10 R212: `cont` goes on, or begins its gang's yield, performs its thread's effects and saves it; a write-back that fails freezes it at the `cont`, what was charged and written stays (log entry 60); a saved thread's record is written and its slot FREE; a whole save is written and queued; a gang whose threads have all halted retires. That the waiting operations come first is log entry 58, when a record is written log entry 63. The fields of an LS-RANGE and of the save are log entries 18 and 24, the order of the completion's statuses log entry 32, the energy a free value (log entry 10). The polynomial of the block's CRC is log entry 39, what ends a lease log entry 19. The code of a `cont` that waits for engine work, a handle, a copy, a write-back, a sibling's matrix command on its entry or a tile whose traffic is held is log entry 25; that a save and a retirement wait for such a tile is log entry 75; they wait as well while a matrix command of a sibling uses an entry of the gang's threads. -/
def Obligations.ContSaveRetire : Prop :=
  ∀ (s : State) (t : Thread) (yield : Bool) (lives : BitVec 32) (livev : BitVec 16) (r0 r1 r2 r3 : LiveRange) (g : Gang) (i : FaultInfo) (gang vt slot : Nat)
    (g1 : Gang) (r : Nat × Nat),
    let f : Form := { Form.blocked 16 Pred.always with wins := true }
    let rs := [r0, r1, r2, r3].map fun r => (r.base.toNat, r.pages.toNat)
    let s1 := (s.modCur fun u => { u with lives := lives, livev := livev, conted := true }).chargeCont t
    let u := s1.thread t.vt t.slot
    let quiet : Prop := s.mxBusy t = false ∧ t.pendingHandle = false
    let moves : Prop := s.copyBusy t = true ∨ s.stashBusy t = true ∨ s.stashUsed t = true ∨ s.outHeld t = true
    let ranges : Prop := badRange (recUnits g.task) [] (rs.filter fun x => x.2 ≠ 0) = none
    let c := exec (.cont yield lives livev r0 r1 r2 r3) s
    (s.Issues t f →
      ((s.mxBusy t = true ∨ t.pendingHandle = true) → c = s.waits t f s (.stall 5)) ∧
      (quiet → t.handleFault? = some i → c = s.faults t f i) ∧
      (quiet → t.handleFault? = none → s.gangOf t = some g →
        (∀ x, badRange (recUnits g.task) [] (rs.filter fun x => x.2 ≠ 0) = some x →
          c = s.faults t f { cause := .lsRange, addr := BitVec.ofNat 64 ((s.ownAlloc t).1 + 4096 * x.1) }) ∧
        (ranges → s.isClosing g.qid = false → yield = false → u.ingrace = false → u.pend = false → c = s.completes t f s1 0 0) ∧
        (ranges → s.isClosing g.qid = true → c = .next (s1.abortGang g.id 4 0)) ∧
        (ranges → s.isClosing g.qid = false → (yield = true ∨ u.ingrace = true ∨ u.pend = true) → moves → c = s.waits t f s (.stall 5)) ∧
        (ranges → s.isClosing g.qid = false → (yield = true ∨ u.ingrace = true ∨ u.pend = true) → ¬ moves →
          let reason := if yield = true ∨ u.pend = true then 0 else if u.gcause = 1 ∨ u.gcause = 2 then 1 else if u.gcause = 3 then 2 else 0
          let w := (((s1.modCur fun u => { u with rng := rs }).beginYield g.id t.vt t.slot reason).settle t).writeBacks t.vt t.slot
          (w.2 = none → c = .next (w.1.saveThreadAt t)) ∧
          (∀ i, w.2 = some i → c = .next (w.1.freeze t.vt t.slot { i with async := true, info := 0xFF } t.pc false))))) ∧
    (s.gang? g.id = some g → g.yielding = false → ∃ h, (s.beginYield g.id vt slot 1).gang? g.id = some h ∧ h.yielding = true ∧ h.reason = 1) ∧
    (∀ (s : State) (t : Thread), s.thread? t.vt t.slot = some t → t.ioHeld = [] →
      s.spawns = [] → t.deferred = [] → (s.core t.vt t.cslot).remoteQ = [] → ∃ v, (s.saveThreadAt t).thread? t.vt t.slot = some v ∧
        v.st = .saving ∧ v.pc = nextPc t.pc 16 ∧ v.wait = .none ∧ v.s = t.s ∧ v.v = t.v ∧ v.bic = t.bic ∧ v.bmc = t.bmc) ∧
    (let x := s.thread vt slot
     let c := s.core vt (slot / 4)
     let written (n : State) : Prop := (n.thread vt slot).st = .free ∧ ∀ h, n.gang? x.gang = some h → ∀ g, s.gangOf x = some g →
       h.saved = g.saved ++ [{ vt := vt, slot := slot, bic := x.bic + x.heldBic, bmc := x.bmc + x.heldBmc, bytes := s.saveThread x (g.gti x) false }]
     (s.thread? vt slot = some x → s.gangOf x = some g → x.st = .saving → c.mxStop = false → (∀ a ∈ s.accNames x, (c.accum a).broken = []) →
       written (s.writeRecord vt slot)) ∧
     ((x.st ≠ .saving ∨ c.mxStop = true) → s.writeRecord vt slot = s)) ∧
    (s.gang? gang = some g → s.savedWhole g = true → g.src.resv = some r → s.isClosing g.qid = false → (∀ t ∈ s.gangThreads gang, s.outHeld t = false ∧ s.stashUsed t = false) →
      let halted := ((s.gangThreads gang).filter fun t => t.st == .halted).map fun t => (t.vt, t.slot)
      let e := Config.freeEnergy s.fresh
      let s2 := ((({ s with fresh := s.fresh + 1 } : State).saveEnergy g e).runStages halted false).meter gang
      let va := (s2.part g1.part).spbase * 4096 + r.1 * 4096
      let bs := s2.saveBlock g1 e
      s2.gang? gang = some g1 → g1.src.resv = some r → s2.isClosing g1.qid = false → s2.checkVirt (.panel g1.asid) (needPlain true) va bs.length = none →
      exec (.saveComplete gang) s = .next
        (((((s2.writeGlobal (.panel g1.asid) va bs).count g1.part 8 1).event g1.part 0x06 0 gang (BitVec.ofNat 64 g1.reason) (BitVec.ofNat 64 g1.resumes)).leaveSaved
          g1).modQueue g1.qid fun q => { q with resume := q.resume ++
            [{ (TaskSrc.of (resumeRecord g1.task va) g1.src.parent) with
              resv := g1.src.resv
              leftI := if g1.src.parent.isSome then (g1.saved.map (·.bic)).sum else 0
              leftM := if g1.src.parent.isSome then (g1.saved.map (·.bmc)).sum else 0 }] })) ∧
    (s.gang? gang = some g → (g.released = true ∨ g.abortSt ≠ none) → g.saved = [] → (∀ t ∈ s.gangThreads gang, t.st = .halted ∧ s.outHeld t = false ∧ s.stashUsed t = false) →
      ((s.retireWork gang).meter gang).gang? gang = some g1 →
      exec (.gangRetire gang) s = .next ((((s.retireWork gang).meter gang).dropLease gang 4 false).endGang gang
        (match g1.abortSt with | some x => x.1 | none => if g1.wbLost then 9 else 0) (match g1.abortSt with | some x => x.2 | none => 0))) ∧
    ((∃ t ∈ s.gangThreads gang, s.outHeld t = true ∨ s.stashUsed t = true) → exec (.gangRetire gang) s = .next s ∧ exec (.saveComplete gang) s = .next s) ∧
    (∀ g, s.gang? gang = some g → s.retires g = false → exec (.gangRetire gang) s = .next s)

/-- 15 R288, R291, R292, R304, R306, R307: charges, grace and the budget fault; `spawn`, `bud.add` and `bud.give`. That `bud.give` is charged before it gives and returns as a retirement does is log entry 33, that a saved budget beyond 48 bits loads the largest one log entry 71. -/
def Obligations.Budgets : Prop :=
  ∀ (s : State) (t : Thread) (p : Pred) (mem : Bool) (d a b : SReg) (disp : BitVec 32) (g : Gang) (vt slot : Nat),
    let f := Form.blocked 8 p
    let f12 := Form.blocked 12 p
    let fc : Form := { Form.blocked 8 p with cap := some 0 }
    let gives (s : State) (n : Nat) : State := s.modCur fun u => u.setS d (BitVec.ofNat 64 n)
    let w := t.sreg s.cur.body b
    let x := (t.sreg s.cur.body a).toNat
    (∀ (t : Thread) (u b : Nat), let v := t.debit u b
      (t.ingrace = false → u ≤ t.bic → b ≤ t.bmc → v = { t with bic := t.bic - u, bmc := t.bmc - b }) ∧
      (t.ingrace = false → ¬ (u ≤ t.bic ∧ b ≤ t.bmc) →
        let e := (u - t.bic) + ((b - t.bmc) + 63) / 64
        v.ingrace = true ∧ v.bic = t.bic - u ∧ v.bmc = t.bmc - b ∧ v.gcause = (if t.bic < u then 1 else 2) ∧
        (e ≤ t.grace → v.grace = t.grace - e ∧ v.pend = t.pend) ∧ (t.grace < e → v.grace = 0 ∧ v.pend = true)) ∧
      (t.ingrace = true →
        let e := u + (b + 63) / 64
        v.bic = t.bic ∧ v.bmc = t.bmc ∧ v.ingrace = true ∧
        (e ≤ t.grace → v.grace = t.grace - e ∧ v.pend = t.pend) ∧ (t.grace < e → v.grace = 0 ∧ v.pend = true))) ∧
    (∀ (task : List Word) (l : List SavedThread), let y := resumeBudgets task l
      (∀ n ∈ y.1 ++ y.2.1, n < 2 ^ 48) ∧ y.1.length = l.length ∧ y.2.1.length = l.length ∧
      ∀ (i : Nat) (x : SavedThread), l[i]? = some x →
        let i0 := x.head / 2 ^ 64 % 2 ^ 64
        let m0 := x.head / 2 ^ 128 % 2 ^ 64
        (i0 < 2 ^ 48 → recBic task < 2 ^ 48 → y.1[i]? = some (max i0 (recBic task))) ∧ (2 ^ 48 ≤ i0 → y.1[i]? = some (2 ^ 48 - 1)) ∧
        (m0 < 2 ^ 48 → recBmc task < 2 ^ 48 → y.2.1[i]? = some (max m0 (recBmc task))) ∧ (2 ^ 48 ≤ m0 → y.2.1[i]? = some (2 ^ 48 - 1))) ∧
    (∀ (x : Spawned), (s.queue x.qid).state = .opened →
      let n := recNvt x.task * recNcore x.task * recNthr x.task
      let q := s.modQueue x.qid fun q => { q with inflight := q.inflight + 1 }
      (q.queue x.qid).state = .opened → s.landSpawn x = q.modQueue x.qid fun q => { q with resume := q.resume ++
        [{ (TaskSrc.of x.task (some (x.vt, x.slot, x.gang))) with leftI := n * recBic x.task, leftM := n * recBmc x.task }] }) ∧
    (s.Issues t f12 →
      let at' := t.sreg s.cur.body a + disp.signExtend 64
      let r := bytesWords 16 ((s.core t.vt t.cslot).ls.bytes at'.toNat 128)
      let q := s.queue w.toNat
      let n := recThreads r
      s.LsFree t { addr := at'.toNat, width := 8, bytes := 128, write := false } →
      (2 ^ 16 ≤ w.toNat → exec (.spawn p d a b disp) s = s.faults t f12 s.illegal) ∧
      (w.toNat < 2 ^ 16 → s.gangOf t = some g →
        let closed : Prop := q.part ≠ s.partNum t ∨ q.state ≠ .opened
        let caps : Prop := recCaps r &&& (15 - wordsField g.task 696 4) ≠ 0
        let poor : Prop := t.ingrace = true ∨ t.bic < n * recBic r + 1 ∨ t.bmc < n * recBmc r
        let ans (n : Nat) := exec (.spawn p d a b disp) s = s.completes t f12 (gives s n) 1 0
        (closed → ans 1) ∧ (¬ closed → caps → ans 2) ∧ (¬ closed → ¬ caps → poor → ans 3) ∧
        (¬ closed → ¬ caps → ¬ poor → 65536 ≤ s.spawns.length → ans 4) ∧
        (¬ closed → ¬ caps → ¬ poor → s.spawns.length < 65536 →
          exec (.spawn p d a b disp) s = s.completes t f12 (gives
            { s.modCur fun u => { u with bic := u.bic - n * recBic r, bmc := u.bmc - n * recBmc r } with
              spawns := s.spawns ++ [{ vt := t.vt, slot := t.slot, gang := t.gang, qid := w.toNat, task := r }] } 0) 1 0))) ∧
    (s.Issues t fc → s.gangOf t = some g →
      let q := s.queue g.qid
      let n (acct reg : Nat) := if s.isClosing g.qid then 0 else min (min x acct) (2 ^ 48 - 1 - reg)
      exec (.budAdd p false d a) s = s.completes t fc (gives ((s.modQueue g.qid fun q => { q with acbic := q.acbic - n (s.queue g.qid).acbic t.bic }).modCur
        fun u => { u with bic := u.bic + n q.acbic t.bic }) (n q.acbic t.bic)) 1 0 ∧
      exec (.budAdd p true d a) s = s.completes t fc (gives ((s.modQueue g.qid fun q => { q with acbmc := q.acbmc - n (s.queue g.qid).acbmc t.bmc }).modCur
        fun u => { u with bmc := u.bmc + n q.acbmc t.bmc }) (n q.acbmc t.bmc)) 1 0) ∧
    (s.Issues t f →
      let s1 := s.charge t.vt t.slot 1 0
      let u := s1.thread t.vt t.slot
      let n := min x (if mem then u.bmc else u.bic)
      let dest := w.toNat % 2 ^ 16
      let v := s1.thread t.vt dest
      let take := s1.modCur fun u => if mem then { u with bmc := u.bmc - n } else { u with bic := u.bic - n }
      let sibling : Prop := dest < 64 ∧ dest ≠ t.slot ∧ v.gang = t.gang ∧ (v.st = .run ∨ v.st = .frozen)
      (2 ^ 16 ≤ w.toNat → exec (.budGive p mem d a b) s = s.faults t f s.illegal) ∧
      (w.toNat < 2 ^ 16 → s.gangOf t = some g →
        (dest = 0xFFFF → exec (.budGive p mem d a b) s = s.completes t f (gives (take.returnQueue g.qid (if mem then 0 else n) (if mem then n else 0)) n) 0 0) ∧
        (sibling → exec (.budGive p mem d a b) s = s.completes t f (gives (take.giveSibling t.vt dest g.qid mem n) n) 0 0) ∧
        (dest ≠ 0xFFFF → ¬ sibling → exec (.budGive p mem d a b) s = s.completes t f (gives s1 0) 0 0))) ∧
    (let v := s.thread vt slot
     (v.st = .run → v.pend = true → v.wait ≠ .none → v.atContHalt = false →
       exec (.budgetFault vt slot) s = .next (s.freeze vt slot { cause := .budget, info := v.cont } v.pc false)) ∧
     (v.st = .run → v.pend = false → exec (.budgetFault vt slot) s = .next s) ∧
     (v.st = .run → v.ingrace = true → v.spanClk + 1024 ≤ s.clk → s.isAmber vt = false →
       exec (.graceDecay vt slot) s = .next (s.modThread vt slot fun t =>
         { t with
           spanClk := t.spanClk + 1024, grace := t.grace - 1
           pend := if t.grace = 0 ∨ (t.grace = 1 ∧ s.asleep v = true) then true else t.pend })) ∧
     ((v.ingrace = false ∨ s.clk < v.spanClk + 1024) → exec (.graceDecay vt slot) s = .next s))

/-- 15 R311-R317: sprint leases: a request is recorded, the first gang thread's request stands, the end, the periods; the zones' refreeze and hard limit; the checks of a grant in their order, REFREEZE, CAPACITY, CEILING. What counts as a covered core and when LEASE reports are log entry 19. -/
def Obligations.Leases : Prop :=
  ∀ (s : State) (t : Thread) (p : Pred) (l : LeaseArgs) (d a : SReg) (dur : BitVec 16) (g : Gang) (gang zone melt : Nat),
    let f8 := { Form.blocked 8 p with cap := some 1 }
    let f12 := { Form.blocked 12 p with cap := some 1 }
    let f : Form := Form.blocked 8 p
    let lease (n : Nat) : Lease := { st := .pending, level := if l.s2 then 2 else 1, dom := l.dom, trap := l.trap, reason := 0, remain := n, gti := g.gti t, vt := t.vt, clk := s.clk }
    let req (f : Form) (o : Out) (n : Nat) : Prop :=
      ((n = 0 ∨ 2 ^ 16 ≤ n) → o = s.faults t f s.illegal) ∧
      (0 < n → n < 2 ^ 16 → s.gangOf t = some g →
        ((g.lease.st = .none ∨ g.lease.st = .refused ∨ (g.lease.st = .pending ∧ g.gti t < g.lease.gti)) →
          o = s.completes t f (s.setLease g (lease n)) 1 0) ∧
        ((g.lease.st = .active ∨ g.lease.st = .ending ∨ (g.lease.st = .pending ∧ g.lease.gti ≤ g.gti t)) → o = s.completes t f s 1 0))
    (s.Issues t f8 → req f8 (exec (.leaseReq p l a) s) (t.sreg s.cur.body a).toNat) ∧
    (s.Issues t f12 → req f12 (exec (.leaseReqImm p l dur) s) dur.toNat) ∧
    (s.Issues t f → s.gangOf t = some g →
      (g.lease.st = .pending → exec (.leaseEnd p) s = s.completes t f (s.setLease g { g.lease with st := .none, reason := 4, remain := 0 }) 1 0) ∧
      (g.lease.st = .active → exec (.leaseEnd p) s = s.completes t f (s.setLease g { g.lease with st := .ending, reason := 4 }) 1 0) ∧
      (g.lease.st ≠ .pending → g.lease.st ≠ .active → exec (.leaseEnd p) s = s.completes t f s 1 0) ∧
      exec (.leaseTest p d) s = s.completes t f (s.modCur fun u => u.setS d (BitVec.ofNat 64
        ((match g.lease.st with | .none => 0 | .pending => 1 | .active => 2 | .ending => 3 | .refused => 4) + g.lease.level * 16 +
          (if g.lease.dom then 64 else 0) + (if g.lease.trap then 128 else 0) + g.lease.reason * 2 ^ 16 +
          (if g.lease.st = .pending then 0 else g.lease.remain) * 2 ^ 48))) 1 0) ∧
    (s.gang? gang = some g → g.lease.st = .active → g.lease.clk + 2 ^ 22 ≤ s.clk →
      (1 < g.lease.remain → exec (.leasePeriodEnd gang) s = .next (s.setLease g { g.lease with remain := g.lease.remain - 1, clk := g.lease.clk + 2 ^ 22 })) ∧
      (g.lease.remain ≤ 1 → exec (.leasePeriodEnd gang) s = .next ((s.setLease g { g.lease with st := .ending, remain := 0, reason := 5 }).leaseTrap gang))) ∧
    (zone < 48 → melt ≤ 4096 →
      let sensed (n : Nat) : State := s.modZone zone fun z => { z with melt := n, refreeze := if 3584 < n then true else if n < 1024 then false else z.refreeze }
      (melt < 3968 → exec (.zoneRefreezeChange zone melt) s = .next (sensed melt) ∧ exec (.zoneHardLimit zone melt) s = .next s) ∧
      (3968 ≤ melt → s.gangs = [g] →
        let ended := if g.lease.holds && ((sensed melt).leaseZones g).contains zone then (sensed melt).dropLease g.id 6 true else sensed melt
        exec (.zoneHardLimit zone melt) s = .next ended ∧ exec (.zoneRefreezeChange zone melt) s = .next ended)) ∧
    ((48 ≤ zone ∨ 4096 < melt) → exec (.zoneRefreezeChange zone melt) s = .next s ∧ exec (.zoneHardLimit zone melt) s = .next s) ∧
    (s.gang? gang = some g → g.lease.st = .pending →
      (s.leaseCheck g g.lease.remain = none → s.decideLease gang [] = s.setLease g { g.lease with st := .active, clk := s.clk }) ∧
      (∀ r, s.leaseCheck g g.lease.remain = some r → s.decideLease gang [] = s.setLease g { g.lease with st := .refused, reason := r, remain := 0 })) ∧
    (s.gang? gang = some g → g.lease.st = .active →
      let moved : List Nat := ((g.leaseTiles.filter fun v => g.moved.contains v).map s.zoneOf).eraseDups
      (moved = [] → s.decideLease gang [] = s) ∧
      ((∀ z, z ∈ moved ↔ z ∈ s.leaseZones g) → moved ≠ [] → s.leaseCheck g g.lease.remain = none → s.decideLease gang [] = s) ∧
      (∀ z ∈ moved, (s.zone z).refreeze = true → s.decideLease gang [] = s.dropLease gang 7 true)) ∧
    (∀ n : Nat,
      let melts (level c n : Nat) : Nat := (c * n * (if level = 1 then 25 else if level = 2 then 73 else 0) + 2 ^ 20 - 1) / 2 ^ 20
      let held (z : Nat) : Nat := (s.gangs.map fun h =>
        if h.lease.holds = true ∧ h.id ≠ g.id then melts h.lease.level (s.leaseCores h z) h.lease.remain else 0).sum
      let cores (level : Nat) : Nat := ((s.gangs.flatMap fun h =>
        if (h.lease.holds = true ∨ h.id = g.id) ∧ h.lease.level = level then h.leaseTiles else []).eraseDups.map s.inService).sum
      let frozen : Prop := ∃ z ∈ s.leaseZones g, (s.zone z).refreeze = true
      let passes : Prop := ∃ z ∈ s.leaseZones g, 3584 < (s.zone z).melt + held z + melts g.lease.level (s.leaseCores g z) n
      let hot : Prop := 3600000 < 2000000 + 12 * cores 1 + 35 * cores 2
      (frozen → s.leaseCheck g n = some 1) ∧ (¬ frozen → passes → s.leaseCheck g n = some 2) ∧
      (¬ frozen → ¬ passes → hot → s.leaseCheck g n = some 3) ∧ (¬ frozen → ¬ passes → ¬ hot → s.leaseCheck g n = none))

/-- 16 R324-R338, 13 R278, R279: `trap`; the supervisor's instructions and what each answers; held packets, the watchdog, the all-asleep trap and the permit audit, once in 2^20 clk for a link. What a restart onto a spare does to the gangs beside is log entry 50, what the two detectors count log entry 54. That a resumed thread fetches anew is log entry 35, the words of log entries are log entry 40. The code of `sup.*` on an AMBER target is log entry 25, that `sup.abort` of a gang acts on an AMBER tile that no rotation holds log entry 49. -/
def Obligations.TrapsSupervisor : Prop :=
  ∀ (s : State) (t : Thread) (p : Pred) (d a b : SReg) (code : BitVec 16) (detail : BitVec 8) (vt cs slot gang part : Nat) (g : Gang) (x : Packet)
    (link found tileA tileB : Nat) (parts : List Nat) (q : Nat) (s1 : State),
    let f := Form.blocked 8 p
    let fs : Form := { Form.blocked 8 p with cap := some 2 }
    let w := t.sreg s.cur.body a
    let gid := (t.sreg s.cur.body b).toNat % 2 ^ 32
    let rank := w.toNat % 2 ^ 16
    let dest := 4 * cs + w.toNat / 2 ^ 16
    let u := s.thread vt dest
    -- The result is written and charged, the issuer goes on, and then the instruction acts.
    let told (n : Nat) : State := s.finish fs (t.issuePc s.cur.body) (.done (s.modCur fun v => v.setS d (BitVec.ofNat 64 n)) 1 0)
    let ans (n : Nat) (act : State → State) : Out := .next (act (told n))
    let reached : Prop := w.toNat < 2 ^ 18 ∧ s.rankPlace rank = some (vt, cs) ∧ rank < s.nrank ∧ (s.part (s.partNum t)).holds vt = true
    let there : Prop := u.st ≠ .free ∧ u.gang = gid ∧ gid ≠ t.gang
    let spare : Prop := (s.vtile? u.vt).any (fun v => v.backed) = true ∧ s.unbacking u.vt = false ∧ (s.takeSpare u.vt).isSome = true
    (s.Issues t f →
      exec (.trap p a code) s = .next (((s.charge t.vt t.slot 1 0).modCur fun u => u.retire false (nextPc t.pc 8)).freeze t.vt t.slot
        { cause := .trap, addr := code.setWidth 64, info := w } t.pc false)) ∧
    (s.Issues t fs →
      (2 ^ 18 ≤ w.toNat → exec (.supResume p d a b) s = s.faults t fs s.illegal ∧ exec (.supAbort p false d a b detail) s = s.faults t fs s.illegal) ∧
      (w.toNat < 2 ^ 18 → s.rankPlace rank = none →
        exec (.supResume p d a b) s = s.faults t fs { cause := .rankRange, info := BitVec.ofNat 64 rank }) ∧
      (reached → s.isAmber vt = true →
        exec (.supResume p d a b) s = s.waits t fs s (.stall 14) ∧ exec (.supRestart p false d a b) s = s.waits t fs s (.stall 14) ∧
        exec (.supRestart p true d a b) s = s.waits t fs s (.stall 14) ∧
        ((s.rotation? vt).isSome = true → exec (.supAbort p true d a b detail) s = s.waits t fs s (.stall 14)) ∧
        ((s.rotation? vt).isSome = false → there → exec (.supAbort p true d a b detail) s = ans 0 fun s => s.abortGang u.gang 7 detail.toNat)) ∧
      (reached → s.isAmber vt = false →
        ((u.st = .free ∨ u.gang ≠ gid) → exec (.supResume p d a b) s = ans 1 id ∧ exec (.supRestart p false d a b) s = ans 1 id ∧
          exec (.supRestart p true d a b) s = ans 1 id ∧ exec (.supAbort p true d a b detail) s = ans 1 id ∧ exec (.supAbort p false d a b detail) s = ans 1 id) ∧
        (u.st ≠ .free → u.gang = gid → gid = t.gang → exec (.supResume p d a b) s = ans 3 id ∧ exec (.supRestart p false d a b) s = ans 3 id ∧
          exec (.supAbort p true d a b detail) s = ans 3 id) ∧
        (there → u.st ≠ .frozen → exec (.supResume p d a b) s = ans 2 id) ∧
        (there → u.st = .frozen → exec (.supResume p d a b) s = ans 0 fun s => s.resumeThread u.vt u.slot) ∧
        (there → s.gangOf u = some g →
          (u.st ≠ .frozen → exec (.supRestart p false d a b) s = ans 2 id) ∧
          (u.st = .frozen → s.gangGood g = false → exec (.supRestart p false d a b) s = ans 4 id ∧ exec (.supRestart p true d a b) s = ans 4 id) ∧
          (u.st = .frozen → s.gangGood g = true →
            (exec (.supRestart p false d a b) s = ans 0 fun s => ((s.rollBack g none).count g.part 9 1).hkEnergy) ∧
            (¬ spare → exec (.supRestart p true d a b) s = ans 5 id) ∧
            (spare → (told 0).takeSpare u.vt = some (s1, q) → exec (.supRestart p true d a b) s = .next (s1.rollOnto g u.vt q)))) ∧
        (there → (exec (.supAbort p true d a b detail) s = ans 0 fun s => s.abortGang u.gang 7 detail.toNat) ∧
          exec (.supAbort p false d a b detail) s = ans 0 fun s => s.abortThread u.vt u.slot 7 detail.toNat))) ∧
    ((s.thread vt slot).pktHeld = some x →
      let n := s.partNum (s.thread vt slot)
      (((s.part n).ringOn = true ∧ (s.part n).ringFull = true) → exec (.heldPacketWrite vt slot) s = .next s) ∧
      (¬ ((s.part n).ringOn = true ∧ (s.part n).ringFull = true) → exec (.heldPacketWrite vt slot) s = .next
        ((s.modThread vt slot fun t => { t with pktHeld := none }).deliverPacket n (some (vt, slot)) false x))) ∧
    (s.gang? gang = some g → g.released = true → recWdt g.task ≠ 0 → g.wdtStop = false →
      let live := (g.inOrder (s.gangThreads gang)).filter fun t => t.st != .halted && t.st != .saving
      (g.wdtClk + 1024 ≤ s.clk →
        exec (.watchdogTick gang) s = .next (s.modGang gang fun g =>
          { g with
            wdtClk := g.wdtClk + 1024
            wdtLeft := if (s.gangThreads gang).any (fun t => t.st != .halted && t.st != .saving) ∧ ¬ (s.gangThreads gang).any (fun t => s.isAmber t.vt) then g.wdtLeft - 1 else g.wdtLeft })) ∧
      (g.wdtLeft ≠ 0 → exec (.watchdogExpiry gang) s = .next s) ∧
      (g.wdtLeft = 0 → live ≠ [] → (∃ t ∈ g.inOrder (s.gangThreads gang), t.st = .frozen ∧ t.cause = some .watchdog) →
        exec (.watchdogExpiry gang) s = .next ((s.packetOnly g.part ((g.inOrder (s.gangThreads gang)).filter fun t => t.st == .frozen).head? (g.cap 2)
          { cause := .watchdog, sub := 1, info := BitVec.ofNat 64 (recWdt g.task) } true).modGang gang fun g => { g with wdtStop := true })) ∧
      (g.wdtLeft = 0 → (∃ t ∈ live, t.st = .run) → (∀ t ∈ g.inOrder (s.gangThreads gang), t.st = .frozen → t.cause ≠ some .watchdog) →
        exec (.watchdogExpiry gang) s = .next ((s.freezeList g live { cause := .watchdog, info := BitVec.ofNat 64 (recWdt g.task) }).modGang gang
          fun g => { g with wdtLeft := recWdt g.task, wdtClk := s.clk }))) ∧
    ((s.stuck part = false → exec (.allAsleepTrap part) s = .next s) ∧
     (s.stuck part = true → (s.gangs.filter fun h => h.part == part) = [g] → s.sleepers g.id ≠ [] →
       exec (.allAsleepTrap part) s = .next (s.freezeList g (s.sleepers g.id) { cause := .allAsleep, info := BitVec.ofNat 64 (s.sleepers g.id).length }))) ∧
    (let now := s.clk / 2 ^ 20
     let last := ((s.audits.find? fun a => a.1 == link).map (·.2)).getD 0
     let s1 : State := { s with audits := upsert (fun a => a.1 == link) (link, now) (fun _ => (link, now)) s.audits }
     (now ≤ last → exec (.permitAudit link found tileA tileB parts) s = .next s) ∧
     (last < now → found = 0 → exec (.permitAudit link found tileA tileB parts) s = .next s1) ∧
     (last < now → found ≠ 0 → exec (.permitAudit link found tileA tileB parts) s = .next (parts.foldl (fun s p =>
        s.packetOnly p none false { cause := .lostPermit, addr := BitVec.ofNat 64 link, info := BitVec.ofNat 64 found } false)
      (((s1.hkEvent 10 0xFF (BitVec.ofNat 64 link) (BitVec.ofNat 64 found)).bumpAge tileA 4 1).bumpAge tileB 4 1))))

/-- 17 R347-R350, R344, R346, R360-R362, R359, 01 R21: the core tests, the in-field test, the counters with their decay and snapshots, and soft errors. What a test does beside rotations and binds is log entry 51, which events count log entry 52. -/
def Obligations.CoreTests : Prop :=
  ∀ (s : State) (t : Thread) (p : Pred) (full : Bool) (dh : HReg) (d a b : SReg) (x : VTile) (id vt pt marg cs word pa acc row col bit : Nat)
    (test : CoreTest) (failM margM : BitVec 16) (logicFail : Bool) (tile : PTile),
    let f := { Form.blocked 8 p with cap := some 3 }
    let w := t.sreg s.cur.body a
    let m := t.sreg s.cur.body b
    let v := w.toNat
    let offered : Prop := s.vtile? v = some x ∧ x.backed = true ∧ v < s.nvtile ∧ (s.part (s.partNum t)).holds v = true
    let cores := (List.range 16).filter fun c => m.toNat.testBit c
    let busy : Prop := ∃ c ∈ cores, s.pcoreOf v c = none ∨ s.holders v [c] ≠ [] ∨ ∃ y ∈ s.tests, y.vt = v ∧ c ∈ y.mask
    (s.Issues t f →
      ((2 ^ 12 ≤ w.toNat ∨ 2 ^ 16 ≤ m.toNat ∨ m = 0) → exec (.scrRun p full dh a b) s = s.faults t f s.illegal) ∧
      (2 ^ 12 ≤ w.toNat → exec (.scrStat p d a) s = s.faults t f s.illegal) ∧
      (v < 2 ^ 12 → m.toNat < 2 ^ 16 → m ≠ 0 → s.vtile? v = none →
        exec (.scrRun p full dh a b) s = s.faults t f { cause := .tileRange, info := w }) ∧
      (v < 2 ^ 12 → s.vtile? v = none → exec (.scrStat p d a) s = s.faults t f { cause := .tileRange, info := w }) ∧
      (v < 2 ^ 12 → offered →
        (s.ptile? (s.ptileOf v) = some tile → exec (.scrStat p d a) s = s.completes t f (s.modCur fun u => u.setS d
          (BitVec.ofNat 64 (tile.ageing.scrm + tile.ageing.cse * 2 ^ 12 + tile.ageing.ret * 2 ^ 24 + tile.ageing.marg * 2 ^ 36 + tile.ageing.lostp * 2 ^ 48))) 1 0) ∧
        (m.toNat < 2 ^ 16 → m ≠ 0 → t.HandleFree (some dh) →
          (s.isAmber v = true → exec (.scrRun p full dh a b) s = s.waits t f s (.stall 14)) ∧
          (s.isAmber v = false → busy →
            exec (.scrRun p full dh a b) s = s.completes t f (s.modCur fun u => u.setH (some dh) (.complete .ok 4 .read)) 1 0) ∧
          (s.isAmber v = false → ¬ busy → exec (.scrRun p full dh a b) s = s.completes t f
            (({ s with
              nextCmd := s.nextCmd + 1
              tests := s.tests ++ [{ id := s.nextCmd, vt := v, mask := cores, full := full, cmd := s.nextCmd, byVt := t.vt, byCs := t.cslot }] } : State).modCur
              fun u => u.setH (some dh) (.pending s.nextCmd false)) 1 0)))) ∧
    ((s.tests.find? fun y => y.id == id && y.decided.isNone) = some test →
      (s.testLeaving test = true → exec (.scrTestComplete id failM margM) s = .next s) ∧
      (s.testLeaving test = false →
        let fail := (List.range 16).filter fun c => failM.toNat.testBit c && test.mask.contains c
        let mg := (List.range 16).filter fun c => margM.toNat.testBit c && test.mask.contains c
        let result := BitVec.ofNat 60 ((if fail ≠ [] then 2 else if mg ≠ [] then 1 else 0) + ofBits fail * 2 ^ 16 + ofBits mg * 2 ^ 32)
        let p := s.ptileOf test.vt
        let out := fail.filterMap fun c => s.pcoreOf test.vt c
        let s1 := ((out.foldl (fun s c => s.retireCore p c) s).bumpAge p 3 mg.length).hkEnergy
        (out = [] → exec (.scrTestComplete id failM margM) s = .next
          (({ s1 with tests := s1.tests.filter fun y => y.id != test.id } : State).completeCmd test.byVt test.byCs test.cmd .ok result .read)) ∧
        (out ≠ [] → exec (.scrTestComplete id failM margM) s = .next
          (({ s1 with tests := s1.tests.map fun (y : CoreTest) => if y.id == id then { y with decided := some result, fails := out } else y } : State).stageVacant
            p out)))) ∧
    -- The slots of failed cores become vacant, and the handle completes, when the staged table update commits (17 R344).
    (∀ out c, c ∈ (s.stageVacant pt out).vacating pt ↔ c ∈ s.vacating pt ∨ c ∈ out) ∧
    (s.vtile? vt = some x → x.backed = true → x.ptile = pt → ∀ out,
      (s.vacate pt out).vtile? vt = some { x with slots := x.slots.map fun (o : Option Nat) => o.filter fun c => !out.contains c }) ∧
    (∀ n, (s.tests.filter fun y => y.decided.isSome && s.ptileOf y.vt == pt) = [test] → test.decided = some n →
      s.endTests pt = (({ s with tests := s.tests.filter fun y => y.id != test.id } : State).completeCmd test.byVt test.byCs test.cmd .ok n .read).applyHeld
        test.vt) ∧
    (let l := s.tests.filter fun y => y.vt == vt && s.testLeaving y
     (s.isAmber vt = true ∨ l = [] → exec (.testLeaveComplete vt) s = .next s) ∧
     (s.isAmber vt = false → l = [test] → exec (.testLeaveComplete vt) s = .next
       ((({ s with tests := s.tests.filter fun y => y.id != test.id } : State).completeCmd test.byVt test.byCs test.cmd .ok 3 .read).hkEnergy.applyHeld vt))) ∧
    (s.ptile? pt = some tile →
      ((tile.service ≠ .grey ∨ s.staged? (.black pt) = true) → exec (.infieldTestComplete pt failM marg logicFail) s = .next s) ∧
      (tile.service = .grey → s.staged? (.black pt) = false → marg = 0 →
        let seen (pass : Bool) (u : PTile) : PTile := { u with lastTest := s.clk, passed := pass, greyClk := s.clk, votes := u.votes || pass }
        let good := s.hkEnergy.modPTile pt (seen true)
        (logicFail = false → failM = 0 → 12 ≤ tile.cores.length → tile.ageing.grey = false → tile.ageing.black = false →
          exec (.infieldTestComplete pt failM marg logicFail) s = .next (good.setService pt .white)) ∧
        (logicFail = false → failM = 0 → 12 ≤ tile.cores.length → tile.ageing.grey = true → tile.ageing.black = false →
          exec (.infieldTestComplete pt failM marg logicFail) s = .next good) ∧
        (logicFail = true → failM = 0 →
          exec (.infieldTestComplete pt failM marg logicFail) s = .next ((s.hkEnergy.modPTile pt (seen false)).toBlack pt)))) ∧
    (∀ q c, (s.retireCore q c).retireLog = s.retireLog ++ [{ valid := true, entries := [.core q c] }] ∧
      (s.staged? (.black q) = false → s.toBlack q = { s.modPTile q fun u => { u with cores := [] } with
        retireLog := s.retireLog ++ [{ valid := true, entries := [.tile q] }], updates := s.updates ++ [{ change := .black q, noVote := [] }] })) ∧
    (∀ (g : Ageing) (k clk : Nat), k < 5 →
      let n := match k with | 0 => g.scrm | 1 => g.cse | 2 => g.ret | 3 => g.marg | _ => g.lostp
      let span := match k with | 0 => 32 | 1 => 1 | 2 => 256 | 3 => 32 | _ => 32
      let first := (g.clks.getD k 0 + 2 ^ 42 - 1) / 2 ^ 42
      (n = 0 ∨ clk < (first + span) * 2 ^ 42 → g.decay k clk = g) ∧
      (n ≠ 0 → (first + span) * 2 ^ 42 ≤ clk →
        g.decay k clk = { (match k with
          | 0 => { g with scrm := g.scrm - 1 } | 1 => { g with cse := g.cse - 1 } | 2 => { g with ret := g.ret - 1 }
          | 3 => { g with marg := g.marg - 1 } | _ => { g with lostp := g.lostp - 1 } : Ageing) with
          clks := g.clks.set k ((first + span) * 2 ^ 42) })) ∧
    exec .ageingDecay s = .next { s with tiles := s.tiles.map fun u =>
      { u with ageing := ((((u.ageing.decay 0 s.clk).decay 1 s.clk).decay 2 s.clk).decay 3 s.clk).decay 4 s.clk } } ∧
    (s.snapClk + 2 ^ 42 ≤ s.clk → exec .ageingSnapshot s = .next { s with
      snapshots := s.snapshots ++ [{ valid := true, words := s.tiles.map fun u => (u.num, u.ageing) }], snapClk := s.snapClk + 2 ^ 42 }) ∧
    (s.clk < s.snapClk + 2 ^ 42 → exec .ageingSnapshot s = .next s) ∧
    (word < 131072 → (s.pcoreOf vt cs).isSome = true →
      exec (.softError (.ls vt cs word)) s = .next (s.modCore vt cs fun c => { c with bad := insertNat word c.bad })) ∧
    (pa < 0x165A0BC0000 → exec (.softError (.hbm pa)) s = .next { s with hbmBad := insertNat (pa / 32) s.hbmBad }) ∧
    (acc < 8 → row < 16 → col < 16 → bit < 32 → (s.pcoreOf vt cs).isSome = true →
      exec (.softError (.acc vt cs acc row col bit)) s = .next (s.modCore vt cs fun c => c.modAcc acc fun a =>
        { a with words := a.words.modify (16 * row + col) fun w => w ^^^ BitVec.ofNat 32 (2 ^ bit) })) ∧
    (∀ (a : Acc) (k : Nat), (k ∈ a.broken ↔ k < 256 ∧ (nth a.words k 0).toNat % 3 ≠ nth a.res k 0) ∧
      (a.words.length = 256 → a.res.length = 256 → ∀ l : List (Nat × Lane), (∀ x ∈ l, x.1 < 256) → (∀ j ∈ l.map (·.1), j ≠ k) → (k ∈ (a.put l).broken ↔ k ∈ a.broken)) ∧
      (a.words.length = 256 → a.res.length = 256 → ∀ (w : Lane), k ∉ (a.put [(k, w)]).broken)) ∧
    ((s.pcoreOf vt cs).isSome = true →
      exec (.softError (.lsBit vt cs)) s = .next (s.bumpAge (s.ptileOf vt) 1 1) ∧
      exec (.softError (.array vt cs)) s = .next (s.modCore vt cs fun c => { c with arrayBad := true })) ∧
    (s.pcoreOf vt cs = none → ∀ y ∈ [SoftTarget.ls vt cs word, .acc vt cs acc row col bit, .lsBit vt cs, .array vt cs],
      exec (.softError y) s = .next s) ∧
    (∀ n, 0 < n → s.ptile? pt = some tile → tile.service = .amber → ∃ u, (s.bumpAge pt 1 n).ptile? pt = some u ∧
      u.ageing.cse = min (tile.ageing.cse + n) 4095 ∧ u.ageing.scrm = tile.ageing.scrm ∧ u.ageing.ret = tile.ageing.ret ∧
      u.ageing.marg = tile.ageing.marg ∧ u.ageing.lostp = tile.ageing.lostp)

/-- 17 R339-R346, R356-R358, 01 R17, R18, R23: rotations and forced moves through their states, the table update, its rejection and the other table changes, replay, the patrol and retention; the spare that is taken. What a rotation does around its commit is log entry 48, what a replay does log entry 49, the spare that is taken and what is unbacked log entry 50, that cores with failures leave the table in an update of their own log entry 51; that one in REMAP counts toward the 8, and which silent routers an update waits for, log entry 68, when RESUME ends log entry 69. Energy is a free value (log entry 10), when a tile is idle log entry 52, what becomes of the reserve log entry 67. -/
def Obligations.Rotations : Prop :=
  ∀ (s s1 : State) (vt q pt counter slot : Nat) (v : VTile) (r : Rotation) (tile : PTile) (g : Gang) (u : TableUpdate),
    let started (s : State) (vt target : Nat) (forced : Bool) : State :=
      (({ s with rotations := s.rotations ++
          [{ vt := vt, source := s.ptileOf vt, target := target, st := .drain, forced := forced, isReplay := false, preempted := false,
             since := s.clk, noVote := [], counter := 0, events := 0 }] } : State).abortTests vt).applyHeld vt
    let busy : Prop := 8 ≤ (s.rotations.filter fun r => r.st != .resume && !r.isReplay).length
    -- A tile that has rejected an update blocks every REMAP until it is left, so those in REMAP do not hold it up (log entry 68).
    let full : Prop := if tile.votes = false then 8 ≤ (s.rotations.filter fun r => (r.st == .drain || r.st == .copy) && !r.isReplay).length else busy
    let held (s : State) (p : Nat) : State := s.modPTile p fun t => { t with service := if t.service = .white then .amber else t.service }
    let amber (s : State) (r : Rotation) : State := (held (held s r.source) r.target).modVTile r.vt fun v => { v with amber := true }
    let fewSpares : Prop := (s.tiles.filter s.isSpare).length < 2
    let greys := (s.tiles.filter fun t => t.service == .grey).length
    let must : Prop := tile.service = .white ∧ (tile.ageing.grey = true ∨ tile.cores.length < 12 ∨ tile.votes = false)
    ((32 ≤ greys ∨ busy ∨ fewSpares) → exec .routineRotation s = .next s) ∧
    (greys < 32 → ¬ busy → ¬ fewSpares → s.oldestTested = some tile →
      (s.carried tile.num = none → exec .routineRotation s = .next (s.toGrey tile.num true)) ∧
      (s.carried tile.num = some vt → (s.isAmber vt = true ∨ s.unbacking vt = true) → exec .routineRotation s = .next s) ∧
      (s.carried tile.num = some vt → s.isAmber vt = false → s.unbacking vt = false → s.spareFor vt = some q →
        exec .routineRotation s = .next (started s vt q (decide (3 ≤ tile.attempts))))) ∧
    (s.oldestTested = some tile → tile ∈ s.tiles ∧ tile.service = .white ∧
      ∀ u ∈ s.tiles, u.service = .white → u.notBefore ≤ s.clk → (∀ r ∈ s.rotations, r.source ≠ u.num ∧ r.target ≠ u.num) → tile.lastTest ≤ u.lastTest) ∧
    (s.vtile? vt = some v → s.spareFor vt = some q →
      (∃ u ∈ s.tiles, u.num = q ∧ s.isSpare u = true ∧ (v.slots.filter Option.isSome).length ≤ u.cores.length) ∧
      ∀ u ∈ s.tiles, s.isSpare u = true → (v.slots.filter Option.isSome).length ≤ u.cores.length → u.num ≤ q) ∧
    (s.vtile? vt = some v → s.ptile? (s.ptileOf vt) = some tile →
      ((v.backed = false ∨ v.amber = true ∨ s.unbacking vt = true ∨ s.rotation? vt ≠ none ∨ ¬ must ∨ full) → exec (.forcedRotation vt) s = .next s) ∧
      (v.backed = true → v.amber = false → s.unbacking vt = false → s.rotation? vt = none → must → ¬ full →
        (s.takeSpare vt = none → exec (.forcedRotation vt) s = .next (s.unback vt)) ∧
        (s.takeSpare vt = some (s1, q) → exec (.forcedRotation vt) s = .next (started s1 vt q true)))) ∧
    (s.rotation? vt = some r →
      let dest (st : RotState) := s.modRotation vt fun r => { r with st := st, since := s.clk }
      let drain : Prop := r.st = .drain ∧ r.since + 2 ^ 24 ≤ s.clk
      (r.st = .drain → s.quiescent vt = true → exec (.rotationQuiescent vt) s = .next ((amber (dest .copy) r).abortTests vt)) ∧
      ((r.st ≠ .drain ∨ s.quiescent vt = false) →
        -- A rotation that lost its target while 8 others stood in DRAIN or COPY copies once there is a place.
        ((r.again = true ∧ s.copying < 8) → exec (.rotationQuiescent vt) s = .next
          (s.modRotation vt fun r => { r with st := .copy, again := false, since := s.clk })) ∧
        ((r.again = false ∨ 8 ≤ s.copying) → exec (.rotationQuiescent vt) s = .next s)) ∧
      (s.mismatches vt ≠ 0 → s.quiescent vt = false) ∧
      (¬ drain → exec (.drainTimeout vt) s = .next s) ∧
      (drain → r.forced = false → exec (.drainTimeout vt) s = .next
        (({ s with rotations := s.rotations.filter fun r => r.vt != vt } : State).modPTile r.source fun u =>
          { u with attempts := u.attempts + 1, notBefore := s.clk + 6300000000000 })) ∧
      (drain → r.forced = true → r.preempted = false → exec (.drainTimeout vt) s = .next
        ((s.gangs.filter fun g => s.restless vt g).foldl (fun s g => s.preemptGang g)
          (s.modRotation vt fun r => { r with preempted := true, since := s.clk }))) ∧
      (drain → r.forced = true → r.preempted = true →
        let s1 := s.unbindFresh vt
        let gids := (s1.gangs.filter fun g => s1.restless vt g).map (·.id)
        let s2 := (amber (s1.modRotation vt fun r => { r with st := .copy, since := s1.clk }) r).abortTests vt
        (∀ x ∈ gids, s2.ckptGood vt x = true) →
          exec (.drainTimeout vt) s = .next (((s2.restoreTile vt gids).markReplayed gids).reportReplay vt r.source)) ∧
      (r.st = .copy → s.copyMeetsError vt = false → s.mismatches vt = 0 → exec (.stateCopyComplete vt) s = .next (dest .remap).hkEnergy) ∧
      ((r.st ≠ .copy ∨ s.copyMeetsError vt = true ∨ s.mismatches vt ≠ 0) → exec (.stateCopyComplete vt) s = .next s) ∧
      (∀ b, r.st ≠ .copy → exec (.stateCopyError vt b) s = .next s) ∧
      (r.st = .copy → exec (.stateCopyError vt true) s = .next (s.retarget r .drain)) ∧
      (r.st = .copy → s.copyMeetsError vt = true → s.brokenOn vt = [] → exec (.stateCopyError vt false) s = .next (s.beginReplay vt 1)) ∧
      (∀ x, r.st = .copy → s.copyMeetsError vt = true → s.brokenOn vt = [x] →
        exec (.stateCopyError vt false) s = .next ((s.screenMismatch vt x).beginReplay vt 0)) ∧
      (s.mayCommit r = false → exec (.tableUpdateCommit vt) s = .next s) ∧
      (s.mayCommit r = true → r.isReplay = true → exec (.tableUpdateCommit vt) s = .next
        ((((s.remap vt r.target).endRotation r).bumpAge r.source r.counter r.events).reportReplay vt r.source)) ∧
      (s.mayCommit r = true → r.isReplay = false →
        let told := (s.siliconEvent vt 1 r.source).remap vt r.target
        let awaited : Prop := ∃ u ∈ told.threads, u.vt = vt ∧ (u.st = .bound ∨ ∃ b ∈ told.bounds, (u.vt, u.slot) ∈ b.parts)
        (awaited → exec (.tableUpdateCommit vt) s = .next (told.modRotation vt fun r => { r with st := .resume, since := told.clk })) ∧
        (¬ awaited → exec (.tableUpdateCommit vt) s = .next (told.endRotation r))) ∧
      (s.ptile? pt = some tile →
        ((r.st ≠ .remap ∨ r.again = true ∨ tile.votes = false) → exec (.tableUpdateReject vt pt) s = .next s) ∧
        (r.st = .remap → r.again = false → tile.votes = true →
          let told := ((s.siliconLog (BitVec.ofNat 64 vt) 3 r.source).notice).siliconEvent vt 3 r.source
          let mark := (told.modRotation vt fun r => { r with noVote := r.noVote ++ [pt] }).modPTile pt fun u => { u with votes := false }
          let hit := mark.rotations.find? fun x => x.target == pt && x.st != .resume
          (∀ x, hit = some x → exec (.tableUpdateReject vt pt) s = .next (mark.retarget x
            (match x.st with | .drain => .drain | .copy => .copy | _ => if x.isReplay then .remap else .copy))) ∧
          (hit = none → tile.service ≠ .white → exec (.tableUpdateReject vt pt) s = .next mark) ∧
          (hit = none → tile.service = .white → mark.carries pt = true → exec (.tableUpdateReject vt pt) s = .next mark) ∧
          (hit = none → tile.service = .white → mark.carries pt = false → exec (.tableUpdateReject vt pt) s = .next (mark.toGrey pt))))) ∧
    (s.rotation? q = none → s.update? q = some u →
      let source := match u.change with | .unbacked vt => s.ptileOf vt | .black p => p | .vacant p _ => p
      let may : Prop := s.votesIn source u.noVote = true ∧ s.replayFirst = false
      let rest : State := { s with updates := s.updates.filter fun x => x != u }
      (¬ may → exec (.tableUpdateCommit q) s = .next s) ∧
      (may → ∀ p, u.change = .black p → exec (.tableUpdateCommit q) s = .next
        (rest.modPTile p fun t => { t with service := if t.service = .grey then .black else t.service })) ∧
      (may → ∀ p out, u.change = .vacant p out → exec (.tableUpdateCommit q) s = .next ((rest.vacate p out).endTests p)) ∧
      (may → u.change = .unbacked vt → exec (.tableUpdateCommit q) s = .next (rest.unbacked vt))) ∧
    -- Another spare: back in DRAIN nothing is pre-empted yet, and of more than 8 that would copy the rest wait in REMAP.
    (∀ (st : RotState) (s2 : State) (p : Nat),
      (if r.st = .copy ∨ r.isReplay = true then (s.toGrey r.target).hkEnergy else s.toGrey r.target).nextSpare r = some (s2, p) →
      (st = .drain → s.retarget r st = (((s2.modRotation r.vt fun x =>
        { x with target := p, st := .drain, again := false, since := s2.clk, preempted := false }).setService r.source .white).clearAmber r.vt).applyHeld r.vt) ∧
      (st = .copy → r.st = .remap → s.retarget r st = (s2.modRotation r.vt fun x =>
        { x with
          target := p, st := if 8 ≤ s2.copying then .remap else .copy, again := decide (8 ≤ s2.copying)
          since := s2.clk }).toAmber p)) ∧
    (s.rotation? q = none → s.update? q = none → exec (.tableUpdateCommit q) s = .next s ∧ exec (.tableUpdateReject q pt) s = .next s) ∧
    (s.vtile? vt = some v → (s.remap vt q).ptileOf vt = q) ∧
    (let due : Prop := (counter = 0 ∧ ∃ c ∈ s.cores, c.vt = vt ∧ c.mismatch ≠ 0) ∨ (counter = 2 ∧ s.retentionLost vt = true)
     let starts (s : State) (counter : Nat) (o : Out) : Prop :=
       let found := ((s.cores.filter fun c => c.vt == vt).map (·.mismatch)).sum
       let n := match counter with | 0 => max 1 found | 2 => 1 | _ => 0
       let answered (s : State) : State := { s with cores := s.cores.map fun (c : Core) => if c.vt == vt then { c with mismatch := 0 } else c }
       -- Mismatches pending when a replay of another cause begins are counted as its tile's own.
       let counted (s : State) : State := (answered s).bumpAge (s.ptileOf vt) 0 ((s.cores.filter fun c => c.vt == vt).map (·.mismatch)).sum
       let told : State := match counter with
         | 0 => answered s
         | 2 => (counted s).modPTile (s.ptileOf vt) fun p => { p with retained := false }
         | _ => counted s
       let p := told.ptileOf vt
       let stay (s : State) : State := (held s (s.ptileOf vt)).modVTile vt fun v => { v with amber := true }
       let onto (s : State) (q : Nat) : State :=
         let x : Rotation :=
           { vt := vt, source := s.ptileOf vt, target := q, st := .remap, forced := true, isReplay := true, preempted := false,
             since := s.clk, noVote := [], counter := counter, events := n }
         ((((amber { counted s with rotations := (counted s).rotations ++ [x] } x).abortTests vt).restoreTile vt [g.id]).modGang g.id
           fun g => { g with replayed := true }).freshSilicon vt
       (g.replayed = true → o = .next ((told.freezeGang g.id { cause := .replay, sub := 2 }).bumpAge
         ((told.freezeGang g.id { cause := .replay, sub := 2 }).ptileOf vt) counter n)) ∧
       (g.replayed = false → told.ckptGood vt g.id = false →
         let s2 := (stay (told.freezeGang g.id { cause := .replay, sub := 1 })).cancelRotation vt
         o = .next (s2.bumpAge p counter n)) ∧
       (g.replayed = false → told.ckptGood vt g.id = true → told.takeSpare vt = some (s1, q) → o = .next (onto s1 q)) ∧
       (g.replayed = false → told.ckptGood vt g.id = true → told.takeSpare vt = none →
         o = .next (((stay told).bumpAge p counter n).unback vt))
     (¬ due → exec (.replay vt counter) s = .next s) ∧
     ((s.core vt slot).bad = [] → exec (.patrolScrub vt slot) s = .next s.hkEnergy) ∧
     (s.vtile? vt = some v → v.backed = true → v.amber = false → s.unbacking vt = false → s.rotation? vt = none →
       s.gangs = [g] → g.released = true → (g.tile? vt).isSome = true →
       (due → starts s counter (exec (.replay vt counter) s)) ∧
       ((s.core vt slot).bad ≠ [] → starts s.hkEnergy 1 (exec (.patrolScrub vt slot) s)))) ∧
    (s.ptile? pt = some tile → s.carried pt = some vt → tile.service = .white →
      let idle : Prop := 65536 ≤ s.clk ∧
        ∀ t ∈ s.threads, t.vt = vt → (t.st = .free ∨ (t.st = .run ∧ t.wait = .step ∧ t.stepRel = false)) ∧ t.since + 65536 ≤ s.clk
      (idle → exec (.retentionEntry pt) s = .next (s.modPTile pt fun p => { p with retained := true })) ∧
      (¬ idle → exec (.retentionEntry pt) s = .next s))

/-- 04 R69-R80, 05 R85, 11 R224, R225: queue commands with their results, the doorbell, the staging of records, dependences, the close of a queue, and the translation invalidate. Which resume is staged and what HEAD does under a SEQ mismatch is log entry 22; that a command runs in a step of its own and a GO is ignored while one runs, a DISABLED queue of the thread's PART, the half range of a doorbell and which writes make a re-read due are log entry 66; which accesses an invalidate waits for is log entry 12. The words of log entries are log entry 40. That a record and a WAITADDR word are read as stored where their HBM granule holds an uncorrectable error is the model's choice, log entry 74. -/
def Obligations.Queues : Prop :=
  ∀ (s : State) (q : Nat) (val : BitVec 32) (q0 a1 a2 : Word) (x : Queue) (src : TaskSrc) (rsv : Bool) (n : Nat) (m : Mapped) (e : Nat) (bs : List Byte)
    (by' : Source) (w : Word) (t : State),
    let res (s : State) (n : Nat) : Out := .next { s with qcmd := { s.qcmd with result := n } }
    let ent := q0.toNat % 2 ^ 16
    let log2 := q0.toNat / 2 ^ 39 % 32
    let pt := q0.toNat / 2 ^ 24 % 256
    -- The command block (R69): BUSY while a command runs; RESULT is written as it clears (R70).
    let at' (o : Nat) : Nat := 0xC00001000 + o
    let put (o : Nat) (v : Word) : Out := exec (.registerWrite by' (at' o) 8 v) s
    (s.phase = 4 →
      s.regWord (at' 0x18) = BitVec.ofNat 64 ((if s.qcmd.busy = true then 2 else 0) + s.qcmd.result * 256) ∧
      (s.qcmd.busy = true → ∀ o ∈ [0, 8, 0x10, 0x18], put o w = .next s) ∧
      (s.qcmd.busy = false →
        put 0 w = .next { s with qcmd := { s.qcmd with q0 := w &&& 0xFFFFF0FFFFF } } ∧ put 8 w = .next { s with qcmd := { s.qcmd with q1 := w } } ∧
        put 0x10 w = .next { s with qcmd := { s.qcmd with q2 := w } } ∧
        (w.getLsbD 0 = true → put 0x18 w = .next { s with qcmd := { s.qcmd with busy := true, src := by' } }) ∧
        (w.getLsbD 0 = false → put 0x18 w = .next s))) ∧
    (let c := s.qcmd
     let op := c.q0.toNat / 2 ^ 16 % 16
     let of := c.q0.toNat % 2 ^ 16
     let ends (i : Instr) : Prop := exec i s = .next t → s.commandTurn = { t with qcmd := { t.qcmd with busy := false } }
     (c.busy = false → s.commandTurn = s) ∧
     (c.busy = true → (op = 1 → ends (.queueCreate c.src c.q0 c.q1)) ∧ (op = 2 → ends (.queueDestroy c.src of)) ∧
       (op = 3 → ends (.queueRestart c.src of)) ∧ (op = 4 → ends (.queueCredit c.src of c.q1 c.q2)) ∧
       (¬ (1 ≤ op ∧ op ≤ 4) → c.src = .host → s.commandTurn = { s with qcmd := { c with result := 2, busy := false } }))) ∧
    let poor : Prop := log2 < 4 ∨ 16 < log2 ∨ a1.toNat % 4096 ≠ 0 ∨ 2 ^ 48 ≤ a1.toNat ∨ (s.part pt).valid = false
    (q < 2 ^ 16 → s.queue q = x →
      ((s.queue ent).state ≠ .disabled → exec (.queueCreate .host q0 a1) s = res s 1) ∧
      ((s.queue ent).state = .disabled → poor → exec (.queueCreate .host q0 a1) s = res s 2) ∧
      ((s.queue ent).state = .disabled → ¬ poor → exec (.queueCreate .host q0 a1) s = res (s.modQueue ent fun _ =>
        { Queue.fresh ent with
          state := .opened, ringbase := a1, ringlog2 := log2, part := pt, capmask := q0.toNat / 2 ^ 32 % 16, priomax := q0.toNat / 2 ^ 36 % 8
          cls := (s.queue ent).cls, clst := (s.queue ent).clst, clsm := (s.queue ent).clsm }) 0) ∧
      ((x.state = .disabled ∨ x.state = .closing) →
        exec (.queueDestroy .host q) s = res s 1 ∧ exec (.queueCredit .host q a1 a2) s = res s 1) ∧
      ((x.state = .opened ∨ x.state = .stalled) →
        (x.staged = none → x.resume = [] → exec (.queueDestroy .host q) s = res (s.modQueue q fun x =>
          { x with state := .closing, discards := x.discards + (x.tail - x.head), head := x.tail, resume := [], staged := none }) 0) ∧
        (x.staged = none → x.resume = [src] → exec (.queueDestroy .host q) s = res ((s.modQueue q fun x =>
          { x with state := .closing, discards := x.discards + (x.tail - x.head), head := x.tail, resume := [], staged := none }).endRecord q src 4 0 false) 0) ∧
        (2 ^ 48 ≤ a1.toNat ∨ 2 ^ 48 ≤ a2.toNat → exec (.queueCredit .host q a1 a2) s = res s 2) ∧
        (a1.toNat < 2 ^ 48 → a2.toNat < 2 ^ 48 → exec (.queueCredit .host q a1 a2) s = res (s.addAccount q a1.toNat a2.toNat) 0)) ∧
      (x.state ≠ .stalled → exec (.queueRestart .host q) s = res s 1) ∧
      (x.state = .stalled → exec (.queueRestart .host q) s = res (s.modQueue q fun x => { x with state := .opened }) 0) ∧
      (∀ vt slot, exec (.queueCreate (.thread vt slot) q0 a1) s = res s 3 ∧ exec (.queueDestroy (.thread vt slot) q) s = res s 3) ∧
      (∀ vt slot, (s.hasCap (s.thread vt slot) 2 = false ∨ x.part ≠ s.partNum (s.thread vt slot) ∨ x.state = .disabled) →
        exec (.queueRestart (.thread vt slot) q) s = res s 3 ∧ exec (.queueCredit (.thread vt slot) q a1 a2) s = res s 3) ∧
      (let ahead := (val - x.tail).toNat
       let span := (val - x.head).toNat
       let live : Prop := x.state = .opened ∨ x.state = .stalled
       let good : Prop := ahead < 2 ^ 31 ∧ span ≤ 2 ^ x.ringlog2 ∧ (x.tail - x.head).toNat ≤ span
       let again (x : Queue) : Queue := { x with staged := x.staged.map fun r => match r.st with | .depWait _ => { r with st := .depWait true } | _ => r }
       (¬ live → exec (.doorbell q val) s = .next s) ∧
       (live → ahead = 0 → exec (.doorbell q val) s = .next (s.modQueue q again)) ∧
       (live → 2 ^ 31 ≤ ahead → exec (.doorbell q val) s = .next s) ∧
       (live → ahead ≠ 0 → good → exec (.doorbell q val) s = .next (s.modQueue q fun x => { x with tail := val })) ∧
       (live → ahead ≠ 0 → ahead < 2 ^ 31 → 2 ^ x.ringlog2 < span →
         exec (.doorbell q val) s = .next (s.hkEvent 3 x.part (BitVec.ofNat 64 q) (val.setWidth 64)))) ∧
      ((x.state ≠ .opened ∨ x.staged ≠ none ∨ (x.resume = [] ∧ x.head = x.tail)) → exec (.recordRead q) s = .next s) ∧
      (x.state = .opened → x.staged = none → s.stageCount < 8192 → x.resume = [] → x.head ≠ x.tail → s.nextToStage = some q →
        exec (.recordRead q) s = .next { s.readRing q 0 with lastStaged := q }) ∧
      (s.nextToStage ≠ some q → exec (.recordRead q) s = .next s) ∧
      (x.staged = some { src := src, st := .seqWait n, reserving := rsv, gang := none } → x.state = .opened →
        exec (.seqRetry q) s = .next (s.readRing q (n + 1))) ∧
      (x.staged = none → exec (.seqRetry q) s = .next s ∧ exec (.dependenceReread q) s = .next s) ∧
      (x.staged = some { src := src, st := .depWait false, reserving := rsv, gang := none } →
        exec (.dependenceReread q) s = .next s ∧
        (∀ k pa, s.translate (.panel (s.part x.part).asid) (recWaitaddr src.task) (needSide false) = .ok m → m.pa < pa + k → pa < m.pa + 4 →
          (s.noteWrite pa k).queue q = { x with staged := some { src := src, st := .depWait true, reserving := rsv, gang := none } })) ∧
      (x.staged = some { src := src, st := .depWait true, reserving := rsv, gang := none } → x.state = .opened →
        let tr := s.translate (.panel (s.part x.part).asid) (recWaitaddr src.task) (needSide false)
        (tr = .err e → exec (.dependenceReread q) s = .next (s.stall q (recWaitaddr src.task))) ∧
        (tr = .ok m →
          let w := s.hbm.read m.pa 4
          (w = 0 → exec (.dependenceReread q) s = .next (s.modQueue q fun x =>
            { x with staged := some { src := src, st := .ready s.clk, reserving := rsv, gang := none } })) ∧
          (0 < w → w < 2 ^ 31 → exec (.dependenceReread q) s = .next (s.modQueue q fun x =>
            { x with staged := some { src := src, st := .depWait false, reserving := rsv, gang := none } })) ∧
          (2 ^ 31 ≤ w → exec (.dependenceReread q) s = .next ((s.modQueue q fun x => { x with staged := none }).endRecord q src 3 0 true)))) ∧
      (x.state = .closing → x.inflight = 0 → x.resume = [] → exec (.queueClose q) s = .next
        { (s.modQueue q fun x => { x with state := .disabled, acbic := 0, acbmc := 0 }).hkEvent 5 x.part (BitVec.ofNat 64 q) 0 with
          hkUnits := s.hkUnits + x.acbic, hkBytes := s.hkBytes + x.acbmc }) ∧
      ((x.state ≠ .closing ∨ x.inflight ≠ 0 ∨ x.resume ≠ []) → exec (.queueClose q) s = .next s) ∧
      (let rd := s.readPage (.panel (s.part x.part).asid) (needPlain false) (x.ringbase.toNat + 128 * (x.head.toNat % 2 ^ x.ringlog2)) 128
       let r : TaskSrc := { task := bytesWords 16 bs, parent := none, bics := [], bmcs := [], debitI := 0, debitM := 0, resv := none, leftI := 0, leftM := 0 }
       let taken := s.modQueue q fun x => { x with head := x.head + 1, inflight := x.inflight + 1, staged := none }
       rd = .ok bs →
         (recSeq r.task ≠ x.head.toNat → n < 4 → s.readRing q n = s.modQueue q fun x =>
           { x with staged := some { src := r, st := .seqWait n, reserving := false, gang := none } }) ∧
         (recSeq r.task ≠ x.head.toNat → 4 ≤ n → recVersion r.task = 1 → recClean r.task = true → s.readRing q n = taken.endRecord q r 1 2 true) ∧
         ((recVersion r.task ≠ 1 ∨ recClean r.task = false) → recSeq r.task = x.head.toNat → s.readRing q n = taken.endRecord q r 1 1 true))) ∧
    (∀ r, s.nextToStage = some r → (∃ y ∈ s.queues, y.qid = r ∧ y.state = .opened ∧ y.staged = none) ∧
      ∀ z ∈ s.queues, z.state = .opened → z.staged = none → z.head ≠ z.tail →
        (s.lastStaged < z.qid → s.lastStaged < r ∧ r ≤ z.qid) ∧ (z.qid ≤ s.lastStaged → s.lastStaged < r ∨ r ≤ z.qid)) ∧
    (s.nextToStage = none → ∀ z ∈ s.queues, z.state = .opened → z.staged = none → z.head = z.tail) ∧
    (let ranged : Prop := s.tinv.t0.toNat / 2 ^ 16 % 2 = 1
     let bad : Prop := ranged ∧ (s.tinv.t1.toNat % 4096 ≠ 0 ∨ 2 ^ 48 ≤ s.tinv.t1.toNat ∨ s.tinv.t2.toNat = 0 ∨
        s.tinv.t2.toNat % 4096 ≠ 0 ∨ 2 ^ 48 < s.tinv.t1.toNat + s.tinv.t2.toNat)
     let asid := s.tinv.t0.toNat % 2 ^ 16
     let lo := if ranged then s.tinv.t1.toNat else 0
     let hi := if ranged then s.tinv.t1.toNat + s.tinv.t2.toNat else 2 ^ 48
     let near (va : Nat) : Prop := va / 2 ^ 30 * 2 ^ 30 < hi ∧ lo < (va / 2 ^ 30 + 1) * 2 ^ 30
     let earlier : Prop := (∃ y ∈ s.memOps, y.asid = asid ∧ near y.va) ∨ ∃ t ∈ s.threads, s.asidOf t = asid ∧ ∃ y ∈ t.ioHeld, near y.va
     let dropped (e : TlbEntry) : Bool :=
       decide (e.asid = asid ∧ e.key * 2 ^ (3 + 9 * e.level) < hi ∧ lo < (e.key + 1) * 2 ^ (3 + 9 * e.level))
     (s.tinv.busy = true → s.invalidateGo = s) ∧
     (s.tinv.busy = false → bad → s.invalidateGo = { s with tinv := { s.tinv with result := 2 } }) ∧
     (s.tinv.busy = false → ¬ bad → s.invalidateGo = { s with tinv := { s.tinv with busy := true } }) ∧
     ((s.tinv.busy = false ∨ earlier) → exec .translationInvalidate s = .next s) ∧
     (s.tinv.busy = true → ¬ earlier → exec .translationInvalidate s = .next { s with
       vtiles := s.vtiles.map fun v => { v with tlb := v.tlb.filter fun e => !dropped e }
       tinv := { s.tinv with busy := false, result := 0 } }))

/-- 05 R86-R101, R399, 15 R291, R293, 17 R342: the bind port's results, what a BIND claims, RELEASE, PREEMPT, the scrub and the loaded values, the selection of a record and of its domain, the reserving record and the PREEMPTs. The order of the port's checks, a BIND that no conforming controller writes, and what becomes of a PREEMPT of a gang that is not released or holds an AMBER tile are log entry 23, the bases and cores that placement tries log entry 57, a record paired with another log entry 66. -/
def Obligations.BindSelect : Prop :=
  ∀ (s : State) (vt slot q : Nat) (rec raw : List Word) (g : Gang) (k : GangTile) (x : Queue) (src : TaskSrc) (c l p d v : Nat) (mt : Option Nat) (s1 : State),
    let b := BindRec.of raw
    let mine : Prop := b.vtbase + b.vtidx = vt ∧ b.vtidx < recNvt rec ∧ (s.vtile? vt).isSome = true
    (¬ mine → exec (.bind vt rec raw) s = .next s) ∧
    (mine → s.holdsBind vt b = false → s.bindResult vt rec raw ≠ 0 → exec (.bind vt rec raw) s = .next s) ∧
    (mine → s.holdsBind vt b = false → s.bindResult vt rec raw = 0 → ∀ s1, s.bindGang b rec = some s1 →
      let s2 := (s1.modGang b.gangid fun g => { g with tiles := insertTile (b.tile vt raw) g.tiles }).modBar vt b.barid fun x => { x with gen := 0, arr := [] }
      let s3 := (s2.modPTile (s1.ptileOf vt) fun p => { p with retained := false }).modVTile vt fun v => { v with icache := [] }
      let s4 := b.slots.foldl (fun s n => s.putThread { Thread.fresh vt n with st := .scrub, gang := b.gangid, gslot := b.gslot }) s3
      exec (.bind vt rec raw) s = .next
        (s4.event (s4.queue b.qid).part 4 0 b.gangid (BitVec.ofNat 64 vt) (BitVec.ofNat 64 (ofBits b.cmask + ofBits b.tmask * 2 ^ 16)))) ∧
    (mine → s.holdsBind vt b = true → ∀ s1, s.bindGang b rec = some s1 →
      exec (.bind vt rec raw) s = .next { s1 with heldBinds := s1.heldBinds ++ [(vt, rec, raw)] }) ∧
    (let clean : Prop := bindClean raw = true ∧ b.op = 1 ∧ b.tmask.length = recNthr rec ∧ b.cmask.length = recNcore rec ∧
       (∀ t ∈ b.tmask, (b.amask.getD t []).length = recNacc rec ∧ b.lsb.getD t 0 + recUnits rec ≤ 112) ∧
       ∀ a ∈ b.amask, a = [] ∨ a.length = recNacc rec
     (¬ clean → s.bindResult vt rec raw = 1) ∧
     (clean → s.tileReady vt = false → s.bindResult vt rec raw = 2) ∧
     (clean → s.tileReady vt = true → (∃ c ∈ b.cmask, s.pcoreOf vt c = none) → s.bindResult vt rec raw = 3) ∧
     (clean → s.tileReady vt = true → (∀ c ∈ b.cmask, s.pcoreOf vt c ≠ none) → (∃ n ∈ b.slots, (s.thread vt n).st ≠ .free) → s.bindResult vt rec raw = 4) ∧
     (clean → s.tileReady vt = true → (∀ c ∈ b.cmask, s.pcoreOf vt c ≠ none) → (∀ n ∈ b.slots, (s.thread vt n).st = .free) →
       ((s.gslotGang vt b.gslot).isSome = true → s.bindResult vt rec raw = 5) ∧
       ((s.gslotGang vt b.gslot).isSome = false →
         let units := b.tmask.map fun t => (b.lsb.getD t 0, recUnits rec)
         let meet (x y : Nat × Nat) : Prop := x.1 < y.1 + y.2 ∧ y.1 < x.1 + x.2
         let lsBusy : Prop := (∃ x ∈ units, ∃ y ∈ s.unitsHeld vt b.cmask, meet x y) ∨ ¬ units.Pairwise fun x y => ¬ meet x y
         let accBusy : Prop := (∃ a ∈ b.amask.flatten, a ∈ s.accsHeld vt b.cmask) ∨ ¬ b.amask.flatten.Nodup
         (lsBusy → s.bindResult vt rec raw = 6) ∧ (¬ lsBusy → accBusy → s.bindResult vt rec raw = 7) ∧
         (¬ lsBusy → ¬ accBusy → s.bindResult vt rec raw = 0)))) ∧
    (let refused : Prop := bindClean raw = false ∨ s.tileReady vt = false ∨ ∀ g, s.gslotGang vt b.gslot = some g → g.id ≠ b.gangid
     ((refused ∨ b.op ≠ 2) → exec (.release vt raw) s = .next s) ∧
     ((refused ∨ b.op ≠ 3) → exec (.preempt vt raw) s = .next s) ∧
     (¬ refused → s.gang? b.gangid = some g →
       (b.op = 2 → g.released = false → exec (.release vt raw) s = .next (s.unbindTile g.id vt)) ∧
       (b.op = 2 → g.released = true → exec (.release vt raw) s = .next s) ∧
       (b.op = 3 → g.released = false → exec (.preempt vt raw) s = .next (s.unbindTile g.id vt)) ∧
       (b.op = 3 → g.released = true → exec (.preempt vt raw) s = .next (s.preemptTile g.id vt)))) ∧
    (∀ (t : Thread) (clk : Nat), (t.preempted clk).bic = 0 ∧ (t.preempted clk).bmc = 0 ∧ (t.preempted clk).heldBic = t.heldBic + t.bic ∧
      (t.preempted clk).heldBmc = t.heldBmc + t.bmc ∧ (t.preempted clk).ingrace = true ∧ (t.preempted clk).grace = t.grace ∧
      (t.ingrace = false → (t.preempted clk).gcause = 3 ∧ (t.preempted clk).spanClk = clk)) ∧
    (let t := s.thread vt slot
     s.gangOf t = some g → s.tileOf t = some k →
      (t.st ≠ .scrub → exec (.scrubComplete vt slot) s = .next s) ∧
      (t.st = .scrub → recTidimg g.task = 0 → recResume g.task = false →
        let base := k.lsb.getD (t.slot % 4) 0 * 4096
        let scrubbed := s.modCore vt t.cslot fun c =>
          (s.accNames t).foldl (fun c a => c.modAcc a fun _ => Acc.fresh) (c.scrub base (recUnits g.task * 4096))
        exec (.scrubComplete vt slot) s = .next ((scrubbed.modThread vt slot (s.loaded g k)).modThread vt slot fun t => { t with st := .bound })) ∧
      (let v := s.loaded g k t
       v.pc.toNat = recCode g.task % 2 ^ 64 ∧ v.bic = g.src.bics.getD (g.gti t) 0 ∧ v.bmc = g.src.bmcs.getD (g.gti t) 0 ∧ v.grace = recGrace g.task ∧
       v.s[1] = BitVec.ofNat 64 (recArgs g.task) ∧ v.s[2] = BitVec.ofNat 64 (g.gti t) ∧ v.s[3] = BitVec.ofNat 64 (recThreads g.task) ∧
       (∀ i : SReg, i.val ≠ 1 → i.val ≠ 2 → i.val ≠ 3 → v.s[i] = t.s[i]))) ∧
    (∀ (c : Core) (a n z : Nat), a ≤ z → z < a + n → (c.scrub a n).ls.byte z = 0) ∧
    (∀ (c : Core) (a n z : Nat), c.ls.wf = true → ¬ (a ≤ z ∧ z < a + n) → (c.scrub a n).ls.byte z = c.ls.byte z) ∧
    ((∀ q ∈ s.queues, s.effLevel q = none) → exec .selectionRound s = .next s) ∧
    (let next (from' n : Nat) (is : Nat → Prop) : Prop := is n ∧
       ((from' ≤ n ∧ ∀ m, is m → from' ≤ m → n ≤ m) ∨ ((∀ m, is m → m < from') ∧ ∀ m, is m → n ≤ m))
     let chosen : Prop := (∀ x ∈ s.queues, ∀ m, s.effLevel x = some m → m ≤ l) ∧
       next (s.turns.getD l (0, 0)).1 p (fun n => ∃ x ∈ s.queues, x.part = n ∧ s.effLevel x = some l) ∧
       next (((s.servedQ.find? fun y => y.1 == p).map fun y => y.2 + 1).getD 0) q (fun n => ∃ x ∈ s.queues, x.qid = n ∧ x.part = p ∧ s.effLevel x = some l)
     let turn := s1.turns.getD l (0, 0)
     let n := (if turn.1 = p then turn.2 else 0) + 1
     let s2 := if max (s1.part p).weight 1 ≤ n then s1.setTurn l (p + 1) 0 else s1.setTurn l p n
     (chosen → s.place q = .placed s1 →
       exec .selectionRound s = .next { s2 with servedQ := upsert (fun y => y.1 == p) (p, q) (fun _ => (p, q)) s2.servedQ }) ∧
     (chosen → (∀ x ∈ s.queues, s.effLevel x ≠ none → x.qid = q ∧ x.part = p) → s.queues.Pairwise (fun x y => x.qid ≠ y.qid) → s.place q = .waits →
       exec .selectionRound s = .next (s.setTurn l (p + 1) 0))) ∧
    (∀ r : Staged, s.queue q = x → x.staged = some r →
      let task := r.src.task
      let pt := s.part x.part
      let kept := if r.reserving then [] else s.reservedTiles x.part
      let fit (u : Nat) : Prop := pt.pvtbase ≤ u ∧ u + recNvt task ≤ pt.pvtbase + pt.pvtcnt ∧
        ∀ i < recNvt task, u + i ∉ kept ∧ (s.planTile (u + i) task).isSome = true
      let score (u : Nat) : Nat := (if s.mateBase r = some u ∨ (s.mateAt x task u d).isSome = true then 2 ^ 32 else 0) +
        match s.hintPlace pt.asid task with | none => 0 | some pa => s.hintScore pa u (recNvt task)
      (∀ (task : List Word) (n : Nat), s.mateAt x task v d = some n → ∃ y ∈ s.queues, y.qid = n ∧ y.part = x.part ∧ ∃ z, y.staged = some z ∧
        v + recNvt z.src.task ≤ pt.pvtbase + pt.pvtcnt ∧ (z.reserving = false → ∀ i < recNvt z.src.task, v + i ∉ s.reservedTiles x.part)) ∧
      (s.couldFit x.part r.src = false → s.place q = .ended ((s.modQueue q fun x => { x with staged := none }).endRecord q r.src 5 0 true)) ∧
      (s.couldFit x.part r.src = true → (s.reserve x.part r.src = none ∨ ∀ u, ¬ fit u) → s.place q = .waits) ∧
      (s.couldFit x.part r.src = true → s.reserve x.part r.src ≠ none → lowestFree 65536 (s.gangs.map (·.domid)) = some d →
        fit v → (∀ u, fit u → score u < score v ∨ (score u = score v ∧ v ≤ u)) → s.mateAt x task v d = none →
        (recHint task = 0 ∨ s.hintPlace pt.asid task ≠ none) → s.place q = .placed (s.placeAt q v d task))) ∧
    (s.queue q = x →
      (x.staged = none → exec (.recordReserving q) s = .next s) ∧
      (x.staged = some { src := src, st := .ready c, reserving := false, gang := none, mate := mt } → (s.part x.part).drained = false →
        s.effLevel x = some (min 7 (min (recPrio src.task) x.priomax + (s.clk - c) / 2 ^ 22)) ∧
        (s.clk < c + (7 - min (recPrio src.task) x.priomax) * 2 ^ 22 + 2 ^ 22 → exec (.recordReserving q) s = .next s) ∧
        (c + (7 - min (recPrio src.task) x.priomax) * 2 ^ 22 + 2 ^ 22 ≤ s.clk → s.queues = [x] → s.gangs = [] →
          exec (.recordReserving q) s = .next (s.modQueue q fun x =>
            { x with staged := some { src := src, st := .ready c, reserving := true, gang := none, mate := mt } }))) ∧
      -- A reserving record pre-empts on the tiles of its domain as that stands, once for each gang and tile (R87).
      (∀ r : Staged, x.staged = some r → r.st = .ready c → r.gang = none → r.reserving = true →
        let l := s.toDisplace x r
        exec (.recordReserving q) s = .next (l.foldl (fun s y => s.preemptOn y.1 y.2) (s.modQueue q fun x =>
          { x with staged := some { r with displaced := r.displaced ++ l } })) ∧
        ∀ y, y ∈ l ↔ y.2 ∈ s.emptyDomain x r.src.task ∧ y ∉ r.displaced ∧
          ∃ h ∈ s.gangs, y.1 = h.id ∧ min (recPrio h.task) (s.queue h.qid).priomax < 7 ∧ ∃ k ∈ h.tiles, k.vt = y.2)) ∧
    -- PREEMPT of a gang on a tile, by a reserving record, a DRAIN or a forced move: none takes place on an AMBER tile (R92), whose traffic is held (17 R342).
    (s.gang? g.id = some g → (g.tile? vt).isSome = true →
      let amber := (g.tiles.map (·.vt)).filter s.isAmber
      (g.released = true → s.isAmber vt = true → s.preemptOn g.id vt = s.holdPre g.id [vt]) ∧
      (g.released = true → s.isAmber vt = false → (s.vtile? vt).any (·.backed) = true → s.preemptOn g.id vt = s.preemptTile g.id vt) ∧
      (g.released = false → amber = [] → s.preemptOn g.id vt = s.unbind g.id) ∧
      (g.released = false → amber ≠ [] → s.preemptOn g.id vt = s.holdPre g.id amber) ∧
      (s.heldPre = [(g.id, vt)] → s.applyPre vt = ({ s with heldPre := [] } : State).preemptOn g.id vt)) ∧
    (∀ (n : Nat) (vs : List Nat) y, y ∈ (s.holdPre n vs).heldPre ↔ y ∈ s.heldPre ∨ (y.1 = n ∧ y.2 ∈ vs))

/-- 05 R83, R84, 15 R301, 16 R324, R326, R328, R335, R336, 12 R254, 19 R379, R382, R384: the partition registers, recovery, the debug window's writes, those of the host that wait for a tile whose traffic is held, and the sampler. What an invalid access of the window does, until when a RESET runs and what becomes of an operation written meanwhile is log entry 26, what a waiting thread is sampled as log entries 25 and 56. The words of log entries are log entry 40. -/
def Obligations.PartitionRegisters : Prop :=
  ∀ (s : State) (part : Nat) (val : Word) (v32 : BitVec 32) (src : Source) (off width vt slot cs : Nat) (i : SReg) (k : PReg) (h : WindowWrite),
    s.phase = 4 → part < 256 →
    let p := s.part part
    let n := val.toNat
    let base := n / 2 ^ 16 % 2 ^ 12
    let cnt := n / 2 ^ 32 % 2 ^ 12
    let set' (f : Partition → Partition) : Out := .next (s.modPart part f)
    let refuse (o : Nat) : Out := .next (s.hkEvent 6 part (BitVec.ofNat 64 part) (BitVec.ofNat 64 (0xC00010000 + 0x100 * part + o)))
    let overlap : Prop := ∃ y ∈ s.parts, y.valid = true ∧ y.num ≠ part ∧ base < y.pvtbase + y.pvtcnt ∧ y.pvtbase < base + cnt
    let busy : Prop := (∃ q ∈ s.queues, q.part = part ∧ q.state ≠ .disabled) ∨ ∃ g ∈ s.gangs, g.part = part
    -- A RESET runs until every gang that it aborted has retired (R335, R336).
    let running : Prop := p.resetting = true ∧ ∃ g ∈ s.gangs, g.part = part
    let ringFree : Prop := p.valid = false ∨ p.ringoff = true
    let free (off : Nat) : Prop := src = .host → off < 0xC00000000 →
      s.trafficHeld (off / 0x1000000) = false ∧ ∀ w ∈ s.windowHeld, w.off / 0x1000000 ≠ off / 0x1000000
    let described (x : Partition) : Partition :=
      { x with valid := val.getLsbD 63, weight := n / 2 ^ 48 % 2 ^ 8, pvtcnt := cnt, pvtbase := base, asid := n % 2 ^ 16 }
    (p.valid = false → val.getLsbD 63 = true →
      ((1 ≤ cnt ∧ base + cnt ≤ s.nvtile ∧ ¬ overlap) →
        exec (.partitionDescriptorWrite part val) s = set' fun x => { described x with counters := List.replicate 12 0 }) ∧
      (¬ (1 ≤ cnt ∧ base + cnt ≤ s.nvtile ∧ ¬ overlap) → exec (.partitionDescriptorWrite part val) s = refuse 0)) ∧
    (p.valid = true →
      ((val.getLsbD 63 = false ∧ ¬ busy) → exec (.partitionDescriptorWrite part val) s = set' described) ∧
      ((val.getLsbD 63 = true ∨ busy) → exec (.partitionDescriptorWrite part val) s = refuse 0)) ∧
    (p.valid = true → exec (.savePoolWrite part false val) s = refuse 8 ∧ exec (.savePoolWrite part true val) s = refuse 0x10) ∧
    (p.valid = false →
      exec (.savePoolWrite part false val) s = set' (fun x => { x with spbase := n / 2 ^ 12 % 2 ^ 36 }) ∧
      exec (.savePoolWrite part true val) s = set' (fun x => { x with spsize := n % 2 ^ 32 })) ∧
    (¬ ringFree → exec (.faultRingWrite part false val) s = refuse 0x18 ∧ exec (.faultRingWrite part true val) s = refuse 0x20) ∧
    (ringFree →
      exec (.faultRingWrite part false val) s = set' (fun x => { x with frbase := n / 2 ^ 12 % 2 ^ 36, ringoff := false }) ∧
      ((n % 2 ^ 16 = 0 ∨ ∃ e, 4 ≤ e ∧ e ≤ 15 ∧ n % 2 ^ 16 = 2 ^ e) →
        exec (.faultRingWrite part true val) s = set' (fun x => { x with frsize := n % 2 ^ 16 })) ∧
      (n % 2 ^ 16 ≠ 0 → (∀ e, 4 ≤ e → e ≤ 15 → n % 2 ^ 16 ≠ 2 ^ e) → exec (.faultRingWrite part true val) s = refuse 0x20)) ∧
    (((v32 - p.frhead).toNat ≤ (p.frtail - p.frhead).toNat → exec (.frheadWrite part v32) s = set' (fun x => { x with frhead := v32 })) ∧
     ((p.frtail - p.frhead).toNat < (v32 - p.frhead).toNat → exec (.frheadWrite part v32) s = .next s) ∧
     ((v32 - p.evhead).toNat ≤ (p.evtail - p.evhead).toNat → exec (.evheadWrite part v32) s = set' (fun x => { x with evhead := v32 })) ∧
     ((p.evtail - p.evhead).toNat < (v32 - p.evhead).toNat → exec (.evheadWrite part v32) s = .next s)) ∧
    (p.valid = false →
      exec (.eventStreamWrite part 0 val) s = set' (fun x => { x with evbase := n / 2 ^ 12 % 2 ^ 36 }) ∧
      ((n % 2 ^ 17 = 0 ∨ ∃ e, 6 ≤ e ∧ e ≤ 16 ∧ n % 2 ^ 17 = 2 ^ e) →
        exec (.eventStreamWrite part 1 val) s = set' (fun x => { x with evsize := n % 2 ^ 17 }))) ∧
    (p.valid = true → exec (.eventStreamWrite part 0 val) s = refuse 0x30 ∧ exec (.eventStreamWrite part 1 val) s = refuse 0x38) ∧
    exec (.eventStreamWrite part 2 val) s = set' (fun x => { x with evmask := n &&& 0x7FE }) ∧
    (¬ running → exec (.drain part) s = .next ((s.gangs.filter fun g => g.part == part && g.released).foldl (fun s g => s.preemptGang g)
      (s.modPart part fun p => { p with drained := true, recres := 0, resetting := false }))) ∧
    (¬ running → exec (.undrain part) s = set' (fun x => { x with drained := false, recres := 0, resetting := false })) ∧
    (¬ running → p.drained = false → exec (.reset part) s = set' (fun x => { x with recres := 1 })) ∧
    (¬ running → p.drained = true → exec (.reset part) s = .next (s.resetPart part)) ∧
    (running → exec (.drain part) s = .next s ∧ exec (.reset part) s = .next s ∧ exec (.undrain part) s = .next s) ∧
    s.regWord (0xC00010000 + 0x100 * part + 0x28) =
      BitVec.ofNat 64 ((if p.drained = true then 16 else 0) + p.recres * 512) ||| (if running then 256 else 0) ∧
    ((s.resetPart part).part part = { (s.resetPart part).part part with supv := none, recres := 0, resetting := true } ∧
      ((s.resetPart part).part part).frhead = ((s.resetPart part).part part).frtail) ∧
    (free off → (¬ (width = 1 ∨ width = 2 ∨ width = 4 ∨ width = 8) ∨ off % width ≠ 0) → exec (.registerWrite src off width val) s = .next s) ∧
    (inDebugWindow off = true → exec (.debugWindowWrite src off width val) s = exec (.registerWrite src off width val) s) ∧
    (inDebugWindow off = false → exec (.debugWindowWrite src off width val) s = .next s) ∧
    (src = .host → off < 0xC00000000 → s.trafficHeld (off / 0x1000000) = true →
      exec (.registerWrite src off width val) s = .next { s with windowHeld := s.windowHeld ++ [{ off := off, width := width, val := val }] }) ∧
    (s.windowHeld = [h] → (s.trafficHeld (h.off / 0x1000000) = true → s.windowTurn = s) ∧
      (s.trafficHeld (h.off / 0x1000000) = false → s.windowTurn = ({ s with windowHeld := [] } : State).writeReg .host h.off h.width h.val)) ∧
    (vt < 3072 → slot < 64 → free (0x1000000 * vt) →
      let t := s.thread vt slot
      let at' (o : Nat) := 0x1000000 * vt + 0xC00000 + 0x2000 * slot + o
      (t.st ≠ .frozen →
        exec (.debugWindowWrite src (at' 8) 8 val) s = .next (s.windowIgnored src (at' 8)) ∧
        exec (.debugWindowWrite src (at' (0x400 + 8 * i.val)) 8 val) s = .next (s.windowIgnored src (at' (0x400 + 8 * i.val))) ∧
        exec (.debugWindowWrite src (at' (0x300 + 8 * k.val)) 8 val) s = .next (s.windowIgnored src (at' (0x300 + 8 * k.val)))) ∧
      exec (.debugWindowWrite src (at' 0) 8 val) s = .next s ∧
      (t.st = .frozen →
        exec (.debugWindowWrite src (at' 8) 8 val) s = .next (s.putThread { t with pc := val }) ∧
        exec (.debugWindowWrite src (at' (0x400 + 8 * i.val)) 8 val) s = .next (s.putThread (t.setS i val)) ∧
        exec (.debugWindowWrite src (at' (0x300 + 8 * k.val)) 8 val) s = .next (s.putThread (t.setP k (val.setWidth 32))))) ∧
    (vt < 3072 → cs < 16 → s.trafficHeld vt = false → (∀ w ∈ s.windowHeld, w.off / 0x1000000 ≠ vt) → exec (.sepiaClr vt cs) s = .next (s.modCore vt cs fun c => { c with sepia := [], sepiaLost := 0 })) ∧
    (let t := s.thread vt slot
     let c := s.core vt t.cslot
     let ctl := (s.part (s.partNum t)).sampctl
     let span := 2 ^ (if 10 ≤ ctl / 2 % 32 ∧ ctl / 2 % 32 ≤ 24 then ctl / 2 % 32 else 24)
     let thr := t.slot % 4
     let bound (k : Nat) : Prop := (s.thread vt (4 * t.cslot + k)).st ≠ .free ∧ (s.thread vt (4 * t.cslot + k)).st ≠ .scrub
     let turn : Prop := bound thr ∧ ∀ i j, i < j → j < 4 → (c.sampleThr + 1 + j) % 4 = thr → ¬ bound ((c.sampleThr + 1 + i) % 4)
     let due : Prop := ctl % 2 = 1 ∧ c.sampleClk + span ≤ s.clk ∧ turn
     (¬ due → exec (.pcSample vt slot) s = .next s) ∧
     (due → exec (.pcSample vt slot) s = .next
       ((({ s with fresh := s.fresh + 1 } : State).modCore vt t.cslot fun c => { c with sampleClk := s.clk, sampleThr := thr }).event (s.partNum t) 1 0
         t.gang t.pc (BitVec.ofNat 64 ((s.rankOf vt t.cslot).getD 0 + thr * 2 ^ 16 + s.stallCode t * 2 ^ 24)))) ∧
     ((t.st = .frozen ∨ t.st = .saving) → s.stallCode t = 0) ∧
     (t.st = .bound → s.withheld t.vt = true → s.stallCode t = 1) ∧
     (t.st = .run → t.wait = .step → t.stepRel = false → s.stallCode t = if s.withheld t.vt then 1 else 2) ∧
     (t.st = .run → s.asleep t = true → ((t.wait = .bar ∨ ∃ a f, t.wait = .tag a f) → s.stallCode t = 3) ∧
       ((t.wait = .sig ∨ ∃ pa, t.wait = .wq pa) → s.stallCode t = 4)) ∧
     (t.st = .run → t.wait = .stall 5 → s.stallCode t = 5) ∧ (∀ l, t.st = .run → t.wait = .realign l → s.stallCode t = 6))

/-- 19 R387-R396, 11 R227: BAR2, the Gorfy ports with their rings, descriptors and inbound writes, firmware update, attestation, HBM temperature and failing slices. Where these rules leave a detail, the model's choice is log entry 27; bytes in error and bytes that nothing wrote are free values (log entry 7). The words of log entries are log entry 40. -/
def Obligations.PortsOutside : Prop :=
  ∀ (s : State) (port ring addr width stack edge pc spart rpart : Nat) (peer : BitVec 24) (val dst rdone : Word) (v32 : BitVec 32) (data bs : List Byte)
    (ok storeOk : Bool) (temp : Nat) (d : List Word),
    let p := s.port port
    let x := p.ring ring
    let setRing (f : PortRing → PortRing) : Out := .next (s.modPort port fun p => p.modRing ring f)
    let log2 := x.cfg.toNat % 16
    let asid : Space := .panel (s.part (x.cfg.toNat / 2 ^ 8 % 256)).asid
    let remote : Space := .panel (s.part rpart).asid
    (s.phase = 4 → ∃ l, exec (.bar2Read addr width) s = .next { s with hostReads := s.hostReads ++ [{ addr := addr, data := l }], fresh := s.fresh + width } ∧
      l.length = width ∧ ∀ i, i < width →
        (Config.hbmTop ≤ addr + i → l[i]? = some 0xFF) ∧
        (addr + i < Config.hbmTop → (addr + i) / 32 ∉ s.hbmBad → l[i]? = some (s.hbm.byte (addr + i)))) ∧
    (s.phase = 4 → addr + data.length ≤ Config.hbmTop → exec (.bar2Write addr data) s = .next (s.putHbm addr data)) ∧
    (s.phase = 4 → Config.hbmTop ≤ addr → exec (.bar2Write addr data) s = .next (s.putHbm addr [])) ∧
    (s.phase ≠ 4 → exec (.bar2Write addr data) s = .next s) ∧
    (port < 12 →
      exec (.portLinkUp port peer) s = .next (s.modPort port fun p => { p with up := true, retry := false, peer := peer }) ∧
      (p.up = true → exec (.portLinkDown port) s = .next (s.modPort port fun p => { p with up := false, downClk := s.clk })) ∧
      (p.up = false → exec (.portLinkDown port) s = .next s)) ∧
    (s.phase = 4 → port < 12 → ring < 64 →
      let fields := val &&& 0x8000FFFFFFFFFF0F
      let fit : Prop := 4 ≤ val.toNat % 16 ∧ val.toNat % 16 ≤ 12 ∧ (s.part (val.toNat / 2 ^ 8 % 256)).valid = true
      (x.cfg.getLsbD 63 = false → val.getLsbD 63 = true → fit →
        exec (.portRingEnable port ring val) s = setRing fun y => { y with cfg := fields, head := 0, tail := 0 }) ∧
      (x.cfg.getLsbD 63 = false → val.getLsbD 63 = true → ¬ fit →
        exec (.portRingEnable port ring val) s = setRing fun y => { y with cfg := fields &&& 0x7FFFFFFFFFFFFFFF }) ∧
      (x.cfg.getLsbD 63 = true → val.getLsbD 63 = true → exec (.portRingEnable port ring val) s = .next s) ∧
      (let ahead := (v32 - x.tail).toNat
       let span := (v32 - x.head).toNat
       let ahead' : Prop := x.cfg.getLsbD 63 = true ∧ ahead ≠ 0 ∧ ahead < 2 ^ 31
       let fits : Prop := span ≤ 2 ^ log2 ∧ (x.tail - x.head).toNat ≤ span
       (ahead' → fits → exec (.portDoorbell port ring v32) s = setRing fun y => { y with tail := v32 }) ∧
       (ahead' → ¬ fits → ∃ w, exec (.portDoorbell port ring v32) s = .next
         (({ s with fresh := s.fresh + 1 } : State).hkEvent 3 (x.cfg.toNat / 2 ^ 8 % 256) w (v32.setWidth 64))) ∧
       (¬ ahead' → exec (.portDoorbell port ring v32) s = .next s))) ∧
    (let longDown : Prop := p.up = false ∧ p.downClk + 1750000000 ≤ s.clk
     let started := s.modPort port fun p => p.modRing ring fun y => { y with head := y.head + 1 }
     let rd := s.readPage asid (needPlain false) (x.base.toNat + 64 * (x.head.toNat % 2 ^ log2)) 64
     let rd1 := started.readPage asid (needPlain false) (x.base.toNat + 64 * (x.head.toNat % 2 ^ log2)) 64
     let go : Prop := x.cfg.getLsbD 63 = true ∧ x.head ≠ x.tail ∧ x.desc = none ∧ (p.up = true ∨ longDown)
     rd1 = rd ∧
     (¬ go → exec (.descriptorStart port ring) s = .next s) ∧
     (go → ∀ n, rd = .error n → exec (.descriptorStart port ring) s = .next (started.endDescriptor port ring (List.replicate 8 0) false)) ∧
     (go → rd = .ok bs →
       let w := bytesWords 8 bs
       let srcA := wordsField w 0 64
       let n := wordsField w 128 32
       (descriptorOk w = false ∨ longDown → exec (.descriptorStart port ring) s = .next (started.endDescriptor port ring w false)) ∧
       (descriptorOk w = true → p.up = true → started.checkVirt asid (needPlain false) srcA n ≠ none →
         exec (.descriptorStart port ring) s = .next (started.endDescriptor port ring w false)) ∧
       (descriptorOk w = true → p.up = true → started.checkVirt asid (needPlain false) srcA n = none →
         let l := started.portRead asid srcA n
         exec (.descriptorStart port ring) s = .next { started.modPort port fun p => p.modRing ring fun y => { y with desc := some w, data := l } with
           fresh := s.fresh + n } ∧
         l.length = n ∧ ∀ i m, i < n → started.translate asid (srcA + i) (needPlain false) = .ok m → m.pa / 32 ∉ s.hbmBad →
           l[i]? = some (s.hbm.byte m.pa))) ∧
     (x.desc = none → exec (.descriptorComplete port ring ok) s = .next s) ∧
     (x.desc = some d → p.up = true → exec (.descriptorComplete port ring ok) s = .next (s.endDescriptor port ring d ok)) ∧
     (x.desc = some d → longDown → exec (.descriptorComplete port ring ok) s = .next (s.endDescriptor port ring d false)) ∧
     (x.desc = some d → p.up = false → s.clk < p.downClk + 1750000000 → exec (.descriptorComplete port ring ok) s = .next s)) ∧
    (let fits : Prop := p.up = true ∧ (s.part rpart).valid = true ∧ s.checkVirt remote (needPlain true) dst.toNat data.length = none ∧
       ∃ w ∈ p.pairings, w.2.getLsbD 63 = true ∧ w.2.toNat / 2 ^ 24 % 2 ^ 24 = p.peer.toNat ∧ w.2.toNat / 2 ^ 16 % 256 = spart ∧ w.2.toNat / 2 ^ 8 % 256 = rpart
     (¬ fits → exec (.inboundWrite port spart rpart dst data rdone) s = .next s) ∧
     (fits → exec (.inboundWrite port spart rpart dst data rdone) s = .next
       ((s.writeGlobal remote dst.toNat data).portWord32 rpart rdone.toNat fun w => w + 1))) ∧
    ((s.fw.busy ≠ 1 → exec .firmwareChunkWrite s = .next s) ∧
     (s.fw.busy = 1 → ∃ l : List Byte, exec .firmwareChunkWrite s = .next { s with fresh := s.fresh + 4096, fw := { s.fw with
         busy := 0, result := (if s.fw.storeBad then 2 else 0)
         slots := s.fw.slots.modify s.fw.slot fun x =>
           { x with
             version := if s.fw.upoff.toNat = 0 then none else x.version
             chunks := upsert (fun c => c.1 == s.fw.upoff.toNat) (s.fw.upoff.toNat, l) (fun _ => (s.fw.upoff.toNat, l)) x.chunks } } } ∧ l.length = 4096 ∧
         ∀ i b, i < 4096 → s.fw.storeBad = false → s.fw.window.find? (fun y => y.1 == i) = some (i, b) → l[i]? = some b) ∧
     (s.fw.busy ≠ 2 → exec (.firmwareCommit storeOk) s = .next s) ∧
     (s.fw.busy = 2 → exec (.firmwareCommit false) s = .next { s with fw := { s.fw with busy := 0, result := 2 } }) ∧
     (s.fw.busy = 2 → exec (.firmwareCommit true) s = .next
       { s with
         fresh := s.fresh + 1
         fw := { s.fw with busy := 0, result := 0, slots := s.fw.slots.modify s.fw.slot fun x =>
           { x with version := some ((Config.freeWord s.fresh).toNat % 2 ^ 32), length := s.fw.uplen.toNat } } })) ∧
    (s.phase = 4 → exec .attestation s = .next { s with att := { s.att with busy := true } }) ∧
    ((s.att.busy = false → exec .attestationReportReady s = .next s) ∧
     (s.att.busy = true → s.fwMeasure.length = 6 → ∃ r, exec .attestationReportReady s = .next { s with att := { s.att with busy := false, report := r }, fresh := s.fresh + 3040 } ∧
       r.length = 3040 ∧ r[0]? = some s.serial ∧
       r[1]? = some (BitVec.ofNat 64 (s.fwRollback.toNat + s.fwVersion.toNat * 2 ^ 32)) ∧ r[2]? = some (BitVec.ofNat 64 (s.nrank + s.nvtile * 2 ^ 32)) ∧
       (∀ i < 6, r[3 + i]? = s.fwMeasure[i]? ∧ r[9 + i]? = some (Config.fuseHash s.fuseTiles s.fuseCores i) ∧ r[15 + i]? = some (Config.blockHash s.lastBlock i)) ∧
       r[21]? = some (BitVec.ofNat 64 s.nvtile) ∧ ∀ i < 4, r[22 + i]? = some (s.attestWord (0x20 + 8 * i)))) ∧
    (stack < 24 →
      let y := s.stack stack
      let n := if 105 ≤ temp then 4 else if 102 ≤ temp ∧ y.step = 4 then 4 else if 100 ≤ temp then 3 else if 97 ≤ temp ∧ 3 ≤ y.step then 3
        else if 95 ≤ temp then 2 else if 92 ≤ temp ∧ 2 ≤ y.step then 2 else if 85 ≤ temp then 1 else if 82 ≤ temp ∧ 1 ≤ y.step then 1 else 0
      let s1 (n t : Nat) := s.modStack stack fun x =>
        { x with
          temp := t, step := n, steps := if n = y.step then x.steps else x.steps + 1
          capclk := if 2 ≤ y.step then x.capclk + BitVec.ofNat 64 (s.clk - x.capFrom) else x.capclk, capFrom := s.clk }
      y.step ≤ 4 →
      exec (.hbmTempRead stack (some temp)) s = .next (if n = 4 ∧ y.step ≠ 4 then (s1 n (min temp 255)).hkReport.notice else s1 n (min temp 255)) ∧
      exec (.hbmTempRead stack none) s = .next (if y.step ≠ 4 then (s1 4 y.temp).hkReport.notice else s1 4 y.temp)) ∧
    (edge < 12 → pc < 128 → exec (.sliceFailure edge pc) s = .next { s with uncached := insertNew (edge, pc) s.uncached })

/-- 19 R391, R393, 01 R21, R22, 17 R362: device reset: the phases in order and where each fails; the firmware slot that is taken, newer first, where its image verifies and the anti-rollback counter admits it; a failure is a code; what is kept, and the tables, counters and reports of a device that is READY. What a reset keeps is log entry 55, the code where no slot is accepted log entry 70. The hash of an image is free (log entry 7); that each phase ends at a step of its own is log entry 73. -/
def Obligations.DeviceReset : Prop :=
  ∀ (s : State) (rep : BootReport) (n : Nat) (snapOk : Bool),
    let k := s.kept
    let version (m : Nat) : Option Nat := (s.fw.slots[m]?).bind (·.version)
    let accepted (m : Nat) : Prop := ∃ v, version m = some v ∧ m ∉ rep.sigBad ∧ s.fwRollback.toNat ≤ v
    let other : Prop := rep.code = 1 ∨ rep.code = 2 ∨ 5 < rep.code
    (other → exec (.deviceReset rep snapOk) s = .next s) ∧
    (¬ other → exec (.deviceReset rep snapOk) s = .next { k with bootReport := rep, bootSnap := snapOk }) ∧
    (k.phase = 0 ∧ k.threads = [] ∧ k.gangs = [] ∧ k.queues = [] ∧ k.hbm = s.hbm ∧ k.fuseTiles = s.fuseTiles ∧ k.fuseCores = s.fuseCores ∧
      k.retireLog = s.retireLog ∧ k.snapshots = s.snapshots ∧ k.fw.slots = s.fw.slots ∧ k.fwRollback = s.fwRollback ∧ k.serial = s.serial) ∧
    -- The phases from RESET on, one in a step of the machine's own: VERIFY, TRAIN and MAP each end in the next or in FAILED.
    (s.agenda = [] → s.phase < 4 → step s = .next s.bootPhase) ∧
    (s.phase = 0 → s.bootPhase = { s with phase := 1 }) ∧
    (s.bootReport = rep →
      (s.phase = 1 → rep.code = 5 → s.bootPhase = { s with phase := 15, failCode := 5 }) ∧
      (s.phase = 1 → rep.code ≠ 5 → (∀ m < 2, ¬ accepted m) → ∃ c, (c = 1 ∨ c = 2) ∧ s.bootPhase = { s with phase := 15, failCode := c }) ∧
      (s.phase = 1 → rep.code ≠ 5 → (∃ m < 2, accepted m) → s.bootPhase = { s with phase := 2 }) ∧
      (s.phase = 2 → (rep.code = 3 ∨ rep.code = 4) → s.bootPhase = { s with phase := 15, failCode := rep.code }) ∧
      (s.phase = 2 → rep.code ≠ 3 → rep.code ≠ 4 → s.bootPhase = { s with phase := 3 }) ∧
      (s.phase = 3 → s.bootSlot rep.sigBad = some n → s.bootPhase = s.booted n s.bootSnap)) ∧
    (4 ≤ s.phase → s.bootPhase = s) ∧
    (s.bootSlot rep.sigBad = none ↔ ∀ m < 2, ¬ accepted m) ∧
    (s.bootSlot rep.sigBad = some n → n < 2 ∧ accepted n ∧ ∀ m < 2, accepted m → ∀ v w, version m = some v → version n = some w → v ≤ w) ∧
    (let t := s.booted n snapOk
     t.phase = 4 ∧ t.threads = s.threads ∧ t.gangs = s.gangs ∧ t.queues = s.queues ∧ t.hbm = s.hbm ∧ t.fuseTiles = s.fuseTiles ∧ t.fuseCores = s.fuseCores ∧
     (snapOk = true → t.snapshots = s.snapshots) ∧ t.fw.slots = s.fw.slots ∧ t.fw.running = n ∧ t.nvtile = t.vtiles.length ∧
     -- A snapshot that does not pass is reported, and so is a store that holds none that passes (17 R362).
     ((snapOk = false ∨ ∀ x ∈ s.snapshots, x.valid = false) → ∃ e ∈ t.hklog, e.kind = 3 ∧ e.part = 0xFF ∧ e.data.head? = some 0xB000B) ∧
     (∀ i (_ : i < 6), t.fwMeasure[i]? = (s.fw.slots[n]?).map fun x => Config.imageHash x.chunks x.length i)) ∧
    (∀ k, tilesOffered k = if 33 ≤ k then min 2944 (k - 32) else k - 1) ∧
    (∀ log p, (∀ c, c ∈ s.coresOf log p ↔ c < 16 ∧ (p, c) ∉ s.fuseCores ∧ ∀ e ∈ log, e ≠ .tile p ∧ e ≠ .core p c) ∧
      ((s.bootTile log p).service = .white ↔ p ∉ s.fuseTiles ∧ 12 ≤ (s.coresOf log p).length) ∧
      ((s.bootTile log p).service = .black ↔ ¬ (p ∉ s.fuseTiles ∧ 12 ≤ (s.coresOf log p).length))) ∧
    (∀ l (x : Snapshot) r p a, s.snapshots = l ++ x :: r → x.valid = true → (∀ y ∈ r, y.valid = false) → x.words.find? (fun y => y.1 == p) = some (p, a) →
      (s.ageingOf p).scrm = a.scrm ∧ (s.ageingOf p).cse = a.cse ∧ (s.ageingOf p).ret = a.ret ∧ (s.ageingOf p).marg = a.marg ∧ (s.ageingOf p).lostp = a.lostp)

/-- 06 R106, R109, R113, 07 R148, 08 R150-R152, 11 R240, 15 R292: what precedes an instruction's own checks, for every instruction row with the form that its encoding gives it (`formOf`): a thread not in RUN issues nothing; a pending budget fault, which only `halt` and `cont` precede; an asynchronous fault; the wait for a running sequencer; the capability, which CAPABILITY names; the predicate, under which the instruction only advances the PC by its length and is charged one unit. And whose turn a port's is: a head that is not ready takes its own, which issues nothing; among ready ones a port issues one of the smallest age stamp, the first of these in rotating order. That a head is ready where its turn would issue it, that one which only begins to wait has not issued, and where the rotating order starts, is the model's reading (log entry 62). The stall codes of waits are log entry 25. -/
def Obligations.IssueOrder : Prop :=
  (∀ (i : Instr) (s : State) (t : Thread), i.enc.isSome = true → s.curThread? = some t →
    let f := formOf i
    let pc := t.issuePc s.cur.body
    let clear : Prop := t.st = .run ∧ (t.pend = true → f.wins = true)
    let quiet : Prop := clear ∧ t.asyncF = none
    let free : Prop := s.cur.body = false → t.rep.isSome = true → f.free = true
    (t.st ≠ .run → exec i s = .next s) ∧
    (t.st = .run → t.pend = true → f.wins = false →
      exec i s = .next (s.freeze t.vt t.slot { cause := .budget, info := t.cont } pc s.cur.body)) ∧
    (clear → ∀ a, t.asyncF = some a →
      exec i s = .next ((s.modCur fun t => { t with asyncF := none }).freeze t.vt t.slot a pc s.cur.body)) ∧
    (quiet → ¬ free → exec i s = .next (s.scalarWait (.stall 11))) ∧
    (quiet → free → ∀ c, f.cap = some c → s.hasCap t c = false →
      exec i s = .next (s.freeze t.vt t.slot { cause := .capability, info := BitVec.ofNat 64 c } pc s.cur.body)) ∧
    (quiet → free → (∀ c, f.cap = some c → s.hasCap t c = true) → f.lane = false → (t.predMask f.pred).getLsbD 0 = false →
      exec i s = s.completes t f s 1 0)) ∧
  (∀ (s : State) (vt slot : Nat) (body : Bool) (h : Head),
    let vec := Head.vector (s.thread vt slot, body)
    let l := s.heads vt (slot / 4) vec
    let turn (x : Head) : Nat := (x.1.thr + 3 - s.lastOn vt (slot / 4) vec) % 4
    (l.length ≤ 1 → s.portPick vt slot body = (slot, body)) ∧
    ((∀ g ∈ l, s.headReady g = true → (g.1.slot, g.2) ≠ (slot, body)) → s.portPick vt slot body = (slot, body)) ∧
    (1 < l.length → h ∈ l → s.headReady h = true → (∃ g ∈ l, s.headReady g = true ∧ g.1.slot = slot ∧ g.2 = body) →
      ∃ g ∈ l, s.headReady g = true ∧ s.portPick vt slot body = (g.1.slot, g.2) ∧ Head.stamp g ≤ Head.stamp h ∧
        (Head.stamp g = Head.stamp h → turn g ≤ turn h)))

/-- 00 R11, 07 R128, 15 R288, 16 R319, R324: the frame of an instruction's retirement, transfer, wait and fault. Beyond its own effects, a retirement, a transfer and a wait change only the thread's PC, wait and budgets and its partition's counters. A fault leaves the thread its PC, registers and budgets and freezes it; no other thread changes but the supervisor, whose mailbox the packet's signal may reach; and no byte of memory changes but the 64 bytes of the fault ring that the packet is stored to. -/
def Obligations.RetireFrame : Prop :=
  ∀ (s s' : State) (t : Thread) (f : Form) (u b : Nat) (a : Word),
    s'.cur = s.cur → s'.curThread? = some t → t.inWaiter = false →
    let vt := s.cur.vt
    let slot := s.cur.slot
    let regs (v : Thread) : Prop := v.s = t.s ∧ v.v = t.v ∧ v.p = t.p ∧ v.h = t.h ∧ v.q = t.q ∧ v.loops = t.loops ∧ v.fflags = t.fflags ∧
      v.rmode = t.rmode ∧ v.memctl = t.memctl ∧ v.seed = t.seed ∧ v.tidbase = t.tidbase ∧ v.mrow = t.mrow ∧ v.mcol = t.mcol ∧ v.mdep = t.mdep ∧
      v.gang = t.gang ∧ v.heldBic = t.heldBic ∧ v.heldBmc = t.heldBmc
    let same (v : Thread) : Prop := regs v ∧ v.mailbox = t.mailbox ∧ v.st = t.st
    (∃ s2, s.completes t f s' u b = .next s2 ∧ s'.OnlyThread s2 vt slot ∧ same (s2.thread vt slot) ∧
      (s.cur.body = false → (s2.thread vt slot).pc = nextPc t.pc f.len ∧ (s2.thread vt slot).wait = .none) ∧
      (s.cur.body = true → (s2.thread vt slot).pc = t.pc) ∧
      (t.ingrace = false → u ≤ t.bic → b ≤ t.bmc → (s2.thread vt slot).bic = t.bic - u ∧ (s2.thread vt slot).bmc = t.bmc - b ∧
        (s2.thread vt slot).ingrace = false ∧ (s2.thread vt slot).grace = t.grace) ∧
      (t.ingrace = true → u + (b + 63) / 64 ≤ t.grace → (s2.thread vt slot).bic = t.bic ∧ (s2.thread vt slot).bmc = t.bmc ∧
        (s2.thread vt slot).grace = t.grace - (u + (b + 63) / 64) ∧ (s2.thread vt slot).pend = t.pend)) ∧
    (s.cur.body = false → ∃ s2, s.jumps t f s' a u = .next s2 ∧ s'.OnlyThread s2 vt slot ∧ same (s2.thread vt slot) ∧ (s2.thread vt slot).pc = a) ∧
    (s.cur.body = false → ∀ w, w ≠ .stall 11 → (∀ q, w ≠ .push q) → ∃ s2, s.waits t f s' w = .next s2 ∧ s'.OnlyThread s2 vt slot ∧ same (s2.thread vt slot) ∧
      (s2.thread vt slot).pc = t.pc ∧ (s2.thread vt slot).wait = w ∧ (s2.thread vt slot).bic = t.bic ∧ (s2.thread vt slot).bmc = t.bmc) ∧
    (t.st = .run → t.node = none → ∀ i : FaultInfo, ∃ s2, s'.faults t f i = .next s2 ∧
      let q := s'.part (s'.partNum t)
      let v := s2.thread vt slot
      (s2.clk = s'.clk ∧ s2.cur = s'.cur ∧ s2.gangs = s'.gangs ∧ s2.queues = s'.queues ∧ s2.vtiles = s'.vtiles ∧ s2.memOps = s'.memOps ∧
        s2.spawns = s'.spawns ∧ s2.roots = s'.roots) ∧
      (regs v ∧ v.st = .frozen ∧ v.cause = some i.cause ∧ v.pc = t.pc ∧ v.bic = t.bic ∧ v.bmc = t.bmc ∧ v.grace = t.grace ∧
        v.ingrace = t.ingrace ∧ v.pend = t.pend ∧ (q.supv ≠ some (vt, slot) → v.mailbox = t.mailbox)) ∧
      (∀ w k, (w, k) ≠ (vt, slot) → (∃ m, s2.thread w k = { s'.thread w k with mailbox := m }) ∧
        (q.supv ≠ some (w, k) → s2.thread w k = s'.thread w k)) ∧
      (∀ w c x, (s2.core w c).ls.byte x = (s'.core w c).ls.byte x) ∧
      (∀ x, (∀ m, s'.hasCap t 2 = false → q.frsize ≠ 0 → q.ringoff = false → (q.frtail - q.frhead).toNat ≠ q.frsize →
          s'.translate (.panel q.asid) (q.frbase * 4096 + 64 * (q.frtail.toNat % q.frsize)) (needPlain true) = .ok m →
          x < m.pa ∨ m.pa + 64 ≤ x) →
        s2.hbm.byte x = s'.hbm.byte x))

/-- 16 R319-R325, R331, R292: a fault freezes its thread, which keeps its PC, registers and budgets, and forms one packet with the fields of R321; where the packet goes; and what a resume sets. That a resumed thread fetches anew is log entry 35, the stamp of its head log entry 62, when a packet goes to the housekeeping log log entry 17. -/
def Obligations.FreezePacket : Prop :=
  ∀ (s : State) (vt slot : Nat) (i : FaultInfo) (pc : Word) (body : Bool) (g : Gang),
    let t := s.thread vt slot
    let n := s.partNum t
    let p := s.part n
    (t.st ≠ .run → s.freeze vt slot i pc body = s) ∧
    (t.st = .run → t.node = none → s.thread? vt slot = some t → s.gangOf t = some g →
      let bit (b : Bool) (k : Nat) : Nat := if b then 2 ^ k else 0
      let supv := s.hasCap t 2
      let iter := if body then (match t.rep with | none => 0 | some r => r.iter) else 0
      let packet : List Word :=
        [BitVec.ofNat 64 (1 + i.cause.code * 2 ^ 8 + i.sub * 2 ^ 16 + i.kind.code * 2 ^ 20 + i.tidn * 2 ^ 24 +
           (2 ^ 32 + bit body 33 + bit i.async 34 + bit i.fetch 35 + bit supv 37)),
         BitVec.ofNat 64 (p.pktSeq.toNat + iter * 2 ^ 32),
         BitVec.ofNat 64 (g.id + g.domid * 2 ^ 32 + g.qid * 2 ^ 48),
         BitVec.ofNat 64 ((s.rankOf t.vt t.cslot).getD 0 + (t.slot % 4) * 2 ^ 16 + t.cslot * 2 ^ 20 + t.vt * 2 ^ 24 +
           s.ptileOf t.vt * 2 ^ 36 + (s.pcoreOf t.vt t.cslot).getD 0 * 2 ^ 48),
         pc, i.addr, i.info, BitVec.ofNat 64 s.clk]
      let frozen := ((s.modPart n fun q => { q with pktSeq := q.pktSeq + 1 }).count n 10 1).modThread vt slot fun t =>
        { t with st := .frozen, cause := some i.cause, wait := .none, woken := none, bodyF := body, pktSeq := p.pktSeq.toNat }
      ((supv = true ∨ p.frsize = 0 ∨ p.ringoff = true) → s.freeze vt slot i pc body = (frozen.hkPut 1 n packet).notice) ∧
      (supv = false → p.frsize ≠ 0 → p.ringoff = false →
        ((p.frtail - p.frhead).toNat = p.frsize →
          s.freeze vt slot i pc body = frozen.modThread vt slot fun t => { t with pktHeld := some packet }) ∧
        ((p.frtail - p.frhead).toNat ≠ p.frsize → p.lostMark = false → ∀ s1,
          frozen.writePage (.panel p.asid) (needPlain true) (p.frbase * 4096 + 64 * (p.frtail.toNat % p.frsize)) (wordsBytes packet) = .ok s1 →
          s.freeze vt slot i pc body = (s1.modPart n fun x => { x with frtail := x.frtail + 1, lostMark := false }).notifySupervisor n))) ∧
    (∀ c : Cause, c.code = match c with
      | .illegal => 1 | .fetchSplit => 2 | .capability => 3 | .tensor => 4 | .format => 5 | .align => 6 | .lsRange => 7 | .memErr => 8
      | .translation => 9 | .stash => 10 | .future => 11 | .queue => 12 | .loop => 13 | .accRange => 14 | .poison => 15 | .barrier => 16
      | .tileRange => 17 | .rankRange => 18 | .budget => 19 | .trap => 20 | .watchdog => 21 | .allAsleep => 22 | .lostPermit => 23
      | .leaseExpiry => 24 | .unbacked => 25 | .replay => 26) ∧
    (t.pktHeld = none → s.resumeThread vt slot = (s.unrealign vt slot).modThread vt slot fun t =>
      { t with st := .run, pend := false, pktHeld := none, cause := none, bodyF := false, wait := .none, woken := none, spanClk := s.clk, fbuf := [], freq := none, headClk := s.clk + 1 })

/-- 07 R124-R126, 06 R113, 08 R152: a step runs the instruction that the thread's bundle holds at its PC, with the clk moved on and the fetch port asked, and stamps its issue; a missing bundle waits, a fetch fault and a word that is no instruction fault; a sequencer's turn runs its body's next instruction; an event's turn runs the event once every lane of a vector store has landed, and a lane's turn lands one (09 R188, log entry 8); the fetch port serves the oldest request of the threads that may issue, each of which asks for the bundle that its buffer lacks, to every thread of the tile that asks for the same bundle, from the tile's fetch cache or from memory. The order of the turns and the counting of clk by turns are the model's (log entries 2 and 9), as is what an issue stamps (log entry 62) and when a tile caches (log entries 12 and 61). A saved record's turn is log entry 63, the stall codes of waits are log entry 25, the turns of a device that is not up log entry 73. -/
def Obligations.StepRunsDecoded : Prop :=
  ∀ (s : State) (r : List Turn) (vt slot n asid va : Nat) (on : Bool) (i : Instr) (b : Bundle) (x : BodyInstr) (u u0 : Thread) (k : FetchReq)
    (e : FaultInfo) (w1 w2 : Word),
    let a0 : State := { s with agenda := r }
    let s0 := a0.landFor vt slot false
    let b0 := a0.landFor vt slot true
    let e0 := a0.landAll
    let s1 := ({ s0.tick 1 with cur := { vt := vt, slot := slot, body := false } } : State).modThread vt slot fun t => t.request (s.clk + 1)
    let s2 : State := { b0.tick 1 with cur := { vt := vt, slot := slot, body := true } }
    let t := s1.thread vt slot
    let stamp (body : Bool) (o : Out) : Out := (if body then b0 else s0).noteIssue vt slot body o
    (s.agenda = .issue vt slot :: r → a0.portPick vt slot false = (slot, false) →
      (s0.issues vt slot = false → step s = .next (s0.tick 1)) ∧
      (s0.issues vt slot = true →
        (t.buffered (t.pc.toNat / 32 * 32) = none → step s = .next s1) ∧
        (t.buffered (t.pc.toNat / 32 * 32) = some b →
          (b.fault = none → decodeAt b.bytes (t.pc.toNat % 32) = .ok i n → step s = stamp false (exec i s1)) ∧
          (b.fault = some e → t.pend = false → t.asyncF = none →
            step s = stamp false (.next (s1.freeze vt slot { e with addr := t.pc } t.pc false))) ∧
          (b.fault = none → t.pend = false → t.asyncF = none →
            (decodeAt b.bytes (t.pc.toNat % 32) = .fetchSplit →
              step s = stamp false (.next (s1.freeze vt slot { cause := .fetchSplit, addr := t.pc } t.pc false))) ∧
            (decodeAt b.bytes (t.pc.toNat % 32) = .illegal w1 w2 →
              step s = stamp false (.next (s1.freeze vt slot { cause := .illegal, addr := (t.wordsAt t.pc).1, info := (t.wordsAt t.pc).2 } t.pc false))))))) ∧
    (s.agenda = .body vt slot :: r → a0.portPick vt slot true = (slot, true) → b0.issues vt slot = true →
      ((s2.thread vt slot).seqTest = .ready → (s2.thread vt slot).bodyInstr = some x → step s = stamp true (exec x.ins s2)) ∧
      ((s2.thread vt slot).seqTest = .wait → step s = stamp true (.next s2.bodyWait)) ∧
      ((s2.thread vt slot).seqTest = .ended u → step s = stamp true (.next (s2.modCur fun _ => u))) ∧
      (let s3 := s2.modCur fun _ => u
       (s2.thread vt slot).seqTest = .passed u → (s3.thread vt slot).bodyInstr = some x → step s = stamp true (exec x.ins s3))) ∧
    (s.agenda = .event i :: r → i.enc = none → step s = exec i e0) ∧
    (s.agenda = .elapse n :: r → step s = .next (a0.tick n)) ∧
    (s.agenda = .lane vt slot :: r → step s = .next (a0.landLane vt slot)) ∧
    (s.agenda = .command :: r → step s = .next (if s.qcmd.busy then { e0.queueCommand s.qcmd.src with qcmd := { (e0.queueCommand s.qcmd.src).qcmd with busy := false } } else e0)) ∧
    ((s.tick n).clk = s.clk + n ∧ ((∀ k ∈ s.hbmStacks, k.step < 2) → s.tick n = { s with clk := s.clk + n })) ∧
    (s.agenda = .saved vt slot :: r → step s = .next (e0.writeRecord vt slot)) ∧
    (s.agenda = .cache vt asid va :: r → step s = .next (e0.cachePath vt asid va)) ∧
    (s.agenda = .uncache vt asid va :: r →
      step s = .next (e0.modVTile vt fun v => { v with tlb := v.tlb.filter fun e => !(e.asid == asid && e.meets va 1) })) ∧
    (s.agenda = .evict vt va :: r → step s = .next (e0.modVTile vt fun v => { v with icache := v.icache.filter fun l => l.pa != va })) ∧
    (s.agenda = .linkRetry n on :: r → n < 12 → step s = .next (e0.modPort n fun p => { p with retry := on && p.up })) ∧
    (s.agenda = .boot :: r → step s = .next e0.bootPhase) ∧
    (s.agenda = .storeFault on :: r → step s = .next { e0 with fw := { s.fw with storeBad := on } }) ∧
    (let a : State := { s with threads := s.threads.map fun x => if x.vt == vt && s.issues x.vt x.slot then x.request s.clk else x }
     a.nextServed vt = some u0 → u0.freq = some k →
      let asks (x : Thread) : Bool := x.vt == vt && x.freq.map (·.addr) == some k.addr
      let since := ((a.threads.filter asks).map a.startOf).foldl max 0
      let line := a.fetchLine (a.spaceOf u0) since k.addr
      let bundle (x : Thread) : Bundle :=
        match line with
        | .error e => { addr := k.addr, bytes := [], fault := some { transFault k.addr .fetch e with fetch := true },
                        ahead := k.addr != bundleOf x.pc }
        | .ok l => { addr := k.addr, bytes := l.bytes, fault := none, ahead := k.addr != bundleOf x.pc }
      exec (.fetchRequestServe vt) s = .next
        { a.keepLine vt line with
          lastServed := upsert (fun x => x.1 == vt) (vt, u0.slot) (fun _ => (vt, u0.slot)) s.lastServed
          threads := a.threads.map fun x =>
            if asks x then ({ x with fbuf := x.fbuf ++ [bundle x], freq := none } : Thread).request s.clk else x }) ∧
    (∀ (x : Thread) (c : Nat), x.buffered (bundleOf x.pc) = none → ((x.request c).freq.map (·.addr)) = some (bundleOf x.pc)) ∧
    (∀ (sp : Space) (since addr : Nat),
      (∀ e, s.translate sp addr needFetch = .err e → s.fetchLine sp since addr = .error e) ∧
      (∀ m, s.translate sp addr needFetch = .ok m →
        s.fetchLine sp since addr = .ok ((s.codeLine sp m.pa since).getD
          { pa := m.pa, clk := s.clk, bytes := s.hbm.bytes m.pa 32 })))

/-- 06 R106-R114 and the encoding rules of each chapter: words of the spec's encodings decode to the instructions they stand for. -/
def Obligations.DecodeWords : Prop :=
  decodeTableWord 64 0x0000000000000010 = some (.halt Pred.always) ∧
  decodeTableWord 64 0x000A000001000018 = some (.loop Pred.always 4 10) ∧
  decodeTableWord 64 0x0004100003500094 = some (.shlImm Pred.always false 16 13 4) ∧
  decodeTableWord 64 0x000000006209015C = some (.vFaddScalar Pred.always .rne 9 8 6) ∧
  decodeTableWord 64 0x4401202430800240 = some (.mxMma Pred.always false true 0 2 3 9 1 (some 1)) ∧
  decodeTableWord 96 0x0001002B00001000718402B5 = some (.cpGet Pred.always { ord := 0, scope := 5, evict := 3 } 6 7 256 (some 4)) ∧
  decodeTableWord 96 0x000000AB0000101491080719 = some (.wqWake Pred.always { ord := 2, scope := 5, evict := 3 } 8 4 9 (some 5) 0) ∧
  decodeTableWord 64 0x0000E0000140036C = some (.leaseReq Pred.always { s2 := true, dom := true, trap := true } 5) ∧
  decodeTableWord 64 0x002A000001C00370 = some (.trap Pred.always 7 42) ∧
  decodeTableWord 64 0x0000100061050378 = some (.scrRun Pred.always true 5 4 6)

/-- 06 R106-R114: decode of encode: every well-formed instruction that has an encoding, placed at any word of a bundle, decodes to itself with its length. -/
def Obligations.RoundTrip : Prop :=
  ∀ (i : Instr) (pre rest : List Byte), i.wf = true → i.enc.isSome = true → pre.length % 4 = 0 →
    decodeAt (pre ++ (encode i).flatMap wordBytes ++ rest) pre.length = .ok i (4 * (encode i).length)

/-- 19 R391, R392, 04 R68, R69, 05 R83, R93, 15 R301, 16 R324, R326, R335, 19 R379, R389, R394-R396, 11 R222, R225, R227, 01 R20: what reset leaves, read as the driver reads it and in the state. That unwritten bytes and roots read 0 and that the fuse map, the log, the snapshots and the identity are empty is the model's choice (log entries 3, 4 and 5). -/
def Obligations.ResetValues : Prop :=
  let s := State.reset
  s.phase = 0 ∧ s.failCode = 0 ∧ s.threads = [] ∧ s.gangs = [] ∧ s.rotations = [] ∧ s.hklost = 0 ∧ s.hktail = 0 ∧ s.fw.result = 0 ∧ s.fw.busy = 0 ∧
  s.att.busy = false ∧ s.qcmd.result = 0 ∧ s.tinv.result = 0 ∧ (∀ a, s.root a = 0) ∧
  (∀ vt slot, (s.thread vt slot).st = .free ∧ (s.thread vt slot).statusWord = 0) ∧
  (∀ q, (s.queue q).state = .disabled ∧ ∀ o, (s.queue q).word o = 0) ∧
  (∀ p, (s.part p).valid = false ∧ (∀ o, (s.part p).entryWord o = 0) ∧ ∀ o, s.controlWord (s.part p) o = 0) ∧
  (∀ p, (s.port p).up = false ∧ (s.port p).pairings = [] ∧ ∀ r, (((s.port p).ring r).cfg = 0 ∧ ((s.port p).ring r).base = 0 ∧ ((s.port p).ring r).head = 0 ∧
    ((s.port p).ring r).done = 0 ∧ ((s.port p).ring r).errs = 0)) ∧
  (∀ n o clk, (s.stack n).word clk o = 0) ∧ (∀ e h, s.uncachedWord e h = 0) ∧ (∀ p, s.tileWord p = 0) ∧
  (∀ vt b, (s.bar vt b).gen = 0 ∧ (s.bar vt b).arr = []) ∧
  (∀ a, s.hbm.byte a = 0) ∧ (∀ off, off < 0xC00000000 ∨ 0xC00001000 ≤ off → s.regWord off = 0)

/-- Every memory of the panel stands in its canonical form at reset. -/
def Obligations.MemoryFormAtReset : Prop :=
  State.reset.memoryWf = true

/-- Every step keeps every memory of the panel (HBM, the local stores, the copies that checkpoints hold) in its canonical form. -/
def Obligations.MemoryFormKept : Prop :=
  ∀ s s' : State, s.memoryWf = true → step s = .next s' → s'.memoryWf = true
end

