-- ==== Sys2Proof/Laws/Exec.lean ====
section
/-! SUPPORT. The arms of `exec`, one equation each: a proof about an instruction goes to its meaning without unfolding the dispatch. -/

set_option Elab.async false

namespace Sys2Proof.Machine

@[simp] theorem exec_deviceReset (fail : BootReport) (snapOk : Bool) (s : State) : exec (.deviceReset fail snapOk) s = execDeviceReset fail snapOk s := rfl
@[simp] theorem exec_nop (s : State) : exec .nop s = execNop s := rfl
@[simp] theorem exec_pad (s : State) : exec .pad s = execPad s := rfl
@[simp] theorem exec_br (p : Pred) (off : BitVec 16) (s : State) : exec (.br p off) s = execBr p off s := rfl
@[simp] theorem exec_brLong (p : Pred) (off : BitVec 32) (s : State) : exec (.brLong p off) s = execBrLong p off s := rfl
@[simp] theorem exec_brReg (p : Pred) (a : SReg) (s : State) : exec (.brReg p a) s = execBrReg p a s := rfl
@[simp] theorem exec_brC (p : Pred) (cc : Cond) (a b : SReg) (off : BitVec 16) (s : State) : exec (.brC p cc a b off) s = execBrC p cc a b off s := rfl
@[simp] theorem exec_brCLong (p : Pred) (cc : Cond) (a b : SReg) (off : BitVec 32) (s : State) : exec (.brCLong p cc a b off) s = execBrCLong p cc a b off s := rfl
@[simp] theorem exec_brCImm (p : Pred) (cc : Cond) (a : SReg) (off : BitVec 16) (imm : BitVec 32) (s : State) : exec (.brCImm p cc a off imm) s = execBrCImm p cc a off imm s := rfl
@[simp] theorem exec_call (p : Pred) (d : SReg) (off : BitVec 16) (s : State) : exec (.call p d off) s = execCall p d off s := rfl
@[simp] theorem exec_callLong (p : Pred) (d : SReg) (off : BitVec 32) (s : State) : exec (.callLong p d off) s = execCallLong p d off s := rfl
@[simp] theorem exec_callReg (p : Pred) (d a : SReg) (s : State) : exec (.callReg p d a) s = execCallReg p d a s := rfl
@[simp] theorem exec_ret (p : Pred) (a : SReg) (s : State) : exec (.ret p a) s = execRet p a s := rfl
@[simp] theorem exec_halt (p : Pred) (s : State) : exec (.halt p) s = execHalt p s := rfl
@[simp] theorem exec_realign (p : Pred) (a : SReg) (s : State) : exec (.realign p a) s = execRealign p a s := rfl
@[simp] theorem exec_realignResume (vt slot : Nat) (s : State) : exec (.realignResume vt slot) s = execRealignResume vt slot s := rfl
@[simp] theorem exec_loop (p : Pred) (a : SReg) (off : BitVec 16) (s : State) : exec (.loop p a off) s = execLoop p a off s := rfl
@[simp] theorem exec_loopImm (p : Pred) (off : BitVec 16) (cnt : BitVec 32) (s : State) : exec (.loopImm p off cnt) s = execLoopImm p off cnt s := rfl
@[simp] theorem exec_loopEnd (p : Pred) (s : State) : exec (.loopEnd p) s = execLoopEnd p s := rfl
@[simp] theorem exec_rep (p : Pred) (a : SReg) (sh : RepShape) (s : State) : exec (.rep p a sh) s = execRep p a sh s := rfl
@[simp] theorem exec_repImm (p : Pred) (cnt : BitVec 32) (sh : RepShape) (s : State) : exec (.repImm p cnt sh) s = execRepImm p cnt sh s := rfl
@[simp] theorem exec_qPush (p : Pred) (d : QReg) (a : SReg) (s : State) : exec (.qPush p d a) s = execQPush p d a s := rfl
@[simp] theorem exec_qEos (p : Pred) (d : QReg) (s : State) : exec (.qEos p d) s = execQEos p d s := rfl
@[simp] theorem exec_qPop (p : Pred) (d : SReg) (a : QReg) (s : State) : exec (.qPop p d a) s = execQPop p d a s := rfl
@[simp] theorem exec_qPeek (p : Pred) (d : SReg) (a : QReg) (s : State) : exec (.qPeek p d a) s = execQPeek p d a s := rfl
@[simp] theorem exec_qTest (p : Pred) (d : SReg) (a : QReg) (s : State) : exec (.qTest p d a) s = execQTest p d a s := rfl
@[simp] theorem exec_fetchRequestServe (vt : Nat) (s : State) : exec (.fetchRequestServe vt) s = execFetchRequestServe vt s := rfl
@[simp] theorem exec_add (p : Pred) (m : AluMode) (d a b : SReg) (s : State) : exec (.add p m d a b) s = execAdd p m d a b s := rfl
@[simp] theorem exec_sub (p : Pred) (m : AluMode) (d a b : SReg) (s : State) : exec (.sub p m d a b) s = execSub p m d a b s := rfl
@[simp] theorem exec_addImm (p : Pred) (m : AluMode) (d a : SReg) (imm : BitVec 16) (s : State) : exec (.addImm p m d a imm) s = execAddImm p m d a imm s := rfl
@[simp] theorem exec_addImmLong (p : Pred) (m : AluMode) (d a : SReg) (imm : BitVec 32) (s : State) : exec (.addImmLong p m d a imm) s = execAddImmLong p m d a imm s := rfl
@[simp] theorem exec_subImm (p : Pred) (m : AluMode) (d a : SReg) (imm : BitVec 16) (s : State) : exec (.subImm p m d a imm) s = execSubImm p m d a imm s := rfl
@[simp] theorem exec_subImmLong (p : Pred) (m : AluMode) (d a : SReg) (imm : BitVec 32) (s : State) : exec (.subImmLong p m d a imm) s = execSubImmLong p m d a imm s := rfl
@[simp] theorem exec_mul (p : Pred) (m : AluMode) (d a b : SReg) (s : State) : exec (.mul p m d a b) s = execMul p m d a b s := rfl
@[simp] theorem exec_mulh (p : Pred) (k : MulhKind) (d a b : SReg) (s : State) : exec (.mulh p k d a b) s = execMulh p k d a b s := rfl
@[simp] theorem exec_div (p : Pred) (w : Bool) (d a b : SReg) (s : State) : exec (.div p w d a b) s = execDiv p w d a b s := rfl
@[simp] theorem exec_divU (p : Pred) (w : Bool) (d a b : SReg) (s : State) : exec (.divU p w d a b) s = execDivU p w d a b s := rfl
@[simp] theorem exec_rem (p : Pred) (w : Bool) (d a b : SReg) (s : State) : exec (.rem p w d a b) s = execRem p w d a b s := rfl
@[simp] theorem exec_remU (p : Pred) (w : Bool) (d a b : SReg) (s : State) : exec (.remU p w d a b) s = execRemU p w d a b s := rfl
@[simp] theorem exec_min (p : Pred) (d a b : SReg) (s : State) : exec (.min p d a b) s = execMin p d a b s := rfl
@[simp] theorem exec_max (p : Pred) (d a b : SReg) (s : State) : exec (.max p d a b) s = execMax p d a b s := rfl
@[simp] theorem exec_minU (p : Pred) (d a b : SReg) (s : State) : exec (.minU p d a b) s = execMinU p d a b s := rfl
@[simp] theorem exec_maxU (p : Pred) (d a b : SReg) (s : State) : exec (.maxU p d a b) s = execMaxU p d a b s := rfl
@[simp] theorem exec_abs (p : Pred) (sat : Bool) (d a : SReg) (s : State) : exec (.abs p sat d a) s = execAbs p sat d a s := rfl
@[simp] theorem exec_neg (p : Pred) (sat : Bool) (d a : SReg) (s : State) : exec (.neg p sat d a) s = execNeg p sat d a s := rfl
@[simp] theorem exec_and (p : Pred) (d a b : SReg) (s : State) : exec (.and p d a b) s = execAnd p d a b s := rfl
@[simp] theorem exec_or (p : Pred) (d a b : SReg) (s : State) : exec (.or p d a b) s = execOr p d a b s := rfl
@[simp] theorem exec_xor (p : Pred) (d a b : SReg) (s : State) : exec (.xor p d a b) s = execXor p d a b s := rfl
@[simp] theorem exec_andn (p : Pred) (d a b : SReg) (s : State) : exec (.andn p d a b) s = execAndn p d a b s := rfl
@[simp] theorem exec_not (p : Pred) (d a : SReg) (s : State) : exec (.not p d a) s = execNot p d a s := rfl
@[simp] theorem exec_andImm (p : Pred) (d a : SReg) (imm : BitVec 16) (s : State) : exec (.andImm p d a imm) s = execAndImm p d a imm s := rfl
@[simp] theorem exec_andImmLong (p : Pred) (d a : SReg) (imm : BitVec 32) (s : State) : exec (.andImmLong p d a imm) s = execAndImmLong p d a imm s := rfl
@[simp] theorem exec_orImm (p : Pred) (d a : SReg) (imm : BitVec 16) (s : State) : exec (.orImm p d a imm) s = execOrImm p d a imm s := rfl
@[simp] theorem exec_orImmLong (p : Pred) (d a : SReg) (imm : BitVec 32) (s : State) : exec (.orImmLong p d a imm) s = execOrImmLong p d a imm s := rfl
@[simp] theorem exec_xorImm (p : Pred) (d a : SReg) (imm : BitVec 16) (s : State) : exec (.xorImm p d a imm) s = execXorImm p d a imm s := rfl
@[simp] theorem exec_xorImmLong (p : Pred) (d a : SReg) (imm : BitVec 32) (s : State) : exec (.xorImmLong p d a imm) s = execXorImmLong p d a imm s := rfl
@[simp] theorem exec_shl (p : Pred) (w : Bool) (d a b : SReg) (s : State) : exec (.shl p w d a b) s = execShl p w d a b s := rfl
@[simp] theorem exec_shlImm (p : Pred) (w : Bool) (d a : SReg) (n : BitVec 6) (s : State) : exec (.shlImm p w d a n) s = execShlImm p w d a n s := rfl
@[simp] theorem exec_shr (p : Pred) (w : Bool) (d a b : SReg) (s : State) : exec (.shr p w d a b) s = execShr p w d a b s := rfl
@[simp] theorem exec_shrImm (p : Pred) (w : Bool) (d a : SReg) (n : BitVec 6) (s : State) : exec (.shrImm p w d a n) s = execShrImm p w d a n s := rfl
@[simp] theorem exec_sar (p : Pred) (w : Bool) (d a b : SReg) (s : State) : exec (.sar p w d a b) s = execSar p w d a b s := rfl
@[simp] theorem exec_sarImm (p : Pred) (w : Bool) (d a : SReg) (n : BitVec 6) (s : State) : exec (.sarImm p w d a n) s = execSarImm p w d a n s := rfl
@[simp] theorem exec_rot (p : Pred) (w : Bool) (d a b : SReg) (s : State) : exec (.rot p w d a b) s = execRot p w d a b s := rfl
@[simp] theorem exec_rotImm (p : Pred) (w : Bool) (d a : SReg) (n : BitVec 6) (s : State) : exec (.rotImm p w d a n) s = execRotImm p w d a n s := rfl
@[simp] theorem exec_cmpP (p : Pred) (cc : Cond) (d : PReg) (a b : SReg) (s : State) : exec (.cmpP p cc d a b) s = execCmpP p cc d a b s := rfl
@[simp] theorem exec_cmpPImm (p : Pred) (cc : Cond) (d : PReg) (a : SReg) (imm : BitVec 16) (s : State) : exec (.cmpPImm p cc d a imm) s = execCmpPImm p cc d a imm s := rfl
@[simp] theorem exec_cmpPImmLong (p : Pred) (cc : Cond) (d : PReg) (a : SReg) (imm : BitVec 32) (s : State) : exec (.cmpPImmLong p cc d a imm) s = execCmpPImmLong p cc d a imm s := rfl
@[simp] theorem exec_cmpS (p : Pred) (cc : Cond) (d a b : SReg) (s : State) : exec (.cmpS p cc d a b) s = execCmpS p cc d a b s := rfl
@[simp] theorem exec_cmpSImm (p : Pred) (cc : Cond) (d a : SReg) (imm : BitVec 16) (s : State) : exec (.cmpSImm p cc d a imm) s = execCmpSImm p cc d a imm s := rfl
@[simp] theorem exec_cmpSImmLong (p : Pred) (cc : Cond) (d a : SReg) (imm : BitVec 32) (s : State) : exec (.cmpSImmLong p cc d a imm) s = execCmpSImmLong p cc d a imm s := rfl
@[simp] theorem exec_selP (p : Pred) (d a b : SReg) (c : PReg) (s : State) : exec (.selP p d a b c) s = execSelP p d a b c s := rfl
@[simp] theorem exec_selS (p : Pred) (d a b c : SReg) (s : State) : exec (.selS p d a b c) s = execSelS p d a b c s := rfl
@[simp] theorem exec_bfX (p : Pred) (sgn : Bool) (d a : SReg) (pos lenm1 : BitVec 6) (s : State) : exec (.bfX p sgn d a pos lenm1) s = execBfX p sgn d a pos lenm1 s := rfl
@[simp] theorem exec_bfI (p : Pred) (d a : SReg) (pos lenm1 : BitVec 6) (s : State) : exec (.bfI p d a pos lenm1) s = execBfI p d a pos lenm1 s := rfl
@[simp] theorem exec_clz (p : Pred) (w : Bool) (d a : SReg) (s : State) : exec (.clz p w d a) s = execClz p w d a s := rfl
@[simp] theorem exec_ctz (p : Pred) (w : Bool) (d a : SReg) (s : State) : exec (.ctz p w d a) s = execCtz p w d a s := rfl
@[simp] theorem exec_popc (p : Pred) (w : Bool) (d a : SReg) (s : State) : exec (.popc p w d a) s = execPopc p w d a s := rfl
@[simp] theorem exec_lea (p : Pred) (sh : BitVec 3) (d a b : SReg) (disp : BitVec 16) (s : State) : exec (.lea p sh d a b disp) s = execLea p sh d a b disp s := rfl
@[simp] theorem exec_leaLong (p : Pred) (sh : BitVec 3) (d a b : SReg) (disp : BitVec 32) (s : State) : exec (.leaLong p sh d a b disp) s = execLeaLong p sh d a b disp s := rfl
@[simp] theorem exec_leaPc (p : Pred) (d : SReg) (off : BitVec 32) (s : State) : exec (.leaPc p d off) s = execLeaPc p d off s := rfl
@[simp] theorem exec_li (p : Pred) (d : SReg) (imm : BitVec 32) (s : State) : exec (.li p d imm) s = execLi p d imm s := rfl
@[simp] theorem exec_liLong (p : Pred) (d : SReg) (imm : BitVec 64) (s : State) : exec (.liLong p d imm) s = execLiLong p d imm s := rfl
@[simp] theorem exec_pAnd (p : Pred) (d a b : PReg) (s : State) : exec (.pAnd p d a b) s = execPAnd p d a b s := rfl
@[simp] theorem exec_pOr (p : Pred) (d a b : PReg) (s : State) : exec (.pOr p d a b) s = execPOr p d a b s := rfl
@[simp] theorem exec_pXor (p : Pred) (d a b : PReg) (s : State) : exec (.pXor p d a b) s = execPXor p d a b s := rfl
@[simp] theorem exec_pNot (p : Pred) (d a : PReg) (s : State) : exec (.pNot p d a) s = execPNot p d a s := rfl
@[simp] theorem exec_pMov (p : Pred) (d a : PReg) (s : State) : exec (.pMov p d a) s = execPMov p d a s := rfl
@[simp] theorem exec_pMovFromScalar (p : Pred) (d : PReg) (a : SReg) (s : State) : exec (.pMovFromScalar p d a) s = execPMovFromScalar p d a s := rfl
@[simp] theorem exec_pMovToScalar (p : Pred) (d : SReg) (a : PReg) (s : State) : exec (.pMovToScalar p d a) s = execPMovToScalar p d a s := rfl
@[simp] theorem exec_csrRd (p : Pred) (d : SReg) (n : BitVec 12) (s : State) : exec (.csrRd p d n) s = execCsrRd p d n s := rfl
@[simp] theorem exec_csrWr (p : Pred) (d a : SReg) (n : BitVec 12) (s : State) : exec (.csrWr p d a n) s = execCsrWr p d a n s := rfl
@[simp] theorem exec_csrSet (p : Pred) (d a : SReg) (n : BitVec 12) (s : State) : exec (.csrSet p d a n) s = execCsrSet p d a n s := rfl
@[simp] theorem exec_csrClr (p : Pred) (d a : SReg) (n : BitVec 12) (s : State) : exec (.csrClr p d a n) s = execCsrClr p d a n s := rfl
@[simp] theorem exec_vAdd (p : Pred) (e : VWidth) (m : VMode) (d a b : VReg) (s : State) : exec (.vAdd p e m d a b) s = execVAdd p e m d a b s := rfl
@[simp] theorem exec_vSub (p : Pred) (e : VWidth) (m : VMode) (d a b : VReg) (s : State) : exec (.vSub p e m d a b) s = execVSub p e m d a b s := rfl
@[simp] theorem exec_vMul (p : Pred) (e : VWidth) (m : VMode) (d a b : VReg) (s : State) : exec (.vMul p e m d a b) s = execVMul p e m d a b s := rfl
@[simp] theorem exec_vMulh (p : Pred) (e : VWidth) (m : VMode) (d a b : VReg) (s : State) : exec (.vMulh p e m d a b) s = execVMulh p e m d a b s := rfl
@[simp] theorem exec_vMac (p : Pred) (e : VWidth) (m : VMode) (d a b : VReg) (s : State) : exec (.vMac p e m d a b) s = execVMac p e m d a b s := rfl
@[simp] theorem exec_vMin (p : Pred) (e : VWidth) (m : VMode) (d a b : VReg) (s : State) : exec (.vMin p e m d a b) s = execVMin p e m d a b s := rfl
@[simp] theorem exec_vMax (p : Pred) (e : VWidth) (m : VMode) (d a b : VReg) (s : State) : exec (.vMax p e m d a b) s = execVMax p e m d a b s := rfl
@[simp] theorem exec_vAbs (p : Pred) (e : VWidth) (m : VMode) (d a : VReg) (s : State) : exec (.vAbs p e m d a) s = execVAbs p e m d a s := rfl
@[simp] theorem exec_vNeg (p : Pred) (e : VWidth) (m : VMode) (d a : VReg) (s : State) : exec (.vNeg p e m d a) s = execVNeg p e m d a s := rfl
@[simp] theorem exec_vAddScalar (p : Pred) (e : VWidth) (m : VMode) (d a : VReg) (b : SReg) (s : State) : exec (.vAddScalar p e m d a b) s = execVAddScalar p e m d a b s := rfl
@[simp] theorem exec_vSubScalar (p : Pred) (e : VWidth) (m : VMode) (d a : VReg) (b : SReg) (s : State) : exec (.vSubScalar p e m d a b) s = execVSubScalar p e m d a b s := rfl
@[simp] theorem exec_vMulScalar (p : Pred) (e : VWidth) (m : VMode) (d a : VReg) (b : SReg) (s : State) : exec (.vMulScalar p e m d a b) s = execVMulScalar p e m d a b s := rfl
@[simp] theorem exec_vMulhScalar (p : Pred) (e : VWidth) (m : VMode) (d a : VReg) (b : SReg) (s : State) : exec (.vMulhScalar p e m d a b) s = execVMulhScalar p e m d a b s := rfl
@[simp] theorem exec_vMacScalar (p : Pred) (e : VWidth) (m : VMode) (d a : VReg) (b : SReg) (s : State) : exec (.vMacScalar p e m d a b) s = execVMacScalar p e m d a b s := rfl
@[simp] theorem exec_vMinScalar (p : Pred) (e : VWidth) (m : VMode) (d a : VReg) (b : SReg) (s : State) : exec (.vMinScalar p e m d a b) s = execVMinScalar p e m d a b s := rfl
@[simp] theorem exec_vMaxScalar (p : Pred) (e : VWidth) (m : VMode) (d a : VReg) (b : SReg) (s : State) : exec (.vMaxScalar p e m d a b) s = execVMaxScalar p e m d a b s := rfl
@[simp] theorem exec_vAddImm (p : Pred) (e : VWidth) (m : VMode) (d a : VReg) (imm : BitVec 16) (s : State) : exec (.vAddImm p e m d a imm) s = execVAddImm p e m d a imm s := rfl
@[simp] theorem exec_vAddImmLong (p : Pred) (e : VWidth) (m : VMode) (d a : VReg) (imm : BitVec 32) (s : State) : exec (.vAddImmLong p e m d a imm) s = execVAddImmLong p e m d a imm s := rfl
@[simp] theorem exec_vSubImm (p : Pred) (e : VWidth) (m : VMode) (d a : VReg) (imm : BitVec 16) (s : State) : exec (.vSubImm p e m d a imm) s = execVSubImm p e m d a imm s := rfl
@[simp] theorem exec_vSubImmLong (p : Pred) (e : VWidth) (m : VMode) (d a : VReg) (imm : BitVec 32) (s : State) : exec (.vSubImmLong p e m d a imm) s = execVSubImmLong p e m d a imm s := rfl
@[simp] theorem exec_vMulImm (p : Pred) (e : VWidth) (m : VMode) (d a : VReg) (imm : BitVec 16) (s : State) : exec (.vMulImm p e m d a imm) s = execVMulImm p e m d a imm s := rfl
@[simp] theorem exec_vMulImmLong (p : Pred) (e : VWidth) (m : VMode) (d a : VReg) (imm : BitVec 32) (s : State) : exec (.vMulImmLong p e m d a imm) s = execVMulImmLong p e m d a imm s := rfl
@[simp] theorem exec_vMinImm (p : Pred) (e : VWidth) (m : VMode) (d a : VReg) (imm : BitVec 16) (s : State) : exec (.vMinImm p e m d a imm) s = execVMinImm p e m d a imm s := rfl
@[simp] theorem exec_vMinImmLong (p : Pred) (e : VWidth) (m : VMode) (d a : VReg) (imm : BitVec 32) (s : State) : exec (.vMinImmLong p e m d a imm) s = execVMinImmLong p e m d a imm s := rfl
@[simp] theorem exec_vMaxImm (p : Pred) (e : VWidth) (m : VMode) (d a : VReg) (imm : BitVec 16) (s : State) : exec (.vMaxImm p e m d a imm) s = execVMaxImm p e m d a imm s := rfl
@[simp] theorem exec_vMaxImmLong (p : Pred) (e : VWidth) (m : VMode) (d a : VReg) (imm : BitVec 32) (s : State) : exec (.vMaxImmLong p e m d a imm) s = execVMaxImmLong p e m d a imm s := rfl
@[simp] theorem exec_vAnd (p : Pred) (d a b : VReg) (s : State) : exec (.vAnd p d a b) s = execVAnd p d a b s := rfl
@[simp] theorem exec_vOr (p : Pred) (d a b : VReg) (s : State) : exec (.vOr p d a b) s = execVOr p d a b s := rfl
@[simp] theorem exec_vXor (p : Pred) (d a b : VReg) (s : State) : exec (.vXor p d a b) s = execVXor p d a b s := rfl
@[simp] theorem exec_vAndn (p : Pred) (d a b : VReg) (s : State) : exec (.vAndn p d a b) s = execVAndn p d a b s := rfl
@[simp] theorem exec_vNot (p : Pred) (d a : VReg) (s : State) : exec (.vNot p d a) s = execVNot p d a s := rfl
@[simp] theorem exec_vShl (p : Pred) (e : VWidth) (d a b : VReg) (s : State) : exec (.vShl p e d a b) s = execVShl p e d a b s := rfl
@[simp] theorem exec_vShlImm (p : Pred) (e : VWidth) (d a : VReg) (n : BitVec 5) (s : State) : exec (.vShlImm p e d a n) s = execVShlImm p e d a n s := rfl
@[simp] theorem exec_vShr (p : Pred) (e : VWidth) (d a b : VReg) (s : State) : exec (.vShr p e d a b) s = execVShr p e d a b s := rfl
@[simp] theorem exec_vShrImm (p : Pred) (e : VWidth) (d a : VReg) (n : BitVec 5) (s : State) : exec (.vShrImm p e d a n) s = execVShrImm p e d a n s := rfl
@[simp] theorem exec_vSar (p : Pred) (e : VWidth) (d a b : VReg) (s : State) : exec (.vSar p e d a b) s = execVSar p e d a b s := rfl
@[simp] theorem exec_vSarImm (p : Pred) (e : VWidth) (d a : VReg) (n : BitVec 5) (s : State) : exec (.vSarImm p e d a n) s = execVSarImm p e d a n s := rfl
@[simp] theorem exec_vRot (p : Pred) (e : VWidth) (d a b : VReg) (s : State) : exec (.vRot p e d a b) s = execVRot p e d a b s := rfl
@[simp] theorem exec_vRotImm (p : Pred) (e : VWidth) (d a : VReg) (n : BitVec 5) (s : State) : exec (.vRotImm p e d a n) s = execVRotImm p e d a n s := rfl
@[simp] theorem exec_vClz (p : Pred) (e : VWidth) (d a : VReg) (s : State) : exec (.vClz p e d a) s = execVClz p e d a s := rfl
@[simp] theorem exec_vPopc (p : Pred) (e : VWidth) (d a : VReg) (s : State) : exec (.vPopc p e d a) s = execVPopc p e d a s := rfl
@[simp] theorem exec_vFadd (p : Pred) (rm : RM) (d a b : VReg) (s : State) : exec (.vFadd p rm d a b) s = execVFadd p rm d a b s := rfl
@[simp] theorem exec_vFsub (p : Pred) (rm : RM) (d a b : VReg) (s : State) : exec (.vFsub p rm d a b) s = execVFsub p rm d a b s := rfl
@[simp] theorem exec_vFmul (p : Pred) (rm : RM) (d a b : VReg) (s : State) : exec (.vFmul p rm d a b) s = execVFmul p rm d a b s := rfl
@[simp] theorem exec_vFmin (p : Pred) (d a b : VReg) (s : State) : exec (.vFmin p d a b) s = execVFmin p d a b s := rfl
@[simp] theorem exec_vFmax (p : Pred) (d a b : VReg) (s : State) : exec (.vFmax p d a b) s = execVFmax p d a b s := rfl
@[simp] theorem exec_vFaddScalar (p : Pred) (rm : RM) (d a : VReg) (b : SReg) (s : State) : exec (.vFaddScalar p rm d a b) s = execVFaddScalar p rm d a b s := rfl
@[simp] theorem exec_vFsubScalar (p : Pred) (rm : RM) (d a : VReg) (b : SReg) (s : State) : exec (.vFsubScalar p rm d a b) s = execVFsubScalar p rm d a b s := rfl
@[simp] theorem exec_vFmulScalar (p : Pred) (rm : RM) (d a : VReg) (b : SReg) (s : State) : exec (.vFmulScalar p rm d a b) s = execVFmulScalar p rm d a b s := rfl
@[simp] theorem exec_vFminScalar (p : Pred) (d a : VReg) (b : SReg) (s : State) : exec (.vFminScalar p d a b) s = execVFminScalar p d a b s := rfl
@[simp] theorem exec_vFmaxScalar (p : Pred) (d a : VReg) (b : SReg) (s : State) : exec (.vFmaxScalar p d a b) s = execVFmaxScalar p d a b s := rfl
@[simp] theorem exec_vFma (p : Pred) (rm : RM) (d a b c : VReg) (s : State) : exec (.vFma p rm d a b c) s = execVFma p rm d a b c s := rfl
@[simp] theorem exec_vFms (p : Pred) (rm : RM) (d a b c : VReg) (s : State) : exec (.vFms p rm d a b c) s = execVFms p rm d a b c s := rfl
@[simp] theorem exec_vFnma (p : Pred) (rm : RM) (d a b c : VReg) (s : State) : exec (.vFnma p rm d a b c) s = execVFnma p rm d a b c s := rfl
@[simp] theorem exec_vFdiv (p : Pred) (rm : RM) (d a b : VReg) (s : State) : exec (.vFdiv p rm d a b) s = execVFdiv p rm d a b s := rfl
@[simp] theorem exec_vFsqrt (p : Pred) (rm : RM) (d a : VReg) (s : State) : exec (.vFsqrt p rm d a) s = execVFsqrt p rm d a s := rfl
@[simp] theorem exec_vFrcp (p : Pred) (rm : RM) (d a : VReg) (s : State) : exec (.vFrcp p rm d a) s = execVFrcp p rm d a s := rfl
@[simp] theorem exec_vFrsq (p : Pred) (rm : RM) (d a : VReg) (s : State) : exec (.vFrsq p rm d a) s = execVFrsq p rm d a s := rfl
@[simp] theorem exec_vFabs (p : Pred) (d a : VReg) (s : State) : exec (.vFabs p d a) s = execVFabs p d a s := rfl
@[simp] theorem exec_vFneg (p : Pred) (d a : VReg) (s : State) : exec (.vFneg p d a) s = execVFneg p d a s := rfl
@[simp] theorem exec_vFcopysign (p : Pred) (d a b : VReg) (s : State) : exec (.vFcopysign p d a b) s = execVFcopysign p d a b s := rfl
@[simp] theorem exec_vFclass (p : Pred) (d a : VReg) (s : State) : exec (.vFclass p d a) s = execVFclass p d a s := rfl
@[simp] theorem exec_vFscale (p : Pred) (rm : RM) (d a b : VReg) (s : State) : exec (.vFscale p rm d a b) s = execVFscale p rm d a b s := rfl
@[simp] theorem exec_vFround (p : Pred) (rm : RM) (d a : VReg) (s : State) : exec (.vFround p rm d a) s = execVFround p rm d a s := rfl
@[simp] theorem exec_vCmp (p : Pred) (cc : Cond) (d : PReg) (a b : VReg) (s : State) : exec (.vCmp p cc d a b) s = execVCmp p cc d a b s := rfl
@[simp] theorem exec_vCmpScalar (p : Pred) (cc : Cond) (d : PReg) (a : VReg) (b : SReg) (s : State) : exec (.vCmpScalar p cc d a b) s = execVCmpScalar p cc d a b s := rfl
@[simp] theorem exec_vFcmp (p : Pred) (cc : FCond) (d : PReg) (a b : VReg) (s : State) : exec (.vFcmp p cc d a b) s = execVFcmp p cc d a b s := rfl
@[simp] theorem exec_vFcmpScalar (p : Pred) (cc : FCond) (d : PReg) (a : VReg) (b : SReg) (s : State) : exec (.vFcmpScalar p cc d a b) s = execVFcmpScalar p cc d a b s := rfl
@[simp] theorem exec_vPerm (p : Pred) (d a b : VReg) (s : State) : exec (.vPerm p d a b) s = execVPerm p d a b s := rfl
@[simp] theorem exec_vPerm2 (p : Pred) (d a b c : VReg) (s : State) : exec (.vPerm2 p d a b c) s = execVPerm2 p d a b c s := rfl
@[simp] theorem exec_vShuf (p : Pred) (k : Shuf) (d a b : VReg) (s : State) : exec (.vShuf p k d a b) s = execVShuf p k d a b s := rfl
@[simp] theorem exec_vBcast (p : Pred) (d : VReg) (a : SReg) (s : State) : exec (.vBcast p d a) s = execVBcast p d a s := rfl
@[simp] theorem exec_vBcastLane (p : Pred) (d a : VReg) (k : BitVec 5) (s : State) : exec (.vBcastLane p d a k) s = execVBcastLane p d a k s := rfl
@[simp] theorem exec_vBcastImm (p : Pred) (d : VReg) (imm : BitVec 32) (s : State) : exec (.vBcastImm p d imm) s = execVBcastImm p d imm s := rfl
@[simp] theorem exec_vBcastQ (p : Pred) (d : VReg) (a : QReg) (s : State) : exec (.vBcastQ p d a) s = execVBcastQ p d a s := rfl
@[simp] theorem exec_vSlide (p : Pred) (d a b : VReg) (k : BitVec 5) (s : State) : exec (.vSlide p d a b k) s = execVSlide p d a b k s := rfl
@[simp] theorem exec_vMov (p : Pred) (d a : VReg) (s : State) : exec (.vMov p d a) s = execVMov p d a s := rfl
@[simp] theorem exec_vSel (p : Pred) (d a b : VReg) (c : PReg) (s : State) : exec (.vSel p d a b c) s = execVSel p d a b c s := rfl
@[simp] theorem exec_vMovToLane (p : Pred) (d : VReg) (a : SReg) (k : BitVec 5) (s : State) : exec (.vMovToLane p d a k) s = execVMovToLane p d a k s := rfl
@[simp] theorem exec_vMovFromLane (p : Pred) (d : SReg) (a : VReg) (k : BitVec 5) (s : State) : exec (.vMovFromLane p d a k) s = execVMovFromLane p d a k s := rfl
@[simp] theorem exec_vRedAdd (p : Pred) (m : VMode) (d a : VReg) (s : State) : exec (.vRedAdd p m d a) s = execVRedAdd p m d a s := rfl
@[simp] theorem exec_vRedMin (p : Pred) (m : VMode) (d a : VReg) (s : State) : exec (.vRedMin p m d a) s = execVRedMin p m d a s := rfl
@[simp] theorem exec_vRedMax (p : Pred) (m : VMode) (d a : VReg) (s : State) : exec (.vRedMax p m d a) s = execVRedMax p m d a s := rfl
@[simp] theorem exec_vRedAnd (p : Pred) (d a : VReg) (s : State) : exec (.vRedAnd p d a) s = execVRedAnd p d a s := rfl
@[simp] theorem exec_vRedOr (p : Pred) (d a : VReg) (s : State) : exec (.vRedOr p d a) s = execVRedOr p d a s := rfl
@[simp] theorem exec_vRedXor (p : Pred) (d a : VReg) (s : State) : exec (.vRedXor p d a) s = execVRedXor p d a s := rfl
@[simp] theorem exec_vRedFadd (p : Pred) (rm : RM) (d a : VReg) (s : State) : exec (.vRedFadd p rm d a) s = execVRedFadd p rm d a s := rfl
@[simp] theorem exec_vRedFmin (p : Pred) (d a : VReg) (s : State) : exec (.vRedFmin p d a) s = execVRedFmin p d a s := rfl
@[simp] theorem exec_vRedFmax (p : Pred) (d a : VReg) (s : State) : exec (.vRedFmax p d a) s = execVRedFmax p d a s := rfl
@[simp] theorem exec_vScanAdd (p : Pred) (m : VMode) (d a : VReg) (s : State) : exec (.vScanAdd p m d a) s = execVScanAdd p m d a s := rfl
@[simp] theorem exec_vScanMin (p : Pred) (m : VMode) (d a : VReg) (s : State) : exec (.vScanMin p m d a) s = execVScanMin p m d a s := rfl
@[simp] theorem exec_vScanMax (p : Pred) (m : VMode) (d a : VReg) (s : State) : exec (.vScanMax p m d a) s = execVScanMax p m d a s := rfl
@[simp] theorem exec_vScanXadd (p : Pred) (m : VMode) (d a : VReg) (s : State) : exec (.vScanXadd p m d a) s = execVScanXadd p m d a s := rfl
@[simp] theorem exec_vScanFadd (p : Pred) (rm : RM) (d a : VReg) (s : State) : exec (.vScanFadd p rm d a) s = execVScanFadd p rm d a s := rfl
@[simp] theorem exec_vScanFmin (p : Pred) (d a : VReg) (s : State) : exec (.vScanFmin p d a) s = execVScanFmin p d a s := rfl
@[simp] theorem exec_vScanFmax (p : Pred) (d a : VReg) (s : State) : exec (.vScanFmax p d a) s = execVScanFmax p d a s := rfl
@[simp] theorem exec_vCvtN (p : Pred) (rm : RM) (ty : CvtType) (d a : VReg) (fmt k : BitVec 5) (s : State) : exec (.vCvtN p rm ty d a fmt k) s = execVCvtN p rm ty d a fmt k s := rfl
@[simp] theorem exec_vCvtW (p : Pred) (rm : RM) (ty : CvtType) (d a : VReg) (fmt k : BitVec 5) (s : State) : exec (.vCvtW p rm ty d a fmt k) s = execVCvtW p rm ty d a fmt k s := rfl
@[simp] theorem exec_vLd (p : Pred) (px : Option Prefix) (d : VReg) (a : SReg) (disp : BitVec 16) (s : State) : exec (.vLd p px d a disp) s = execVLd p px d a disp s := rfl
@[simp] theorem exec_vLdLong (p : Pred) (px : Option Prefix) (d : VReg) (a : SReg) (disp : BitVec 32) (s : State) : exec (.vLdLong p px d a disp) s = execVLdLong p px d a disp s := rfl
@[simp] theorem exec_vLdS (p : Pred) (px : Option Prefix) (d : VReg) (a b : SReg) (disp : BitVec 16) (s : State) : exec (.vLdS p px d a b disp) s = execVLdS p px d a b disp s := rfl
@[simp] theorem exec_vLdSLong (p : Pred) (px : Option Prefix) (d : VReg) (a b : SReg) (disp : BitVec 32) (s : State) : exec (.vLdSLong p px d a b disp) s = execVLdSLong p px d a b disp s := rfl
@[simp] theorem exec_vSt (p : Pred) (px : Option Prefix) (c : VReg) (a : SReg) (disp : BitVec 16) (s : State) : exec (.vSt p px c a disp) s = execVSt p px c a disp s := rfl
@[simp] theorem exec_vStLong (p : Pred) (px : Option Prefix) (c : VReg) (a : SReg) (disp : BitVec 32) (s : State) : exec (.vStLong p px c a disp) s = execVStLong p px c a disp s := rfl
@[simp] theorem exec_vStS (p : Pred) (px : Option Prefix) (c : VReg) (a b : SReg) (disp : BitVec 16) (s : State) : exec (.vStS p px c a b disp) s = execVStS p px c a b disp s := rfl
@[simp] theorem exec_vStSLong (p : Pred) (px : Option Prefix) (c : VReg) (a b : SReg) (disp : BitVec 32) (s : State) : exec (.vStSLong p px c a b disp) s = execVStSLong p px c a b disp s := rfl
@[simp] theorem exec_vLdQ (p : Pred) (px : Option Prefix) (d : VReg) (a : QReg) (disp : BitVec 16) (s : State) : exec (.vLdQ p px d a disp) s = execVLdQ p px d a disp s := rfl
@[simp] theorem exec_vLdQLong (p : Pred) (px : Option Prefix) (d : VReg) (a : QReg) (disp : BitVec 32) (s : State) : exec (.vLdQLong p px d a disp) s = execVLdQLong p px d a disp s := rfl
@[simp] theorem exec_vLdQS (p : Pred) (px : Option Prefix) (d : VReg) (a : QReg) (b : SReg) (disp : BitVec 16) (s : State) : exec (.vLdQS p px d a b disp) s = execVLdQS p px d a b disp s := rfl
@[simp] theorem exec_vLdQSLong (p : Pred) (px : Option Prefix) (d : VReg) (a : QReg) (b : SReg) (disp : BitVec 32) (s : State) : exec (.vLdQSLong p px d a b disp) s = execVLdQSLong p px d a b disp s := rfl
@[simp] theorem exec_vStQ (p : Pred) (px : Option Prefix) (c : VReg) (a : QReg) (disp : BitVec 16) (s : State) : exec (.vStQ p px c a disp) s = execVStQ p px c a disp s := rfl
@[simp] theorem exec_vStQLong (p : Pred) (px : Option Prefix) (c : VReg) (a : QReg) (disp : BitVec 32) (s : State) : exec (.vStQLong p px c a disp) s = execVStQLong p px c a disp s := rfl
@[simp] theorem exec_vStQS (p : Pred) (px : Option Prefix) (c : VReg) (a : QReg) (b : SReg) (disp : BitVec 16) (s : State) : exec (.vStQS p px c a b disp) s = execVStQS p px c a b disp s := rfl
@[simp] theorem exec_vStQSLong (p : Pred) (px : Option Prefix) (c : VReg) (a : QReg) (b : SReg) (disp : BitVec 32) (s : State) : exec (.vStQSLong p px c a b disp) s = execVStQSLong p px c a b disp s := rfl
@[simp] theorem exec_vGath (p : Pred) (px : Option Prefix) (d : VReg) (a : SReg) (b : VReg) (sh : BitVec 2) (disp : BitVec 16) (s : State) : exec (.vGath p px d a b sh disp) s = execVGath p px d a b sh disp s := rfl
@[simp] theorem exec_vScat (p : Pred) (px : Option Prefix) (c : VReg) (a : SReg) (b : VReg) (sh : BitVec 2) (disp : BitVec 16) (s : State) : exec (.vScat p px c a b sh disp) s = execVScat p px c a b sh disp s := rfl
@[simp] theorem exec_vTdec (p : Pred) (px : Option Prefix) (rm : RM) (int : Bool) (d : VReg) (t : TidN) (a : SReg) (s : State) : exec (.vTdec p px rm int d t a) s = execVTdec p px rm int d t a s := rfl
@[simp] theorem exec_vTdecLong (p : Pred) (px : Option Prefix) (rm : RM) (int : Bool) (d : VReg) (t : TidN) (a : SReg) (axis : BitVec 2) (stp : BitVec 16) (s : State) : exec (.vTdecLong p px rm int d t a axis stp) s = execVTdecLong p px rm int d t a axis stp s := rfl
@[simp] theorem exec_vTdecQ (p : Pred) (px : Option Prefix) (rm : RM) (int : Bool) (d : VReg) (t : TidN) (a : QReg) (s : State) : exec (.vTdecQ p px rm int d t a) s = execVTdecQ p px rm int d t a s := rfl
@[simp] theorem exec_vTdecQLong (p : Pred) (px : Option Prefix) (rm : RM) (int : Bool) (d : VReg) (t : TidN) (a : QReg) (axis : BitVec 2) (stp : BitVec 16) (s : State) : exec (.vTdecQLong p px rm int d t a axis stp) s = execVTdecQLong p px rm int d t a axis stp s := rfl
@[simp] theorem exec_vTenc (p : Pred) (px : Option Prefix) (rm : RM) (int : Bool) (c : VReg) (t : TidN) (a : SReg) (s : State) : exec (.vTenc p px rm int c t a) s = execVTenc p px rm int c t a s := rfl
@[simp] theorem exec_vTencLong (p : Pred) (px : Option Prefix) (rm : RM) (int : Bool) (c : VReg) (t : TidN) (a : SReg) (axis : BitVec 2) (stp : BitVec 16) (s : State) : exec (.vTencLong p px rm int c t a axis stp) s = execVTencLong p px rm int c t a axis stp s := rfl
@[simp] theorem exec_vTencQ (p : Pred) (px : Option Prefix) (rm : RM) (int : Bool) (c : VReg) (t : TidN) (a : QReg) (s : State) : exec (.vTencQ p px rm int c t a) s = execVTencQ p px rm int c t a s := rfl
@[simp] theorem exec_vTencQLong (p : Pred) (px : Option Prefix) (rm : RM) (int : Bool) (c : VReg) (t : TidN) (a : QReg) (axis : BitVec 2) (stp : BitVec 16) (s : State) : exec (.vTencQLong p px rm int c t a axis stp) s = execVTencQLong p px rm int c t a axis stp s := rfl
@[simp] theorem exec_mxMma (p : Pred) (i32 accz : Bool) (d : AReg) (ta tb : TidN) (c : SReg) (nslm1 : BitVec 10) (h : Option HReg) (s : State) : exec (.mxMma p i32 accz d ta tb c nslm1 h) s = execMxMma p i32 accz d ta tb c nslm1 h s := rfl
@[simp] theorem exec_mxMmaLong (p : Pred) (i32 accz : Bool) (d : AReg) (ta tb : TidN) (c : SReg) (nslm1 : BitVec 10) (h : Option HReg) (fa fb : BitVec 16) (s : State) : exec (.mxMmaLong p i32 accz d ta tb c nslm1 h fa fb) s = execMxMmaLong p i32 accz d ta tb c nslm1 h fa fb s := rfl
@[simp] theorem exec_mxMmaQ (p : Pred) (i32 accz : Bool) (d : AReg) (ta tb : TidN) (c : QReg) (nslm1 : BitVec 10) (h : Option HReg) (s : State) : exec (.mxMmaQ p i32 accz d ta tb c nslm1 h) s = execMxMmaQ p i32 accz d ta tb c nslm1 h s := rfl
@[simp] theorem exec_mxMmaQLong (p : Pred) (i32 accz : Bool) (d : AReg) (ta tb : TidN) (c : QReg) (nslm1 : BitVec 10) (h : Option HReg) (fa fb : BitVec 16) (s : State) : exec (.mxMmaQLong p i32 accz d ta tb c nslm1 h fa fb) s = execMxMmaQLong p i32 accz d ta tb c nslm1 h fa fb s := rfl
@[simp] theorem exec_mxPlane (p : Pred) (rm : RM) (ta tb : TidN) (c : SReg) (nb0m1 nb1m1 : BitVec 5) (h : Option HReg) (s : State) : exec (.mxPlane p rm ta tb c nb0m1 nb1m1 h) s = execMxPlane p rm ta tb c nb0m1 nb1m1 h s := rfl
@[simp] theorem exec_mxPlaneLong (p : Pred) (rm : RM) (ta tb : TidN) (c : SReg) (nb0m1 nb1m1 : BitVec 5) (h : Option HReg) (o0 o1 : BitVec 16) (s : State) : exec (.mxPlaneLong p rm ta tb c nb0m1 nb1m1 h o0 o1) s = execMxPlaneLong p rm ta tb c nb0m1 nb1m1 h o0 o1 s := rfl
@[simp] theorem exec_mxPlaneQ (p : Pred) (rm : RM) (ta tb : TidN) (c : QReg) (nb0m1 nb1m1 : BitVec 5) (h : Option HReg) (s : State) : exec (.mxPlaneQ p rm ta tb c nb0m1 nb1m1 h) s = execMxPlaneQ p rm ta tb c nb0m1 nb1m1 h s := rfl
@[simp] theorem exec_mxPlaneQLong (p : Pred) (rm : RM) (ta tb : TidN) (c : QReg) (nb0m1 nb1m1 : BitVec 5) (h : Option HReg) (o0 o1 : BitVec 16) (s : State) : exec (.mxPlaneQLong p rm ta tb c nb0m1 nb1m1 h o0 o1) s = execMxPlaneQLong p rm ta tb c nb0m1 nb1m1 h o0 o1 s := rfl
@[simp] theorem exec_mxUnplane (p : Pred) (rm : RM) (ta tb : TidN) (c : SReg) (nb0m1 nb1m1 : BitVec 5) (h : Option HReg) (s : State) : exec (.mxUnplane p rm ta tb c nb0m1 nb1m1 h) s = execMxUnplane p rm ta tb c nb0m1 nb1m1 h s := rfl
@[simp] theorem exec_mxUnplaneLong (p : Pred) (rm : RM) (ta tb : TidN) (c : SReg) (nb0m1 nb1m1 : BitVec 5) (h : Option HReg) (o0 o1 : BitVec 16) (s : State) : exec (.mxUnplaneLong p rm ta tb c nb0m1 nb1m1 h o0 o1) s = execMxUnplaneLong p rm ta tb c nb0m1 nb1m1 h o0 o1 s := rfl
@[simp] theorem exec_mxUnplaneQ (p : Pred) (rm : RM) (ta tb : TidN) (c : QReg) (nb0m1 nb1m1 : BitVec 5) (h : Option HReg) (s : State) : exec (.mxUnplaneQ p rm ta tb c nb0m1 nb1m1 h) s = execMxUnplaneQ p rm ta tb c nb0m1 nb1m1 h s := rfl
@[simp] theorem exec_mxUnplaneQLong (p : Pred) (rm : RM) (ta tb : TidN) (c : QReg) (nb0m1 nb1m1 : BitVec 5) (h : Option HReg) (o0 o1 : BitVec 16) (s : State) : exec (.mxUnplaneQLong p rm ta tb c nb0m1 nb1m1 h o0 o1) s = execMxUnplaneQLong p rm ta tb c nb0m1 nb1m1 h o0 o1 s := rfl
@[simp] theorem exec_mxSt (p : Pred) (rm : RM) (i32 : Bool) (a : AReg) (tb : TidN) (c : SReg) (h : Option HReg) (s : State) : exec (.mxSt p rm i32 a tb c h) s = execMxSt p rm i32 a tb c h s := rfl
@[simp] theorem exec_mxStLong (p : Pred) (rm : RM) (i32 : Bool) (a : AReg) (tb : TidN) (c : SReg) (h : Option HReg) (f2 f3 : BitVec 16) (s : State) : exec (.mxStLong p rm i32 a tb c h f2 f3) s = execMxStLong p rm i32 a tb c h f2 f3 s := rfl
@[simp] theorem exec_mxStQ (p : Pred) (rm : RM) (i32 : Bool) (a : AReg) (tb : TidN) (c : QReg) (h : Option HReg) (s : State) : exec (.mxStQ p rm i32 a tb c h) s = execMxStQ p rm i32 a tb c h s := rfl
@[simp] theorem exec_mxStQLong (p : Pred) (rm : RM) (i32 : Bool) (a : AReg) (tb : TidN) (c : QReg) (h : Option HReg) (f2 f3 : BitVec 16) (s : State) : exec (.mxStQLong p rm i32 a tb c h f2 f3) s = execMxStQLong p rm i32 a tb c h f2 f3 s := rfl
@[simp] theorem exec_mxLd (p : Pred) (d : AReg) (a : SReg) (rows : BitVec 16) (h : Option HReg) (s : State) : exec (.mxLd p d a rows h) s = execMxLd p d a rows h s := rfl
@[simp] theorem exec_mxZero (p : Pred) (d : AReg) (rows : BitVec 16) (s : State) : exec (.mxZero p d rows) s = execMxZero p d rows s := rfl
@[simp] theorem exec_mxMask (p : Pred) (a : SReg) (s : State) : exec (.mxMask p a) s = execMxMask p a s := rfl
@[simp] theorem exec_mxMaskImm (p : Pred) (row col dep : BitVec 16) (s : State) : exec (.mxMaskImm p row col dep) s = execMxMaskImm p row col dep s := rfl
@[simp] theorem exec_mxMovToVector (p : Pred) (d : VReg) (a : AReg) (m : BitVec 3) (s : State) : exec (.mxMovToVector p d a m) s = execMxMovToVector p d a m s := rfl
@[simp] theorem exec_mxMovToAcc (p : Pred) (d : AReg) (a : VReg) (m : BitVec 3) (s : State) : exec (.mxMovToAcc p d a m) s = execMxMovToAcc p d a m s := rfl
@[simp] theorem exec_mxScr (p : Pred) (d : SReg) (s : State) : exec (.mxScr p d) s = execMxScr p d s := rfl
@[simp] theorem exec_mxScrInj (p : Pred) (a : SReg) (s : State) : exec (.mxScrInj p a) s = execMxScrInj p a s := rfl
@[simp] theorem exec_mxCommandStart (vt slot : Nat) (s : State) : exec (.mxCommandStart vt slot) s = execMxCommandStart vt slot s := rfl
@[simp] theorem exec_mxCommandComplete (vt slot : Nat) (s : State) : exec (.mxCommandComplete vt slot) s = execMxCommandComplete vt slot s := rfl
@[simp] theorem exec_ldB (p : Pred) (px : Option Prefix) (d a : SReg) (disp : BitVec 16) (s : State) : exec (.ldB p px d a disp) s = execLdB p px d a disp s := rfl
@[simp] theorem exec_ldH (p : Pred) (px : Option Prefix) (d a : SReg) (disp : BitVec 16) (s : State) : exec (.ldH p px d a disp) s = execLdH p px d a disp s := rfl
@[simp] theorem exec_ldW (p : Pred) (px : Option Prefix) (d a : SReg) (disp : BitVec 16) (s : State) : exec (.ldW p px d a disp) s = execLdW p px d a disp s := rfl
@[simp] theorem exec_ldD (p : Pred) (px : Option Prefix) (d a : SReg) (disp : BitVec 16) (s : State) : exec (.ldD p px d a disp) s = execLdD p px d a disp s := rfl
@[simp] theorem exec_ldBs (p : Pred) (px : Option Prefix) (d a : SReg) (disp : BitVec 16) (s : State) : exec (.ldBs p px d a disp) s = execLdBs p px d a disp s := rfl
@[simp] theorem exec_ldHs (p : Pred) (px : Option Prefix) (d a : SReg) (disp : BitVec 16) (s : State) : exec (.ldHs p px d a disp) s = execLdHs p px d a disp s := rfl
@[simp] theorem exec_ldWs (p : Pred) (px : Option Prefix) (d a : SReg) (disp : BitVec 16) (s : State) : exec (.ldWs p px d a disp) s = execLdWs p px d a disp s := rfl
@[simp] theorem exec_stB (p : Pred) (px : Option Prefix) (a b : SReg) (disp : BitVec 16) (s : State) : exec (.stB p px a b disp) s = execStB p px a b disp s := rfl
@[simp] theorem exec_stH (p : Pred) (px : Option Prefix) (a b : SReg) (disp : BitVec 16) (s : State) : exec (.stH p px a b disp) s = execStH p px a b disp s := rfl
@[simp] theorem exec_stW (p : Pred) (px : Option Prefix) (a b : SReg) (disp : BitVec 16) (s : State) : exec (.stW p px a b disp) s = execStW p px a b disp s := rfl
@[simp] theorem exec_stD (p : Pred) (px : Option Prefix) (a b : SReg) (disp : BitVec 16) (s : State) : exec (.stD p px a b disp) s = execStD p px a b disp s := rfl
@[simp] theorem exec_gldB (p : Pred) (at' : Attr) (d a : SReg) (disp : BitVec 24) (s : State) : exec (.gldB p at' d a disp) s = execGldB p at' d a disp s := rfl
@[simp] theorem exec_gldH (p : Pred) (at' : Attr) (d a : SReg) (disp : BitVec 24) (s : State) : exec (.gldH p at' d a disp) s = execGldH p at' d a disp s := rfl
@[simp] theorem exec_gldW (p : Pred) (at' : Attr) (d a : SReg) (disp : BitVec 24) (s : State) : exec (.gldW p at' d a disp) s = execGldW p at' d a disp s := rfl
@[simp] theorem exec_gldD (p : Pred) (at' : Attr) (d a : SReg) (disp : BitVec 24) (s : State) : exec (.gldD p at' d a disp) s = execGldD p at' d a disp s := rfl
@[simp] theorem exec_gldBs (p : Pred) (at' : Attr) (d a : SReg) (disp : BitVec 24) (s : State) : exec (.gldBs p at' d a disp) s = execGldBs p at' d a disp s := rfl
@[simp] theorem exec_gldHs (p : Pred) (at' : Attr) (d a : SReg) (disp : BitVec 24) (s : State) : exec (.gldHs p at' d a disp) s = execGldHs p at' d a disp s := rfl
@[simp] theorem exec_gldWs (p : Pred) (at' : Attr) (d a : SReg) (disp : BitVec 24) (s : State) : exec (.gldWs p at' d a disp) s = execGldWs p at' d a disp s := rfl
@[simp] theorem exec_gstB (p : Pred) (at' : Attr) (a b : SReg) (disp : BitVec 24) (s : State) : exec (.gstB p at' a b disp) s = execGstB p at' a b disp s := rfl
@[simp] theorem exec_gstH (p : Pred) (at' : Attr) (a b : SReg) (disp : BitVec 24) (s : State) : exec (.gstH p at' a b disp) s = execGstH p at' a b disp s := rfl
@[simp] theorem exec_gstW (p : Pred) (at' : Attr) (a b : SReg) (disp : BitVec 24) (s : State) : exec (.gstW p at' a b disp) s = execGstW p at' a b disp s := rfl
@[simp] theorem exec_gstD (p : Pred) (at' : Attr) (a b : SReg) (disp : BitVec 24) (s : State) : exec (.gstD p at' a b disp) s = execGstD p at' a b disp s := rfl
@[simp] theorem exec_staMap (p : Pred) (px : Option Prefix) (keep : Bool) (a b : SReg) (e : BitVec 8) (z : BitVec 3) (s : State) : exec (.staMap p px keep a b e z) s = execStaMap p px keep a b e z s := rfl
@[simp] theorem exec_staMapLong (p : Pred) (px : Option Prefix) (keep : Bool) (a b : SReg) (e : BitVec 8) (z : BitVec 3) (disp : BitVec 32) (s : State) : exec (.staMapLong p px keep a b e z disp) s = execStaMapLong p px keep a b e z disp s := rfl
@[simp] theorem exec_staFill (p : Pred) (px : Option Prefix) (e : BitVec 8) (h : Option HReg) (s : State) : exec (.staFill p px e h) s = execStaFill p px e h s := rfl
@[simp] theorem exec_staDrop (p : Pred) (px : Option Prefix) (discard : Bool) (e : BitVec 8) (s : State) : exec (.staDrop p px discard e) s = execStaDrop p px discard e s := rfl
@[simp] theorem exec_staWb (p : Pred) (px : Option Prefix) (e : BitVec 8) (h : Option HReg) (s : State) : exec (.staWb p px e h) s = execStaWb p px e h s := rfl
@[simp] theorem exec_staTest (p : Pred) (px : Option Prefix) (d : SReg) (e : BitVec 8) (s : State) : exec (.staTest p px d e) s = execStaTest p px d e s := rfl
@[simp] theorem exec_stashFillComplete (vt slot e : Nat) (s : State) : exec (.stashFillComplete vt slot e) s = execStashFillComplete vt slot e s := rfl
@[simp] theorem exec_stashWritebackComplete (vt slot e : Nat) (s : State) : exec (.stashWritebackComplete vt slot e) s = execStashWritebackComplete vt slot e s := rfl
@[simp] theorem exec_stFarB (p : Pred) (at' : Attr) (a b c : SReg) (s : State) : exec (.stFarB p at' a b c) s = execStFarB p at' a b c s := rfl
@[simp] theorem exec_stFarH (p : Pred) (at' : Attr) (a b c : SReg) (s : State) : exec (.stFarH p at' a b c) s = execStFarH p at' a b c s := rfl
@[simp] theorem exec_stFarW (p : Pred) (at' : Attr) (a b c : SReg) (s : State) : exec (.stFarW p at' a b c) s = execStFarW p at' a b c s := rfl
@[simp] theorem exec_stFarD (p : Pred) (at' : Attr) (a b c : SReg) (s : State) : exec (.stFarD p at' a b c) s = execStFarD p at' a b c s := rfl
@[simp] theorem exec_cpGet (p : Pred) (at' : Attr) (a b : SReg) (len : BitVec 24) (h : Option HReg) (s : State) : exec (.cpGet p at' a b len h) s = execCpGet p at' a b len h s := rfl
@[simp] theorem exec_cpGetMc (p : Pred) (at' : Attr) (a b : SReg) (len : BitVec 24) (cmask : BitVec 16) (h : Option HReg) (s : State) : exec (.cpGetMc p at' a b len cmask h) s = execCpGetMc p at' a b len cmask h s := rfl
@[simp] theorem exec_cpPut (p : Pred) (at' : Attr) (a b : SReg) (len : BitVec 24) (h : Option HReg) (s : State) : exec (.cpPut p at' a b len h) s = execCpPut p at' a b len h s := rfl
@[simp] theorem exec_cpDeferGet (p : Pred) (at' : Attr) (a b : SReg) (len : BitVec 24) (h : Option HReg) (s : State) : exec (.cpDeferGet p at' a b len h) s = execCpDeferGet p at' a b len h s := rfl
@[simp] theorem exec_cpDeferPut (p : Pred) (at' : Attr) (a b : SReg) (len : BitVec 24) (h : Option HReg) (s : State) : exec (.cpDeferPut p at' a b len h) s = execCpDeferPut p at' a b len h s := rfl
@[simp] theorem exec_cpCvt (p : Pred) (at' : Attr) (rm : RM) (ta tb : TidN) (c : SReg) (n0 n1 : BitVec 16) (h : Option HReg) (s : State) : exec (.cpCvt p at' rm ta tb c n0 n1 h) s = execCpCvt p at' rm ta tb c n0 n1 h s := rfl
@[simp] theorem exec_copyComplete (vt id : Nat) (s : State) : exec (.copyComplete vt id) s = execCopyComplete vt id s := rfl
@[simp] theorem exec_futWait (p : Pred) (d : SReg) (a : HReg) (s : State) : exec (.futWait p d a) s = execFutWait p d a s := rfl
@[simp] theorem exec_futTest (p : Pred) (d : SReg) (a : HReg) (s : State) : exec (.futTest p d a) s = execFutTest p d a s := rfl
@[simp] theorem exec_futPass (p : Pred) (d a : HReg) (t : BitVec 2) (s : State) : exec (.futPass p d a t) s = execFutPass p d a t s := rfl
@[simp] theorem exec_futCancel (p : Pred) (a : HReg) (s : State) : exec (.futCancel p a) s = execFutCancel p a s := rfl
@[simp] theorem exec_asyncFaultFreeze (vt slot : Nat) (s : State) : exec (.asyncFaultFreeze vt slot) s = execAsyncFaultFreeze vt slot s := rfl
@[simp] theorem exec_wdAsk (p : Pred) (d : HReg) (a : SReg) (km1 : BitVec 12) (s : State) : exec (.wdAsk p d a km1) s = execWdAsk p d a km1 s := rfl
@[simp] theorem exec_wdAskLong (p : Pred) (d : HReg) (a : SReg) (km1 : BitVec 12) (disp : BitVec 32) (s : State) : exec (.wdAskLong p d a km1 disp) s = execWdAskLong p d a km1 disp s := rfl
@[simp] theorem exec_wdAskComplete (id : Nat) (s : State) : exec (.wdAskComplete id) s = execWdAskComplete id s := rfl
@[simp] theorem exec_tgLd (p : Pred) (px : Option Prefix) (take : Bool) (d a : SReg) (disp : BitVec 16) (s : State) : exec (.tgLd p px take d a disp) s = execTgLd p px take d a disp s := rfl
@[simp] theorem exec_tgSt (p : Pred) (px : Option Prefix) (a b : SReg) (disp : BitVec 16) (s : State) : exec (.tgSt p px a b disp) s = execTgSt p px a b disp s := rfl
@[simp] theorem exec_tgSet (p : Pred) (px : Option Prefix) (d a : SReg) (disp : BitVec 16) (s : State) : exec (.tgSet p px d a disp) s = execTgSet p px d a disp s := rfl
@[simp] theorem exec_tgClr (p : Pred) (px : Option Prefix) (d a : SReg) (disp : BitVec 16) (s : State) : exec (.tgClr p px d a disp) s = execTgClr p px d a disp s := rfl
@[simp] theorem exec_tagWaitRetest (vt slot : Nat) (s : State) : exec (.tagWaitRetest vt slot) s = execTagWaitRetest vt slot s := rfl
@[simp] theorem exec_barArr (p : Pred) (d : SReg) (s : State) : exec (.barArr p d) s = execBarArr p d s := rfl
@[simp] theorem exec_barWait (p : Pred) (s : State) : exec (.barWait p) s = execBarWait p s := rfl
@[simp] theorem exec_barWaitGen (p : Pred) (a : SReg) (s : State) : exec (.barWaitGen p a) s = execBarWaitGen p a s := rfl
@[simp] theorem exec_barTest (p : Pred) (d a : SReg) (s : State) : exec (.barTest p d a) s = execBarTest p d a s := rfl
@[simp] theorem exec_barrierPhaseComplete (vt bar : Nat) (s : State) : exec (.barrierPhaseComplete vt bar) s = execBarrierPhaseComplete vt bar s := rfl
@[simp] theorem exec_step (lvl : StepLevel) (s : State) : exec (.step lvl) s = execStep lvl s := rfl
@[simp] theorem exec_dataMovementPhase (lvl : StepLevel) (gang vt : Nat) (s : State) : exec (.dataMovementPhase lvl gang vt) s = execDataMovementPhase lvl gang vt s := rfl
@[simp] theorem exec_checkpointCommit (vt : Nat) (s : State) : exec (.checkpointCommit vt) s = execCheckpointCommit vt s := rfl
@[simp] theorem exec_phaseRelease (lvl : StepLevel) (gang vt : Nat) (s : State) : exec (.phaseRelease lvl gang vt) s = execPhaseRelease lvl gang vt s := rfl
@[simp] theorem exec_fence (p : Pred) (at' : Attr) (s : State) : exec (.fence p at') s = execFence p at' s := rfl
@[simp] theorem exec_atSwap (p : Pred) (at' : Attr) (dw : Bool) (d a b : SReg) (disp : BitVec 24) (s : State) : exec (.atSwap p at' dw d a b disp) s = execAtSwap p at' dw d a b disp s := rfl
@[simp] theorem exec_atCas (p : Pred) (at' : Attr) (dw : Bool) (d a b c : SReg) (disp : BitVec 24) (s : State) : exec (.atCas p at' dw d a b c disp) s = execAtCas p at' dw d a b c disp s := rfl
@[simp] theorem exec_atAdd (p : Pred) (at' : Attr) (dw : Bool) (d a b : SReg) (disp : BitVec 24) (s : State) : exec (.atAdd p at' dw d a b disp) s = execAtAdd p at' dw d a b disp s := rfl
@[simp] theorem exec_atAnd (p : Pred) (at' : Attr) (dw : Bool) (d a b : SReg) (disp : BitVec 24) (s : State) : exec (.atAnd p at' dw d a b disp) s = execAtAnd p at' dw d a b disp s := rfl
@[simp] theorem exec_atOr (p : Pred) (at' : Attr) (dw : Bool) (d a b : SReg) (disp : BitVec 24) (s : State) : exec (.atOr p at' dw d a b disp) s = execAtOr p at' dw d a b disp s := rfl
@[simp] theorem exec_atXor (p : Pred) (at' : Attr) (dw : Bool) (d a b : SReg) (disp : BitVec 24) (s : State) : exec (.atXor p at' dw d a b disp) s = execAtXor p at' dw d a b disp s := rfl
@[simp] theorem exec_atMin (p : Pred) (at' : Attr) (dw : Bool) (d a b : SReg) (disp : BitVec 24) (s : State) : exec (.atMin p at' dw d a b disp) s = execAtMin p at' dw d a b disp s := rfl
@[simp] theorem exec_atMax (p : Pred) (at' : Attr) (dw : Bool) (d a b : SReg) (disp : BitVec 24) (s : State) : exec (.atMax p at' dw d a b disp) s = execAtMax p at' dw d a b disp s := rfl
@[simp] theorem exec_atMinu (p : Pred) (at' : Attr) (dw : Bool) (d a b : SReg) (disp : BitVec 24) (s : State) : exec (.atMinu p at' dw d a b disp) s = execAtMinu p at' dw d a b disp s := rfl
@[simp] theorem exec_atMaxu (p : Pred) (at' : Attr) (dw : Bool) (d a b : SReg) (disp : BitVec 24) (s : State) : exec (.atMaxu p at' dw d a b disp) s = execAtMaxu p at' dw d a b disp s := rfl
@[simp] theorem exec_atFadd (p : Pred) (at' : Attr) (d a b : SReg) (disp : BitVec 24) (s : State) : exec (.atFadd p at' d a b disp) s = execAtFadd p at' d a b disp s := rfl
@[simp] theorem exec_redAdd (p : Pred) (at' : Attr) (dw : Bool) (a b : SReg) (disp : BitVec 24) (s : State) : exec (.redAdd p at' dw a b disp) s = execRedAdd p at' dw a b disp s := rfl
@[simp] theorem exec_redAnd (p : Pred) (at' : Attr) (dw : Bool) (a b : SReg) (disp : BitVec 24) (s : State) : exec (.redAnd p at' dw a b disp) s = execRedAnd p at' dw a b disp s := rfl
@[simp] theorem exec_redOr (p : Pred) (at' : Attr) (dw : Bool) (a b : SReg) (disp : BitVec 24) (s : State) : exec (.redOr p at' dw a b disp) s = execRedOr p at' dw a b disp s := rfl
@[simp] theorem exec_redXor (p : Pred) (at' : Attr) (dw : Bool) (a b : SReg) (disp : BitVec 24) (s : State) : exec (.redXor p at' dw a b disp) s = execRedXor p at' dw a b disp s := rfl
@[simp] theorem exec_redMin (p : Pred) (at' : Attr) (dw : Bool) (a b : SReg) (disp : BitVec 24) (s : State) : exec (.redMin p at' dw a b disp) s = execRedMin p at' dw a b disp s := rfl
@[simp] theorem exec_redMax (p : Pred) (at' : Attr) (dw : Bool) (a b : SReg) (disp : BitVec 24) (s : State) : exec (.redMax p at' dw a b disp) s = execRedMax p at' dw a b disp s := rfl
@[simp] theorem exec_redMinu (p : Pred) (at' : Attr) (dw : Bool) (a b : SReg) (disp : BitVec 24) (s : State) : exec (.redMinu p at' dw a b disp) s = execRedMinu p at' dw a b disp s := rfl
@[simp] theorem exec_redMaxu (p : Pred) (at' : Attr) (dw : Bool) (a b : SReg) (disp : BitVec 24) (s : State) : exec (.redMaxu p at' dw a b disp) s = execRedMaxu p at' dw a b disp s := rfl
@[simp] theorem exec_redFadd (p : Pred) (at' : Attr) (a b : SReg) (disp : BitVec 24) (s : State) : exec (.redFadd p at' a b disp) s = execRedFadd p at' a b disp s := rfl
@[simp] theorem exec_reductionPerform (id : Nat) (s : State) : exec (.reductionPerform id) s = execReductionPerform id s := rfl
@[simp] theorem exec_wqWait (p : Pred) (at' : Attr) (d a b : SReg) (disp : BitVec 24) (s : State) : exec (.wqWait p at' d a b disp) s = execWqWait p at' d a b disp s := rfl
@[simp] theorem exec_wqWake (p : Pred) (at' : Attr) (d a b : SReg) (c : Option SReg) (disp : BitVec 24) (s : State) : exec (.wqWake p at' d a b c disp) s = execWqWake p at' d a b c disp s := rfl
@[simp] theorem exec_sigSend (p : Pred) (a b : SReg) (s : State) : exec (.sigSend p a b) s = execSigSend p a b s := rfl
@[simp] theorem exec_sigTake (p : Pred) (poll : Bool) (d : SReg) (s : State) : exec (.sigTake p poll d) s = execSigTake p poll d s := rfl
@[simp] theorem exec_signalDelivery (vt slot : Nat) (s : State) : exec (.signalDelivery vt slot) s = execSignalDelivery vt slot s := rfl
@[simp] theorem exec_allAsleepTrap (part : Nat) (s : State) : exec (.allAsleepTrap part) s = execAllAsleepTrap part s := rfl
@[simp] theorem exec_permitAudit (link found : Nat) (tileA tileB : Nat) (parts : List Nat) (s : State) : exec (.permitAudit link found tileA tileB parts) s = execPermitAudit link found tileA tileB parts s := rfl
@[simp] theorem exec_cont (yield : Bool) (lives : BitVec 32) (livev : BitVec 16) (r0 r1 r2 r3 : LiveRange) (s : State) : exec (.cont yield lives livev r0 r1 r2 r3) s = execCont yield lives livev r0 r1 r2 r3 s := rfl
@[simp] theorem exec_saveComplete (gang : Nat) (s : State) : exec (.saveComplete gang) s = execSaveComplete gang s := rfl
@[simp] theorem exec_spawn (p : Pred) (d a b : SReg) (disp : BitVec 32) (s : State) : exec (.spawn p d a b disp) s = execSpawn p d a b disp s := rfl
@[simp] theorem exec_budAdd (p : Pred) (mem : Bool) (d a : SReg) (s : State) : exec (.budAdd p mem d a) s = execBudAdd p mem d a s := rfl
@[simp] theorem exec_budGive (p : Pred) (mem : Bool) (d a b : SReg) (s : State) : exec (.budGive p mem d a b) s = execBudGive p mem d a b s := rfl
@[simp] theorem exec_budgetFault (vt slot : Nat) (s : State) : exec (.budgetFault vt slot) s = execBudgetFault vt slot s := rfl
@[simp] theorem exec_graceDecay (vt slot : Nat) (s : State) : exec (.graceDecay vt slot) s = execGraceDecay vt slot s := rfl
@[simp] theorem exec_leaseReq (p : Pred) (l : LeaseArgs) (a : SReg) (s : State) : exec (.leaseReq p l a) s = execLeaseReq p l a s := rfl
@[simp] theorem exec_leaseReqImm (p : Pred) (l : LeaseArgs) (dur : BitVec 16) (s : State) : exec (.leaseReqImm p l dur) s = execLeaseReqImm p l dur s := rfl
@[simp] theorem exec_leaseEnd (p : Pred) (s : State) : exec (.leaseEnd p) s = execLeaseEnd p s := rfl
@[simp] theorem exec_leaseTest (p : Pred) (d : SReg) (s : State) : exec (.leaseTest p d) s = execLeaseTest p d s := rfl
@[simp] theorem exec_leasePeriodEnd (gang : Nat) (s : State) : exec (.leasePeriodEnd gang) s = execLeasePeriodEnd gang s := rfl
@[simp] theorem exec_zoneHardLimit (zone melt : Nat) (s : State) : exec (.zoneHardLimit zone melt) s = execZoneHardLimit zone melt s := rfl
@[simp] theorem exec_zoneRefreezeChange (zone melt : Nat) (s : State) : exec (.zoneRefreezeChange zone melt) s = execZoneRefreezeChange zone melt s := rfl
@[simp] theorem exec_trap (p : Pred) (a : SReg) (code : BitVec 16) (s : State) : exec (.trap p a code) s = execTrap p a code s := rfl
@[simp] theorem exec_supResume (p : Pred) (d a b : SReg) (s : State) : exec (.supResume p d a b) s = execSupResume p d a b s := rfl
@[simp] theorem exec_supRestart (p : Pred) (alt : Bool) (d a b : SReg) (s : State) : exec (.supRestart p alt d a b) s = execSupRestart p alt d a b s := rfl
@[simp] theorem exec_supAbort (p : Pred) (gang : Bool) (d a b : SReg) (detail : BitVec 8) (s : State) : exec (.supAbort p gang d a b detail) s = execSupAbort p gang d a b detail s := rfl
@[simp] theorem exec_heldPacketWrite (vt slot : Nat) (s : State) : exec (.heldPacketWrite vt slot) s = execHeldPacketWrite vt slot s := rfl
@[simp] theorem exec_watchdogTick (gang : Nat) (s : State) : exec (.watchdogTick gang) s = execWatchdogTick gang s := rfl
@[simp] theorem exec_watchdogExpiry (gang : Nat) (s : State) : exec (.watchdogExpiry gang) s = execWatchdogExpiry gang s := rfl
@[simp] theorem exec_scrRun (p : Pred) (full : Bool) (d : HReg) (a b : SReg) (s : State) : exec (.scrRun p full d a b) s = execScrRun p full d a b s := rfl
@[simp] theorem exec_scrStat (p : Pred) (d a : SReg) (s : State) : exec (.scrStat p d a) s = execScrStat p d a s := rfl
@[simp] theorem exec_scrTestComplete (id : Nat) (failMask margMask : BitVec 16) (s : State) : exec (.scrTestComplete id failMask margMask) s = execScrTestComplete id failMask margMask s := rfl
@[simp] theorem exec_testLeaveComplete (vt : Nat) (s : State) : exec (.testLeaveComplete vt) s = execTestLeaveComplete vt s := rfl
@[simp] theorem exec_infieldTestComplete (ptile : Nat) (failCores : BitVec 16) (marg : Nat) (logicFail : Bool) (s : State) : exec (.infieldTestComplete ptile failCores marg logicFail) s = execInfieldTestComplete ptile failCores marg logicFail s := rfl
@[simp] theorem exec_routineRotation (s : State) : exec .routineRotation s = execRoutineRotation s := rfl
@[simp] theorem exec_forcedRotation (vt : Nat) (s : State) : exec (.forcedRotation vt) s = execForcedRotation vt s := rfl
@[simp] theorem exec_rotationQuiescent (vt : Nat) (s : State) : exec (.rotationQuiescent vt) s = execRotationQuiescent vt s := rfl
@[simp] theorem exec_drainTimeout (vt : Nat) (s : State) : exec (.drainTimeout vt) s = execDrainTimeout vt s := rfl
@[simp] theorem exec_stateCopyComplete (vt : Nat) (s : State) : exec (.stateCopyComplete vt) s = execStateCopyComplete vt s := rfl
@[simp] theorem exec_stateCopyError (vt : Nat) (atTarget : Bool) (s : State) : exec (.stateCopyError vt atTarget) s = execStateCopyError vt atTarget s := rfl
@[simp] theorem exec_tableUpdateCommit (vt : Nat) (s : State) : exec (.tableUpdateCommit vt) s = execTableUpdateCommit vt s := rfl
@[simp] theorem exec_tableUpdateReject (vt ptile : Nat) (s : State) : exec (.tableUpdateReject vt ptile) s = execTableUpdateReject vt ptile s := rfl
@[simp] theorem exec_replay (vt : Nat) (counter : Nat) (s : State) : exec (.replay vt counter) s = execReplay vt counter s := rfl
@[simp] theorem exec_journalFold (vt slot : Nat) (s : State) : exec (.journalFold vt slot) s = execJournalFold vt slot s := rfl
@[simp] theorem exec_retentionEntry (ptile : Nat) (s : State) : exec (.retentionEntry ptile) s = execRetentionEntry ptile s := rfl
@[simp] theorem exec_ageingDecay (s : State) : exec .ageingDecay s = execAgeingDecay s := rfl
@[simp] theorem exec_ageingSnapshot (s : State) : exec .ageingSnapshot s = execAgeingSnapshot s := rfl
@[simp] theorem exec_doorbell (qid : Nat) (val : BitVec 32) (s : State) : exec (.doorbell qid val) s = execDoorbell qid val s := rfl
@[simp] theorem exec_queueCreate (src : Source) (q0 arg1 : Word) (s : State) : exec (.queueCreate src q0 arg1) s = execQueueCreate src q0 arg1 s := rfl
@[simp] theorem exec_queueDestroy (src : Source) (qid : Nat) (s : State) : exec (.queueDestroy src qid) s = execQueueDestroy src qid s := rfl
@[simp] theorem exec_queueRestart (src : Source) (qid : Nat) (s : State) : exec (.queueRestart src qid) s = execQueueRestart src qid s := rfl
@[simp] theorem exec_queueCredit (src : Source) (qid : Nat) (arg1 arg2 : Word) (s : State) : exec (.queueCredit src qid arg1 arg2) s = execQueueCredit src qid arg1 arg2 s := rfl
@[simp] theorem exec_queueClose (qid : Nat) (s : State) : exec (.queueClose qid) s = execQueueClose qid s := rfl
@[simp] theorem exec_recordRead (qid : Nat) (s : State) : exec (.recordRead qid) s = execRecordRead qid s := rfl
@[simp] theorem exec_seqRetry (qid : Nat) (s : State) : exec (.seqRetry qid) s = execSeqRetry qid s := rfl
@[simp] theorem exec_dependenceReread (qid : Nat) (s : State) : exec (.dependenceReread qid) s = execDependenceReread qid s := rfl
@[simp] theorem exec_selectionRound (s : State) : exec .selectionRound s = execSelectionRound s := rfl
@[simp] theorem exec_recordReserving (qid : Nat) (s : State) : exec (.recordReserving qid) s = execRecordReserving qid s := rfl
@[simp] theorem exec_bind (vt : Nat) (rec : List Word) (bindRec : List Word) (s : State) : exec (.bind vt rec bindRec) s = execBind vt rec bindRec s := rfl
@[simp] theorem exec_release (vt : Nat) (bindRec : List Word) (s : State) : exec (.release vt bindRec) s = execRelease vt bindRec s := rfl
@[simp] theorem exec_preempt (vt : Nat) (bindRec : List Word) (s : State) : exec (.preempt vt bindRec) s = execPreempt vt bindRec s := rfl
@[simp] theorem exec_scrubComplete (vt slot : Nat) (s : State) : exec (.scrubComplete vt slot) s = execScrubComplete vt slot s := rfl
@[simp] theorem exec_gangRetire (gang : Nat) (s : State) : exec (.gangRetire gang) s = execGangRetire gang s := rfl
@[simp] theorem exec_translationInvalidate (s : State) : exec .translationInvalidate s = execTranslationInvalidate s := rfl
@[simp] theorem exec_partitionDescriptorWrite (part : Nat) (val : Word) (s : State) : exec (.partitionDescriptorWrite part val) s = execPartitionDescriptorWrite part val s := rfl
@[simp] theorem exec_savePoolWrite (part : Nat) (size : Bool) (val : Word) (s : State) : exec (.savePoolWrite part size val) s = execSavePoolWrite part size val s := rfl
@[simp] theorem exec_faultRingWrite (part : Nat) (size : Bool) (val : Word) (s : State) : exec (.faultRingWrite part size val) s = execFaultRingWrite part size val s := rfl
@[simp] theorem exec_frheadWrite (part : Nat) (val : BitVec 32) (s : State) : exec (.frheadWrite part val) s = execFrheadWrite part val s := rfl
@[simp] theorem exec_drain (part : Nat) (s : State) : exec (.drain part) s = execDrain part s := rfl
@[simp] theorem exec_reset (part : Nat) (s : State) : exec (.reset part) s = execReset part s := rfl
@[simp] theorem exec_undrain (part : Nat) (s : State) : exec (.undrain part) s = execUndrain part s := rfl
@[simp] theorem exec_debugWindowWrite (src : Source) (off width : Nat) (val : Word) (s : State) : exec (.debugWindowWrite src off width val) s = execDebugWindowWrite src off width val s := rfl
@[simp] theorem exec_sepiaClr (vt slot : Nat) (s : State) : exec (.sepiaClr vt slot) s = execSepiaClr vt slot s := rfl
@[simp] theorem exec_eventStreamWrite (part which : Nat) (val : Word) (s : State) : exec (.eventStreamWrite part which val) s = execEventStreamWrite part which val s := rfl
@[simp] theorem exec_evheadWrite (part : Nat) (val : BitVec 32) (s : State) : exec (.evheadWrite part val) s = execEvheadWrite part val s := rfl
@[simp] theorem exec_pcSample (vt slot : Nat) (s : State) : exec (.pcSample vt slot) s = execPcSample vt slot s := rfl
@[simp] theorem exec_registerWrite (src : Source) (off width : Nat) (val : Word) (s : State) : exec (.registerWrite src off width val) s = execRegisterWrite src off width val s := rfl
@[simp] theorem exec_bar2Read (addr width : Nat) (s : State) : exec (.bar2Read addr width) s = execBar2Read addr width s := rfl
@[simp] theorem exec_bar2Write (addr : Nat) (data : List Byte) (s : State) : exec (.bar2Write addr data) s = execBar2Write addr data s := rfl
@[simp] theorem exec_portLinkUp (port : Nat) (peer : BitVec 24) (s : State) : exec (.portLinkUp port peer) s = execPortLinkUp port peer s := rfl
@[simp] theorem exec_portRingEnable (port ring : Nat) (val : Word) (s : State) : exec (.portRingEnable port ring val) s = execPortRingEnable port ring val s := rfl
@[simp] theorem exec_portDoorbell (port ring : Nat) (val : BitVec 32) (s : State) : exec (.portDoorbell port ring val) s = execPortDoorbell port ring val s := rfl
@[simp] theorem exec_descriptorStart (port ring : Nat) (s : State) : exec (.descriptorStart port ring) s = execDescriptorStart port ring s := rfl
@[simp] theorem exec_descriptorComplete (port ring : Nat) (ok : Bool) (s : State) : exec (.descriptorComplete port ring ok) s = execDescriptorComplete port ring ok s := rfl
@[simp] theorem exec_inboundWrite (port : Nat) (spart rpart : Nat) (dst : Word) (data : List Byte) (rdone : Word) (s : State) : exec (.inboundWrite port spart rpart dst data rdone) s = execInboundWrite port spart rpart dst data rdone s := rfl
@[simp] theorem exec_firmwareChunkWrite (s : State) : exec .firmwareChunkWrite s = execFirmwareChunkWrite s := rfl
@[simp] theorem exec_firmwareCommit (storeOk : Bool) (s : State) : exec (.firmwareCommit storeOk) s = execFirmwareCommit storeOk s := rfl
@[simp] theorem exec_attestation (s : State) : exec .attestation s = execAttestation s := rfl
@[simp] theorem exec_attestationReportReady (s : State) : exec .attestationReportReady s = execAttestationReportReady s := rfl
@[simp] theorem exec_hbmTempRead (stack : Nat) (temp : Option Nat) (s : State) : exec (.hbmTempRead stack temp) s = execHbmTempRead stack temp s := rfl
@[simp] theorem exec_sliceFailure (edge pc : Nat) (s : State) : exec (.sliceFailure edge pc) s = execSliceFailure edge pc s := rfl
@[simp] theorem exec_copyCommandStart (vt : Nat) (s : State) : exec (.copyCommandStart vt) s = execCopyCommandStart vt s := rfl
@[simp] theorem exec_patrolScrub (vt slot : Nat) (s : State) : exec (.patrolScrub vt slot) s = execPatrolScrub vt slot s := rfl
@[simp] theorem exec_softError (t : SoftTarget) (s : State) : exec (.softError t) s = execSoftError t s := rfl
@[simp] theorem exec_portLinkDown (port : Nat) (s : State) : exec (.portLinkDown port) s = execPortLinkDown port s := rfl

end Sys2Proof.Machine
end

