-- ==== Sys2Proof/Laws/Fields.lean ====
section
/-! SUPPORT. The fields of an instruction word read back what the encoder puts into them (06 R106, R108-R111), and the group of candidates that each OPC selects (06 R118). -/

set_option Elab.async false

namespace Sys2Proof

/-- The low part of an append. -/
theorem extract_low {m n : Nat} (x : BitVec m) (y : BitVec n) : (x ++ y).extractLsb' 0 n = y := by
  ext i hi; simp [BitVec.getLsbD_append, hi]

/-- The high part of an append. -/
theorem extract_high {m n : Nat} (x : BitVec m) (y : BitVec n) : (x ++ y).extractLsb' n m = x := by
  ext i hi; simp [BitVec.getLsbD_append, BitVec.getLsbD_eq_getElem hi]

/-- The middle part of an append of three. -/
theorem extract_mid {k m n : Nat} (x : BitVec k) (y : BitVec m) (z : BitVec n) : (x ++ y ++ z).extractLsb' n m = y := by
  ext i hi; simp [BitVec.getLsbD_append, hi]

/-- The top part of an append of three. -/
theorem extract_top {k m n : Nat} (x : BitVec k) (y : BitVec m) (z : BitVec n) : (x ++ y ++ z).extractLsb' (n + m) k = x := by
  ext i hi
  have h1 : ¬ n + m + i < n := by omega
  have h2 : n + m + i - n = m + i := by omega
  have h3 : ¬ m + i < m := by omega
  simp [BitVec.getLsbD_append, BitVec.getLsbD_eq_getElem hi, h1, h2, h3]
/-- The third part from below of an append of four. -/
theorem extract_third {j k m n : Nat} (w : BitVec j) (x : BitVec k) (y : BitVec m) (z : BitVec n) :
    (w ++ x ++ y ++ z).extractLsb' (n + m) k = x := by
  ext i hi
  have h1 : ¬ n + m + i < n := by omega
  have h2 : n + m + i - n = m + i := by omega
  have h3 : ¬ m + i < m := by omega
  simp [BitVec.getLsbD_append, h1, h2, h3, hi]

/-- The two parts of a vector join again. -/
theorem join_halves {m n : Nat} (x : BitVec (m + n)) : x.extractLsb' n m ++ x.extractLsb' 0 n = x := by
  simp

/-- The fourth part from below of an append of five. -/
theorem extract_fourth {j k m n l : Nat} (v : BitVec j) (w : BitVec k) (x : BitVec m) (y : BitVec n) (z : BitVec l) :
    (v ++ w ++ x ++ y ++ z).extractLsb' (l + n + m) k = w := by
  ext i hi
  have h1 : ¬ l + n + m + i < l := by omega
  have h2 : l + n + m + i - l = n + m + i := by omega
  have h3 : ¬ n + m + i < n := by omega
  have h4 : n + m + i - n = m + i := by omega
  have h5 : ¬ m + i < m := by omega
  simp [BitVec.getLsbD_append, h1, h2, h3, h4, h5, hi]
/-- The top part of an append of five. -/
theorem extract_fifth {j k m n l : Nat} (v : BitVec j) (w : BitVec k) (x : BitVec m) (y : BitVec n) (z : BitVec l) :
    (v ++ w ++ x ++ y ++ z).extractLsb' (l + n + m + k) j = v := by
  ext i hi
  have h1 : ¬ l + n + m + k + i < l := by omega
  have h2 : l + n + m + k + i - l = n + m + k + i := by omega
  have h3 : ¬ n + m + k + i < n := by omega
  have h4 : n + m + k + i - n = m + k + i := by omega
  have h5 : ¬ m + k + i < m := by omega
  have h6 : m + k + i - m = k + i := by omega
  have h7 : ¬ k + i < k := by omega
  simp [BitVec.getLsbD_append, BitVec.getLsbD_eq_getElem hi, h1, h2, h3, h4, h5, h6, h7]

@[simp] theorem decS_encS (r : Fin 64) : decS (encS r) = r := by revert r; decide
@[simp] theorem decV_encV (r : Fin 32) : decV (encV r) = r := by revert r; decide
@[simp] theorem decH_encH (r : Fin 16) : decH (encH r) = r := by revert r; decide
@[simp] theorem decP_encP (r : Fin 8) : decP (encP r) = r := by revert r; decide
@[simp] theorem decQ_encQ (r : Fin 8) : decQ (encQ r) = r := by revert r; decide
@[simp] theorem encB_bit (b : Bool) : (encB b).getLsbD 0 = b := by cases b <;> rfl
@[simp] theorem encB_zero (b : Bool) : (encB b)[0] = b := by cases b <;> rfl
@[simp] theorem encBit_bit (b : Bool) : (encBit b).getLsbD 0 = b := by cases b <;> rfl
@[simp] theorem decCond_encCond (c : Cond) : decCond (encCond c) = c := by cases c <;> rfl
@[simp] theorem decFCond_encFCond (c : FCond) : decFCond (encFCond c) = c := by cases c <;> rfl
@[simp] theorem decAlu_encAlu (m : AluMode) : decAlu (encAlu m) = m := by cases m <;> rfl
@[simp] theorem decMulh_encMulh (m : MulhKind) : decMulh (encMulh m) = m := by cases m <;> rfl
@[simp] theorem decRM_encRM (m : RM) : decRM (encRM m) = m := by cases m <;> rfl
@[simp] theorem decShuf_encShuf (m : Shuf) : decShuf (encShuf m) = m := by cases m <;> rfl
@[simp] theorem decLvl_encLvl (m : StepLevel) : decLvl (encLvl m) = m := by cases m <;> rfl
@[simp] theorem decLease_encLease (l : LeaseArgs) : decLease (encLease l) = l := by
  rcases l with ⟨a, b, c⟩; cases a <;> cases b <;> cases c <;> rfl

/-! The operand words of a few instructions. -/

theorem tdec_step (s : BitVec 16) (a : BitVec 2) : (s ++ 0#14 ++ a : BitVec 32).extractLsb' 16 16 = s := extract_top s 0#14 a
theorem cvt_type (t : CvtType) (k f : BitVec 5) : decTy ((0#4 ++ encTy t ++ k ++ f : BitVec 16).extractLsb' 10 2) = t :=
  (congrArg decTy (extract_third 0#4 (encTy t) k f)).trans (by cases t <;> rfl)
theorem rep_stream (q : Option QReg) : (if (encRepX ⟨q, 0, 0, 0⟩).getLsbD 3 then
    some (⟨(encRepX ⟨q, 0, 0, 0⟩).toNat % 8, Nat.mod_lt _ (by decide)⟩ : QReg) else none) = q := by
  cases q with
  | none => rfl
  | some q => revert q; decide
@[simp] theorem decRep_encRep (r : RepShape) : decRep (encRepX r) (encRepI r) = r := by
  rcases r with ⟨q, l, b, w⟩
  have h5 : ∀ r : Fin 32, (BitVec.ofNat 5 r.val).toNat = r.val := by decide
  have h6 : ∀ r : Fin 64, (BitVec.ofNat 6 r.val).toNat = r.val := by decide
  simp only [decRep, RepShape.mk.injEq]
  refine ⟨rep_stream q, ?_, ?_, ?_⟩ <;> apply Fin.ext
  · exact (congrArg BitVec.toNat (extract_low _ _)).trans (h5 l)
  · exact (congrArg BitVec.toNat (extract_mid _ _ _)).trans (h5 b)
  · exact (congrArg BitVec.toNat (extract_top _ _ _)).trans (h6 w)
theorem tdec_int (b : Bool) : (0#15 ++ encB b : BitVec 16)[0] = b := by cases b <;> rfl
theorem decHen_encHen (h : Option HReg) : decHen (encHen h) = h := by
  cases h with
  | none => rfl
  | some r => revert r; decide
/-- HEN of a matrix command. -/
theorem decHen_high {n : Nat} (h : Option HReg) (x : BitVec n) : decHen ((encHen h ++ x).extractLsb' n 6) = h :=
  (congrArg decHen (extract_high (encHen h) x)).trans (decHen_encHen h)
theorem decHen_top (h : Option HReg) (x y : BitVec 5) : decHen ((encHen h ++ x ++ y : BitVec 16).extractLsb' 10 6) = h :=
  (congrArg decHen (extract_top (encHen h) x y)).trans (decHen_encHen h)
@[simp] theorem encHasH_one (h : Option HReg) : (encHasH h)[1] = false := by cases h <;> simp [encHasH]
theorem getmc_mask (c : BitVec 16) (l : BitVec 24) (a : BitVec 8) : (0#16 ++ c ++ l ++ a : BitVec 64).extractLsb' 32 16 = c :=
  extract_third 0#16 c l a
theorem cont_lives (l : BitVec 32) (a b : BitVec 12) : (l ++ 0#8 ++ a ++ b : BitVec 64).extractLsb' 32 32 = l := by
  have h : ∀ {j k m n : Nat} (w : BitVec j) (x : BitVec k) (y : BitVec m) (z : BitVec n),
      (w ++ x ++ y ++ z).extractLsb' (n + m + k) j = w := by
    intro j k m n w x y z; ext i hi
    have h1 : ¬ n + m + k + i < n := by omega
    have h2 : n + m + k + i - n = m + k + i := by omega
    have h3 : ¬ m + k + i < m := by omega
    have h4 : m + k + i - m = k + i := by omega
    have h5 : ¬ k + i < k := by omega
    simp [BitVec.getLsbD_append, BitVec.getLsbD_eq_getElem hi, h1, h2, h3, h4, h5]
  exact h l 0#8 a b
theorem vshift_reg (e : VWidth) : (encVw e ++ 0#2 : BitVec 4)[0] = false := by cases e <;> rfl
theorem vshift_imm (e : VWidth) : (encVw e ++ 1#2 : BitVec 4)[0] = true := by cases e <;> rfl
@[simp] theorem encBit_zero (b : Bool) : (encBit b)[0] = b := by cases b <;> rfl
@[simp] theorem encShift_zero (w i : Bool) : (encShift w i)[0] = i := by cases w <;> cases i <;> rfl
@[simp] theorem encShift_one (w i : Bool) : (encShift w i)[1] = w := by cases w <;> cases i <;> rfl
@[simp] theorem decVw_encVw (m : VWidth) : decVw (encVw m) = m := by cases m <;> rfl
@[simp] theorem decVm_encVm (m : VMode) : decVm (encVm m) = m := by cases m <;> rfl
/-- The width and mode halves of X. -/
theorem decVw_high (e : VWidth) (m : BitVec 2) : decVw ((encVw e ++ m).extractLsb' 2 2) = e :=
  (congrArg decVw (extract_high (encVw e) m)).trans (decVw_encVw e)
theorem decVm_low (e : BitVec 2) (m : VMode) : decVm ((e ++ encVm m).extractLsb' 0 2) = m :=
  (congrArg decVm (extract_low e (encVm m))).trans (decVm_encVm m)
/-- RM in X[2:0]. -/
theorem decRM_low {k : Nat} (e : BitVec k) (m : RM) : decRM ((e ++ encRM m).extractLsb' 0 3) = m :=
  (congrArg decRM (extract_low e (encRM m))).trans (decRM_encRM m)
@[simp] theorem decTy_encTy (m : CvtType) : decTy (encTy m) = m := by cases m <;> rfl
@[simp] theorem decRng_encRng (r : LiveRange) : decRng (encRng r) = r := by
  rcases r with ⟨a, b⟩; simp only [decRng, encRng]; rw [extract_low, extract_high]
@[simp] theorem decAttr_encAttr (a : Attr) : decAttr (encAttr a) = a := by
  rcases a with ⟨a, b, c⟩; simp only [decAttr, encAttr, Attr.mk.injEq]; refine ⟨?_, ?_, ?_⟩ <;> ext i hi <;> simp <;> grind

theorem mxst_bit (i : Bool) (rm : RM) : (encB i ++ encRM rm : BitVec 4)[3] = i := by cases i <;> cases rm <;> rfl
@[simp] theorem decOptH_encOptH (h : Option HReg) : decOptH (encOptH h) (encHasH h)[0] = h := by
  cases h with
  | none => rfl
  | some r => revert r; decide
@[simp] theorem decOptS_encOptS (h : Option SReg) : decOptS (encOptS h) (encHasS h)[0] = h := by
  cases h with
  | none => rfl
  | some r => revert r; decide
theorem decAttr_low {k : Nat} (x : BitVec k) (a : Attr) : decAttr ((x ++ encAttr a).extractLsb' 0 8) = a :=
  (congrArg decAttr (extract_low x (encAttr a))).trans (decAttr_encAttr a)
theorem decRM_mid {k n : Nat} (x : BitVec k) (m : RM) (y : BitVec n) : decRM ((x ++ encRM m ++ y).extractLsb' n 3) = m :=
  (congrArg decRM (extract_mid x (encRM m) y)).trans (decRM_encRM m)
theorem decRng_low {k : Nat} (x : BitVec k) (r : LiveRange) : decRng ((x ++ encRng r).extractLsb' 0 12) = r :=
  (congrArg decRng (extract_low x (encRng r))).trans (decRng_encRng r)
theorem decRng_mid {k n : Nat} (x : BitVec k) (r : LiveRange) (y : BitVec n) : decRng ((x ++ encRng r ++ y).extractLsb' n 12) = r :=
  (congrArg decRng (extract_mid x (encRng r) y)).trans (decRng_encRng r)
theorem decRng_halves (r : LiveRange) : decRng ((encRng r).extractLsb' 6 6 ++ (encRng r).extractLsb' 0 6) = r :=
  (congrArg decRng (join_halves (m := 6) (n := 6) (encRng r))).trans (decRng_encRng r)
theorem cvt_n1 (a b : BitVec 16) (c : BitVec 21) (d : BitVec 3) (e : BitVec 8) :
    (a ++ b ++ c ++ d ++ e : BitVec 64).extractLsb' 48 16 = a := extract_fifth a b c d e
theorem cvt_n0 (a b : BitVec 16) (c : BitVec 21) (d : BitVec 3) (e : BitVec 8) :
    (a ++ b ++ c ++ d ++ e : BitVec 64).extractLsb' 32 16 = b := extract_fourth a b c d e

/-- The predicate fields of an encoding read back the predicate. -/
@[simp] theorem mkEnc_pred (opc fn : Nat) (p : Pred) (x : BitVec 4) (d a b c : BitVec 6) (imm : BitVec 16) (e : Ext) (px : Option Prefix) :
    (mkEnc opc fn p x d a b c imm e px).f.pred = p := by
  rcases p with ⟨r, n⟩
  simp [Fields.pred, mkEnc]

theorem opc00 (f : Fields) (e : Ext) (px : Option Prefix) (h : f.opc = 0x00) : candidate f e px = cand00 f e := by
  cases f; cases h; rfl
theorem opc01 (f : Fields) (e : Ext) (px : Option Prefix) (h : f.opc = 0x01) : candidate f e px = cand01 f e := by
  cases f; cases h; rfl
theorem opc02 (f : Fields) (e : Ext) (px : Option Prefix) (h : f.opc = 0x02) : candidate f e px = cand02 f e := by
  cases f; cases h; rfl
theorem opc03 (f : Fields) (e : Ext) (px : Option Prefix) (h : f.opc = 0x03) : candidate f e px = cand03 f e := by
  cases f; cases h; rfl
theorem opc04 (f : Fields) (e : Ext) (px : Option Prefix) (h : f.opc = 0x04) : candidate f e px = cand04 f e := by
  cases f; cases h; rfl
theorem opc05 (f : Fields) (e : Ext) (px : Option Prefix) (h : f.opc = 0x05) : candidate f e px = cand05 f e := by
  cases f; cases h; rfl
theorem opc06 (f : Fields) (e : Ext) (px : Option Prefix) (h : f.opc = 0x06) : candidate f e px = cand06 f e := by
  cases f; cases h; rfl
theorem opc07 (f : Fields) (e : Ext) (px : Option Prefix) (h : f.opc = 0x07) : candidate f e px = cand07 f e := by
  cases f; cases h; rfl
theorem opc08 (f : Fields) (e : Ext) (px : Option Prefix) (h : f.opc = 0x08) : candidate f e px = cand08 f e := by
  cases f; cases h; rfl
theorem opc20 (f : Fields) (e : Ext) (px : Option Prefix) (h : f.opc = 0x20) : candidate f e px = cand20 f e := by
  cases f; cases h; rfl
theorem opc21 (f : Fields) (e : Ext) (px : Option Prefix) (h : f.opc = 0x21) : candidate f e px = cand21 f e := by
  cases f; cases h; rfl
theorem opc22 (f : Fields) (e : Ext) (px : Option Prefix) (h : f.opc = 0x22) : candidate f e px = cand22 f e := by
  cases f; cases h; rfl
theorem opc23 (f : Fields) (e : Ext) (px : Option Prefix) (h : f.opc = 0x23) : candidate f e px = cand23 f e := by
  cases f; cases h; rfl
theorem opc24 (f : Fields) (e : Ext) (px : Option Prefix) (h : f.opc = 0x24) : candidate f e px = cand24 f e := by
  cases f; cases h; rfl
theorem opc25 (f : Fields) (e : Ext) (px : Option Prefix) (h : f.opc = 0x25) : candidate f e px = cand25 f e := by
  cases f; cases h; rfl
theorem opc26 (f : Fields) (e : Ext) (px : Option Prefix) (h : f.opc = 0x26) : candidate f e px = cand26 f e := by
  cases f; cases h; rfl
theorem opc27 (f : Fields) (e : Ext) (px : Option Prefix) (h : f.opc = 0x27) : candidate f e px = cand27 f e := by
  cases f; cases h; rfl
theorem opc28 (f : Fields) (e : Ext) (px : Option Prefix) (h : f.opc = 0x28) : candidate f e px = cand28 f e := by
  cases f; cases h; rfl
theorem opc29 (f : Fields) (e : Ext) (px : Option Prefix) (h : f.opc = 0x29) : candidate f e px = cand29 f e := by
  cases f; cases h; rfl
theorem opc2A (f : Fields) (e : Ext) (px : Option Prefix) (h : f.opc = 0x2A) : candidate f e px = cand2A f e := by
  cases f; cases h; rfl
theorem opc2B (f : Fields) (e : Ext) (px : Option Prefix) (h : f.opc = 0x2B) : candidate f e px = cand2B f e := by
  cases f; cases h; rfl
theorem opc2C (f : Fields) (e : Ext) (px : Option Prefix) (h : f.opc = 0x2C) : candidate f e px = cand2C f e := by
  cases f; cases h; rfl
theorem opc50 (f : Fields) (e : Ext) (px : Option Prefix) (h : f.opc = 0x50) : candidate f e px = cand50 f e := by
  cases f; cases h; rfl
theorem opc51 (f : Fields) (e : Ext) (px : Option Prefix) (h : f.opc = 0x51) : candidate f e px = cand51 f e := by
  cases f; cases h; rfl
theorem opc52 (f : Fields) (e : Ext) (px : Option Prefix) (h : f.opc = 0x52) : candidate f e px = cand52 f e := by
  cases f; cases h; rfl
theorem opc54 (f : Fields) (e : Ext) (px : Option Prefix) (h : f.opc = 0x54) : candidate f e px = cand54 f e := by
  cases f; cases h; rfl
theorem opc55 (f : Fields) (e : Ext) (px : Option Prefix) (h : f.opc = 0x55) : candidate f e px = cand55 f e := by
  cases f; cases h; rfl
theorem opc56 (f : Fields) (e : Ext) (px : Option Prefix) (h : f.opc = 0x56) : candidate f e px = cand56 f e := by
  cases f; cases h; rfl
theorem opc57 (f : Fields) (e : Ext) (px : Option Prefix) (h : f.opc = 0x57) : candidate f e px = cand57 f e := by
  cases f; cases h; rfl
theorem opc58 (f : Fields) (e : Ext) (px : Option Prefix) (h : f.opc = 0x58) : candidate f e px = cand58 f e := by
  cases f; cases h; rfl
theorem opc59 (f : Fields) (e : Ext) (px : Option Prefix) (h : f.opc = 0x59) : candidate f e px = cand59 f e := by
  cases f; cases h; rfl
theorem opc5A (f : Fields) (e : Ext) (px : Option Prefix) (h : f.opc = 0x5A) : candidate f e px = cand5A f e := by
  cases f; cases h; rfl
theorem opc5B (f : Fields) (e : Ext) (px : Option Prefix) (h : f.opc = 0x5B) : candidate f e px = cand5B f e := by
  cases f; cases h; rfl
theorem opc5C (f : Fields) (e : Ext) (px : Option Prefix) (h : f.opc = 0x5C) : candidate f e px = cand5C f e := by
  cases f; cases h; rfl
theorem opc5D (f : Fields) (e : Ext) (px : Option Prefix) (h : f.opc = 0x5D) : candidate f e px = cand5D f e := by
  cases f; cases h; rfl
theorem opc5E (f : Fields) (e : Ext) (px : Option Prefix) (h : f.opc = 0x5E) : candidate f e px = cand5E f e := by
  cases f; cases h; rfl
theorem opc5F (f : Fields) (e : Ext) (px : Option Prefix) (h : f.opc = 0x5F) : candidate f e px = cand5F f e := by
  cases f; cases h; rfl
theorem opc60 (f : Fields) (e : Ext) (px : Option Prefix) (h : f.opc = 0x60) : candidate f e px = cand60 f e := by
  cases f; cases h; rfl
theorem opc61 (f : Fields) (e : Ext) (px : Option Prefix) (h : f.opc = 0x61) : candidate f e px = cand61 f e := by
  cases f; cases h; rfl
theorem opc62 (f : Fields) (e : Ext) (px : Option Prefix) (h : f.opc = 0x62) : candidate f e px = cand62 f e := by
  cases f; cases h; rfl
theorem opc63 (f : Fields) (e : Ext) (px : Option Prefix) (h : f.opc = 0x63) : candidate f e px = cand63 f e := by
  cases f; cases h; rfl
theorem opc64 (f : Fields) (e : Ext) (px : Option Prefix) (h : f.opc = 0x64) : candidate f e px = cand64 f e := by
  cases f; cases h; rfl
theorem opc65 (f : Fields) (e : Ext) (px : Option Prefix) (h : f.opc = 0x65) : candidate f e px = cand65 f e := by
  cases f; cases h; rfl
theorem opc66 (f : Fields) (e : Ext) (px : Option Prefix) (h : f.opc = 0x66) : candidate f e px = cand66 f e := by
  cases f; cases h; rfl
theorem opc67 (f : Fields) (e : Ext) (px : Option Prefix) (h : f.opc = 0x67) : candidate f e px = cand67 f e := by
  cases f; cases h; rfl
theorem opc68 (f : Fields) (e : Ext) (px : Option Prefix) (h : f.opc = 0x68) : candidate f e px = cand68 f e px := by
  cases f; cases h; rfl
theorem opc69 (f : Fields) (e : Ext) (px : Option Prefix) (h : f.opc = 0x69) : candidate f e px = cand69 f e px := by
  cases f; cases h; rfl
theorem opc6A (f : Fields) (e : Ext) (px : Option Prefix) (h : f.opc = 0x6A) : candidate f e px = cand6A f e px := by
  cases f; cases h; rfl
theorem opc6B (f : Fields) (e : Ext) (px : Option Prefix) (h : f.opc = 0x6B) : candidate f e px = cand6B f e px := by
  cases f; cases h; rfl
theorem opc6C (f : Fields) (e : Ext) (px : Option Prefix) (h : f.opc = 0x6C) : candidate f e px = cand6C f e px := by
  cases f; cases h; rfl
theorem opc6D (f : Fields) (e : Ext) (px : Option Prefix) (h : f.opc = 0x6D) : candidate f e px = cand6D f e px := by
  cases f; cases h; rfl
theorem opc6E (f : Fields) (e : Ext) (px : Option Prefix) (h : f.opc = 0x6E) : candidate f e px = cand6E f e px := by
  cases f; cases h; rfl
theorem opc6F (f : Fields) (e : Ext) (px : Option Prefix) (h : f.opc = 0x6F) : candidate f e px = cand6F f e px := by
  cases f; cases h; rfl
theorem opc90 (f : Fields) (e : Ext) (px : Option Prefix) (h : f.opc = 0x90) : candidate f e px = cand90 f e := by
  cases f; cases h; rfl
theorem opc91 (f : Fields) (e : Ext) (px : Option Prefix) (h : f.opc = 0x91) : candidate f e px = cand91 f e := by
  cases f; cases h; rfl
theorem opc92 (f : Fields) (e : Ext) (px : Option Prefix) (h : f.opc = 0x92) : candidate f e px = cand92 f e := by
  cases f; cases h; rfl
theorem opc93 (f : Fields) (e : Ext) (px : Option Prefix) (h : f.opc = 0x93) : candidate f e px = cand93 f e := by
  cases f; cases h; rfl
theorem opc94 (f : Fields) (e : Ext) (px : Option Prefix) (h : f.opc = 0x94) : candidate f e px = cand94 f e := by
  cases f; cases h; rfl
theorem opc95 (f : Fields) (e : Ext) (px : Option Prefix) (h : f.opc = 0x95) : candidate f e px = cand95 f e := by
  cases f; cases h; rfl
theorem opc96 (f : Fields) (e : Ext) (px : Option Prefix) (h : f.opc = 0x96) : candidate f e px = cand96 f e := by
  cases f; cases h; rfl
theorem opc97 (f : Fields) (e : Ext) (px : Option Prefix) (h : f.opc = 0x97) : candidate f e px = cand97 f e := by
  cases f; cases h; rfl
theorem opc98 (f : Fields) (e : Ext) (px : Option Prefix) (h : f.opc = 0x98) : candidate f e px = cand98 f e := by
  cases f; cases h; rfl
theorem opcA8 (f : Fields) (e : Ext) (px : Option Prefix) (h : f.opc = 0xA8) : candidate f e px = candA8 f e px := by
  cases f; cases h; rfl
theorem opcA9 (f : Fields) (e : Ext) (px : Option Prefix) (h : f.opc = 0xA9) : candidate f e px = candA9 f e px := by
  cases f; cases h; rfl
theorem opcAA (f : Fields) (e : Ext) (px : Option Prefix) (h : f.opc = 0xAA) : candidate f e px = candAA f e := by
  cases f; cases h; rfl
theorem opcAB (f : Fields) (e : Ext) (px : Option Prefix) (h : f.opc = 0xAB) : candidate f e px = candAB f e px := by
  cases f; cases h; rfl
theorem opcAC (f : Fields) (e : Ext) (px : Option Prefix) (h : f.opc = 0xAC) : candidate f e px = candAC f e := by
  cases f; cases h; rfl
theorem opcAD (f : Fields) (e : Ext) (px : Option Prefix) (h : f.opc = 0xAD) : candidate f e px = candAD f e := by
  cases f; cases h; rfl
theorem opcAE (f : Fields) (e : Ext) (px : Option Prefix) (h : f.opc = 0xAE) : candidate f e px = candAE f e := by
  cases f; cases h; rfl
theorem opcAF (f : Fields) (e : Ext) (px : Option Prefix) (h : f.opc = 0xAF) : candidate f e px = candAF f e := by
  cases f; cases h; rfl
theorem opcC0 (f : Fields) (e : Ext) (px : Option Prefix) (h : f.opc = 0xC0) : candidate f e px = candC0 f e px := by
  cases f; cases h; rfl
theorem opcC1 (f : Fields) (e : Ext) (px : Option Prefix) (h : f.opc = 0xC1) : candidate f e px = candC1 f e := by
  cases f; cases h; rfl
theorem opcC2 (f : Fields) (e : Ext) (px : Option Prefix) (h : f.opc = 0xC2) : candidate f e px = candC2 f e := by
  cases f; cases h; rfl
theorem opcC3 (f : Fields) (e : Ext) (px : Option Prefix) (h : f.opc = 0xC3) : candidate f e px = candC3 f e := by
  cases f; cases h; rfl
theorem opcC4 (f : Fields) (e : Ext) (px : Option Prefix) (h : f.opc = 0xC4) : candidate f e px = candC4 f e := by
  cases f; cases h; rfl
theorem opcC5 (f : Fields) (e : Ext) (px : Option Prefix) (h : f.opc = 0xC5) : candidate f e px = candC5 f e := by
  cases f; cases h; rfl
theorem opcC6 (f : Fields) (e : Ext) (px : Option Prefix) (h : f.opc = 0xC6) : candidate f e px = candC6 f e := by
  cases f; cases h; rfl
theorem opcC7 (f : Fields) (e : Ext) (px : Option Prefix) (h : f.opc = 0xC7) : candidate f e px = candC7 f e := by
  cases f; cases h; rfl
theorem opcD8 (f : Fields) (e : Ext) (px : Option Prefix) (h : f.opc = 0xD8) : candidate f e px = candD8 f e := by
  cases f; cases h; rfl
theorem opcD9 (f : Fields) (e : Ext) (px : Option Prefix) (h : f.opc = 0xD9) : candidate f e px = candD9 f e := by
  cases f; cases h; rfl
theorem opcDA (f : Fields) (e : Ext) (px : Option Prefix) (h : f.opc = 0xDA) : candidate f e px = candDA f e := by
  cases f; cases h; rfl
theorem opcDB (f : Fields) (e : Ext) (px : Option Prefix) (h : f.opc = 0xDB) : candidate f e px = candDB f e := by
  cases f; cases h; rfl
theorem opcDC (f : Fields) (e : Ext) (px : Option Prefix) (h : f.opc = 0xDC) : candidate f e px = candDC f e := by
  cases f; cases h; rfl
theorem opcDD (f : Fields) (e : Ext) (px : Option Prefix) (h : f.opc = 0xDD) : candidate f e px = candDD f e := by
  cases f; cases h; rfl
theorem opcDE (f : Fields) (e : Ext) (px : Option Prefix) (h : f.opc = 0xDE) : candidate f e px = candDE f e := by
  cases f; cases h; rfl
end Sys2Proof
end

