-- ==== Sys2Proof/Laws/Issue.lean ====
section
/-! SUPPORT. The issue of an instruction: what each of its checks makes of the state (06 R109, R113, 07 R148, 11 R240, 15 R292). -/

namespace Sys2Proof.Machine

/-- An instruction that is issued and carried out does what its body answers. -/
theorem issue_of_issues {s : State} {t : Thread} {f : Form} (h : s.Issues t f) (body : State → Thread → Res) :
    s.issue f body = .next (s.finish f (t.issuePc s.cur.body) (body s t)) := by
  obtain ⟨here, run, calm, quiet, free, able, pred⟩ := h
  have h1 : (t.pend && !f.wins) = false := by
    cases hp : t.pend with
    | false => rfl
    | true => rw [calm hp]; rfl
  have h2 : (!s.cur.body && t.rep.isSome && !f.free) = false := by
    cases hb : s.cur.body <;> cases hr : t.rep.isSome <;> simp_all
  have h3 : (f.cap.filter fun c => !s.hasCap t c) = none := by
    cases hc : f.cap with
    | none => rfl
    | some c => simp [able c hc]
  have h4 : (!f.lane && !(t.predMask f.pred).getLsbD 0) = false := by
    cases hl : f.lane with
    | true => rfl
    | false => rw [pred hl]; rfl
  simp only [State.issue, here, run, ne_eq, not_true_eq_false, if_false, h1, quiet, h2, h3, h4, Bool.false_eq_true]

/-- A thread-only instruction. -/
theorem onThread_of_issues {s : State} {t : Thread} {f : Form} (h : s.Issues t f) (u : Nat) (g : Thread → Thread) :
    s.onThread f u g = s.completes t f (s.modCur g) u 0 := issue_of_issues h _

end Sys2Proof.Machine
end

