-- ==== Sys2Proof/Laws/State.lean ====
section
/-! SUPPORT. Each field of the state after each of its updates, and each field of a thread after each write of a register: true by unfolding, so that no later proof unfolds a record update. -/

set_option Elab.async false

namespace Sys2Proof.Machine

/-! `modThread`. -/

@[simp] theorem modThread_clk (s : State) (v k : Nat) (f : Thread → Thread) : (s.modThread v k f).clk = s.clk := rfl
@[simp] theorem modThread_phase (s : State) (v k : Nat) (f : Thread → Thread) : (s.modThread v k f).phase = s.phase := rfl
@[simp] theorem modThread_failCode (s : State) (v k : Nat) (f : Thread → Thread) : (s.modThread v k f).failCode = s.failCode := rfl
@[simp] theorem modThread_bootReport (s : State) (v k : Nat) (f : Thread → Thread) : (s.modThread v k f).bootReport = s.bootReport := rfl
@[simp] theorem modThread_bootSnap (s : State) (v k : Nat) (f : Thread → Thread) : (s.modThread v k f).bootSnap = s.bootSnap := rfl
@[simp] theorem modThread_serial (s : State) (v k : Nat) (f : Thread → Thread) : (s.modThread v k f).serial = s.serial := rfl
@[simp] theorem modThread_fwVersion (s : State) (v k : Nat) (f : Thread → Thread) : (s.modThread v k f).fwVersion = s.fwVersion := rfl
@[simp] theorem modThread_fwRollback (s : State) (v k : Nat) (f : Thread → Thread) : (s.modThread v k f).fwRollback = s.fwRollback := rfl
@[simp] theorem modThread_fwMeasure (s : State) (v k : Nat) (f : Thread → Thread) : (s.modThread v k f).fwMeasure = s.fwMeasure := rfl
@[simp] theorem modThread_nvtile (s : State) (v k : Nat) (f : Thread → Thread) : (s.modThread v k f).nvtile = s.nvtile := rfl
@[simp] theorem modThread_nrank (s : State) (v k : Nat) (f : Thread → Thread) : (s.modThread v k f).nrank = s.nrank := rfl
@[simp] theorem modThread_fuseTiles (s : State) (v k : Nat) (f : Thread → Thread) : (s.modThread v k f).fuseTiles = s.fuseTiles := rfl
@[simp] theorem modThread_fuseCores (s : State) (v k : Nat) (f : Thread → Thread) : (s.modThread v k f).fuseCores = s.fuseCores := rfl
@[simp] theorem modThread_retireLog (s : State) (v k : Nat) (f : Thread → Thread) : (s.modThread v k f).retireLog = s.retireLog := rfl
@[simp] theorem modThread_snapshots (s : State) (v k : Nat) (f : Thread → Thread) : (s.modThread v k f).snapshots = s.snapshots := rfl
@[simp] theorem modThread_snapClk (s : State) (v k : Nat) (f : Thread → Thread) : (s.modThread v k f).snapClk = s.snapClk := rfl
@[simp] theorem modThread_tiles (s : State) (v k : Nat) (f : Thread → Thread) : (s.modThread v k f).tiles = s.tiles := rfl
@[simp] theorem modThread_vtiles (s : State) (v k : Nat) (f : Thread → Thread) : (s.modThread v k f).vtiles = s.vtiles := rfl
@[simp] theorem modThread_rotations (s : State) (v k : Nat) (f : Thread → Thread) : (s.modThread v k f).rotations = s.rotations := rfl
@[simp] theorem modThread_updates (s : State) (v k : Nat) (f : Thread → Thread) : (s.modThread v k f).updates = s.updates := rfl
@[simp] theorem modThread_tests (s : State) (v k : Nat) (f : Thread → Thread) : (s.modThread v k f).tests = s.tests := rfl
@[simp] theorem modThread_ckpts (s : State) (v k : Nat) (f : Thread → Thread) : (s.modThread v k f).ckpts = s.ckpts := rfl
@[simp] theorem modThread_cores (s : State) (v k : Nat) (f : Thread → Thread) : (s.modThread v k f).cores = s.cores := rfl
@[simp] theorem modThread_gangs (s : State) (v k : Nat) (f : Thread → Thread) : (s.modThread v k f).gangs = s.gangs := rfl
@[simp] theorem modThread_bounds (s : State) (v k : Nat) (f : Thread → Thread) : (s.modThread v k f).bounds = s.bounds := rfl
@[simp] theorem modThread_queues (s : State) (v k : Nat) (f : Thread → Thread) : (s.modThread v k f).queues = s.queues := rfl
@[simp] theorem modThread_parts (s : State) (v k : Nat) (f : Thread → Thread) : (s.modThread v k f).parts = s.parts := rfl
@[simp] theorem modThread_qcmd (s : State) (v k : Nat) (f : Thread → Thread) : (s.modThread v k f).qcmd = s.qcmd := rfl
@[simp] theorem modThread_turns (s : State) (v k : Nat) (f : Thread → Thread) : (s.modThread v k f).turns = s.turns := rfl
@[simp] theorem modThread_lastStaged (s : State) (v k : Nat) (f : Thread → Thread) : (s.modThread v k f).lastStaged = s.lastStaged := rfl
@[simp] theorem modThread_servedQ (s : State) (v k : Nat) (f : Thread → Thread) : (s.modThread v k f).servedQ = s.servedQ := rfl
@[simp] theorem modThread_heldBinds (s : State) (v k : Nat) (f : Thread → Thread) : (s.modThread v k f).heldBinds = s.heldBinds := rfl
@[simp] theorem modThread_heldPre (s : State) (v k : Nat) (f : Thread → Thread) : (s.modThread v k f).heldPre = s.heldPre := rfl
@[simp] theorem modThread_windowHeld (s : State) (v k : Nat) (f : Thread → Thread) : (s.modThread v k f).windowHeld = s.windowHeld := rfl
@[simp] theorem modThread_audits (s : State) (v k : Nat) (f : Thread → Thread) : (s.modThread v k f).audits = s.audits := rfl
@[simp] theorem modThread_lastServed (s : State) (v k : Nat) (f : Thread → Thread) : (s.modThread v k f).lastServed = s.lastServed := rfl
@[simp] theorem modThread_gangSeq (s : State) (v k : Nat) (f : Thread → Thread) : (s.modThread v k f).gangSeq = s.gangSeq := rfl
@[simp] theorem modThread_relSeq (s : State) (v k : Nat) (f : Thread → Thread) : (s.modThread v k f).relSeq = s.relSeq := rfl
@[simp] theorem modThread_spawns (s : State) (v k : Nat) (f : Thread → Thread) : (s.modThread v k f).spawns = s.spawns := rfl
@[simp] theorem modThread_hbm (s : State) (v k : Nat) (f : Thread → Thread) : (s.modThread v k f).hbm = s.hbm := rfl
@[simp] theorem modThread_hbmBad (s : State) (v k : Nat) (f : Thread → Thread) : (s.modThread v k f).hbmBad = s.hbmBad := rfl
@[simp] theorem modThread_roots (s : State) (v k : Nat) (f : Thread → Thread) : (s.modThread v k f).roots = s.roots := rfl
@[simp] theorem modThread_tinv (s : State) (v k : Nat) (f : Thread → Thread) : (s.modThread v k f).tinv = s.tinv := rfl
@[simp] theorem modThread_memOps (s : State) (v k : Nat) (f : Thread → Thread) : (s.modThread v k f).memOps = s.memOps := rfl
@[simp] theorem modThread_uncached (s : State) (v k : Nat) (f : Thread → Thread) : (s.modThread v k f).uncached = s.uncached := rfl
@[simp] theorem modThread_zones (s : State) (v k : Nat) (f : Thread → Thread) : (s.modThread v k f).zones = s.zones := rfl
@[simp] theorem modThread_hbmStacks (s : State) (v k : Nat) (f : Thread → Thread) : (s.modThread v k f).hbmStacks = s.hbmStacks := rfl
@[simp] theorem modThread_hklog (s : State) (v k : Nat) (f : Thread → Thread) : (s.modThread v k f).hklog = s.hklog := rfl
@[simp] theorem modThread_hktail (s : State) (v k : Nat) (f : Thread → Thread) : (s.modThread v k f).hktail = s.hktail := rfl
@[simp] theorem modThread_hklost (s : State) (v k : Nat) (f : Thread → Thread) : (s.modThread v k f).hklost = s.hklost := rfl
@[simp] theorem modThread_hkUnits (s : State) (v k : Nat) (f : Thread → Thread) : (s.modThread v k f).hkUnits = s.hkUnits := rfl
@[simp] theorem modThread_hkBytes (s : State) (v k : Nat) (f : Thread → Thread) : (s.modThread v k f).hkBytes = s.hkBytes := rfl
@[simp] theorem modThread_hkUj (s : State) (v k : Nat) (f : Thread → Thread) : (s.modThread v k f).hkUj = s.hkUj := rfl
@[simp] theorem modThread_schedUj (s : State) (v k : Nat) (f : Thread → Thread) : (s.modThread v k f).schedUj = s.schedUj := rfl
@[simp] theorem modThread_msix (s : State) (v k : Nat) (f : Thread → Thread) : (s.modThread v k f).msix = s.msix := rfl
@[simp] theorem modThread_hostReads (s : State) (v k : Nat) (f : Thread → Thread) : (s.modThread v k f).hostReads = s.hostReads := rfl
@[simp] theorem modThread_ports (s : State) (v k : Nat) (f : Thread → Thread) : (s.modThread v k f).ports = s.ports := rfl
@[simp] theorem modThread_fw (s : State) (v k : Nat) (f : Thread → Thread) : (s.modThread v k f).fw = s.fw := rfl
@[simp] theorem modThread_att (s : State) (v k : Nat) (f : Thread → Thread) : (s.modThread v k f).att = s.att := rfl
@[simp] theorem modThread_nextCmd (s : State) (v k : Nat) (f : Thread → Thread) : (s.modThread v k f).nextCmd = s.nextCmd := rfl
@[simp] theorem modThread_fresh (s : State) (v k : Nat) (f : Thread → Thread) : (s.modThread v k f).fresh = s.fresh := rfl
@[simp] theorem modThread_cur (s : State) (v k : Nat) (f : Thread → Thread) : (s.modThread v k f).cur = s.cur := rfl
@[simp] theorem modThread_agenda (s : State) (v k : Nat) (f : Thread → Thread) : (s.modThread v k f).agenda = s.agenda := rfl

/-! `putThread`. -/

@[simp] theorem putThread_clk (s : State) (t : Thread) : (s.putThread t).clk = s.clk := rfl
@[simp] theorem putThread_phase (s : State) (t : Thread) : (s.putThread t).phase = s.phase := rfl
@[simp] theorem putThread_failCode (s : State) (t : Thread) : (s.putThread t).failCode = s.failCode := rfl
@[simp] theorem putThread_bootReport (s : State) (t : Thread) : (s.putThread t).bootReport = s.bootReport := rfl
@[simp] theorem putThread_bootSnap (s : State) (t : Thread) : (s.putThread t).bootSnap = s.bootSnap := rfl
@[simp] theorem putThread_serial (s : State) (t : Thread) : (s.putThread t).serial = s.serial := rfl
@[simp] theorem putThread_fwVersion (s : State) (t : Thread) : (s.putThread t).fwVersion = s.fwVersion := rfl
@[simp] theorem putThread_fwRollback (s : State) (t : Thread) : (s.putThread t).fwRollback = s.fwRollback := rfl
@[simp] theorem putThread_fwMeasure (s : State) (t : Thread) : (s.putThread t).fwMeasure = s.fwMeasure := rfl
@[simp] theorem putThread_nvtile (s : State) (t : Thread) : (s.putThread t).nvtile = s.nvtile := rfl
@[simp] theorem putThread_nrank (s : State) (t : Thread) : (s.putThread t).nrank = s.nrank := rfl
@[simp] theorem putThread_fuseTiles (s : State) (t : Thread) : (s.putThread t).fuseTiles = s.fuseTiles := rfl
@[simp] theorem putThread_fuseCores (s : State) (t : Thread) : (s.putThread t).fuseCores = s.fuseCores := rfl
@[simp] theorem putThread_retireLog (s : State) (t : Thread) : (s.putThread t).retireLog = s.retireLog := rfl
@[simp] theorem putThread_snapshots (s : State) (t : Thread) : (s.putThread t).snapshots = s.snapshots := rfl
@[simp] theorem putThread_snapClk (s : State) (t : Thread) : (s.putThread t).snapClk = s.snapClk := rfl
@[simp] theorem putThread_tiles (s : State) (t : Thread) : (s.putThread t).tiles = s.tiles := rfl
@[simp] theorem putThread_vtiles (s : State) (t : Thread) : (s.putThread t).vtiles = s.vtiles := rfl
@[simp] theorem putThread_rotations (s : State) (t : Thread) : (s.putThread t).rotations = s.rotations := rfl
@[simp] theorem putThread_updates (s : State) (t : Thread) : (s.putThread t).updates = s.updates := rfl
@[simp] theorem putThread_tests (s : State) (t : Thread) : (s.putThread t).tests = s.tests := rfl
@[simp] theorem putThread_ckpts (s : State) (t : Thread) : (s.putThread t).ckpts = s.ckpts := rfl
@[simp] theorem putThread_cores (s : State) (t : Thread) : (s.putThread t).cores = s.cores := rfl
@[simp] theorem putThread_gangs (s : State) (t : Thread) : (s.putThread t).gangs = s.gangs := rfl
@[simp] theorem putThread_bounds (s : State) (t : Thread) : (s.putThread t).bounds = s.bounds := rfl
@[simp] theorem putThread_queues (s : State) (t : Thread) : (s.putThread t).queues = s.queues := rfl
@[simp] theorem putThread_parts (s : State) (t : Thread) : (s.putThread t).parts = s.parts := rfl
@[simp] theorem putThread_qcmd (s : State) (t : Thread) : (s.putThread t).qcmd = s.qcmd := rfl
@[simp] theorem putThread_turns (s : State) (t : Thread) : (s.putThread t).turns = s.turns := rfl
@[simp] theorem putThread_lastStaged (s : State) (t : Thread) : (s.putThread t).lastStaged = s.lastStaged := rfl
@[simp] theorem putThread_servedQ (s : State) (t : Thread) : (s.putThread t).servedQ = s.servedQ := rfl
@[simp] theorem putThread_heldBinds (s : State) (t : Thread) : (s.putThread t).heldBinds = s.heldBinds := rfl
@[simp] theorem putThread_heldPre (s : State) (t : Thread) : (s.putThread t).heldPre = s.heldPre := rfl
@[simp] theorem putThread_windowHeld (s : State) (t : Thread) : (s.putThread t).windowHeld = s.windowHeld := rfl
@[simp] theorem putThread_audits (s : State) (t : Thread) : (s.putThread t).audits = s.audits := rfl
@[simp] theorem putThread_lastServed (s : State) (t : Thread) : (s.putThread t).lastServed = s.lastServed := rfl
@[simp] theorem putThread_gangSeq (s : State) (t : Thread) : (s.putThread t).gangSeq = s.gangSeq := rfl
@[simp] theorem putThread_relSeq (s : State) (t : Thread) : (s.putThread t).relSeq = s.relSeq := rfl
@[simp] theorem putThread_spawns (s : State) (t : Thread) : (s.putThread t).spawns = s.spawns := rfl
@[simp] theorem putThread_hbm (s : State) (t : Thread) : (s.putThread t).hbm = s.hbm := rfl
@[simp] theorem putThread_hbmBad (s : State) (t : Thread) : (s.putThread t).hbmBad = s.hbmBad := rfl
@[simp] theorem putThread_roots (s : State) (t : Thread) : (s.putThread t).roots = s.roots := rfl
@[simp] theorem putThread_tinv (s : State) (t : Thread) : (s.putThread t).tinv = s.tinv := rfl
@[simp] theorem putThread_memOps (s : State) (t : Thread) : (s.putThread t).memOps = s.memOps := rfl
@[simp] theorem putThread_uncached (s : State) (t : Thread) : (s.putThread t).uncached = s.uncached := rfl
@[simp] theorem putThread_zones (s : State) (t : Thread) : (s.putThread t).zones = s.zones := rfl
@[simp] theorem putThread_hbmStacks (s : State) (t : Thread) : (s.putThread t).hbmStacks = s.hbmStacks := rfl
@[simp] theorem putThread_hklog (s : State) (t : Thread) : (s.putThread t).hklog = s.hklog := rfl
@[simp] theorem putThread_hktail (s : State) (t : Thread) : (s.putThread t).hktail = s.hktail := rfl
@[simp] theorem putThread_hklost (s : State) (t : Thread) : (s.putThread t).hklost = s.hklost := rfl
@[simp] theorem putThread_hkUnits (s : State) (t : Thread) : (s.putThread t).hkUnits = s.hkUnits := rfl
@[simp] theorem putThread_hkBytes (s : State) (t : Thread) : (s.putThread t).hkBytes = s.hkBytes := rfl
@[simp] theorem putThread_hkUj (s : State) (t : Thread) : (s.putThread t).hkUj = s.hkUj := rfl
@[simp] theorem putThread_schedUj (s : State) (t : Thread) : (s.putThread t).schedUj = s.schedUj := rfl
@[simp] theorem putThread_msix (s : State) (t : Thread) : (s.putThread t).msix = s.msix := rfl
@[simp] theorem putThread_hostReads (s : State) (t : Thread) : (s.putThread t).hostReads = s.hostReads := rfl
@[simp] theorem putThread_ports (s : State) (t : Thread) : (s.putThread t).ports = s.ports := rfl
@[simp] theorem putThread_fw (s : State) (t : Thread) : (s.putThread t).fw = s.fw := rfl
@[simp] theorem putThread_att (s : State) (t : Thread) : (s.putThread t).att = s.att := rfl
@[simp] theorem putThread_nextCmd (s : State) (t : Thread) : (s.putThread t).nextCmd = s.nextCmd := rfl
@[simp] theorem putThread_fresh (s : State) (t : Thread) : (s.putThread t).fresh = s.fresh := rfl
@[simp] theorem putThread_cur (s : State) (t : Thread) : (s.putThread t).cur = s.cur := rfl
@[simp] theorem putThread_agenda (s : State) (t : Thread) : (s.putThread t).agenda = s.agenda := rfl

/-! `modCur`. -/

@[simp] theorem modCur_clk (s : State) (f : Thread → Thread) : (s.modCur f).clk = s.clk := rfl
@[simp] theorem modCur_phase (s : State) (f : Thread → Thread) : (s.modCur f).phase = s.phase := rfl
@[simp] theorem modCur_failCode (s : State) (f : Thread → Thread) : (s.modCur f).failCode = s.failCode := rfl
@[simp] theorem modCur_bootReport (s : State) (f : Thread → Thread) : (s.modCur f).bootReport = s.bootReport := rfl
@[simp] theorem modCur_bootSnap (s : State) (f : Thread → Thread) : (s.modCur f).bootSnap = s.bootSnap := rfl
@[simp] theorem modCur_serial (s : State) (f : Thread → Thread) : (s.modCur f).serial = s.serial := rfl
@[simp] theorem modCur_fwVersion (s : State) (f : Thread → Thread) : (s.modCur f).fwVersion = s.fwVersion := rfl
@[simp] theorem modCur_fwRollback (s : State) (f : Thread → Thread) : (s.modCur f).fwRollback = s.fwRollback := rfl
@[simp] theorem modCur_fwMeasure (s : State) (f : Thread → Thread) : (s.modCur f).fwMeasure = s.fwMeasure := rfl
@[simp] theorem modCur_nvtile (s : State) (f : Thread → Thread) : (s.modCur f).nvtile = s.nvtile := rfl
@[simp] theorem modCur_nrank (s : State) (f : Thread → Thread) : (s.modCur f).nrank = s.nrank := rfl
@[simp] theorem modCur_fuseTiles (s : State) (f : Thread → Thread) : (s.modCur f).fuseTiles = s.fuseTiles := rfl
@[simp] theorem modCur_fuseCores (s : State) (f : Thread → Thread) : (s.modCur f).fuseCores = s.fuseCores := rfl
@[simp] theorem modCur_retireLog (s : State) (f : Thread → Thread) : (s.modCur f).retireLog = s.retireLog := rfl
@[simp] theorem modCur_snapshots (s : State) (f : Thread → Thread) : (s.modCur f).snapshots = s.snapshots := rfl
@[simp] theorem modCur_snapClk (s : State) (f : Thread → Thread) : (s.modCur f).snapClk = s.snapClk := rfl
@[simp] theorem modCur_tiles (s : State) (f : Thread → Thread) : (s.modCur f).tiles = s.tiles := rfl
@[simp] theorem modCur_vtiles (s : State) (f : Thread → Thread) : (s.modCur f).vtiles = s.vtiles := rfl
@[simp] theorem modCur_rotations (s : State) (f : Thread → Thread) : (s.modCur f).rotations = s.rotations := rfl
@[simp] theorem modCur_updates (s : State) (f : Thread → Thread) : (s.modCur f).updates = s.updates := rfl
@[simp] theorem modCur_tests (s : State) (f : Thread → Thread) : (s.modCur f).tests = s.tests := rfl
@[simp] theorem modCur_ckpts (s : State) (f : Thread → Thread) : (s.modCur f).ckpts = s.ckpts := rfl
@[simp] theorem modCur_cores (s : State) (f : Thread → Thread) : (s.modCur f).cores = s.cores := rfl
@[simp] theorem modCur_gangs (s : State) (f : Thread → Thread) : (s.modCur f).gangs = s.gangs := rfl
@[simp] theorem modCur_bounds (s : State) (f : Thread → Thread) : (s.modCur f).bounds = s.bounds := rfl
@[simp] theorem modCur_queues (s : State) (f : Thread → Thread) : (s.modCur f).queues = s.queues := rfl
@[simp] theorem modCur_parts (s : State) (f : Thread → Thread) : (s.modCur f).parts = s.parts := rfl
@[simp] theorem modCur_qcmd (s : State) (f : Thread → Thread) : (s.modCur f).qcmd = s.qcmd := rfl
@[simp] theorem modCur_turns (s : State) (f : Thread → Thread) : (s.modCur f).turns = s.turns := rfl
@[simp] theorem modCur_lastStaged (s : State) (f : Thread → Thread) : (s.modCur f).lastStaged = s.lastStaged := rfl
@[simp] theorem modCur_servedQ (s : State) (f : Thread → Thread) : (s.modCur f).servedQ = s.servedQ := rfl
@[simp] theorem modCur_heldBinds (s : State) (f : Thread → Thread) : (s.modCur f).heldBinds = s.heldBinds := rfl
@[simp] theorem modCur_heldPre (s : State) (f : Thread → Thread) : (s.modCur f).heldPre = s.heldPre := rfl
@[simp] theorem modCur_windowHeld (s : State) (f : Thread → Thread) : (s.modCur f).windowHeld = s.windowHeld := rfl
@[simp] theorem modCur_audits (s : State) (f : Thread → Thread) : (s.modCur f).audits = s.audits := rfl
@[simp] theorem modCur_lastServed (s : State) (f : Thread → Thread) : (s.modCur f).lastServed = s.lastServed := rfl
@[simp] theorem modCur_gangSeq (s : State) (f : Thread → Thread) : (s.modCur f).gangSeq = s.gangSeq := rfl
@[simp] theorem modCur_relSeq (s : State) (f : Thread → Thread) : (s.modCur f).relSeq = s.relSeq := rfl
@[simp] theorem modCur_spawns (s : State) (f : Thread → Thread) : (s.modCur f).spawns = s.spawns := rfl
@[simp] theorem modCur_hbm (s : State) (f : Thread → Thread) : (s.modCur f).hbm = s.hbm := rfl
@[simp] theorem modCur_hbmBad (s : State) (f : Thread → Thread) : (s.modCur f).hbmBad = s.hbmBad := rfl
@[simp] theorem modCur_roots (s : State) (f : Thread → Thread) : (s.modCur f).roots = s.roots := rfl
@[simp] theorem modCur_tinv (s : State) (f : Thread → Thread) : (s.modCur f).tinv = s.tinv := rfl
@[simp] theorem modCur_memOps (s : State) (f : Thread → Thread) : (s.modCur f).memOps = s.memOps := rfl
@[simp] theorem modCur_uncached (s : State) (f : Thread → Thread) : (s.modCur f).uncached = s.uncached := rfl
@[simp] theorem modCur_zones (s : State) (f : Thread → Thread) : (s.modCur f).zones = s.zones := rfl
@[simp] theorem modCur_hbmStacks (s : State) (f : Thread → Thread) : (s.modCur f).hbmStacks = s.hbmStacks := rfl
@[simp] theorem modCur_hklog (s : State) (f : Thread → Thread) : (s.modCur f).hklog = s.hklog := rfl
@[simp] theorem modCur_hktail (s : State) (f : Thread → Thread) : (s.modCur f).hktail = s.hktail := rfl
@[simp] theorem modCur_hklost (s : State) (f : Thread → Thread) : (s.modCur f).hklost = s.hklost := rfl
@[simp] theorem modCur_hkUnits (s : State) (f : Thread → Thread) : (s.modCur f).hkUnits = s.hkUnits := rfl
@[simp] theorem modCur_hkBytes (s : State) (f : Thread → Thread) : (s.modCur f).hkBytes = s.hkBytes := rfl
@[simp] theorem modCur_hkUj (s : State) (f : Thread → Thread) : (s.modCur f).hkUj = s.hkUj := rfl
@[simp] theorem modCur_schedUj (s : State) (f : Thread → Thread) : (s.modCur f).schedUj = s.schedUj := rfl
@[simp] theorem modCur_msix (s : State) (f : Thread → Thread) : (s.modCur f).msix = s.msix := rfl
@[simp] theorem modCur_hostReads (s : State) (f : Thread → Thread) : (s.modCur f).hostReads = s.hostReads := rfl
@[simp] theorem modCur_ports (s : State) (f : Thread → Thread) : (s.modCur f).ports = s.ports := rfl
@[simp] theorem modCur_fw (s : State) (f : Thread → Thread) : (s.modCur f).fw = s.fw := rfl
@[simp] theorem modCur_att (s : State) (f : Thread → Thread) : (s.modCur f).att = s.att := rfl
@[simp] theorem modCur_nextCmd (s : State) (f : Thread → Thread) : (s.modCur f).nextCmd = s.nextCmd := rfl
@[simp] theorem modCur_fresh (s : State) (f : Thread → Thread) : (s.modCur f).fresh = s.fresh := rfl
@[simp] theorem modCur_cur (s : State) (f : Thread → Thread) : (s.modCur f).cur = s.cur := rfl
@[simp] theorem modCur_agenda (s : State) (f : Thread → Thread) : (s.modCur f).agenda = s.agenda := rfl

/-! `modCore`. -/

@[simp] theorem modCore_clk (s : State) (v k : Nat) (f : Core → Core) : (s.modCore v k f).clk = s.clk := rfl
@[simp] theorem modCore_phase (s : State) (v k : Nat) (f : Core → Core) : (s.modCore v k f).phase = s.phase := rfl
@[simp] theorem modCore_failCode (s : State) (v k : Nat) (f : Core → Core) : (s.modCore v k f).failCode = s.failCode := rfl
@[simp] theorem modCore_bootReport (s : State) (v k : Nat) (f : Core → Core) : (s.modCore v k f).bootReport = s.bootReport := rfl
@[simp] theorem modCore_bootSnap (s : State) (v k : Nat) (f : Core → Core) : (s.modCore v k f).bootSnap = s.bootSnap := rfl
@[simp] theorem modCore_serial (s : State) (v k : Nat) (f : Core → Core) : (s.modCore v k f).serial = s.serial := rfl
@[simp] theorem modCore_fwVersion (s : State) (v k : Nat) (f : Core → Core) : (s.modCore v k f).fwVersion = s.fwVersion := rfl
@[simp] theorem modCore_fwRollback (s : State) (v k : Nat) (f : Core → Core) : (s.modCore v k f).fwRollback = s.fwRollback := rfl
@[simp] theorem modCore_fwMeasure (s : State) (v k : Nat) (f : Core → Core) : (s.modCore v k f).fwMeasure = s.fwMeasure := rfl
@[simp] theorem modCore_nvtile (s : State) (v k : Nat) (f : Core → Core) : (s.modCore v k f).nvtile = s.nvtile := rfl
@[simp] theorem modCore_nrank (s : State) (v k : Nat) (f : Core → Core) : (s.modCore v k f).nrank = s.nrank := rfl
@[simp] theorem modCore_fuseTiles (s : State) (v k : Nat) (f : Core → Core) : (s.modCore v k f).fuseTiles = s.fuseTiles := rfl
@[simp] theorem modCore_fuseCores (s : State) (v k : Nat) (f : Core → Core) : (s.modCore v k f).fuseCores = s.fuseCores := rfl
@[simp] theorem modCore_retireLog (s : State) (v k : Nat) (f : Core → Core) : (s.modCore v k f).retireLog = s.retireLog := rfl
@[simp] theorem modCore_snapshots (s : State) (v k : Nat) (f : Core → Core) : (s.modCore v k f).snapshots = s.snapshots := rfl
@[simp] theorem modCore_snapClk (s : State) (v k : Nat) (f : Core → Core) : (s.modCore v k f).snapClk = s.snapClk := rfl
@[simp] theorem modCore_tiles (s : State) (v k : Nat) (f : Core → Core) : (s.modCore v k f).tiles = s.tiles := rfl
@[simp] theorem modCore_vtiles (s : State) (v k : Nat) (f : Core → Core) : (s.modCore v k f).vtiles = s.vtiles := rfl
@[simp] theorem modCore_rotations (s : State) (v k : Nat) (f : Core → Core) : (s.modCore v k f).rotations = s.rotations := rfl
@[simp] theorem modCore_updates (s : State) (v k : Nat) (f : Core → Core) : (s.modCore v k f).updates = s.updates := rfl
@[simp] theorem modCore_tests (s : State) (v k : Nat) (f : Core → Core) : (s.modCore v k f).tests = s.tests := rfl
@[simp] theorem modCore_ckpts (s : State) (v k : Nat) (f : Core → Core) : (s.modCore v k f).ckpts = s.ckpts := rfl
@[simp] theorem modCore_threads (s : State) (v k : Nat) (f : Core → Core) : (s.modCore v k f).threads = s.threads := rfl
@[simp] theorem modCore_gangs (s : State) (v k : Nat) (f : Core → Core) : (s.modCore v k f).gangs = s.gangs := rfl
@[simp] theorem modCore_bounds (s : State) (v k : Nat) (f : Core → Core) : (s.modCore v k f).bounds = s.bounds := rfl
@[simp] theorem modCore_queues (s : State) (v k : Nat) (f : Core → Core) : (s.modCore v k f).queues = s.queues := rfl
@[simp] theorem modCore_parts (s : State) (v k : Nat) (f : Core → Core) : (s.modCore v k f).parts = s.parts := rfl
@[simp] theorem modCore_qcmd (s : State) (v k : Nat) (f : Core → Core) : (s.modCore v k f).qcmd = s.qcmd := rfl
@[simp] theorem modCore_turns (s : State) (v k : Nat) (f : Core → Core) : (s.modCore v k f).turns = s.turns := rfl
@[simp] theorem modCore_lastStaged (s : State) (v k : Nat) (f : Core → Core) : (s.modCore v k f).lastStaged = s.lastStaged := rfl
@[simp] theorem modCore_servedQ (s : State) (v k : Nat) (f : Core → Core) : (s.modCore v k f).servedQ = s.servedQ := rfl
@[simp] theorem modCore_heldBinds (s : State) (v k : Nat) (f : Core → Core) : (s.modCore v k f).heldBinds = s.heldBinds := rfl
@[simp] theorem modCore_heldPre (s : State) (v k : Nat) (f : Core → Core) : (s.modCore v k f).heldPre = s.heldPre := rfl
@[simp] theorem modCore_windowHeld (s : State) (v k : Nat) (f : Core → Core) : (s.modCore v k f).windowHeld = s.windowHeld := rfl
@[simp] theorem modCore_audits (s : State) (v k : Nat) (f : Core → Core) : (s.modCore v k f).audits = s.audits := rfl
@[simp] theorem modCore_lastServed (s : State) (v k : Nat) (f : Core → Core) : (s.modCore v k f).lastServed = s.lastServed := rfl
@[simp] theorem modCore_gangSeq (s : State) (v k : Nat) (f : Core → Core) : (s.modCore v k f).gangSeq = s.gangSeq := rfl
@[simp] theorem modCore_relSeq (s : State) (v k : Nat) (f : Core → Core) : (s.modCore v k f).relSeq = s.relSeq := rfl
@[simp] theorem modCore_spawns (s : State) (v k : Nat) (f : Core → Core) : (s.modCore v k f).spawns = s.spawns := rfl
@[simp] theorem modCore_hbm (s : State) (v k : Nat) (f : Core → Core) : (s.modCore v k f).hbm = s.hbm := rfl
@[simp] theorem modCore_hbmBad (s : State) (v k : Nat) (f : Core → Core) : (s.modCore v k f).hbmBad = s.hbmBad := rfl
@[simp] theorem modCore_roots (s : State) (v k : Nat) (f : Core → Core) : (s.modCore v k f).roots = s.roots := rfl
@[simp] theorem modCore_tinv (s : State) (v k : Nat) (f : Core → Core) : (s.modCore v k f).tinv = s.tinv := rfl
@[simp] theorem modCore_memOps (s : State) (v k : Nat) (f : Core → Core) : (s.modCore v k f).memOps = s.memOps := rfl
@[simp] theorem modCore_uncached (s : State) (v k : Nat) (f : Core → Core) : (s.modCore v k f).uncached = s.uncached := rfl
@[simp] theorem modCore_zones (s : State) (v k : Nat) (f : Core → Core) : (s.modCore v k f).zones = s.zones := rfl
@[simp] theorem modCore_hbmStacks (s : State) (v k : Nat) (f : Core → Core) : (s.modCore v k f).hbmStacks = s.hbmStacks := rfl
@[simp] theorem modCore_hklog (s : State) (v k : Nat) (f : Core → Core) : (s.modCore v k f).hklog = s.hklog := rfl
@[simp] theorem modCore_hktail (s : State) (v k : Nat) (f : Core → Core) : (s.modCore v k f).hktail = s.hktail := rfl
@[simp] theorem modCore_hklost (s : State) (v k : Nat) (f : Core → Core) : (s.modCore v k f).hklost = s.hklost := rfl
@[simp] theorem modCore_hkUnits (s : State) (v k : Nat) (f : Core → Core) : (s.modCore v k f).hkUnits = s.hkUnits := rfl
@[simp] theorem modCore_hkBytes (s : State) (v k : Nat) (f : Core → Core) : (s.modCore v k f).hkBytes = s.hkBytes := rfl
@[simp] theorem modCore_hkUj (s : State) (v k : Nat) (f : Core → Core) : (s.modCore v k f).hkUj = s.hkUj := rfl
@[simp] theorem modCore_schedUj (s : State) (v k : Nat) (f : Core → Core) : (s.modCore v k f).schedUj = s.schedUj := rfl
@[simp] theorem modCore_msix (s : State) (v k : Nat) (f : Core → Core) : (s.modCore v k f).msix = s.msix := rfl
@[simp] theorem modCore_hostReads (s : State) (v k : Nat) (f : Core → Core) : (s.modCore v k f).hostReads = s.hostReads := rfl
@[simp] theorem modCore_ports (s : State) (v k : Nat) (f : Core → Core) : (s.modCore v k f).ports = s.ports := rfl
@[simp] theorem modCore_fw (s : State) (v k : Nat) (f : Core → Core) : (s.modCore v k f).fw = s.fw := rfl
@[simp] theorem modCore_att (s : State) (v k : Nat) (f : Core → Core) : (s.modCore v k f).att = s.att := rfl
@[simp] theorem modCore_nextCmd (s : State) (v k : Nat) (f : Core → Core) : (s.modCore v k f).nextCmd = s.nextCmd := rfl
@[simp] theorem modCore_fresh (s : State) (v k : Nat) (f : Core → Core) : (s.modCore v k f).fresh = s.fresh := rfl
@[simp] theorem modCore_cur (s : State) (v k : Nat) (f : Core → Core) : (s.modCore v k f).cur = s.cur := rfl
@[simp] theorem modCore_agenda (s : State) (v k : Nat) (f : Core → Core) : (s.modCore v k f).agenda = s.agenda := rfl

/-! `modVTile`. -/

@[simp] theorem modVTile_clk (s : State) (v : Nat) (f : VTile → VTile) : (s.modVTile v f).clk = s.clk := rfl
@[simp] theorem modVTile_phase (s : State) (v : Nat) (f : VTile → VTile) : (s.modVTile v f).phase = s.phase := rfl
@[simp] theorem modVTile_failCode (s : State) (v : Nat) (f : VTile → VTile) : (s.modVTile v f).failCode = s.failCode := rfl
@[simp] theorem modVTile_bootReport (s : State) (v : Nat) (f : VTile → VTile) : (s.modVTile v f).bootReport = s.bootReport := rfl
@[simp] theorem modVTile_bootSnap (s : State) (v : Nat) (f : VTile → VTile) : (s.modVTile v f).bootSnap = s.bootSnap := rfl
@[simp] theorem modVTile_serial (s : State) (v : Nat) (f : VTile → VTile) : (s.modVTile v f).serial = s.serial := rfl
@[simp] theorem modVTile_fwVersion (s : State) (v : Nat) (f : VTile → VTile) : (s.modVTile v f).fwVersion = s.fwVersion := rfl
@[simp] theorem modVTile_fwRollback (s : State) (v : Nat) (f : VTile → VTile) : (s.modVTile v f).fwRollback = s.fwRollback := rfl
@[simp] theorem modVTile_fwMeasure (s : State) (v : Nat) (f : VTile → VTile) : (s.modVTile v f).fwMeasure = s.fwMeasure := rfl
@[simp] theorem modVTile_nvtile (s : State) (v : Nat) (f : VTile → VTile) : (s.modVTile v f).nvtile = s.nvtile := rfl
@[simp] theorem modVTile_nrank (s : State) (v : Nat) (f : VTile → VTile) : (s.modVTile v f).nrank = s.nrank := rfl
@[simp] theorem modVTile_fuseTiles (s : State) (v : Nat) (f : VTile → VTile) : (s.modVTile v f).fuseTiles = s.fuseTiles := rfl
@[simp] theorem modVTile_fuseCores (s : State) (v : Nat) (f : VTile → VTile) : (s.modVTile v f).fuseCores = s.fuseCores := rfl
@[simp] theorem modVTile_retireLog (s : State) (v : Nat) (f : VTile → VTile) : (s.modVTile v f).retireLog = s.retireLog := rfl
@[simp] theorem modVTile_snapshots (s : State) (v : Nat) (f : VTile → VTile) : (s.modVTile v f).snapshots = s.snapshots := rfl
@[simp] theorem modVTile_snapClk (s : State) (v : Nat) (f : VTile → VTile) : (s.modVTile v f).snapClk = s.snapClk := rfl
@[simp] theorem modVTile_tiles (s : State) (v : Nat) (f : VTile → VTile) : (s.modVTile v f).tiles = s.tiles := rfl
@[simp] theorem modVTile_rotations (s : State) (v : Nat) (f : VTile → VTile) : (s.modVTile v f).rotations = s.rotations := rfl
@[simp] theorem modVTile_updates (s : State) (v : Nat) (f : VTile → VTile) : (s.modVTile v f).updates = s.updates := rfl
@[simp] theorem modVTile_tests (s : State) (v : Nat) (f : VTile → VTile) : (s.modVTile v f).tests = s.tests := rfl
@[simp] theorem modVTile_ckpts (s : State) (v : Nat) (f : VTile → VTile) : (s.modVTile v f).ckpts = s.ckpts := rfl
@[simp] theorem modVTile_threads (s : State) (v : Nat) (f : VTile → VTile) : (s.modVTile v f).threads = s.threads := rfl
@[simp] theorem modVTile_cores (s : State) (v : Nat) (f : VTile → VTile) : (s.modVTile v f).cores = s.cores := rfl
@[simp] theorem modVTile_gangs (s : State) (v : Nat) (f : VTile → VTile) : (s.modVTile v f).gangs = s.gangs := rfl
@[simp] theorem modVTile_bounds (s : State) (v : Nat) (f : VTile → VTile) : (s.modVTile v f).bounds = s.bounds := rfl
@[simp] theorem modVTile_queues (s : State) (v : Nat) (f : VTile → VTile) : (s.modVTile v f).queues = s.queues := rfl
@[simp] theorem modVTile_parts (s : State) (v : Nat) (f : VTile → VTile) : (s.modVTile v f).parts = s.parts := rfl
@[simp] theorem modVTile_qcmd (s : State) (v : Nat) (f : VTile → VTile) : (s.modVTile v f).qcmd = s.qcmd := rfl
@[simp] theorem modVTile_turns (s : State) (v : Nat) (f : VTile → VTile) : (s.modVTile v f).turns = s.turns := rfl
@[simp] theorem modVTile_lastStaged (s : State) (v : Nat) (f : VTile → VTile) : (s.modVTile v f).lastStaged = s.lastStaged := rfl
@[simp] theorem modVTile_servedQ (s : State) (v : Nat) (f : VTile → VTile) : (s.modVTile v f).servedQ = s.servedQ := rfl
@[simp] theorem modVTile_heldBinds (s : State) (v : Nat) (f : VTile → VTile) : (s.modVTile v f).heldBinds = s.heldBinds := rfl
@[simp] theorem modVTile_heldPre (s : State) (v : Nat) (f : VTile → VTile) : (s.modVTile v f).heldPre = s.heldPre := rfl
@[simp] theorem modVTile_windowHeld (s : State) (v : Nat) (f : VTile → VTile) : (s.modVTile v f).windowHeld = s.windowHeld := rfl
@[simp] theorem modVTile_audits (s : State) (v : Nat) (f : VTile → VTile) : (s.modVTile v f).audits = s.audits := rfl
@[simp] theorem modVTile_lastServed (s : State) (v : Nat) (f : VTile → VTile) : (s.modVTile v f).lastServed = s.lastServed := rfl
@[simp] theorem modVTile_gangSeq (s : State) (v : Nat) (f : VTile → VTile) : (s.modVTile v f).gangSeq = s.gangSeq := rfl
@[simp] theorem modVTile_relSeq (s : State) (v : Nat) (f : VTile → VTile) : (s.modVTile v f).relSeq = s.relSeq := rfl
@[simp] theorem modVTile_spawns (s : State) (v : Nat) (f : VTile → VTile) : (s.modVTile v f).spawns = s.spawns := rfl
@[simp] theorem modVTile_hbm (s : State) (v : Nat) (f : VTile → VTile) : (s.modVTile v f).hbm = s.hbm := rfl
@[simp] theorem modVTile_hbmBad (s : State) (v : Nat) (f : VTile → VTile) : (s.modVTile v f).hbmBad = s.hbmBad := rfl
@[simp] theorem modVTile_roots (s : State) (v : Nat) (f : VTile → VTile) : (s.modVTile v f).roots = s.roots := rfl
@[simp] theorem modVTile_tinv (s : State) (v : Nat) (f : VTile → VTile) : (s.modVTile v f).tinv = s.tinv := rfl
@[simp] theorem modVTile_memOps (s : State) (v : Nat) (f : VTile → VTile) : (s.modVTile v f).memOps = s.memOps := rfl
@[simp] theorem modVTile_uncached (s : State) (v : Nat) (f : VTile → VTile) : (s.modVTile v f).uncached = s.uncached := rfl
@[simp] theorem modVTile_zones (s : State) (v : Nat) (f : VTile → VTile) : (s.modVTile v f).zones = s.zones := rfl
@[simp] theorem modVTile_hbmStacks (s : State) (v : Nat) (f : VTile → VTile) : (s.modVTile v f).hbmStacks = s.hbmStacks := rfl
@[simp] theorem modVTile_hklog (s : State) (v : Nat) (f : VTile → VTile) : (s.modVTile v f).hklog = s.hklog := rfl
@[simp] theorem modVTile_hktail (s : State) (v : Nat) (f : VTile → VTile) : (s.modVTile v f).hktail = s.hktail := rfl
@[simp] theorem modVTile_hklost (s : State) (v : Nat) (f : VTile → VTile) : (s.modVTile v f).hklost = s.hklost := rfl
@[simp] theorem modVTile_hkUnits (s : State) (v : Nat) (f : VTile → VTile) : (s.modVTile v f).hkUnits = s.hkUnits := rfl
@[simp] theorem modVTile_hkBytes (s : State) (v : Nat) (f : VTile → VTile) : (s.modVTile v f).hkBytes = s.hkBytes := rfl
@[simp] theorem modVTile_hkUj (s : State) (v : Nat) (f : VTile → VTile) : (s.modVTile v f).hkUj = s.hkUj := rfl
@[simp] theorem modVTile_schedUj (s : State) (v : Nat) (f : VTile → VTile) : (s.modVTile v f).schedUj = s.schedUj := rfl
@[simp] theorem modVTile_msix (s : State) (v : Nat) (f : VTile → VTile) : (s.modVTile v f).msix = s.msix := rfl
@[simp] theorem modVTile_hostReads (s : State) (v : Nat) (f : VTile → VTile) : (s.modVTile v f).hostReads = s.hostReads := rfl
@[simp] theorem modVTile_ports (s : State) (v : Nat) (f : VTile → VTile) : (s.modVTile v f).ports = s.ports := rfl
@[simp] theorem modVTile_fw (s : State) (v : Nat) (f : VTile → VTile) : (s.modVTile v f).fw = s.fw := rfl
@[simp] theorem modVTile_att (s : State) (v : Nat) (f : VTile → VTile) : (s.modVTile v f).att = s.att := rfl
@[simp] theorem modVTile_nextCmd (s : State) (v : Nat) (f : VTile → VTile) : (s.modVTile v f).nextCmd = s.nextCmd := rfl
@[simp] theorem modVTile_fresh (s : State) (v : Nat) (f : VTile → VTile) : (s.modVTile v f).fresh = s.fresh := rfl
@[simp] theorem modVTile_cur (s : State) (v : Nat) (f : VTile → VTile) : (s.modVTile v f).cur = s.cur := rfl
@[simp] theorem modVTile_agenda (s : State) (v : Nat) (f : VTile → VTile) : (s.modVTile v f).agenda = s.agenda := rfl

/-! `modPTile`. -/

@[simp] theorem modPTile_clk (s : State) (v : Nat) (f : PTile → PTile) : (s.modPTile v f).clk = s.clk := rfl
@[simp] theorem modPTile_phase (s : State) (v : Nat) (f : PTile → PTile) : (s.modPTile v f).phase = s.phase := rfl
@[simp] theorem modPTile_failCode (s : State) (v : Nat) (f : PTile → PTile) : (s.modPTile v f).failCode = s.failCode := rfl
@[simp] theorem modPTile_bootReport (s : State) (v : Nat) (f : PTile → PTile) : (s.modPTile v f).bootReport = s.bootReport := rfl
@[simp] theorem modPTile_bootSnap (s : State) (v : Nat) (f : PTile → PTile) : (s.modPTile v f).bootSnap = s.bootSnap := rfl
@[simp] theorem modPTile_serial (s : State) (v : Nat) (f : PTile → PTile) : (s.modPTile v f).serial = s.serial := rfl
@[simp] theorem modPTile_fwVersion (s : State) (v : Nat) (f : PTile → PTile) : (s.modPTile v f).fwVersion = s.fwVersion := rfl
@[simp] theorem modPTile_fwRollback (s : State) (v : Nat) (f : PTile → PTile) : (s.modPTile v f).fwRollback = s.fwRollback := rfl
@[simp] theorem modPTile_fwMeasure (s : State) (v : Nat) (f : PTile → PTile) : (s.modPTile v f).fwMeasure = s.fwMeasure := rfl
@[simp] theorem modPTile_nvtile (s : State) (v : Nat) (f : PTile → PTile) : (s.modPTile v f).nvtile = s.nvtile := rfl
@[simp] theorem modPTile_nrank (s : State) (v : Nat) (f : PTile → PTile) : (s.modPTile v f).nrank = s.nrank := rfl
@[simp] theorem modPTile_fuseTiles (s : State) (v : Nat) (f : PTile → PTile) : (s.modPTile v f).fuseTiles = s.fuseTiles := rfl
@[simp] theorem modPTile_fuseCores (s : State) (v : Nat) (f : PTile → PTile) : (s.modPTile v f).fuseCores = s.fuseCores := rfl
@[simp] theorem modPTile_retireLog (s : State) (v : Nat) (f : PTile → PTile) : (s.modPTile v f).retireLog = s.retireLog := rfl
@[simp] theorem modPTile_snapshots (s : State) (v : Nat) (f : PTile → PTile) : (s.modPTile v f).snapshots = s.snapshots := rfl
@[simp] theorem modPTile_snapClk (s : State) (v : Nat) (f : PTile → PTile) : (s.modPTile v f).snapClk = s.snapClk := rfl
@[simp] theorem modPTile_vtiles (s : State) (v : Nat) (f : PTile → PTile) : (s.modPTile v f).vtiles = s.vtiles := rfl
@[simp] theorem modPTile_rotations (s : State) (v : Nat) (f : PTile → PTile) : (s.modPTile v f).rotations = s.rotations := rfl
@[simp] theorem modPTile_updates (s : State) (v : Nat) (f : PTile → PTile) : (s.modPTile v f).updates = s.updates := rfl
@[simp] theorem modPTile_tests (s : State) (v : Nat) (f : PTile → PTile) : (s.modPTile v f).tests = s.tests := rfl
@[simp] theorem modPTile_ckpts (s : State) (v : Nat) (f : PTile → PTile) : (s.modPTile v f).ckpts = s.ckpts := rfl
@[simp] theorem modPTile_threads (s : State) (v : Nat) (f : PTile → PTile) : (s.modPTile v f).threads = s.threads := rfl
@[simp] theorem modPTile_cores (s : State) (v : Nat) (f : PTile → PTile) : (s.modPTile v f).cores = s.cores := rfl
@[simp] theorem modPTile_gangs (s : State) (v : Nat) (f : PTile → PTile) : (s.modPTile v f).gangs = s.gangs := rfl
@[simp] theorem modPTile_bounds (s : State) (v : Nat) (f : PTile → PTile) : (s.modPTile v f).bounds = s.bounds := rfl
@[simp] theorem modPTile_queues (s : State) (v : Nat) (f : PTile → PTile) : (s.modPTile v f).queues = s.queues := rfl
@[simp] theorem modPTile_parts (s : State) (v : Nat) (f : PTile → PTile) : (s.modPTile v f).parts = s.parts := rfl
@[simp] theorem modPTile_qcmd (s : State) (v : Nat) (f : PTile → PTile) : (s.modPTile v f).qcmd = s.qcmd := rfl
@[simp] theorem modPTile_turns (s : State) (v : Nat) (f : PTile → PTile) : (s.modPTile v f).turns = s.turns := rfl
@[simp] theorem modPTile_lastStaged (s : State) (v : Nat) (f : PTile → PTile) : (s.modPTile v f).lastStaged = s.lastStaged := rfl
@[simp] theorem modPTile_servedQ (s : State) (v : Nat) (f : PTile → PTile) : (s.modPTile v f).servedQ = s.servedQ := rfl
@[simp] theorem modPTile_heldBinds (s : State) (v : Nat) (f : PTile → PTile) : (s.modPTile v f).heldBinds = s.heldBinds := rfl
@[simp] theorem modPTile_heldPre (s : State) (v : Nat) (f : PTile → PTile) : (s.modPTile v f).heldPre = s.heldPre := rfl
@[simp] theorem modPTile_windowHeld (s : State) (v : Nat) (f : PTile → PTile) : (s.modPTile v f).windowHeld = s.windowHeld := rfl
@[simp] theorem modPTile_audits (s : State) (v : Nat) (f : PTile → PTile) : (s.modPTile v f).audits = s.audits := rfl
@[simp] theorem modPTile_lastServed (s : State) (v : Nat) (f : PTile → PTile) : (s.modPTile v f).lastServed = s.lastServed := rfl
@[simp] theorem modPTile_gangSeq (s : State) (v : Nat) (f : PTile → PTile) : (s.modPTile v f).gangSeq = s.gangSeq := rfl
@[simp] theorem modPTile_relSeq (s : State) (v : Nat) (f : PTile → PTile) : (s.modPTile v f).relSeq = s.relSeq := rfl
@[simp] theorem modPTile_spawns (s : State) (v : Nat) (f : PTile → PTile) : (s.modPTile v f).spawns = s.spawns := rfl
@[simp] theorem modPTile_hbm (s : State) (v : Nat) (f : PTile → PTile) : (s.modPTile v f).hbm = s.hbm := rfl
@[simp] theorem modPTile_hbmBad (s : State) (v : Nat) (f : PTile → PTile) : (s.modPTile v f).hbmBad = s.hbmBad := rfl
@[simp] theorem modPTile_roots (s : State) (v : Nat) (f : PTile → PTile) : (s.modPTile v f).roots = s.roots := rfl
@[simp] theorem modPTile_tinv (s : State) (v : Nat) (f : PTile → PTile) : (s.modPTile v f).tinv = s.tinv := rfl
@[simp] theorem modPTile_memOps (s : State) (v : Nat) (f : PTile → PTile) : (s.modPTile v f).memOps = s.memOps := rfl
@[simp] theorem modPTile_uncached (s : State) (v : Nat) (f : PTile → PTile) : (s.modPTile v f).uncached = s.uncached := rfl
@[simp] theorem modPTile_zones (s : State) (v : Nat) (f : PTile → PTile) : (s.modPTile v f).zones = s.zones := rfl
@[simp] theorem modPTile_hbmStacks (s : State) (v : Nat) (f : PTile → PTile) : (s.modPTile v f).hbmStacks = s.hbmStacks := rfl
@[simp] theorem modPTile_hklog (s : State) (v : Nat) (f : PTile → PTile) : (s.modPTile v f).hklog = s.hklog := rfl
@[simp] theorem modPTile_hktail (s : State) (v : Nat) (f : PTile → PTile) : (s.modPTile v f).hktail = s.hktail := rfl
@[simp] theorem modPTile_hklost (s : State) (v : Nat) (f : PTile → PTile) : (s.modPTile v f).hklost = s.hklost := rfl
@[simp] theorem modPTile_hkUnits (s : State) (v : Nat) (f : PTile → PTile) : (s.modPTile v f).hkUnits = s.hkUnits := rfl
@[simp] theorem modPTile_hkBytes (s : State) (v : Nat) (f : PTile → PTile) : (s.modPTile v f).hkBytes = s.hkBytes := rfl
@[simp] theorem modPTile_hkUj (s : State) (v : Nat) (f : PTile → PTile) : (s.modPTile v f).hkUj = s.hkUj := rfl
@[simp] theorem modPTile_schedUj (s : State) (v : Nat) (f : PTile → PTile) : (s.modPTile v f).schedUj = s.schedUj := rfl
@[simp] theorem modPTile_msix (s : State) (v : Nat) (f : PTile → PTile) : (s.modPTile v f).msix = s.msix := rfl
@[simp] theorem modPTile_hostReads (s : State) (v : Nat) (f : PTile → PTile) : (s.modPTile v f).hostReads = s.hostReads := rfl
@[simp] theorem modPTile_ports (s : State) (v : Nat) (f : PTile → PTile) : (s.modPTile v f).ports = s.ports := rfl
@[simp] theorem modPTile_fw (s : State) (v : Nat) (f : PTile → PTile) : (s.modPTile v f).fw = s.fw := rfl
@[simp] theorem modPTile_att (s : State) (v : Nat) (f : PTile → PTile) : (s.modPTile v f).att = s.att := rfl
@[simp] theorem modPTile_nextCmd (s : State) (v : Nat) (f : PTile → PTile) : (s.modPTile v f).nextCmd = s.nextCmd := rfl
@[simp] theorem modPTile_fresh (s : State) (v : Nat) (f : PTile → PTile) : (s.modPTile v f).fresh = s.fresh := rfl
@[simp] theorem modPTile_cur (s : State) (v : Nat) (f : PTile → PTile) : (s.modPTile v f).cur = s.cur := rfl
@[simp] theorem modPTile_agenda (s : State) (v : Nat) (f : PTile → PTile) : (s.modPTile v f).agenda = s.agenda := rfl

/-! `modGang`. -/

@[simp] theorem modGang_clk (s : State) (v : Nat) (f : Gang → Gang) : (s.modGang v f).clk = s.clk := rfl
@[simp] theorem modGang_phase (s : State) (v : Nat) (f : Gang → Gang) : (s.modGang v f).phase = s.phase := rfl
@[simp] theorem modGang_failCode (s : State) (v : Nat) (f : Gang → Gang) : (s.modGang v f).failCode = s.failCode := rfl
@[simp] theorem modGang_bootReport (s : State) (v : Nat) (f : Gang → Gang) : (s.modGang v f).bootReport = s.bootReport := rfl
@[simp] theorem modGang_bootSnap (s : State) (v : Nat) (f : Gang → Gang) : (s.modGang v f).bootSnap = s.bootSnap := rfl
@[simp] theorem modGang_serial (s : State) (v : Nat) (f : Gang → Gang) : (s.modGang v f).serial = s.serial := rfl
@[simp] theorem modGang_fwVersion (s : State) (v : Nat) (f : Gang → Gang) : (s.modGang v f).fwVersion = s.fwVersion := rfl
@[simp] theorem modGang_fwRollback (s : State) (v : Nat) (f : Gang → Gang) : (s.modGang v f).fwRollback = s.fwRollback := rfl
@[simp] theorem modGang_fwMeasure (s : State) (v : Nat) (f : Gang → Gang) : (s.modGang v f).fwMeasure = s.fwMeasure := rfl
@[simp] theorem modGang_nvtile (s : State) (v : Nat) (f : Gang → Gang) : (s.modGang v f).nvtile = s.nvtile := rfl
@[simp] theorem modGang_nrank (s : State) (v : Nat) (f : Gang → Gang) : (s.modGang v f).nrank = s.nrank := rfl
@[simp] theorem modGang_fuseTiles (s : State) (v : Nat) (f : Gang → Gang) : (s.modGang v f).fuseTiles = s.fuseTiles := rfl
@[simp] theorem modGang_fuseCores (s : State) (v : Nat) (f : Gang → Gang) : (s.modGang v f).fuseCores = s.fuseCores := rfl
@[simp] theorem modGang_retireLog (s : State) (v : Nat) (f : Gang → Gang) : (s.modGang v f).retireLog = s.retireLog := rfl
@[simp] theorem modGang_snapshots (s : State) (v : Nat) (f : Gang → Gang) : (s.modGang v f).snapshots = s.snapshots := rfl
@[simp] theorem modGang_snapClk (s : State) (v : Nat) (f : Gang → Gang) : (s.modGang v f).snapClk = s.snapClk := rfl
@[simp] theorem modGang_tiles (s : State) (v : Nat) (f : Gang → Gang) : (s.modGang v f).tiles = s.tiles := rfl
@[simp] theorem modGang_vtiles (s : State) (v : Nat) (f : Gang → Gang) : (s.modGang v f).vtiles = s.vtiles := rfl
@[simp] theorem modGang_rotations (s : State) (v : Nat) (f : Gang → Gang) : (s.modGang v f).rotations = s.rotations := rfl
@[simp] theorem modGang_updates (s : State) (v : Nat) (f : Gang → Gang) : (s.modGang v f).updates = s.updates := rfl
@[simp] theorem modGang_tests (s : State) (v : Nat) (f : Gang → Gang) : (s.modGang v f).tests = s.tests := rfl
@[simp] theorem modGang_ckpts (s : State) (v : Nat) (f : Gang → Gang) : (s.modGang v f).ckpts = s.ckpts := rfl
@[simp] theorem modGang_threads (s : State) (v : Nat) (f : Gang → Gang) : (s.modGang v f).threads = s.threads := rfl
@[simp] theorem modGang_cores (s : State) (v : Nat) (f : Gang → Gang) : (s.modGang v f).cores = s.cores := rfl
@[simp] theorem modGang_bounds (s : State) (v : Nat) (f : Gang → Gang) : (s.modGang v f).bounds = s.bounds := rfl
@[simp] theorem modGang_queues (s : State) (v : Nat) (f : Gang → Gang) : (s.modGang v f).queues = s.queues := rfl
@[simp] theorem modGang_parts (s : State) (v : Nat) (f : Gang → Gang) : (s.modGang v f).parts = s.parts := rfl
@[simp] theorem modGang_qcmd (s : State) (v : Nat) (f : Gang → Gang) : (s.modGang v f).qcmd = s.qcmd := rfl
@[simp] theorem modGang_turns (s : State) (v : Nat) (f : Gang → Gang) : (s.modGang v f).turns = s.turns := rfl
@[simp] theorem modGang_lastStaged (s : State) (v : Nat) (f : Gang → Gang) : (s.modGang v f).lastStaged = s.lastStaged := rfl
@[simp] theorem modGang_servedQ (s : State) (v : Nat) (f : Gang → Gang) : (s.modGang v f).servedQ = s.servedQ := rfl
@[simp] theorem modGang_heldBinds (s : State) (v : Nat) (f : Gang → Gang) : (s.modGang v f).heldBinds = s.heldBinds := rfl
@[simp] theorem modGang_heldPre (s : State) (v : Nat) (f : Gang → Gang) : (s.modGang v f).heldPre = s.heldPre := rfl
@[simp] theorem modGang_windowHeld (s : State) (v : Nat) (f : Gang → Gang) : (s.modGang v f).windowHeld = s.windowHeld := rfl
@[simp] theorem modGang_audits (s : State) (v : Nat) (f : Gang → Gang) : (s.modGang v f).audits = s.audits := rfl
@[simp] theorem modGang_lastServed (s : State) (v : Nat) (f : Gang → Gang) : (s.modGang v f).lastServed = s.lastServed := rfl
@[simp] theorem modGang_gangSeq (s : State) (v : Nat) (f : Gang → Gang) : (s.modGang v f).gangSeq = s.gangSeq := rfl
@[simp] theorem modGang_relSeq (s : State) (v : Nat) (f : Gang → Gang) : (s.modGang v f).relSeq = s.relSeq := rfl
@[simp] theorem modGang_spawns (s : State) (v : Nat) (f : Gang → Gang) : (s.modGang v f).spawns = s.spawns := rfl
@[simp] theorem modGang_hbm (s : State) (v : Nat) (f : Gang → Gang) : (s.modGang v f).hbm = s.hbm := rfl
@[simp] theorem modGang_hbmBad (s : State) (v : Nat) (f : Gang → Gang) : (s.modGang v f).hbmBad = s.hbmBad := rfl
@[simp] theorem modGang_roots (s : State) (v : Nat) (f : Gang → Gang) : (s.modGang v f).roots = s.roots := rfl
@[simp] theorem modGang_tinv (s : State) (v : Nat) (f : Gang → Gang) : (s.modGang v f).tinv = s.tinv := rfl
@[simp] theorem modGang_memOps (s : State) (v : Nat) (f : Gang → Gang) : (s.modGang v f).memOps = s.memOps := rfl
@[simp] theorem modGang_uncached (s : State) (v : Nat) (f : Gang → Gang) : (s.modGang v f).uncached = s.uncached := rfl
@[simp] theorem modGang_zones (s : State) (v : Nat) (f : Gang → Gang) : (s.modGang v f).zones = s.zones := rfl
@[simp] theorem modGang_hbmStacks (s : State) (v : Nat) (f : Gang → Gang) : (s.modGang v f).hbmStacks = s.hbmStacks := rfl
@[simp] theorem modGang_hklog (s : State) (v : Nat) (f : Gang → Gang) : (s.modGang v f).hklog = s.hklog := rfl
@[simp] theorem modGang_hktail (s : State) (v : Nat) (f : Gang → Gang) : (s.modGang v f).hktail = s.hktail := rfl
@[simp] theorem modGang_hklost (s : State) (v : Nat) (f : Gang → Gang) : (s.modGang v f).hklost = s.hklost := rfl
@[simp] theorem modGang_hkUnits (s : State) (v : Nat) (f : Gang → Gang) : (s.modGang v f).hkUnits = s.hkUnits := rfl
@[simp] theorem modGang_hkBytes (s : State) (v : Nat) (f : Gang → Gang) : (s.modGang v f).hkBytes = s.hkBytes := rfl
@[simp] theorem modGang_hkUj (s : State) (v : Nat) (f : Gang → Gang) : (s.modGang v f).hkUj = s.hkUj := rfl
@[simp] theorem modGang_schedUj (s : State) (v : Nat) (f : Gang → Gang) : (s.modGang v f).schedUj = s.schedUj := rfl
@[simp] theorem modGang_msix (s : State) (v : Nat) (f : Gang → Gang) : (s.modGang v f).msix = s.msix := rfl
@[simp] theorem modGang_hostReads (s : State) (v : Nat) (f : Gang → Gang) : (s.modGang v f).hostReads = s.hostReads := rfl
@[simp] theorem modGang_ports (s : State) (v : Nat) (f : Gang → Gang) : (s.modGang v f).ports = s.ports := rfl
@[simp] theorem modGang_fw (s : State) (v : Nat) (f : Gang → Gang) : (s.modGang v f).fw = s.fw := rfl
@[simp] theorem modGang_att (s : State) (v : Nat) (f : Gang → Gang) : (s.modGang v f).att = s.att := rfl
@[simp] theorem modGang_nextCmd (s : State) (v : Nat) (f : Gang → Gang) : (s.modGang v f).nextCmd = s.nextCmd := rfl
@[simp] theorem modGang_fresh (s : State) (v : Nat) (f : Gang → Gang) : (s.modGang v f).fresh = s.fresh := rfl
@[simp] theorem modGang_cur (s : State) (v : Nat) (f : Gang → Gang) : (s.modGang v f).cur = s.cur := rfl
@[simp] theorem modGang_agenda (s : State) (v : Nat) (f : Gang → Gang) : (s.modGang v f).agenda = s.agenda := rfl

/-! `modQueue`. -/

@[simp] theorem modQueue_clk (s : State) (v : Nat) (f : Queue → Queue) : (s.modQueue v f).clk = s.clk := rfl
@[simp] theorem modQueue_phase (s : State) (v : Nat) (f : Queue → Queue) : (s.modQueue v f).phase = s.phase := rfl
@[simp] theorem modQueue_failCode (s : State) (v : Nat) (f : Queue → Queue) : (s.modQueue v f).failCode = s.failCode := rfl
@[simp] theorem modQueue_bootReport (s : State) (v : Nat) (f : Queue → Queue) : (s.modQueue v f).bootReport = s.bootReport := rfl
@[simp] theorem modQueue_bootSnap (s : State) (v : Nat) (f : Queue → Queue) : (s.modQueue v f).bootSnap = s.bootSnap := rfl
@[simp] theorem modQueue_serial (s : State) (v : Nat) (f : Queue → Queue) : (s.modQueue v f).serial = s.serial := rfl
@[simp] theorem modQueue_fwVersion (s : State) (v : Nat) (f : Queue → Queue) : (s.modQueue v f).fwVersion = s.fwVersion := rfl
@[simp] theorem modQueue_fwRollback (s : State) (v : Nat) (f : Queue → Queue) : (s.modQueue v f).fwRollback = s.fwRollback := rfl
@[simp] theorem modQueue_fwMeasure (s : State) (v : Nat) (f : Queue → Queue) : (s.modQueue v f).fwMeasure = s.fwMeasure := rfl
@[simp] theorem modQueue_nvtile (s : State) (v : Nat) (f : Queue → Queue) : (s.modQueue v f).nvtile = s.nvtile := rfl
@[simp] theorem modQueue_nrank (s : State) (v : Nat) (f : Queue → Queue) : (s.modQueue v f).nrank = s.nrank := rfl
@[simp] theorem modQueue_fuseTiles (s : State) (v : Nat) (f : Queue → Queue) : (s.modQueue v f).fuseTiles = s.fuseTiles := rfl
@[simp] theorem modQueue_fuseCores (s : State) (v : Nat) (f : Queue → Queue) : (s.modQueue v f).fuseCores = s.fuseCores := rfl
@[simp] theorem modQueue_retireLog (s : State) (v : Nat) (f : Queue → Queue) : (s.modQueue v f).retireLog = s.retireLog := rfl
@[simp] theorem modQueue_snapshots (s : State) (v : Nat) (f : Queue → Queue) : (s.modQueue v f).snapshots = s.snapshots := rfl
@[simp] theorem modQueue_snapClk (s : State) (v : Nat) (f : Queue → Queue) : (s.modQueue v f).snapClk = s.snapClk := rfl
@[simp] theorem modQueue_tiles (s : State) (v : Nat) (f : Queue → Queue) : (s.modQueue v f).tiles = s.tiles := rfl
@[simp] theorem modQueue_vtiles (s : State) (v : Nat) (f : Queue → Queue) : (s.modQueue v f).vtiles = s.vtiles := rfl
@[simp] theorem modQueue_rotations (s : State) (v : Nat) (f : Queue → Queue) : (s.modQueue v f).rotations = s.rotations := rfl
@[simp] theorem modQueue_updates (s : State) (v : Nat) (f : Queue → Queue) : (s.modQueue v f).updates = s.updates := rfl
@[simp] theorem modQueue_tests (s : State) (v : Nat) (f : Queue → Queue) : (s.modQueue v f).tests = s.tests := rfl
@[simp] theorem modQueue_ckpts (s : State) (v : Nat) (f : Queue → Queue) : (s.modQueue v f).ckpts = s.ckpts := rfl
@[simp] theorem modQueue_threads (s : State) (v : Nat) (f : Queue → Queue) : (s.modQueue v f).threads = s.threads := rfl
@[simp] theorem modQueue_cores (s : State) (v : Nat) (f : Queue → Queue) : (s.modQueue v f).cores = s.cores := rfl
@[simp] theorem modQueue_gangs (s : State) (v : Nat) (f : Queue → Queue) : (s.modQueue v f).gangs = s.gangs := rfl
@[simp] theorem modQueue_bounds (s : State) (v : Nat) (f : Queue → Queue) : (s.modQueue v f).bounds = s.bounds := rfl
@[simp] theorem modQueue_parts (s : State) (v : Nat) (f : Queue → Queue) : (s.modQueue v f).parts = s.parts := rfl
@[simp] theorem modQueue_qcmd (s : State) (v : Nat) (f : Queue → Queue) : (s.modQueue v f).qcmd = s.qcmd := rfl
@[simp] theorem modQueue_turns (s : State) (v : Nat) (f : Queue → Queue) : (s.modQueue v f).turns = s.turns := rfl
@[simp] theorem modQueue_lastStaged (s : State) (v : Nat) (f : Queue → Queue) : (s.modQueue v f).lastStaged = s.lastStaged := rfl
@[simp] theorem modQueue_servedQ (s : State) (v : Nat) (f : Queue → Queue) : (s.modQueue v f).servedQ = s.servedQ := rfl
@[simp] theorem modQueue_heldBinds (s : State) (v : Nat) (f : Queue → Queue) : (s.modQueue v f).heldBinds = s.heldBinds := rfl
@[simp] theorem modQueue_heldPre (s : State) (v : Nat) (f : Queue → Queue) : (s.modQueue v f).heldPre = s.heldPre := rfl
@[simp] theorem modQueue_windowHeld (s : State) (v : Nat) (f : Queue → Queue) : (s.modQueue v f).windowHeld = s.windowHeld := rfl
@[simp] theorem modQueue_audits (s : State) (v : Nat) (f : Queue → Queue) : (s.modQueue v f).audits = s.audits := rfl
@[simp] theorem modQueue_lastServed (s : State) (v : Nat) (f : Queue → Queue) : (s.modQueue v f).lastServed = s.lastServed := rfl
@[simp] theorem modQueue_gangSeq (s : State) (v : Nat) (f : Queue → Queue) : (s.modQueue v f).gangSeq = s.gangSeq := rfl
@[simp] theorem modQueue_relSeq (s : State) (v : Nat) (f : Queue → Queue) : (s.modQueue v f).relSeq = s.relSeq := rfl
@[simp] theorem modQueue_spawns (s : State) (v : Nat) (f : Queue → Queue) : (s.modQueue v f).spawns = s.spawns := rfl
@[simp] theorem modQueue_hbm (s : State) (v : Nat) (f : Queue → Queue) : (s.modQueue v f).hbm = s.hbm := rfl
@[simp] theorem modQueue_hbmBad (s : State) (v : Nat) (f : Queue → Queue) : (s.modQueue v f).hbmBad = s.hbmBad := rfl
@[simp] theorem modQueue_roots (s : State) (v : Nat) (f : Queue → Queue) : (s.modQueue v f).roots = s.roots := rfl
@[simp] theorem modQueue_tinv (s : State) (v : Nat) (f : Queue → Queue) : (s.modQueue v f).tinv = s.tinv := rfl
@[simp] theorem modQueue_memOps (s : State) (v : Nat) (f : Queue → Queue) : (s.modQueue v f).memOps = s.memOps := rfl
@[simp] theorem modQueue_uncached (s : State) (v : Nat) (f : Queue → Queue) : (s.modQueue v f).uncached = s.uncached := rfl
@[simp] theorem modQueue_zones (s : State) (v : Nat) (f : Queue → Queue) : (s.modQueue v f).zones = s.zones := rfl
@[simp] theorem modQueue_hbmStacks (s : State) (v : Nat) (f : Queue → Queue) : (s.modQueue v f).hbmStacks = s.hbmStacks := rfl
@[simp] theorem modQueue_hklog (s : State) (v : Nat) (f : Queue → Queue) : (s.modQueue v f).hklog = s.hklog := rfl
@[simp] theorem modQueue_hktail (s : State) (v : Nat) (f : Queue → Queue) : (s.modQueue v f).hktail = s.hktail := rfl
@[simp] theorem modQueue_hklost (s : State) (v : Nat) (f : Queue → Queue) : (s.modQueue v f).hklost = s.hklost := rfl
@[simp] theorem modQueue_hkUnits (s : State) (v : Nat) (f : Queue → Queue) : (s.modQueue v f).hkUnits = s.hkUnits := rfl
@[simp] theorem modQueue_hkBytes (s : State) (v : Nat) (f : Queue → Queue) : (s.modQueue v f).hkBytes = s.hkBytes := rfl
@[simp] theorem modQueue_hkUj (s : State) (v : Nat) (f : Queue → Queue) : (s.modQueue v f).hkUj = s.hkUj := rfl
@[simp] theorem modQueue_schedUj (s : State) (v : Nat) (f : Queue → Queue) : (s.modQueue v f).schedUj = s.schedUj := rfl
@[simp] theorem modQueue_msix (s : State) (v : Nat) (f : Queue → Queue) : (s.modQueue v f).msix = s.msix := rfl
@[simp] theorem modQueue_hostReads (s : State) (v : Nat) (f : Queue → Queue) : (s.modQueue v f).hostReads = s.hostReads := rfl
@[simp] theorem modQueue_ports (s : State) (v : Nat) (f : Queue → Queue) : (s.modQueue v f).ports = s.ports := rfl
@[simp] theorem modQueue_fw (s : State) (v : Nat) (f : Queue → Queue) : (s.modQueue v f).fw = s.fw := rfl
@[simp] theorem modQueue_att (s : State) (v : Nat) (f : Queue → Queue) : (s.modQueue v f).att = s.att := rfl
@[simp] theorem modQueue_nextCmd (s : State) (v : Nat) (f : Queue → Queue) : (s.modQueue v f).nextCmd = s.nextCmd := rfl
@[simp] theorem modQueue_fresh (s : State) (v : Nat) (f : Queue → Queue) : (s.modQueue v f).fresh = s.fresh := rfl
@[simp] theorem modQueue_cur (s : State) (v : Nat) (f : Queue → Queue) : (s.modQueue v f).cur = s.cur := rfl
@[simp] theorem modQueue_agenda (s : State) (v : Nat) (f : Queue → Queue) : (s.modQueue v f).agenda = s.agenda := rfl

/-! `modPart`. -/

@[simp] theorem modPart_clk (s : State) (v : Nat) (f : Partition → Partition) : (s.modPart v f).clk = s.clk := rfl
@[simp] theorem modPart_phase (s : State) (v : Nat) (f : Partition → Partition) : (s.modPart v f).phase = s.phase := rfl
@[simp] theorem modPart_failCode (s : State) (v : Nat) (f : Partition → Partition) : (s.modPart v f).failCode = s.failCode := rfl
@[simp] theorem modPart_bootReport (s : State) (v : Nat) (f : Partition → Partition) : (s.modPart v f).bootReport = s.bootReport := rfl
@[simp] theorem modPart_bootSnap (s : State) (v : Nat) (f : Partition → Partition) : (s.modPart v f).bootSnap = s.bootSnap := rfl
@[simp] theorem modPart_serial (s : State) (v : Nat) (f : Partition → Partition) : (s.modPart v f).serial = s.serial := rfl
@[simp] theorem modPart_fwVersion (s : State) (v : Nat) (f : Partition → Partition) : (s.modPart v f).fwVersion = s.fwVersion := rfl
@[simp] theorem modPart_fwRollback (s : State) (v : Nat) (f : Partition → Partition) : (s.modPart v f).fwRollback = s.fwRollback := rfl
@[simp] theorem modPart_fwMeasure (s : State) (v : Nat) (f : Partition → Partition) : (s.modPart v f).fwMeasure = s.fwMeasure := rfl
@[simp] theorem modPart_nvtile (s : State) (v : Nat) (f : Partition → Partition) : (s.modPart v f).nvtile = s.nvtile := rfl
@[simp] theorem modPart_nrank (s : State) (v : Nat) (f : Partition → Partition) : (s.modPart v f).nrank = s.nrank := rfl
@[simp] theorem modPart_fuseTiles (s : State) (v : Nat) (f : Partition → Partition) : (s.modPart v f).fuseTiles = s.fuseTiles := rfl
@[simp] theorem modPart_fuseCores (s : State) (v : Nat) (f : Partition → Partition) : (s.modPart v f).fuseCores = s.fuseCores := rfl
@[simp] theorem modPart_retireLog (s : State) (v : Nat) (f : Partition → Partition) : (s.modPart v f).retireLog = s.retireLog := rfl
@[simp] theorem modPart_snapshots (s : State) (v : Nat) (f : Partition → Partition) : (s.modPart v f).snapshots = s.snapshots := rfl
@[simp] theorem modPart_snapClk (s : State) (v : Nat) (f : Partition → Partition) : (s.modPart v f).snapClk = s.snapClk := rfl
@[simp] theorem modPart_tiles (s : State) (v : Nat) (f : Partition → Partition) : (s.modPart v f).tiles = s.tiles := rfl
@[simp] theorem modPart_vtiles (s : State) (v : Nat) (f : Partition → Partition) : (s.modPart v f).vtiles = s.vtiles := rfl
@[simp] theorem modPart_rotations (s : State) (v : Nat) (f : Partition → Partition) : (s.modPart v f).rotations = s.rotations := rfl
@[simp] theorem modPart_updates (s : State) (v : Nat) (f : Partition → Partition) : (s.modPart v f).updates = s.updates := rfl
@[simp] theorem modPart_tests (s : State) (v : Nat) (f : Partition → Partition) : (s.modPart v f).tests = s.tests := rfl
@[simp] theorem modPart_ckpts (s : State) (v : Nat) (f : Partition → Partition) : (s.modPart v f).ckpts = s.ckpts := rfl
@[simp] theorem modPart_threads (s : State) (v : Nat) (f : Partition → Partition) : (s.modPart v f).threads = s.threads := rfl
@[simp] theorem modPart_cores (s : State) (v : Nat) (f : Partition → Partition) : (s.modPart v f).cores = s.cores := rfl
@[simp] theorem modPart_gangs (s : State) (v : Nat) (f : Partition → Partition) : (s.modPart v f).gangs = s.gangs := rfl
@[simp] theorem modPart_bounds (s : State) (v : Nat) (f : Partition → Partition) : (s.modPart v f).bounds = s.bounds := rfl
@[simp] theorem modPart_queues (s : State) (v : Nat) (f : Partition → Partition) : (s.modPart v f).queues = s.queues := rfl
@[simp] theorem modPart_qcmd (s : State) (v : Nat) (f : Partition → Partition) : (s.modPart v f).qcmd = s.qcmd := rfl
@[simp] theorem modPart_turns (s : State) (v : Nat) (f : Partition → Partition) : (s.modPart v f).turns = s.turns := rfl
@[simp] theorem modPart_lastStaged (s : State) (v : Nat) (f : Partition → Partition) : (s.modPart v f).lastStaged = s.lastStaged := rfl
@[simp] theorem modPart_servedQ (s : State) (v : Nat) (f : Partition → Partition) : (s.modPart v f).servedQ = s.servedQ := rfl
@[simp] theorem modPart_heldBinds (s : State) (v : Nat) (f : Partition → Partition) : (s.modPart v f).heldBinds = s.heldBinds := rfl
@[simp] theorem modPart_heldPre (s : State) (v : Nat) (f : Partition → Partition) : (s.modPart v f).heldPre = s.heldPre := rfl
@[simp] theorem modPart_windowHeld (s : State) (v : Nat) (f : Partition → Partition) : (s.modPart v f).windowHeld = s.windowHeld := rfl
@[simp] theorem modPart_audits (s : State) (v : Nat) (f : Partition → Partition) : (s.modPart v f).audits = s.audits := rfl
@[simp] theorem modPart_lastServed (s : State) (v : Nat) (f : Partition → Partition) : (s.modPart v f).lastServed = s.lastServed := rfl
@[simp] theorem modPart_gangSeq (s : State) (v : Nat) (f : Partition → Partition) : (s.modPart v f).gangSeq = s.gangSeq := rfl
@[simp] theorem modPart_relSeq (s : State) (v : Nat) (f : Partition → Partition) : (s.modPart v f).relSeq = s.relSeq := rfl
@[simp] theorem modPart_spawns (s : State) (v : Nat) (f : Partition → Partition) : (s.modPart v f).spawns = s.spawns := rfl
@[simp] theorem modPart_hbm (s : State) (v : Nat) (f : Partition → Partition) : (s.modPart v f).hbm = s.hbm := rfl
@[simp] theorem modPart_hbmBad (s : State) (v : Nat) (f : Partition → Partition) : (s.modPart v f).hbmBad = s.hbmBad := rfl
@[simp] theorem modPart_roots (s : State) (v : Nat) (f : Partition → Partition) : (s.modPart v f).roots = s.roots := rfl
@[simp] theorem modPart_tinv (s : State) (v : Nat) (f : Partition → Partition) : (s.modPart v f).tinv = s.tinv := rfl
@[simp] theorem modPart_memOps (s : State) (v : Nat) (f : Partition → Partition) : (s.modPart v f).memOps = s.memOps := rfl
@[simp] theorem modPart_uncached (s : State) (v : Nat) (f : Partition → Partition) : (s.modPart v f).uncached = s.uncached := rfl
@[simp] theorem modPart_zones (s : State) (v : Nat) (f : Partition → Partition) : (s.modPart v f).zones = s.zones := rfl
@[simp] theorem modPart_hbmStacks (s : State) (v : Nat) (f : Partition → Partition) : (s.modPart v f).hbmStacks = s.hbmStacks := rfl
@[simp] theorem modPart_hklog (s : State) (v : Nat) (f : Partition → Partition) : (s.modPart v f).hklog = s.hklog := rfl
@[simp] theorem modPart_hktail (s : State) (v : Nat) (f : Partition → Partition) : (s.modPart v f).hktail = s.hktail := rfl
@[simp] theorem modPart_hklost (s : State) (v : Nat) (f : Partition → Partition) : (s.modPart v f).hklost = s.hklost := rfl
@[simp] theorem modPart_hkUnits (s : State) (v : Nat) (f : Partition → Partition) : (s.modPart v f).hkUnits = s.hkUnits := rfl
@[simp] theorem modPart_hkBytes (s : State) (v : Nat) (f : Partition → Partition) : (s.modPart v f).hkBytes = s.hkBytes := rfl
@[simp] theorem modPart_hkUj (s : State) (v : Nat) (f : Partition → Partition) : (s.modPart v f).hkUj = s.hkUj := rfl
@[simp] theorem modPart_schedUj (s : State) (v : Nat) (f : Partition → Partition) : (s.modPart v f).schedUj = s.schedUj := rfl
@[simp] theorem modPart_msix (s : State) (v : Nat) (f : Partition → Partition) : (s.modPart v f).msix = s.msix := rfl
@[simp] theorem modPart_hostReads (s : State) (v : Nat) (f : Partition → Partition) : (s.modPart v f).hostReads = s.hostReads := rfl
@[simp] theorem modPart_ports (s : State) (v : Nat) (f : Partition → Partition) : (s.modPart v f).ports = s.ports := rfl
@[simp] theorem modPart_fw (s : State) (v : Nat) (f : Partition → Partition) : (s.modPart v f).fw = s.fw := rfl
@[simp] theorem modPart_att (s : State) (v : Nat) (f : Partition → Partition) : (s.modPart v f).att = s.att := rfl
@[simp] theorem modPart_nextCmd (s : State) (v : Nat) (f : Partition → Partition) : (s.modPart v f).nextCmd = s.nextCmd := rfl
@[simp] theorem modPart_fresh (s : State) (v : Nat) (f : Partition → Partition) : (s.modPart v f).fresh = s.fresh := rfl
@[simp] theorem modPart_cur (s : State) (v : Nat) (f : Partition → Partition) : (s.modPart v f).cur = s.cur := rfl
@[simp] theorem modPart_agenda (s : State) (v : Nat) (f : Partition → Partition) : (s.modPart v f).agenda = s.agenda := rfl

/-! `modZone`. -/

@[simp] theorem modZone_clk (s : State) (v : Nat) (f : Zone → Zone) : (s.modZone v f).clk = s.clk := rfl
@[simp] theorem modZone_phase (s : State) (v : Nat) (f : Zone → Zone) : (s.modZone v f).phase = s.phase := rfl
@[simp] theorem modZone_failCode (s : State) (v : Nat) (f : Zone → Zone) : (s.modZone v f).failCode = s.failCode := rfl
@[simp] theorem modZone_bootReport (s : State) (v : Nat) (f : Zone → Zone) : (s.modZone v f).bootReport = s.bootReport := rfl
@[simp] theorem modZone_bootSnap (s : State) (v : Nat) (f : Zone → Zone) : (s.modZone v f).bootSnap = s.bootSnap := rfl
@[simp] theorem modZone_serial (s : State) (v : Nat) (f : Zone → Zone) : (s.modZone v f).serial = s.serial := rfl
@[simp] theorem modZone_fwVersion (s : State) (v : Nat) (f : Zone → Zone) : (s.modZone v f).fwVersion = s.fwVersion := rfl
@[simp] theorem modZone_fwRollback (s : State) (v : Nat) (f : Zone → Zone) : (s.modZone v f).fwRollback = s.fwRollback := rfl
@[simp] theorem modZone_fwMeasure (s : State) (v : Nat) (f : Zone → Zone) : (s.modZone v f).fwMeasure = s.fwMeasure := rfl
@[simp] theorem modZone_nvtile (s : State) (v : Nat) (f : Zone → Zone) : (s.modZone v f).nvtile = s.nvtile := rfl
@[simp] theorem modZone_nrank (s : State) (v : Nat) (f : Zone → Zone) : (s.modZone v f).nrank = s.nrank := rfl
@[simp] theorem modZone_fuseTiles (s : State) (v : Nat) (f : Zone → Zone) : (s.modZone v f).fuseTiles = s.fuseTiles := rfl
@[simp] theorem modZone_fuseCores (s : State) (v : Nat) (f : Zone → Zone) : (s.modZone v f).fuseCores = s.fuseCores := rfl
@[simp] theorem modZone_retireLog (s : State) (v : Nat) (f : Zone → Zone) : (s.modZone v f).retireLog = s.retireLog := rfl
@[simp] theorem modZone_snapshots (s : State) (v : Nat) (f : Zone → Zone) : (s.modZone v f).snapshots = s.snapshots := rfl
@[simp] theorem modZone_snapClk (s : State) (v : Nat) (f : Zone → Zone) : (s.modZone v f).snapClk = s.snapClk := rfl
@[simp] theorem modZone_tiles (s : State) (v : Nat) (f : Zone → Zone) : (s.modZone v f).tiles = s.tiles := rfl
@[simp] theorem modZone_vtiles (s : State) (v : Nat) (f : Zone → Zone) : (s.modZone v f).vtiles = s.vtiles := rfl
@[simp] theorem modZone_rotations (s : State) (v : Nat) (f : Zone → Zone) : (s.modZone v f).rotations = s.rotations := rfl
@[simp] theorem modZone_updates (s : State) (v : Nat) (f : Zone → Zone) : (s.modZone v f).updates = s.updates := rfl
@[simp] theorem modZone_tests (s : State) (v : Nat) (f : Zone → Zone) : (s.modZone v f).tests = s.tests := rfl
@[simp] theorem modZone_ckpts (s : State) (v : Nat) (f : Zone → Zone) : (s.modZone v f).ckpts = s.ckpts := rfl
@[simp] theorem modZone_threads (s : State) (v : Nat) (f : Zone → Zone) : (s.modZone v f).threads = s.threads := rfl
@[simp] theorem modZone_cores (s : State) (v : Nat) (f : Zone → Zone) : (s.modZone v f).cores = s.cores := rfl
@[simp] theorem modZone_gangs (s : State) (v : Nat) (f : Zone → Zone) : (s.modZone v f).gangs = s.gangs := rfl
@[simp] theorem modZone_bounds (s : State) (v : Nat) (f : Zone → Zone) : (s.modZone v f).bounds = s.bounds := rfl
@[simp] theorem modZone_queues (s : State) (v : Nat) (f : Zone → Zone) : (s.modZone v f).queues = s.queues := rfl
@[simp] theorem modZone_parts (s : State) (v : Nat) (f : Zone → Zone) : (s.modZone v f).parts = s.parts := rfl
@[simp] theorem modZone_qcmd (s : State) (v : Nat) (f : Zone → Zone) : (s.modZone v f).qcmd = s.qcmd := rfl
@[simp] theorem modZone_turns (s : State) (v : Nat) (f : Zone → Zone) : (s.modZone v f).turns = s.turns := rfl
@[simp] theorem modZone_lastStaged (s : State) (v : Nat) (f : Zone → Zone) : (s.modZone v f).lastStaged = s.lastStaged := rfl
@[simp] theorem modZone_servedQ (s : State) (v : Nat) (f : Zone → Zone) : (s.modZone v f).servedQ = s.servedQ := rfl
@[simp] theorem modZone_heldBinds (s : State) (v : Nat) (f : Zone → Zone) : (s.modZone v f).heldBinds = s.heldBinds := rfl
@[simp] theorem modZone_heldPre (s : State) (v : Nat) (f : Zone → Zone) : (s.modZone v f).heldPre = s.heldPre := rfl
@[simp] theorem modZone_windowHeld (s : State) (v : Nat) (f : Zone → Zone) : (s.modZone v f).windowHeld = s.windowHeld := rfl
@[simp] theorem modZone_audits (s : State) (v : Nat) (f : Zone → Zone) : (s.modZone v f).audits = s.audits := rfl
@[simp] theorem modZone_lastServed (s : State) (v : Nat) (f : Zone → Zone) : (s.modZone v f).lastServed = s.lastServed := rfl
@[simp] theorem modZone_gangSeq (s : State) (v : Nat) (f : Zone → Zone) : (s.modZone v f).gangSeq = s.gangSeq := rfl
@[simp] theorem modZone_relSeq (s : State) (v : Nat) (f : Zone → Zone) : (s.modZone v f).relSeq = s.relSeq := rfl
@[simp] theorem modZone_spawns (s : State) (v : Nat) (f : Zone → Zone) : (s.modZone v f).spawns = s.spawns := rfl
@[simp] theorem modZone_hbm (s : State) (v : Nat) (f : Zone → Zone) : (s.modZone v f).hbm = s.hbm := rfl
@[simp] theorem modZone_hbmBad (s : State) (v : Nat) (f : Zone → Zone) : (s.modZone v f).hbmBad = s.hbmBad := rfl
@[simp] theorem modZone_roots (s : State) (v : Nat) (f : Zone → Zone) : (s.modZone v f).roots = s.roots := rfl
@[simp] theorem modZone_tinv (s : State) (v : Nat) (f : Zone → Zone) : (s.modZone v f).tinv = s.tinv := rfl
@[simp] theorem modZone_memOps (s : State) (v : Nat) (f : Zone → Zone) : (s.modZone v f).memOps = s.memOps := rfl
@[simp] theorem modZone_uncached (s : State) (v : Nat) (f : Zone → Zone) : (s.modZone v f).uncached = s.uncached := rfl
@[simp] theorem modZone_hbmStacks (s : State) (v : Nat) (f : Zone → Zone) : (s.modZone v f).hbmStacks = s.hbmStacks := rfl
@[simp] theorem modZone_hklog (s : State) (v : Nat) (f : Zone → Zone) : (s.modZone v f).hklog = s.hklog := rfl
@[simp] theorem modZone_hktail (s : State) (v : Nat) (f : Zone → Zone) : (s.modZone v f).hktail = s.hktail := rfl
@[simp] theorem modZone_hklost (s : State) (v : Nat) (f : Zone → Zone) : (s.modZone v f).hklost = s.hklost := rfl
@[simp] theorem modZone_hkUnits (s : State) (v : Nat) (f : Zone → Zone) : (s.modZone v f).hkUnits = s.hkUnits := rfl
@[simp] theorem modZone_hkBytes (s : State) (v : Nat) (f : Zone → Zone) : (s.modZone v f).hkBytes = s.hkBytes := rfl
@[simp] theorem modZone_hkUj (s : State) (v : Nat) (f : Zone → Zone) : (s.modZone v f).hkUj = s.hkUj := rfl
@[simp] theorem modZone_schedUj (s : State) (v : Nat) (f : Zone → Zone) : (s.modZone v f).schedUj = s.schedUj := rfl
@[simp] theorem modZone_msix (s : State) (v : Nat) (f : Zone → Zone) : (s.modZone v f).msix = s.msix := rfl
@[simp] theorem modZone_hostReads (s : State) (v : Nat) (f : Zone → Zone) : (s.modZone v f).hostReads = s.hostReads := rfl
@[simp] theorem modZone_ports (s : State) (v : Nat) (f : Zone → Zone) : (s.modZone v f).ports = s.ports := rfl
@[simp] theorem modZone_fw (s : State) (v : Nat) (f : Zone → Zone) : (s.modZone v f).fw = s.fw := rfl
@[simp] theorem modZone_att (s : State) (v : Nat) (f : Zone → Zone) : (s.modZone v f).att = s.att := rfl
@[simp] theorem modZone_nextCmd (s : State) (v : Nat) (f : Zone → Zone) : (s.modZone v f).nextCmd = s.nextCmd := rfl
@[simp] theorem modZone_fresh (s : State) (v : Nat) (f : Zone → Zone) : (s.modZone v f).fresh = s.fresh := rfl
@[simp] theorem modZone_cur (s : State) (v : Nat) (f : Zone → Zone) : (s.modZone v f).cur = s.cur := rfl
@[simp] theorem modZone_agenda (s : State) (v : Nat) (f : Zone → Zone) : (s.modZone v f).agenda = s.agenda := rfl

/-! `modStack`. -/

@[simp] theorem modStack_clk (s : State) (v : Nat) (f : Stack → Stack) : (s.modStack v f).clk = s.clk := rfl
@[simp] theorem modStack_phase (s : State) (v : Nat) (f : Stack → Stack) : (s.modStack v f).phase = s.phase := rfl
@[simp] theorem modStack_failCode (s : State) (v : Nat) (f : Stack → Stack) : (s.modStack v f).failCode = s.failCode := rfl
@[simp] theorem modStack_bootReport (s : State) (v : Nat) (f : Stack → Stack) : (s.modStack v f).bootReport = s.bootReport := rfl
@[simp] theorem modStack_bootSnap (s : State) (v : Nat) (f : Stack → Stack) : (s.modStack v f).bootSnap = s.bootSnap := rfl
@[simp] theorem modStack_serial (s : State) (v : Nat) (f : Stack → Stack) : (s.modStack v f).serial = s.serial := rfl
@[simp] theorem modStack_fwVersion (s : State) (v : Nat) (f : Stack → Stack) : (s.modStack v f).fwVersion = s.fwVersion := rfl
@[simp] theorem modStack_fwRollback (s : State) (v : Nat) (f : Stack → Stack) : (s.modStack v f).fwRollback = s.fwRollback := rfl
@[simp] theorem modStack_fwMeasure (s : State) (v : Nat) (f : Stack → Stack) : (s.modStack v f).fwMeasure = s.fwMeasure := rfl
@[simp] theorem modStack_nvtile (s : State) (v : Nat) (f : Stack → Stack) : (s.modStack v f).nvtile = s.nvtile := rfl
@[simp] theorem modStack_nrank (s : State) (v : Nat) (f : Stack → Stack) : (s.modStack v f).nrank = s.nrank := rfl
@[simp] theorem modStack_fuseTiles (s : State) (v : Nat) (f : Stack → Stack) : (s.modStack v f).fuseTiles = s.fuseTiles := rfl
@[simp] theorem modStack_fuseCores (s : State) (v : Nat) (f : Stack → Stack) : (s.modStack v f).fuseCores = s.fuseCores := rfl
@[simp] theorem modStack_retireLog (s : State) (v : Nat) (f : Stack → Stack) : (s.modStack v f).retireLog = s.retireLog := rfl
@[simp] theorem modStack_snapshots (s : State) (v : Nat) (f : Stack → Stack) : (s.modStack v f).snapshots = s.snapshots := rfl
@[simp] theorem modStack_snapClk (s : State) (v : Nat) (f : Stack → Stack) : (s.modStack v f).snapClk = s.snapClk := rfl
@[simp] theorem modStack_tiles (s : State) (v : Nat) (f : Stack → Stack) : (s.modStack v f).tiles = s.tiles := rfl
@[simp] theorem modStack_vtiles (s : State) (v : Nat) (f : Stack → Stack) : (s.modStack v f).vtiles = s.vtiles := rfl
@[simp] theorem modStack_rotations (s : State) (v : Nat) (f : Stack → Stack) : (s.modStack v f).rotations = s.rotations := rfl
@[simp] theorem modStack_updates (s : State) (v : Nat) (f : Stack → Stack) : (s.modStack v f).updates = s.updates := rfl
@[simp] theorem modStack_tests (s : State) (v : Nat) (f : Stack → Stack) : (s.modStack v f).tests = s.tests := rfl
@[simp] theorem modStack_ckpts (s : State) (v : Nat) (f : Stack → Stack) : (s.modStack v f).ckpts = s.ckpts := rfl
@[simp] theorem modStack_threads (s : State) (v : Nat) (f : Stack → Stack) : (s.modStack v f).threads = s.threads := rfl
@[simp] theorem modStack_cores (s : State) (v : Nat) (f : Stack → Stack) : (s.modStack v f).cores = s.cores := rfl
@[simp] theorem modStack_gangs (s : State) (v : Nat) (f : Stack → Stack) : (s.modStack v f).gangs = s.gangs := rfl
@[simp] theorem modStack_bounds (s : State) (v : Nat) (f : Stack → Stack) : (s.modStack v f).bounds = s.bounds := rfl
@[simp] theorem modStack_queues (s : State) (v : Nat) (f : Stack → Stack) : (s.modStack v f).queues = s.queues := rfl
@[simp] theorem modStack_parts (s : State) (v : Nat) (f : Stack → Stack) : (s.modStack v f).parts = s.parts := rfl
@[simp] theorem modStack_qcmd (s : State) (v : Nat) (f : Stack → Stack) : (s.modStack v f).qcmd = s.qcmd := rfl
@[simp] theorem modStack_turns (s : State) (v : Nat) (f : Stack → Stack) : (s.modStack v f).turns = s.turns := rfl
@[simp] theorem modStack_lastStaged (s : State) (v : Nat) (f : Stack → Stack) : (s.modStack v f).lastStaged = s.lastStaged := rfl
@[simp] theorem modStack_servedQ (s : State) (v : Nat) (f : Stack → Stack) : (s.modStack v f).servedQ = s.servedQ := rfl
@[simp] theorem modStack_heldBinds (s : State) (v : Nat) (f : Stack → Stack) : (s.modStack v f).heldBinds = s.heldBinds := rfl
@[simp] theorem modStack_heldPre (s : State) (v : Nat) (f : Stack → Stack) : (s.modStack v f).heldPre = s.heldPre := rfl
@[simp] theorem modStack_windowHeld (s : State) (v : Nat) (f : Stack → Stack) : (s.modStack v f).windowHeld = s.windowHeld := rfl
@[simp] theorem modStack_audits (s : State) (v : Nat) (f : Stack → Stack) : (s.modStack v f).audits = s.audits := rfl
@[simp] theorem modStack_lastServed (s : State) (v : Nat) (f : Stack → Stack) : (s.modStack v f).lastServed = s.lastServed := rfl
@[simp] theorem modStack_gangSeq (s : State) (v : Nat) (f : Stack → Stack) : (s.modStack v f).gangSeq = s.gangSeq := rfl
@[simp] theorem modStack_relSeq (s : State) (v : Nat) (f : Stack → Stack) : (s.modStack v f).relSeq = s.relSeq := rfl
@[simp] theorem modStack_spawns (s : State) (v : Nat) (f : Stack → Stack) : (s.modStack v f).spawns = s.spawns := rfl
@[simp] theorem modStack_hbm (s : State) (v : Nat) (f : Stack → Stack) : (s.modStack v f).hbm = s.hbm := rfl
@[simp] theorem modStack_hbmBad (s : State) (v : Nat) (f : Stack → Stack) : (s.modStack v f).hbmBad = s.hbmBad := rfl
@[simp] theorem modStack_roots (s : State) (v : Nat) (f : Stack → Stack) : (s.modStack v f).roots = s.roots := rfl
@[simp] theorem modStack_tinv (s : State) (v : Nat) (f : Stack → Stack) : (s.modStack v f).tinv = s.tinv := rfl
@[simp] theorem modStack_memOps (s : State) (v : Nat) (f : Stack → Stack) : (s.modStack v f).memOps = s.memOps := rfl
@[simp] theorem modStack_uncached (s : State) (v : Nat) (f : Stack → Stack) : (s.modStack v f).uncached = s.uncached := rfl
@[simp] theorem modStack_zones (s : State) (v : Nat) (f : Stack → Stack) : (s.modStack v f).zones = s.zones := rfl
@[simp] theorem modStack_hklog (s : State) (v : Nat) (f : Stack → Stack) : (s.modStack v f).hklog = s.hklog := rfl
@[simp] theorem modStack_hktail (s : State) (v : Nat) (f : Stack → Stack) : (s.modStack v f).hktail = s.hktail := rfl
@[simp] theorem modStack_hklost (s : State) (v : Nat) (f : Stack → Stack) : (s.modStack v f).hklost = s.hklost := rfl
@[simp] theorem modStack_hkUnits (s : State) (v : Nat) (f : Stack → Stack) : (s.modStack v f).hkUnits = s.hkUnits := rfl
@[simp] theorem modStack_hkBytes (s : State) (v : Nat) (f : Stack → Stack) : (s.modStack v f).hkBytes = s.hkBytes := rfl
@[simp] theorem modStack_hkUj (s : State) (v : Nat) (f : Stack → Stack) : (s.modStack v f).hkUj = s.hkUj := rfl
@[simp] theorem modStack_schedUj (s : State) (v : Nat) (f : Stack → Stack) : (s.modStack v f).schedUj = s.schedUj := rfl
@[simp] theorem modStack_msix (s : State) (v : Nat) (f : Stack → Stack) : (s.modStack v f).msix = s.msix := rfl
@[simp] theorem modStack_hostReads (s : State) (v : Nat) (f : Stack → Stack) : (s.modStack v f).hostReads = s.hostReads := rfl
@[simp] theorem modStack_ports (s : State) (v : Nat) (f : Stack → Stack) : (s.modStack v f).ports = s.ports := rfl
@[simp] theorem modStack_fw (s : State) (v : Nat) (f : Stack → Stack) : (s.modStack v f).fw = s.fw := rfl
@[simp] theorem modStack_att (s : State) (v : Nat) (f : Stack → Stack) : (s.modStack v f).att = s.att := rfl
@[simp] theorem modStack_nextCmd (s : State) (v : Nat) (f : Stack → Stack) : (s.modStack v f).nextCmd = s.nextCmd := rfl
@[simp] theorem modStack_fresh (s : State) (v : Nat) (f : Stack → Stack) : (s.modStack v f).fresh = s.fresh := rfl
@[simp] theorem modStack_cur (s : State) (v : Nat) (f : Stack → Stack) : (s.modStack v f).cur = s.cur := rfl
@[simp] theorem modStack_agenda (s : State) (v : Nat) (f : Stack → Stack) : (s.modStack v f).agenda = s.agenda := rfl

/-! `modPort`. -/

@[simp] theorem modPort_clk (s : State) (v : Nat) (f : Port → Port) : (s.modPort v f).clk = s.clk := rfl
@[simp] theorem modPort_phase (s : State) (v : Nat) (f : Port → Port) : (s.modPort v f).phase = s.phase := rfl
@[simp] theorem modPort_failCode (s : State) (v : Nat) (f : Port → Port) : (s.modPort v f).failCode = s.failCode := rfl
@[simp] theorem modPort_bootReport (s : State) (v : Nat) (f : Port → Port) : (s.modPort v f).bootReport = s.bootReport := rfl
@[simp] theorem modPort_bootSnap (s : State) (v : Nat) (f : Port → Port) : (s.modPort v f).bootSnap = s.bootSnap := rfl
@[simp] theorem modPort_serial (s : State) (v : Nat) (f : Port → Port) : (s.modPort v f).serial = s.serial := rfl
@[simp] theorem modPort_fwVersion (s : State) (v : Nat) (f : Port → Port) : (s.modPort v f).fwVersion = s.fwVersion := rfl
@[simp] theorem modPort_fwRollback (s : State) (v : Nat) (f : Port → Port) : (s.modPort v f).fwRollback = s.fwRollback := rfl
@[simp] theorem modPort_fwMeasure (s : State) (v : Nat) (f : Port → Port) : (s.modPort v f).fwMeasure = s.fwMeasure := rfl
@[simp] theorem modPort_nvtile (s : State) (v : Nat) (f : Port → Port) : (s.modPort v f).nvtile = s.nvtile := rfl
@[simp] theorem modPort_nrank (s : State) (v : Nat) (f : Port → Port) : (s.modPort v f).nrank = s.nrank := rfl
@[simp] theorem modPort_fuseTiles (s : State) (v : Nat) (f : Port → Port) : (s.modPort v f).fuseTiles = s.fuseTiles := rfl
@[simp] theorem modPort_fuseCores (s : State) (v : Nat) (f : Port → Port) : (s.modPort v f).fuseCores = s.fuseCores := rfl
@[simp] theorem modPort_retireLog (s : State) (v : Nat) (f : Port → Port) : (s.modPort v f).retireLog = s.retireLog := rfl
@[simp] theorem modPort_snapshots (s : State) (v : Nat) (f : Port → Port) : (s.modPort v f).snapshots = s.snapshots := rfl
@[simp] theorem modPort_snapClk (s : State) (v : Nat) (f : Port → Port) : (s.modPort v f).snapClk = s.snapClk := rfl
@[simp] theorem modPort_tiles (s : State) (v : Nat) (f : Port → Port) : (s.modPort v f).tiles = s.tiles := rfl
@[simp] theorem modPort_vtiles (s : State) (v : Nat) (f : Port → Port) : (s.modPort v f).vtiles = s.vtiles := rfl
@[simp] theorem modPort_rotations (s : State) (v : Nat) (f : Port → Port) : (s.modPort v f).rotations = s.rotations := rfl
@[simp] theorem modPort_updates (s : State) (v : Nat) (f : Port → Port) : (s.modPort v f).updates = s.updates := rfl
@[simp] theorem modPort_tests (s : State) (v : Nat) (f : Port → Port) : (s.modPort v f).tests = s.tests := rfl
@[simp] theorem modPort_ckpts (s : State) (v : Nat) (f : Port → Port) : (s.modPort v f).ckpts = s.ckpts := rfl
@[simp] theorem modPort_threads (s : State) (v : Nat) (f : Port → Port) : (s.modPort v f).threads = s.threads := rfl
@[simp] theorem modPort_cores (s : State) (v : Nat) (f : Port → Port) : (s.modPort v f).cores = s.cores := rfl
@[simp] theorem modPort_gangs (s : State) (v : Nat) (f : Port → Port) : (s.modPort v f).gangs = s.gangs := rfl
@[simp] theorem modPort_bounds (s : State) (v : Nat) (f : Port → Port) : (s.modPort v f).bounds = s.bounds := rfl
@[simp] theorem modPort_queues (s : State) (v : Nat) (f : Port → Port) : (s.modPort v f).queues = s.queues := rfl
@[simp] theorem modPort_parts (s : State) (v : Nat) (f : Port → Port) : (s.modPort v f).parts = s.parts := rfl
@[simp] theorem modPort_qcmd (s : State) (v : Nat) (f : Port → Port) : (s.modPort v f).qcmd = s.qcmd := rfl
@[simp] theorem modPort_turns (s : State) (v : Nat) (f : Port → Port) : (s.modPort v f).turns = s.turns := rfl
@[simp] theorem modPort_lastStaged (s : State) (v : Nat) (f : Port → Port) : (s.modPort v f).lastStaged = s.lastStaged := rfl
@[simp] theorem modPort_servedQ (s : State) (v : Nat) (f : Port → Port) : (s.modPort v f).servedQ = s.servedQ := rfl
@[simp] theorem modPort_heldBinds (s : State) (v : Nat) (f : Port → Port) : (s.modPort v f).heldBinds = s.heldBinds := rfl
@[simp] theorem modPort_heldPre (s : State) (v : Nat) (f : Port → Port) : (s.modPort v f).heldPre = s.heldPre := rfl
@[simp] theorem modPort_windowHeld (s : State) (v : Nat) (f : Port → Port) : (s.modPort v f).windowHeld = s.windowHeld := rfl
@[simp] theorem modPort_audits (s : State) (v : Nat) (f : Port → Port) : (s.modPort v f).audits = s.audits := rfl
@[simp] theorem modPort_lastServed (s : State) (v : Nat) (f : Port → Port) : (s.modPort v f).lastServed = s.lastServed := rfl
@[simp] theorem modPort_gangSeq (s : State) (v : Nat) (f : Port → Port) : (s.modPort v f).gangSeq = s.gangSeq := rfl
@[simp] theorem modPort_relSeq (s : State) (v : Nat) (f : Port → Port) : (s.modPort v f).relSeq = s.relSeq := rfl
@[simp] theorem modPort_spawns (s : State) (v : Nat) (f : Port → Port) : (s.modPort v f).spawns = s.spawns := rfl
@[simp] theorem modPort_hbm (s : State) (v : Nat) (f : Port → Port) : (s.modPort v f).hbm = s.hbm := rfl
@[simp] theorem modPort_hbmBad (s : State) (v : Nat) (f : Port → Port) : (s.modPort v f).hbmBad = s.hbmBad := rfl
@[simp] theorem modPort_roots (s : State) (v : Nat) (f : Port → Port) : (s.modPort v f).roots = s.roots := rfl
@[simp] theorem modPort_tinv (s : State) (v : Nat) (f : Port → Port) : (s.modPort v f).tinv = s.tinv := rfl
@[simp] theorem modPort_memOps (s : State) (v : Nat) (f : Port → Port) : (s.modPort v f).memOps = s.memOps := rfl
@[simp] theorem modPort_uncached (s : State) (v : Nat) (f : Port → Port) : (s.modPort v f).uncached = s.uncached := rfl
@[simp] theorem modPort_zones (s : State) (v : Nat) (f : Port → Port) : (s.modPort v f).zones = s.zones := rfl
@[simp] theorem modPort_hbmStacks (s : State) (v : Nat) (f : Port → Port) : (s.modPort v f).hbmStacks = s.hbmStacks := rfl
@[simp] theorem modPort_hklog (s : State) (v : Nat) (f : Port → Port) : (s.modPort v f).hklog = s.hklog := rfl
@[simp] theorem modPort_hktail (s : State) (v : Nat) (f : Port → Port) : (s.modPort v f).hktail = s.hktail := rfl
@[simp] theorem modPort_hklost (s : State) (v : Nat) (f : Port → Port) : (s.modPort v f).hklost = s.hklost := rfl
@[simp] theorem modPort_hkUnits (s : State) (v : Nat) (f : Port → Port) : (s.modPort v f).hkUnits = s.hkUnits := rfl
@[simp] theorem modPort_hkBytes (s : State) (v : Nat) (f : Port → Port) : (s.modPort v f).hkBytes = s.hkBytes := rfl
@[simp] theorem modPort_hkUj (s : State) (v : Nat) (f : Port → Port) : (s.modPort v f).hkUj = s.hkUj := rfl
@[simp] theorem modPort_schedUj (s : State) (v : Nat) (f : Port → Port) : (s.modPort v f).schedUj = s.schedUj := rfl
@[simp] theorem modPort_msix (s : State) (v : Nat) (f : Port → Port) : (s.modPort v f).msix = s.msix := rfl
@[simp] theorem modPort_hostReads (s : State) (v : Nat) (f : Port → Port) : (s.modPort v f).hostReads = s.hostReads := rfl
@[simp] theorem modPort_fw (s : State) (v : Nat) (f : Port → Port) : (s.modPort v f).fw = s.fw := rfl
@[simp] theorem modPort_att (s : State) (v : Nat) (f : Port → Port) : (s.modPort v f).att = s.att := rfl
@[simp] theorem modPort_nextCmd (s : State) (v : Nat) (f : Port → Port) : (s.modPort v f).nextCmd = s.nextCmd := rfl
@[simp] theorem modPort_fresh (s : State) (v : Nat) (f : Port → Port) : (s.modPort v f).fresh = s.fresh := rfl
@[simp] theorem modPort_cur (s : State) (v : Nat) (f : Port → Port) : (s.modPort v f).cur = s.cur := rfl
@[simp] theorem modPort_agenda (s : State) (v : Nat) (f : Port → Port) : (s.modPort v f).agenda = s.agenda := rfl

/-! `modRotation`. -/

@[simp] theorem modRotation_clk (s : State) (v : Nat) (f : Rotation → Rotation) : (s.modRotation v f).clk = s.clk := rfl
@[simp] theorem modRotation_phase (s : State) (v : Nat) (f : Rotation → Rotation) : (s.modRotation v f).phase = s.phase := rfl
@[simp] theorem modRotation_failCode (s : State) (v : Nat) (f : Rotation → Rotation) : (s.modRotation v f).failCode = s.failCode := rfl
@[simp] theorem modRotation_bootReport (s : State) (v : Nat) (f : Rotation → Rotation) : (s.modRotation v f).bootReport = s.bootReport := rfl
@[simp] theorem modRotation_bootSnap (s : State) (v : Nat) (f : Rotation → Rotation) : (s.modRotation v f).bootSnap = s.bootSnap := rfl
@[simp] theorem modRotation_serial (s : State) (v : Nat) (f : Rotation → Rotation) : (s.modRotation v f).serial = s.serial := rfl
@[simp] theorem modRotation_fwVersion (s : State) (v : Nat) (f : Rotation → Rotation) : (s.modRotation v f).fwVersion = s.fwVersion := rfl
@[simp] theorem modRotation_fwRollback (s : State) (v : Nat) (f : Rotation → Rotation) : (s.modRotation v f).fwRollback = s.fwRollback := rfl
@[simp] theorem modRotation_fwMeasure (s : State) (v : Nat) (f : Rotation → Rotation) : (s.modRotation v f).fwMeasure = s.fwMeasure := rfl
@[simp] theorem modRotation_nvtile (s : State) (v : Nat) (f : Rotation → Rotation) : (s.modRotation v f).nvtile = s.nvtile := rfl
@[simp] theorem modRotation_nrank (s : State) (v : Nat) (f : Rotation → Rotation) : (s.modRotation v f).nrank = s.nrank := rfl
@[simp] theorem modRotation_fuseTiles (s : State) (v : Nat) (f : Rotation → Rotation) : (s.modRotation v f).fuseTiles = s.fuseTiles := rfl
@[simp] theorem modRotation_fuseCores (s : State) (v : Nat) (f : Rotation → Rotation) : (s.modRotation v f).fuseCores = s.fuseCores := rfl
@[simp] theorem modRotation_retireLog (s : State) (v : Nat) (f : Rotation → Rotation) : (s.modRotation v f).retireLog = s.retireLog := rfl
@[simp] theorem modRotation_snapshots (s : State) (v : Nat) (f : Rotation → Rotation) : (s.modRotation v f).snapshots = s.snapshots := rfl
@[simp] theorem modRotation_snapClk (s : State) (v : Nat) (f : Rotation → Rotation) : (s.modRotation v f).snapClk = s.snapClk := rfl
@[simp] theorem modRotation_tiles (s : State) (v : Nat) (f : Rotation → Rotation) : (s.modRotation v f).tiles = s.tiles := rfl
@[simp] theorem modRotation_vtiles (s : State) (v : Nat) (f : Rotation → Rotation) : (s.modRotation v f).vtiles = s.vtiles := rfl
@[simp] theorem modRotation_updates (s : State) (v : Nat) (f : Rotation → Rotation) : (s.modRotation v f).updates = s.updates := rfl
@[simp] theorem modRotation_tests (s : State) (v : Nat) (f : Rotation → Rotation) : (s.modRotation v f).tests = s.tests := rfl
@[simp] theorem modRotation_ckpts (s : State) (v : Nat) (f : Rotation → Rotation) : (s.modRotation v f).ckpts = s.ckpts := rfl
@[simp] theorem modRotation_threads (s : State) (v : Nat) (f : Rotation → Rotation) : (s.modRotation v f).threads = s.threads := rfl
@[simp] theorem modRotation_cores (s : State) (v : Nat) (f : Rotation → Rotation) : (s.modRotation v f).cores = s.cores := rfl
@[simp] theorem modRotation_gangs (s : State) (v : Nat) (f : Rotation → Rotation) : (s.modRotation v f).gangs = s.gangs := rfl
@[simp] theorem modRotation_bounds (s : State) (v : Nat) (f : Rotation → Rotation) : (s.modRotation v f).bounds = s.bounds := rfl
@[simp] theorem modRotation_queues (s : State) (v : Nat) (f : Rotation → Rotation) : (s.modRotation v f).queues = s.queues := rfl
@[simp] theorem modRotation_parts (s : State) (v : Nat) (f : Rotation → Rotation) : (s.modRotation v f).parts = s.parts := rfl
@[simp] theorem modRotation_qcmd (s : State) (v : Nat) (f : Rotation → Rotation) : (s.modRotation v f).qcmd = s.qcmd := rfl
@[simp] theorem modRotation_turns (s : State) (v : Nat) (f : Rotation → Rotation) : (s.modRotation v f).turns = s.turns := rfl
@[simp] theorem modRotation_lastStaged (s : State) (v : Nat) (f : Rotation → Rotation) : (s.modRotation v f).lastStaged = s.lastStaged := rfl
@[simp] theorem modRotation_servedQ (s : State) (v : Nat) (f : Rotation → Rotation) : (s.modRotation v f).servedQ = s.servedQ := rfl
@[simp] theorem modRotation_heldBinds (s : State) (v : Nat) (f : Rotation → Rotation) : (s.modRotation v f).heldBinds = s.heldBinds := rfl
@[simp] theorem modRotation_heldPre (s : State) (v : Nat) (f : Rotation → Rotation) : (s.modRotation v f).heldPre = s.heldPre := rfl
@[simp] theorem modRotation_windowHeld (s : State) (v : Nat) (f : Rotation → Rotation) : (s.modRotation v f).windowHeld = s.windowHeld := rfl
@[simp] theorem modRotation_audits (s : State) (v : Nat) (f : Rotation → Rotation) : (s.modRotation v f).audits = s.audits := rfl
@[simp] theorem modRotation_lastServed (s : State) (v : Nat) (f : Rotation → Rotation) : (s.modRotation v f).lastServed = s.lastServed := rfl
@[simp] theorem modRotation_gangSeq (s : State) (v : Nat) (f : Rotation → Rotation) : (s.modRotation v f).gangSeq = s.gangSeq := rfl
@[simp] theorem modRotation_relSeq (s : State) (v : Nat) (f : Rotation → Rotation) : (s.modRotation v f).relSeq = s.relSeq := rfl
@[simp] theorem modRotation_spawns (s : State) (v : Nat) (f : Rotation → Rotation) : (s.modRotation v f).spawns = s.spawns := rfl
@[simp] theorem modRotation_hbm (s : State) (v : Nat) (f : Rotation → Rotation) : (s.modRotation v f).hbm = s.hbm := rfl
@[simp] theorem modRotation_hbmBad (s : State) (v : Nat) (f : Rotation → Rotation) : (s.modRotation v f).hbmBad = s.hbmBad := rfl
@[simp] theorem modRotation_roots (s : State) (v : Nat) (f : Rotation → Rotation) : (s.modRotation v f).roots = s.roots := rfl
@[simp] theorem modRotation_tinv (s : State) (v : Nat) (f : Rotation → Rotation) : (s.modRotation v f).tinv = s.tinv := rfl
@[simp] theorem modRotation_memOps (s : State) (v : Nat) (f : Rotation → Rotation) : (s.modRotation v f).memOps = s.memOps := rfl
@[simp] theorem modRotation_uncached (s : State) (v : Nat) (f : Rotation → Rotation) : (s.modRotation v f).uncached = s.uncached := rfl
@[simp] theorem modRotation_zones (s : State) (v : Nat) (f : Rotation → Rotation) : (s.modRotation v f).zones = s.zones := rfl
@[simp] theorem modRotation_hbmStacks (s : State) (v : Nat) (f : Rotation → Rotation) : (s.modRotation v f).hbmStacks = s.hbmStacks := rfl
@[simp] theorem modRotation_hklog (s : State) (v : Nat) (f : Rotation → Rotation) : (s.modRotation v f).hklog = s.hklog := rfl
@[simp] theorem modRotation_hktail (s : State) (v : Nat) (f : Rotation → Rotation) : (s.modRotation v f).hktail = s.hktail := rfl
@[simp] theorem modRotation_hklost (s : State) (v : Nat) (f : Rotation → Rotation) : (s.modRotation v f).hklost = s.hklost := rfl
@[simp] theorem modRotation_hkUnits (s : State) (v : Nat) (f : Rotation → Rotation) : (s.modRotation v f).hkUnits = s.hkUnits := rfl
@[simp] theorem modRotation_hkBytes (s : State) (v : Nat) (f : Rotation → Rotation) : (s.modRotation v f).hkBytes = s.hkBytes := rfl
@[simp] theorem modRotation_hkUj (s : State) (v : Nat) (f : Rotation → Rotation) : (s.modRotation v f).hkUj = s.hkUj := rfl
@[simp] theorem modRotation_schedUj (s : State) (v : Nat) (f : Rotation → Rotation) : (s.modRotation v f).schedUj = s.schedUj := rfl
@[simp] theorem modRotation_msix (s : State) (v : Nat) (f : Rotation → Rotation) : (s.modRotation v f).msix = s.msix := rfl
@[simp] theorem modRotation_hostReads (s : State) (v : Nat) (f : Rotation → Rotation) : (s.modRotation v f).hostReads = s.hostReads := rfl
@[simp] theorem modRotation_ports (s : State) (v : Nat) (f : Rotation → Rotation) : (s.modRotation v f).ports = s.ports := rfl
@[simp] theorem modRotation_fw (s : State) (v : Nat) (f : Rotation → Rotation) : (s.modRotation v f).fw = s.fw := rfl
@[simp] theorem modRotation_att (s : State) (v : Nat) (f : Rotation → Rotation) : (s.modRotation v f).att = s.att := rfl
@[simp] theorem modRotation_nextCmd (s : State) (v : Nat) (f : Rotation → Rotation) : (s.modRotation v f).nextCmd = s.nextCmd := rfl
@[simp] theorem modRotation_fresh (s : State) (v : Nat) (f : Rotation → Rotation) : (s.modRotation v f).fresh = s.fresh := rfl
@[simp] theorem modRotation_cur (s : State) (v : Nat) (f : Rotation → Rotation) : (s.modRotation v f).cur = s.cur := rfl
@[simp] theorem modRotation_agenda (s : State) (v : Nat) (f : Rotation → Rotation) : (s.modRotation v f).agenda = s.agenda := rfl

/-! `putCkpt`. -/

@[simp] theorem putCkpt_clk (s : State) (k : Ckpt) : (s.putCkpt k).clk = s.clk := rfl
@[simp] theorem putCkpt_phase (s : State) (k : Ckpt) : (s.putCkpt k).phase = s.phase := rfl
@[simp] theorem putCkpt_failCode (s : State) (k : Ckpt) : (s.putCkpt k).failCode = s.failCode := rfl
@[simp] theorem putCkpt_bootReport (s : State) (k : Ckpt) : (s.putCkpt k).bootReport = s.bootReport := rfl
@[simp] theorem putCkpt_bootSnap (s : State) (k : Ckpt) : (s.putCkpt k).bootSnap = s.bootSnap := rfl
@[simp] theorem putCkpt_serial (s : State) (k : Ckpt) : (s.putCkpt k).serial = s.serial := rfl
@[simp] theorem putCkpt_fwVersion (s : State) (k : Ckpt) : (s.putCkpt k).fwVersion = s.fwVersion := rfl
@[simp] theorem putCkpt_fwRollback (s : State) (k : Ckpt) : (s.putCkpt k).fwRollback = s.fwRollback := rfl
@[simp] theorem putCkpt_fwMeasure (s : State) (k : Ckpt) : (s.putCkpt k).fwMeasure = s.fwMeasure := rfl
@[simp] theorem putCkpt_nvtile (s : State) (k : Ckpt) : (s.putCkpt k).nvtile = s.nvtile := rfl
@[simp] theorem putCkpt_nrank (s : State) (k : Ckpt) : (s.putCkpt k).nrank = s.nrank := rfl
@[simp] theorem putCkpt_fuseTiles (s : State) (k : Ckpt) : (s.putCkpt k).fuseTiles = s.fuseTiles := rfl
@[simp] theorem putCkpt_fuseCores (s : State) (k : Ckpt) : (s.putCkpt k).fuseCores = s.fuseCores := rfl
@[simp] theorem putCkpt_retireLog (s : State) (k : Ckpt) : (s.putCkpt k).retireLog = s.retireLog := rfl
@[simp] theorem putCkpt_snapshots (s : State) (k : Ckpt) : (s.putCkpt k).snapshots = s.snapshots := rfl
@[simp] theorem putCkpt_snapClk (s : State) (k : Ckpt) : (s.putCkpt k).snapClk = s.snapClk := rfl
@[simp] theorem putCkpt_tiles (s : State) (k : Ckpt) : (s.putCkpt k).tiles = s.tiles := rfl
@[simp] theorem putCkpt_vtiles (s : State) (k : Ckpt) : (s.putCkpt k).vtiles = s.vtiles := rfl
@[simp] theorem putCkpt_rotations (s : State) (k : Ckpt) : (s.putCkpt k).rotations = s.rotations := rfl
@[simp] theorem putCkpt_updates (s : State) (k : Ckpt) : (s.putCkpt k).updates = s.updates := rfl
@[simp] theorem putCkpt_tests (s : State) (k : Ckpt) : (s.putCkpt k).tests = s.tests := rfl
@[simp] theorem putCkpt_threads (s : State) (k : Ckpt) : (s.putCkpt k).threads = s.threads := rfl
@[simp] theorem putCkpt_cores (s : State) (k : Ckpt) : (s.putCkpt k).cores = s.cores := rfl
@[simp] theorem putCkpt_gangs (s : State) (k : Ckpt) : (s.putCkpt k).gangs = s.gangs := rfl
@[simp] theorem putCkpt_bounds (s : State) (k : Ckpt) : (s.putCkpt k).bounds = s.bounds := rfl
@[simp] theorem putCkpt_queues (s : State) (k : Ckpt) : (s.putCkpt k).queues = s.queues := rfl
@[simp] theorem putCkpt_parts (s : State) (k : Ckpt) : (s.putCkpt k).parts = s.parts := rfl
@[simp] theorem putCkpt_qcmd (s : State) (k : Ckpt) : (s.putCkpt k).qcmd = s.qcmd := rfl
@[simp] theorem putCkpt_turns (s : State) (k : Ckpt) : (s.putCkpt k).turns = s.turns := rfl
@[simp] theorem putCkpt_lastStaged (s : State) (k : Ckpt) : (s.putCkpt k).lastStaged = s.lastStaged := rfl
@[simp] theorem putCkpt_servedQ (s : State) (k : Ckpt) : (s.putCkpt k).servedQ = s.servedQ := rfl
@[simp] theorem putCkpt_heldBinds (s : State) (k : Ckpt) : (s.putCkpt k).heldBinds = s.heldBinds := rfl
@[simp] theorem putCkpt_heldPre (s : State) (k : Ckpt) : (s.putCkpt k).heldPre = s.heldPre := rfl
@[simp] theorem putCkpt_windowHeld (s : State) (k : Ckpt) : (s.putCkpt k).windowHeld = s.windowHeld := rfl
@[simp] theorem putCkpt_audits (s : State) (k : Ckpt) : (s.putCkpt k).audits = s.audits := rfl
@[simp] theorem putCkpt_lastServed (s : State) (k : Ckpt) : (s.putCkpt k).lastServed = s.lastServed := rfl
@[simp] theorem putCkpt_gangSeq (s : State) (k : Ckpt) : (s.putCkpt k).gangSeq = s.gangSeq := rfl
@[simp] theorem putCkpt_relSeq (s : State) (k : Ckpt) : (s.putCkpt k).relSeq = s.relSeq := rfl
@[simp] theorem putCkpt_spawns (s : State) (k : Ckpt) : (s.putCkpt k).spawns = s.spawns := rfl
@[simp] theorem putCkpt_hbm (s : State) (k : Ckpt) : (s.putCkpt k).hbm = s.hbm := rfl
@[simp] theorem putCkpt_hbmBad (s : State) (k : Ckpt) : (s.putCkpt k).hbmBad = s.hbmBad := rfl
@[simp] theorem putCkpt_roots (s : State) (k : Ckpt) : (s.putCkpt k).roots = s.roots := rfl
@[simp] theorem putCkpt_tinv (s : State) (k : Ckpt) : (s.putCkpt k).tinv = s.tinv := rfl
@[simp] theorem putCkpt_memOps (s : State) (k : Ckpt) : (s.putCkpt k).memOps = s.memOps := rfl
@[simp] theorem putCkpt_uncached (s : State) (k : Ckpt) : (s.putCkpt k).uncached = s.uncached := rfl
@[simp] theorem putCkpt_zones (s : State) (k : Ckpt) : (s.putCkpt k).zones = s.zones := rfl
@[simp] theorem putCkpt_hbmStacks (s : State) (k : Ckpt) : (s.putCkpt k).hbmStacks = s.hbmStacks := rfl
@[simp] theorem putCkpt_hklog (s : State) (k : Ckpt) : (s.putCkpt k).hklog = s.hklog := rfl
@[simp] theorem putCkpt_hktail (s : State) (k : Ckpt) : (s.putCkpt k).hktail = s.hktail := rfl
@[simp] theorem putCkpt_hklost (s : State) (k : Ckpt) : (s.putCkpt k).hklost = s.hklost := rfl
@[simp] theorem putCkpt_hkUnits (s : State) (k : Ckpt) : (s.putCkpt k).hkUnits = s.hkUnits := rfl
@[simp] theorem putCkpt_hkBytes (s : State) (k : Ckpt) : (s.putCkpt k).hkBytes = s.hkBytes := rfl
@[simp] theorem putCkpt_hkUj (s : State) (k : Ckpt) : (s.putCkpt k).hkUj = s.hkUj := rfl
@[simp] theorem putCkpt_schedUj (s : State) (k : Ckpt) : (s.putCkpt k).schedUj = s.schedUj := rfl
@[simp] theorem putCkpt_msix (s : State) (k : Ckpt) : (s.putCkpt k).msix = s.msix := rfl
@[simp] theorem putCkpt_hostReads (s : State) (k : Ckpt) : (s.putCkpt k).hostReads = s.hostReads := rfl
@[simp] theorem putCkpt_ports (s : State) (k : Ckpt) : (s.putCkpt k).ports = s.ports := rfl
@[simp] theorem putCkpt_fw (s : State) (k : Ckpt) : (s.putCkpt k).fw = s.fw := rfl
@[simp] theorem putCkpt_att (s : State) (k : Ckpt) : (s.putCkpt k).att = s.att := rfl
@[simp] theorem putCkpt_nextCmd (s : State) (k : Ckpt) : (s.putCkpt k).nextCmd = s.nextCmd := rfl
@[simp] theorem putCkpt_fresh (s : State) (k : Ckpt) : (s.putCkpt k).fresh = s.fresh := rfl
@[simp] theorem putCkpt_cur (s : State) (k : Ckpt) : (s.putCkpt k).cur = s.cur := rfl
@[simp] theorem putCkpt_agenda (s : State) (k : Ckpt) : (s.putCkpt k).agenda = s.agenda := rfl

/-! `putHbm`. -/

@[simp] theorem putHbm_clk (s : State) (a : Nat) (l : List Byte) : (s.putHbm a l).clk = s.clk := rfl
@[simp] theorem putHbm_phase (s : State) (a : Nat) (l : List Byte) : (s.putHbm a l).phase = s.phase := rfl
@[simp] theorem putHbm_failCode (s : State) (a : Nat) (l : List Byte) : (s.putHbm a l).failCode = s.failCode := rfl
@[simp] theorem putHbm_bootReport (s : State) (a : Nat) (l : List Byte) : (s.putHbm a l).bootReport = s.bootReport := rfl
@[simp] theorem putHbm_bootSnap (s : State) (a : Nat) (l : List Byte) : (s.putHbm a l).bootSnap = s.bootSnap := rfl
@[simp] theorem putHbm_serial (s : State) (a : Nat) (l : List Byte) : (s.putHbm a l).serial = s.serial := rfl
@[simp] theorem putHbm_fwVersion (s : State) (a : Nat) (l : List Byte) : (s.putHbm a l).fwVersion = s.fwVersion := rfl
@[simp] theorem putHbm_fwRollback (s : State) (a : Nat) (l : List Byte) : (s.putHbm a l).fwRollback = s.fwRollback := rfl
@[simp] theorem putHbm_fwMeasure (s : State) (a : Nat) (l : List Byte) : (s.putHbm a l).fwMeasure = s.fwMeasure := rfl
@[simp] theorem putHbm_nvtile (s : State) (a : Nat) (l : List Byte) : (s.putHbm a l).nvtile = s.nvtile := rfl
@[simp] theorem putHbm_nrank (s : State) (a : Nat) (l : List Byte) : (s.putHbm a l).nrank = s.nrank := rfl
@[simp] theorem putHbm_fuseTiles (s : State) (a : Nat) (l : List Byte) : (s.putHbm a l).fuseTiles = s.fuseTiles := rfl
@[simp] theorem putHbm_fuseCores (s : State) (a : Nat) (l : List Byte) : (s.putHbm a l).fuseCores = s.fuseCores := rfl
@[simp] theorem putHbm_retireLog (s : State) (a : Nat) (l : List Byte) : (s.putHbm a l).retireLog = s.retireLog := rfl
@[simp] theorem putHbm_snapshots (s : State) (a : Nat) (l : List Byte) : (s.putHbm a l).snapshots = s.snapshots := rfl
@[simp] theorem putHbm_snapClk (s : State) (a : Nat) (l : List Byte) : (s.putHbm a l).snapClk = s.snapClk := rfl
@[simp] theorem putHbm_tiles (s : State) (a : Nat) (l : List Byte) : (s.putHbm a l).tiles = s.tiles := rfl
@[simp] theorem putHbm_vtiles (s : State) (a : Nat) (l : List Byte) : (s.putHbm a l).vtiles = s.vtiles := rfl
@[simp] theorem putHbm_rotations (s : State) (a : Nat) (l : List Byte) : (s.putHbm a l).rotations = s.rotations := rfl
@[simp] theorem putHbm_updates (s : State) (a : Nat) (l : List Byte) : (s.putHbm a l).updates = s.updates := rfl
@[simp] theorem putHbm_tests (s : State) (a : Nat) (l : List Byte) : (s.putHbm a l).tests = s.tests := rfl
@[simp] theorem putHbm_ckpts (s : State) (a : Nat) (l : List Byte) : (s.putHbm a l).ckpts = s.ckpts := rfl
@[simp] theorem putHbm_threads (s : State) (a : Nat) (l : List Byte) : (s.putHbm a l).threads = s.threads := rfl
@[simp] theorem putHbm_cores (s : State) (a : Nat) (l : List Byte) : (s.putHbm a l).cores = s.cores := rfl
@[simp] theorem putHbm_gangs (s : State) (a : Nat) (l : List Byte) : (s.putHbm a l).gangs = s.gangs := rfl
@[simp] theorem putHbm_bounds (s : State) (a : Nat) (l : List Byte) : (s.putHbm a l).bounds = s.bounds := rfl
@[simp] theorem putHbm_queues (s : State) (a : Nat) (l : List Byte) : (s.putHbm a l).queues = s.queues := rfl
@[simp] theorem putHbm_parts (s : State) (a : Nat) (l : List Byte) : (s.putHbm a l).parts = s.parts := rfl
@[simp] theorem putHbm_qcmd (s : State) (a : Nat) (l : List Byte) : (s.putHbm a l).qcmd = s.qcmd := rfl
@[simp] theorem putHbm_turns (s : State) (a : Nat) (l : List Byte) : (s.putHbm a l).turns = s.turns := rfl
@[simp] theorem putHbm_lastStaged (s : State) (a : Nat) (l : List Byte) : (s.putHbm a l).lastStaged = s.lastStaged := rfl
@[simp] theorem putHbm_servedQ (s : State) (a : Nat) (l : List Byte) : (s.putHbm a l).servedQ = s.servedQ := rfl
@[simp] theorem putHbm_heldBinds (s : State) (a : Nat) (l : List Byte) : (s.putHbm a l).heldBinds = s.heldBinds := rfl
@[simp] theorem putHbm_heldPre (s : State) (a : Nat) (l : List Byte) : (s.putHbm a l).heldPre = s.heldPre := rfl
@[simp] theorem putHbm_windowHeld (s : State) (a : Nat) (l : List Byte) : (s.putHbm a l).windowHeld = s.windowHeld := rfl
@[simp] theorem putHbm_audits (s : State) (a : Nat) (l : List Byte) : (s.putHbm a l).audits = s.audits := rfl
@[simp] theorem putHbm_lastServed (s : State) (a : Nat) (l : List Byte) : (s.putHbm a l).lastServed = s.lastServed := rfl
@[simp] theorem putHbm_gangSeq (s : State) (a : Nat) (l : List Byte) : (s.putHbm a l).gangSeq = s.gangSeq := rfl
@[simp] theorem putHbm_relSeq (s : State) (a : Nat) (l : List Byte) : (s.putHbm a l).relSeq = s.relSeq := rfl
@[simp] theorem putHbm_spawns (s : State) (a : Nat) (l : List Byte) : (s.putHbm a l).spawns = s.spawns := rfl
@[simp] theorem putHbm_roots (s : State) (a : Nat) (l : List Byte) : (s.putHbm a l).roots = s.roots := rfl
@[simp] theorem putHbm_tinv (s : State) (a : Nat) (l : List Byte) : (s.putHbm a l).tinv = s.tinv := rfl
@[simp] theorem putHbm_memOps (s : State) (a : Nat) (l : List Byte) : (s.putHbm a l).memOps = s.memOps := rfl
@[simp] theorem putHbm_uncached (s : State) (a : Nat) (l : List Byte) : (s.putHbm a l).uncached = s.uncached := rfl
@[simp] theorem putHbm_zones (s : State) (a : Nat) (l : List Byte) : (s.putHbm a l).zones = s.zones := rfl
@[simp] theorem putHbm_hbmStacks (s : State) (a : Nat) (l : List Byte) : (s.putHbm a l).hbmStacks = s.hbmStacks := rfl
@[simp] theorem putHbm_hklog (s : State) (a : Nat) (l : List Byte) : (s.putHbm a l).hklog = s.hklog := rfl
@[simp] theorem putHbm_hktail (s : State) (a : Nat) (l : List Byte) : (s.putHbm a l).hktail = s.hktail := rfl
@[simp] theorem putHbm_hklost (s : State) (a : Nat) (l : List Byte) : (s.putHbm a l).hklost = s.hklost := rfl
@[simp] theorem putHbm_hkUnits (s : State) (a : Nat) (l : List Byte) : (s.putHbm a l).hkUnits = s.hkUnits := rfl
@[simp] theorem putHbm_hkBytes (s : State) (a : Nat) (l : List Byte) : (s.putHbm a l).hkBytes = s.hkBytes := rfl
@[simp] theorem putHbm_hkUj (s : State) (a : Nat) (l : List Byte) : (s.putHbm a l).hkUj = s.hkUj := rfl
@[simp] theorem putHbm_schedUj (s : State) (a : Nat) (l : List Byte) : (s.putHbm a l).schedUj = s.schedUj := rfl
@[simp] theorem putHbm_msix (s : State) (a : Nat) (l : List Byte) : (s.putHbm a l).msix = s.msix := rfl
@[simp] theorem putHbm_hostReads (s : State) (a : Nat) (l : List Byte) : (s.putHbm a l).hostReads = s.hostReads := rfl
@[simp] theorem putHbm_ports (s : State) (a : Nat) (l : List Byte) : (s.putHbm a l).ports = s.ports := rfl
@[simp] theorem putHbm_fw (s : State) (a : Nat) (l : List Byte) : (s.putHbm a l).fw = s.fw := rfl
@[simp] theorem putHbm_att (s : State) (a : Nat) (l : List Byte) : (s.putHbm a l).att = s.att := rfl
@[simp] theorem putHbm_nextCmd (s : State) (a : Nat) (l : List Byte) : (s.putHbm a l).nextCmd = s.nextCmd := rfl
@[simp] theorem putHbm_fresh (s : State) (a : Nat) (l : List Byte) : (s.putHbm a l).fresh = s.fresh := rfl
@[simp] theorem putHbm_cur (s : State) (a : Nat) (l : List Byte) : (s.putHbm a l).cur = s.cur := rfl
@[simp] theorem putHbm_agenda (s : State) (a : Nat) (l : List Byte) : (s.putHbm a l).agenda = s.agenda := rfl

/-! `hkPut`. -/

@[simp] theorem hkPut_clk (s : State) (k p : Nat) (d : List Word) : (s.hkPut k p d).clk = s.clk := rfl
@[simp] theorem hkPut_phase (s : State) (k p : Nat) (d : List Word) : (s.hkPut k p d).phase = s.phase := rfl
@[simp] theorem hkPut_failCode (s : State) (k p : Nat) (d : List Word) : (s.hkPut k p d).failCode = s.failCode := rfl
@[simp] theorem hkPut_bootReport (s : State) (k p : Nat) (d : List Word) : (s.hkPut k p d).bootReport = s.bootReport := rfl
@[simp] theorem hkPut_bootSnap (s : State) (k p : Nat) (d : List Word) : (s.hkPut k p d).bootSnap = s.bootSnap := rfl
@[simp] theorem hkPut_serial (s : State) (k p : Nat) (d : List Word) : (s.hkPut k p d).serial = s.serial := rfl
@[simp] theorem hkPut_fwVersion (s : State) (k p : Nat) (d : List Word) : (s.hkPut k p d).fwVersion = s.fwVersion := rfl
@[simp] theorem hkPut_fwRollback (s : State) (k p : Nat) (d : List Word) : (s.hkPut k p d).fwRollback = s.fwRollback := rfl
@[simp] theorem hkPut_fwMeasure (s : State) (k p : Nat) (d : List Word) : (s.hkPut k p d).fwMeasure = s.fwMeasure := rfl
@[simp] theorem hkPut_nvtile (s : State) (k p : Nat) (d : List Word) : (s.hkPut k p d).nvtile = s.nvtile := rfl
@[simp] theorem hkPut_nrank (s : State) (k p : Nat) (d : List Word) : (s.hkPut k p d).nrank = s.nrank := rfl
@[simp] theorem hkPut_fuseTiles (s : State) (k p : Nat) (d : List Word) : (s.hkPut k p d).fuseTiles = s.fuseTiles := rfl
@[simp] theorem hkPut_fuseCores (s : State) (k p : Nat) (d : List Word) : (s.hkPut k p d).fuseCores = s.fuseCores := rfl
@[simp] theorem hkPut_retireLog (s : State) (k p : Nat) (d : List Word) : (s.hkPut k p d).retireLog = s.retireLog := rfl
@[simp] theorem hkPut_snapshots (s : State) (k p : Nat) (d : List Word) : (s.hkPut k p d).snapshots = s.snapshots := rfl
@[simp] theorem hkPut_snapClk (s : State) (k p : Nat) (d : List Word) : (s.hkPut k p d).snapClk = s.snapClk := rfl
@[simp] theorem hkPut_tiles (s : State) (k p : Nat) (d : List Word) : (s.hkPut k p d).tiles = s.tiles := rfl
@[simp] theorem hkPut_vtiles (s : State) (k p : Nat) (d : List Word) : (s.hkPut k p d).vtiles = s.vtiles := rfl
@[simp] theorem hkPut_rotations (s : State) (k p : Nat) (d : List Word) : (s.hkPut k p d).rotations = s.rotations := rfl
@[simp] theorem hkPut_updates (s : State) (k p : Nat) (d : List Word) : (s.hkPut k p d).updates = s.updates := rfl
@[simp] theorem hkPut_tests (s : State) (k p : Nat) (d : List Word) : (s.hkPut k p d).tests = s.tests := rfl
@[simp] theorem hkPut_ckpts (s : State) (k p : Nat) (d : List Word) : (s.hkPut k p d).ckpts = s.ckpts := rfl
@[simp] theorem hkPut_threads (s : State) (k p : Nat) (d : List Word) : (s.hkPut k p d).threads = s.threads := rfl
@[simp] theorem hkPut_cores (s : State) (k p : Nat) (d : List Word) : (s.hkPut k p d).cores = s.cores := rfl
@[simp] theorem hkPut_gangs (s : State) (k p : Nat) (d : List Word) : (s.hkPut k p d).gangs = s.gangs := rfl
@[simp] theorem hkPut_bounds (s : State) (k p : Nat) (d : List Word) : (s.hkPut k p d).bounds = s.bounds := rfl
@[simp] theorem hkPut_queues (s : State) (k p : Nat) (d : List Word) : (s.hkPut k p d).queues = s.queues := rfl
@[simp] theorem hkPut_parts (s : State) (k p : Nat) (d : List Word) : (s.hkPut k p d).parts = s.parts := rfl
@[simp] theorem hkPut_qcmd (s : State) (k p : Nat) (d : List Word) : (s.hkPut k p d).qcmd = s.qcmd := rfl
@[simp] theorem hkPut_turns (s : State) (k p : Nat) (d : List Word) : (s.hkPut k p d).turns = s.turns := rfl
@[simp] theorem hkPut_lastStaged (s : State) (k p : Nat) (d : List Word) : (s.hkPut k p d).lastStaged = s.lastStaged := rfl
@[simp] theorem hkPut_servedQ (s : State) (k p : Nat) (d : List Word) : (s.hkPut k p d).servedQ = s.servedQ := rfl
@[simp] theorem hkPut_heldBinds (s : State) (k p : Nat) (d : List Word) : (s.hkPut k p d).heldBinds = s.heldBinds := rfl
@[simp] theorem hkPut_heldPre (s : State) (k p : Nat) (d : List Word) : (s.hkPut k p d).heldPre = s.heldPre := rfl
@[simp] theorem hkPut_windowHeld (s : State) (k p : Nat) (d : List Word) : (s.hkPut k p d).windowHeld = s.windowHeld := rfl
@[simp] theorem hkPut_audits (s : State) (k p : Nat) (d : List Word) : (s.hkPut k p d).audits = s.audits := rfl
@[simp] theorem hkPut_lastServed (s : State) (k p : Nat) (d : List Word) : (s.hkPut k p d).lastServed = s.lastServed := rfl
@[simp] theorem hkPut_gangSeq (s : State) (k p : Nat) (d : List Word) : (s.hkPut k p d).gangSeq = s.gangSeq := rfl
@[simp] theorem hkPut_relSeq (s : State) (k p : Nat) (d : List Word) : (s.hkPut k p d).relSeq = s.relSeq := rfl
@[simp] theorem hkPut_spawns (s : State) (k p : Nat) (d : List Word) : (s.hkPut k p d).spawns = s.spawns := rfl
@[simp] theorem hkPut_hbm (s : State) (k p : Nat) (d : List Word) : (s.hkPut k p d).hbm = s.hbm := rfl
@[simp] theorem hkPut_hbmBad (s : State) (k p : Nat) (d : List Word) : (s.hkPut k p d).hbmBad = s.hbmBad := rfl
@[simp] theorem hkPut_roots (s : State) (k p : Nat) (d : List Word) : (s.hkPut k p d).roots = s.roots := rfl
@[simp] theorem hkPut_tinv (s : State) (k p : Nat) (d : List Word) : (s.hkPut k p d).tinv = s.tinv := rfl
@[simp] theorem hkPut_memOps (s : State) (k p : Nat) (d : List Word) : (s.hkPut k p d).memOps = s.memOps := rfl
@[simp] theorem hkPut_uncached (s : State) (k p : Nat) (d : List Word) : (s.hkPut k p d).uncached = s.uncached := rfl
@[simp] theorem hkPut_zones (s : State) (k p : Nat) (d : List Word) : (s.hkPut k p d).zones = s.zones := rfl
@[simp] theorem hkPut_hbmStacks (s : State) (k p : Nat) (d : List Word) : (s.hkPut k p d).hbmStacks = s.hbmStacks := rfl
@[simp] theorem hkPut_hkUnits (s : State) (k p : Nat) (d : List Word) : (s.hkPut k p d).hkUnits = s.hkUnits := rfl
@[simp] theorem hkPut_hkBytes (s : State) (k p : Nat) (d : List Word) : (s.hkPut k p d).hkBytes = s.hkBytes := rfl
@[simp] theorem hkPut_hkUj (s : State) (k p : Nat) (d : List Word) : (s.hkPut k p d).hkUj = s.hkUj := rfl
@[simp] theorem hkPut_schedUj (s : State) (k p : Nat) (d : List Word) : (s.hkPut k p d).schedUj = s.schedUj := rfl
@[simp] theorem hkPut_msix (s : State) (k p : Nat) (d : List Word) : (s.hkPut k p d).msix = s.msix := rfl
@[simp] theorem hkPut_hostReads (s : State) (k p : Nat) (d : List Word) : (s.hkPut k p d).hostReads = s.hostReads := rfl
@[simp] theorem hkPut_ports (s : State) (k p : Nat) (d : List Word) : (s.hkPut k p d).ports = s.ports := rfl
@[simp] theorem hkPut_fw (s : State) (k p : Nat) (d : List Word) : (s.hkPut k p d).fw = s.fw := rfl
@[simp] theorem hkPut_att (s : State) (k p : Nat) (d : List Word) : (s.hkPut k p d).att = s.att := rfl
@[simp] theorem hkPut_nextCmd (s : State) (k p : Nat) (d : List Word) : (s.hkPut k p d).nextCmd = s.nextCmd := rfl
@[simp] theorem hkPut_fresh (s : State) (k p : Nat) (d : List Word) : (s.hkPut k p d).fresh = s.fresh := rfl
@[simp] theorem hkPut_cur (s : State) (k p : Nat) (d : List Word) : (s.hkPut k p d).cur = s.cur := rfl
@[simp] theorem hkPut_agenda (s : State) (k p : Nat) (d : List Word) : (s.hkPut k p d).agenda = s.agenda := rfl

/-! `notice`. -/

@[simp] theorem notice_clk (s : State) : (s.notice).clk = s.clk := rfl
@[simp] theorem notice_phase (s : State) : (s.notice).phase = s.phase := rfl
@[simp] theorem notice_failCode (s : State) : (s.notice).failCode = s.failCode := rfl
@[simp] theorem notice_bootReport (s : State) : (s.notice).bootReport = s.bootReport := rfl
@[simp] theorem notice_bootSnap (s : State) : (s.notice).bootSnap = s.bootSnap := rfl
@[simp] theorem notice_serial (s : State) : (s.notice).serial = s.serial := rfl
@[simp] theorem notice_fwVersion (s : State) : (s.notice).fwVersion = s.fwVersion := rfl
@[simp] theorem notice_fwRollback (s : State) : (s.notice).fwRollback = s.fwRollback := rfl
@[simp] theorem notice_fwMeasure (s : State) : (s.notice).fwMeasure = s.fwMeasure := rfl
@[simp] theorem notice_nvtile (s : State) : (s.notice).nvtile = s.nvtile := rfl
@[simp] theorem notice_nrank (s : State) : (s.notice).nrank = s.nrank := rfl
@[simp] theorem notice_fuseTiles (s : State) : (s.notice).fuseTiles = s.fuseTiles := rfl
@[simp] theorem notice_fuseCores (s : State) : (s.notice).fuseCores = s.fuseCores := rfl
@[simp] theorem notice_retireLog (s : State) : (s.notice).retireLog = s.retireLog := rfl
@[simp] theorem notice_snapshots (s : State) : (s.notice).snapshots = s.snapshots := rfl
@[simp] theorem notice_snapClk (s : State) : (s.notice).snapClk = s.snapClk := rfl
@[simp] theorem notice_tiles (s : State) : (s.notice).tiles = s.tiles := rfl
@[simp] theorem notice_vtiles (s : State) : (s.notice).vtiles = s.vtiles := rfl
@[simp] theorem notice_rotations (s : State) : (s.notice).rotations = s.rotations := rfl
@[simp] theorem notice_updates (s : State) : (s.notice).updates = s.updates := rfl
@[simp] theorem notice_tests (s : State) : (s.notice).tests = s.tests := rfl
@[simp] theorem notice_ckpts (s : State) : (s.notice).ckpts = s.ckpts := rfl
@[simp] theorem notice_threads (s : State) : (s.notice).threads = s.threads := rfl
@[simp] theorem notice_cores (s : State) : (s.notice).cores = s.cores := rfl
@[simp] theorem notice_gangs (s : State) : (s.notice).gangs = s.gangs := rfl
@[simp] theorem notice_bounds (s : State) : (s.notice).bounds = s.bounds := rfl
@[simp] theorem notice_queues (s : State) : (s.notice).queues = s.queues := rfl
@[simp] theorem notice_parts (s : State) : (s.notice).parts = s.parts := rfl
@[simp] theorem notice_qcmd (s : State) : (s.notice).qcmd = s.qcmd := rfl
@[simp] theorem notice_turns (s : State) : (s.notice).turns = s.turns := rfl
@[simp] theorem notice_lastStaged (s : State) : (s.notice).lastStaged = s.lastStaged := rfl
@[simp] theorem notice_servedQ (s : State) : (s.notice).servedQ = s.servedQ := rfl
@[simp] theorem notice_heldBinds (s : State) : (s.notice).heldBinds = s.heldBinds := rfl
@[simp] theorem notice_heldPre (s : State) : (s.notice).heldPre = s.heldPre := rfl
@[simp] theorem notice_windowHeld (s : State) : (s.notice).windowHeld = s.windowHeld := rfl
@[simp] theorem notice_audits (s : State) : (s.notice).audits = s.audits := rfl
@[simp] theorem notice_lastServed (s : State) : (s.notice).lastServed = s.lastServed := rfl
@[simp] theorem notice_gangSeq (s : State) : (s.notice).gangSeq = s.gangSeq := rfl
@[simp] theorem notice_relSeq (s : State) : (s.notice).relSeq = s.relSeq := rfl
@[simp] theorem notice_spawns (s : State) : (s.notice).spawns = s.spawns := rfl
@[simp] theorem notice_hbm (s : State) : (s.notice).hbm = s.hbm := rfl
@[simp] theorem notice_hbmBad (s : State) : (s.notice).hbmBad = s.hbmBad := rfl
@[simp] theorem notice_roots (s : State) : (s.notice).roots = s.roots := rfl
@[simp] theorem notice_tinv (s : State) : (s.notice).tinv = s.tinv := rfl
@[simp] theorem notice_memOps (s : State) : (s.notice).memOps = s.memOps := rfl
@[simp] theorem notice_uncached (s : State) : (s.notice).uncached = s.uncached := rfl
@[simp] theorem notice_zones (s : State) : (s.notice).zones = s.zones := rfl
@[simp] theorem notice_hbmStacks (s : State) : (s.notice).hbmStacks = s.hbmStacks := rfl
@[simp] theorem notice_hklog (s : State) : (s.notice).hklog = s.hklog := rfl
@[simp] theorem notice_hktail (s : State) : (s.notice).hktail = s.hktail := rfl
@[simp] theorem notice_hklost (s : State) : (s.notice).hklost = s.hklost := rfl
@[simp] theorem notice_hkUnits (s : State) : (s.notice).hkUnits = s.hkUnits := rfl
@[simp] theorem notice_hkBytes (s : State) : (s.notice).hkBytes = s.hkBytes := rfl
@[simp] theorem notice_hkUj (s : State) : (s.notice).hkUj = s.hkUj := rfl
@[simp] theorem notice_schedUj (s : State) : (s.notice).schedUj = s.schedUj := rfl
@[simp] theorem notice_hostReads (s : State) : (s.notice).hostReads = s.hostReads := rfl
@[simp] theorem notice_ports (s : State) : (s.notice).ports = s.ports := rfl
@[simp] theorem notice_fw (s : State) : (s.notice).fw = s.fw := rfl
@[simp] theorem notice_att (s : State) : (s.notice).att = s.att := rfl
@[simp] theorem notice_nextCmd (s : State) : (s.notice).nextCmd = s.nextCmd := rfl
@[simp] theorem notice_fresh (s : State) : (s.notice).fresh = s.fresh := rfl
@[simp] theorem notice_cur (s : State) : (s.notice).cur = s.cur := rfl
@[simp] theorem notice_agenda (s : State) : (s.notice).agenda = s.agenda := rfl

@[simp] theorem modThread_threads (s : State) (v k : Nat) (f : Thread → Thread) : (s.modThread v k f).threads = modFirst (fun t => t.isAt v k) f s.threads := rfl
@[simp] theorem putHbm_hbm (s : State) (a : Nat) (l : List Byte) : (s.putHbm a l).hbm = s.hbm.putBytes a l := rfl
@[simp] theorem notice_msix (s : State) : s.notice.msix = s.msix ++ [0] := rfl

/-! `Thread.setS`. -/

@[simp] theorem setS_vt (t : Thread) (r : SReg) (x : Word) : (t.setS r x).vt = t.vt := by unfold Thread.setS; split <;> rfl
@[simp] theorem setS_slot (t : Thread) (r : SReg) (x : Word) : (t.setS r x).slot = t.slot := by unfold Thread.setS; split <;> rfl
@[simp] theorem setS_st (t : Thread) (r : SReg) (x : Word) : (t.setS r x).st = t.st := by unfold Thread.setS; split <;> rfl
@[simp] theorem setS_gang (t : Thread) (r : SReg) (x : Word) : (t.setS r x).gang = t.gang := by unfold Thread.setS; split <;> rfl
@[simp] theorem setS_gslot (t : Thread) (r : SReg) (x : Word) : (t.setS r x).gslot = t.gslot := by unfold Thread.setS; split <;> rfl
@[simp] theorem setS_pc (t : Thread) (r : SReg) (x : Word) : (t.setS r x).pc = t.pc := by unfold Thread.setS; split <;> rfl
@[simp] theorem setS_v (t : Thread) (r : SReg) (x : Word) : (t.setS r x).v = t.v := by unfold Thread.setS; split <;> rfl
@[simp] theorem setS_p (t : Thread) (r : SReg) (x : Word) : (t.setS r x).p = t.p := by unfold Thread.setS; split <;> rfl
@[simp] theorem setS_h (t : Thread) (r : SReg) (x : Word) : (t.setS r x).h = t.h := by unfold Thread.setS; split <;> rfl
@[simp] theorem setS_q (t : Thread) (r : SReg) (x : Word) : (t.setS r x).q = t.q := by unfold Thread.setS; split <;> rfl
@[simp] theorem setS_loops (t : Thread) (r : SReg) (x : Word) : (t.setS r x).loops = t.loops := by unfold Thread.setS; split <;> rfl
@[simp] theorem setS_rep (t : Thread) (r : SReg) (x : Word) : (t.setS r x).rep = t.rep := by unfold Thread.setS; split <;> rfl
@[simp] theorem setS_bic (t : Thread) (r : SReg) (x : Word) : (t.setS r x).bic = t.bic := by unfold Thread.setS; split <;> rfl
@[simp] theorem setS_bmc (t : Thread) (r : SReg) (x : Word) : (t.setS r x).bmc = t.bmc := by unfold Thread.setS; split <;> rfl
@[simp] theorem setS_grace (t : Thread) (r : SReg) (x : Word) : (t.setS r x).grace = t.grace := by unfold Thread.setS; split <;> rfl
@[simp] theorem setS_gcause (t : Thread) (r : SReg) (x : Word) : (t.setS r x).gcause = t.gcause := by unfold Thread.setS; split <;> rfl
@[simp] theorem setS_ingrace (t : Thread) (r : SReg) (x : Word) : (t.setS r x).ingrace = t.ingrace := by unfold Thread.setS; split <;> rfl
@[simp] theorem setS_pend (t : Thread) (r : SReg) (x : Word) : (t.setS r x).pend = t.pend := by unfold Thread.setS; split <;> rfl
@[simp] theorem setS_resumes (t : Thread) (r : SReg) (x : Word) : (t.setS r x).resumes = t.resumes := by unfold Thread.setS; split <;> rfl
@[simp] theorem setS_resumed (t : Thread) (r : SReg) (x : Word) : (t.setS r x).resumed = t.resumed := by unfold Thread.setS; split <;> rfl
@[simp] theorem setS_lives (t : Thread) (r : SReg) (x : Word) : (t.setS r x).lives = t.lives := by unfold Thread.setS; split <;> rfl
@[simp] theorem setS_livev (t : Thread) (r : SReg) (x : Word) : (t.setS r x).livev = t.livev := by unfold Thread.setS; split <;> rfl
@[simp] theorem setS_rng (t : Thread) (r : SReg) (x : Word) : (t.setS r x).rng = t.rng := by unfold Thread.setS; split <;> rfl
@[simp] theorem setS_heldBic (t : Thread) (r : SReg) (x : Word) : (t.setS r x).heldBic = t.heldBic := by unfold Thread.setS; split <;> rfl
@[simp] theorem setS_heldBmc (t : Thread) (r : SReg) (x : Word) : (t.setS r x).heldBmc = t.heldBmc := by unfold Thread.setS; split <;> rfl
@[simp] theorem setS_memctl (t : Thread) (r : SReg) (x : Word) : (t.setS r x).memctl = t.memctl := by unfold Thread.setS; split <;> rfl
@[simp] theorem setS_rmode (t : Thread) (r : SReg) (x : Word) : (t.setS r x).rmode = t.rmode := by unfold Thread.setS; split <;> rfl
@[simp] theorem setS_fflags (t : Thread) (r : SReg) (x : Word) : (t.setS r x).fflags = t.fflags := by unfold Thread.setS; split <;> rfl
@[simp] theorem setS_seed (t : Thread) (r : SReg) (x : Word) : (t.setS r x).seed = t.seed := by unfold Thread.setS; split <;> rfl
@[simp] theorem setS_tidbase (t : Thread) (r : SReg) (x : Word) : (t.setS r x).tidbase = t.tidbase := by unfold Thread.setS; split <;> rfl
@[simp] theorem setS_mrow (t : Thread) (r : SReg) (x : Word) : (t.setS r x).mrow = t.mrow := by unfold Thread.setS; split <;> rfl
@[simp] theorem setS_mcol (t : Thread) (r : SReg) (x : Word) : (t.setS r x).mcol = t.mcol := by unfold Thread.setS; split <;> rfl
@[simp] theorem setS_mdep (t : Thread) (r : SReg) (x : Word) : (t.setS r x).mdep = t.mdep := by unfold Thread.setS; split <;> rfl
@[simp] theorem setS_injpl (t : Thread) (r : SReg) (x : Word) : (t.setS r x).injpl = t.injpl := by unfold Thread.setS; split <;> rfl
@[simp] theorem setS_injarm (t : Thread) (r : SReg) (x : Word) : (t.setS r x).injarm = t.injarm := by unfold Thread.setS; split <;> rfl
@[simp] theorem setS_fbuf (t : Thread) (r : SReg) (x : Word) : (t.setS r x).fbuf = t.fbuf := by unfold Thread.setS; split <;> rfl
@[simp] theorem setS_freq (t : Thread) (r : SReg) (x : Word) : (t.setS r x).freq = t.freq := by unfold Thread.setS; split <;> rfl
@[simp] theorem setS_wait (t : Thread) (r : SReg) (x : Word) : (t.setS r x).wait = t.wait := by unfold Thread.setS; split <;> rfl
@[simp] theorem setS_since (t : Thread) (r : SReg) (x : Word) : (t.setS r x).since = t.since := by unfold Thread.setS; split <;> rfl
@[simp] theorem setS_woken (t : Thread) (r : SReg) (x : Word) : (t.setS r x).woken = t.woken := by unfold Thread.setS; split <;> rfl
@[simp] theorem setS_mailbox (t : Thread) (r : SReg) (x : Word) : (t.setS r x).mailbox = t.mailbox := by unfold Thread.setS; split <;> rfl
@[simp] theorem setS_node (t : Thread) (r : SReg) (x : Word) : (t.setS r x).node = t.node := by unfold Thread.setS; split <;> rfl
@[simp] theorem setS_ioHeld (t : Thread) (r : SReg) (x : Word) : (t.setS r x).ioHeld = t.ioHeld := by unfold Thread.setS; split <;> rfl
@[simp] theorem setS_deferred (t : Thread) (r : SReg) (x : Word) : (t.setS r x).deferred = t.deferred := by unfold Thread.setS; split <;> rfl
@[simp] theorem setS_asyncF (t : Thread) (r : SReg) (x : Word) : (t.setS r x).asyncF = t.asyncF := by unfold Thread.setS; split <;> rfl
@[simp] theorem setS_cause (t : Thread) (r : SReg) (x : Word) : (t.setS r x).cause = t.cause := by unfold Thread.setS; split <;> rfl
@[simp] theorem setS_pktHeld (t : Thread) (r : SReg) (x : Word) : (t.setS r x).pktHeld = t.pktHeld := by unfold Thread.setS; split <;> rfl
@[simp] theorem setS_bodyF (t : Thread) (r : SReg) (x : Word) : (t.setS r x).bodyF = t.bodyF := by unfold Thread.setS; split <;> rfl
@[simp] theorem setS_pktSeq (t : Thread) (r : SReg) (x : Word) : (t.setS r x).pktSeq = t.pktSeq := by unfold Thread.setS; split <;> rfl
@[simp] theorem setS_barGen (t : Thread) (r : SReg) (x : Word) : (t.setS r x).barGen = t.barGen := by unfold Thread.setS; split <;> rfl
@[simp] theorem setS_stepArr (t : Thread) (r : SReg) (x : Word) : (t.setS r x).stepArr = t.stepArr := by unfold Thread.setS; split <;> rfl
@[simp] theorem setS_stepSeq (t : Thread) (r : SReg) (x : Word) : (t.setS r x).stepSeq = t.stepSeq := by unfold Thread.setS; split <;> rfl
@[simp] theorem setS_conted (t : Thread) (r : SReg) (x : Word) : (t.setS r x).conted = t.conted := by unfold Thread.setS; split <;> rfl
@[simp] theorem setS_stepRel (t : Thread) (r : SReg) (x : Word) : (t.setS r x).stepRel = t.stepRel := by unfold Thread.setS; split <;> rfl
@[simp] theorem setS_runBic (t : Thread) (r : SReg) (x : Word) : (t.setS r x).runBic = t.runBic := by unfold Thread.setS; split <;> rfl
@[simp] theorem setS_runBmc (t : Thread) (r : SReg) (x : Word) : (t.setS r x).runBmc = t.runBmc := by unfold Thread.setS; split <;> rfl
@[simp] theorem setS_spanClk (t : Thread) (r : SReg) (x : Word) : (t.setS r x).spanClk = t.spanClk := by unfold Thread.setS; split <;> rfl
@[simp] theorem setS_halts (t : Thread) (r : SReg) (x : Word) : (t.setS r x).halts = t.halts := by unfold Thread.setS; split <;> rfl
@[simp] theorem setS_headClk (t : Thread) (r : SReg) (x : Word) : (t.setS r x).headClk = t.headClk := by unfold Thread.setS; split <;> rfl
@[simp] theorem setS_seqClk (t : Thread) (r : SReg) (x : Word) : (t.setS r x).seqClk = t.seqClk := by unfold Thread.setS; split <;> rfl
@[simp] theorem setS_scalClk (t : Thread) (r : SReg) (x : Word) : (t.setS r x).scalClk = t.scalClk := by unfold Thread.setS; split <;> rfl
@[simp] theorem setS_vecClk (t : Thread) (r : SReg) (x : Word) : (t.setS r x).vecClk = t.vecClk := by unfold Thread.setS; split <;> rfl
@[simp] theorem setS_poked (t : Thread) (r : SReg) (x : Word) : (t.setS r x).poked = t.poked := by unfold Thread.setS; split <;> rfl
@[simp] theorem setS_lanes (t : Thread) (r : SReg) (x : Word) : (t.setS r x).lanes = t.lanes := by unfold Thread.setS; split <;> rfl

/-! `Thread.setP`. -/

@[simp] theorem setP_vt (t : Thread) (r : PReg) (x : BitVec 32) : (t.setP r x).vt = t.vt := by unfold Thread.setP; split <;> rfl
@[simp] theorem setP_slot (t : Thread) (r : PReg) (x : BitVec 32) : (t.setP r x).slot = t.slot := by unfold Thread.setP; split <;> rfl
@[simp] theorem setP_st (t : Thread) (r : PReg) (x : BitVec 32) : (t.setP r x).st = t.st := by unfold Thread.setP; split <;> rfl
@[simp] theorem setP_gang (t : Thread) (r : PReg) (x : BitVec 32) : (t.setP r x).gang = t.gang := by unfold Thread.setP; split <;> rfl
@[simp] theorem setP_gslot (t : Thread) (r : PReg) (x : BitVec 32) : (t.setP r x).gslot = t.gslot := by unfold Thread.setP; split <;> rfl
@[simp] theorem setP_pc (t : Thread) (r : PReg) (x : BitVec 32) : (t.setP r x).pc = t.pc := by unfold Thread.setP; split <;> rfl
@[simp] theorem setP_s (t : Thread) (r : PReg) (x : BitVec 32) : (t.setP r x).s = t.s := by unfold Thread.setP; split <;> rfl
@[simp] theorem setP_v (t : Thread) (r : PReg) (x : BitVec 32) : (t.setP r x).v = t.v := by unfold Thread.setP; split <;> rfl
@[simp] theorem setP_h (t : Thread) (r : PReg) (x : BitVec 32) : (t.setP r x).h = t.h := by unfold Thread.setP; split <;> rfl
@[simp] theorem setP_q (t : Thread) (r : PReg) (x : BitVec 32) : (t.setP r x).q = t.q := by unfold Thread.setP; split <;> rfl
@[simp] theorem setP_loops (t : Thread) (r : PReg) (x : BitVec 32) : (t.setP r x).loops = t.loops := by unfold Thread.setP; split <;> rfl
@[simp] theorem setP_rep (t : Thread) (r : PReg) (x : BitVec 32) : (t.setP r x).rep = t.rep := by unfold Thread.setP; split <;> rfl
@[simp] theorem setP_bic (t : Thread) (r : PReg) (x : BitVec 32) : (t.setP r x).bic = t.bic := by unfold Thread.setP; split <;> rfl
@[simp] theorem setP_bmc (t : Thread) (r : PReg) (x : BitVec 32) : (t.setP r x).bmc = t.bmc := by unfold Thread.setP; split <;> rfl
@[simp] theorem setP_grace (t : Thread) (r : PReg) (x : BitVec 32) : (t.setP r x).grace = t.grace := by unfold Thread.setP; split <;> rfl
@[simp] theorem setP_gcause (t : Thread) (r : PReg) (x : BitVec 32) : (t.setP r x).gcause = t.gcause := by unfold Thread.setP; split <;> rfl
@[simp] theorem setP_ingrace (t : Thread) (r : PReg) (x : BitVec 32) : (t.setP r x).ingrace = t.ingrace := by unfold Thread.setP; split <;> rfl
@[simp] theorem setP_pend (t : Thread) (r : PReg) (x : BitVec 32) : (t.setP r x).pend = t.pend := by unfold Thread.setP; split <;> rfl
@[simp] theorem setP_resumes (t : Thread) (r : PReg) (x : BitVec 32) : (t.setP r x).resumes = t.resumes := by unfold Thread.setP; split <;> rfl
@[simp] theorem setP_resumed (t : Thread) (r : PReg) (x : BitVec 32) : (t.setP r x).resumed = t.resumed := by unfold Thread.setP; split <;> rfl
@[simp] theorem setP_lives (t : Thread) (r : PReg) (x : BitVec 32) : (t.setP r x).lives = t.lives := by unfold Thread.setP; split <;> rfl
@[simp] theorem setP_livev (t : Thread) (r : PReg) (x : BitVec 32) : (t.setP r x).livev = t.livev := by unfold Thread.setP; split <;> rfl
@[simp] theorem setP_rng (t : Thread) (r : PReg) (x : BitVec 32) : (t.setP r x).rng = t.rng := by unfold Thread.setP; split <;> rfl
@[simp] theorem setP_heldBic (t : Thread) (r : PReg) (x : BitVec 32) : (t.setP r x).heldBic = t.heldBic := by unfold Thread.setP; split <;> rfl
@[simp] theorem setP_heldBmc (t : Thread) (r : PReg) (x : BitVec 32) : (t.setP r x).heldBmc = t.heldBmc := by unfold Thread.setP; split <;> rfl
@[simp] theorem setP_memctl (t : Thread) (r : PReg) (x : BitVec 32) : (t.setP r x).memctl = t.memctl := by unfold Thread.setP; split <;> rfl
@[simp] theorem setP_rmode (t : Thread) (r : PReg) (x : BitVec 32) : (t.setP r x).rmode = t.rmode := by unfold Thread.setP; split <;> rfl
@[simp] theorem setP_fflags (t : Thread) (r : PReg) (x : BitVec 32) : (t.setP r x).fflags = t.fflags := by unfold Thread.setP; split <;> rfl
@[simp] theorem setP_seed (t : Thread) (r : PReg) (x : BitVec 32) : (t.setP r x).seed = t.seed := by unfold Thread.setP; split <;> rfl
@[simp] theorem setP_tidbase (t : Thread) (r : PReg) (x : BitVec 32) : (t.setP r x).tidbase = t.tidbase := by unfold Thread.setP; split <;> rfl
@[simp] theorem setP_mrow (t : Thread) (r : PReg) (x : BitVec 32) : (t.setP r x).mrow = t.mrow := by unfold Thread.setP; split <;> rfl
@[simp] theorem setP_mcol (t : Thread) (r : PReg) (x : BitVec 32) : (t.setP r x).mcol = t.mcol := by unfold Thread.setP; split <;> rfl
@[simp] theorem setP_mdep (t : Thread) (r : PReg) (x : BitVec 32) : (t.setP r x).mdep = t.mdep := by unfold Thread.setP; split <;> rfl
@[simp] theorem setP_injpl (t : Thread) (r : PReg) (x : BitVec 32) : (t.setP r x).injpl = t.injpl := by unfold Thread.setP; split <;> rfl
@[simp] theorem setP_injarm (t : Thread) (r : PReg) (x : BitVec 32) : (t.setP r x).injarm = t.injarm := by unfold Thread.setP; split <;> rfl
@[simp] theorem setP_fbuf (t : Thread) (r : PReg) (x : BitVec 32) : (t.setP r x).fbuf = t.fbuf := by unfold Thread.setP; split <;> rfl
@[simp] theorem setP_freq (t : Thread) (r : PReg) (x : BitVec 32) : (t.setP r x).freq = t.freq := by unfold Thread.setP; split <;> rfl
@[simp] theorem setP_wait (t : Thread) (r : PReg) (x : BitVec 32) : (t.setP r x).wait = t.wait := by unfold Thread.setP; split <;> rfl
@[simp] theorem setP_since (t : Thread) (r : PReg) (x : BitVec 32) : (t.setP r x).since = t.since := by unfold Thread.setP; split <;> rfl
@[simp] theorem setP_woken (t : Thread) (r : PReg) (x : BitVec 32) : (t.setP r x).woken = t.woken := by unfold Thread.setP; split <;> rfl
@[simp] theorem setP_mailbox (t : Thread) (r : PReg) (x : BitVec 32) : (t.setP r x).mailbox = t.mailbox := by unfold Thread.setP; split <;> rfl
@[simp] theorem setP_node (t : Thread) (r : PReg) (x : BitVec 32) : (t.setP r x).node = t.node := by unfold Thread.setP; split <;> rfl
@[simp] theorem setP_ioHeld (t : Thread) (r : PReg) (x : BitVec 32) : (t.setP r x).ioHeld = t.ioHeld := by unfold Thread.setP; split <;> rfl
@[simp] theorem setP_deferred (t : Thread) (r : PReg) (x : BitVec 32) : (t.setP r x).deferred = t.deferred := by unfold Thread.setP; split <;> rfl
@[simp] theorem setP_asyncF (t : Thread) (r : PReg) (x : BitVec 32) : (t.setP r x).asyncF = t.asyncF := by unfold Thread.setP; split <;> rfl
@[simp] theorem setP_cause (t : Thread) (r : PReg) (x : BitVec 32) : (t.setP r x).cause = t.cause := by unfold Thread.setP; split <;> rfl
@[simp] theorem setP_pktHeld (t : Thread) (r : PReg) (x : BitVec 32) : (t.setP r x).pktHeld = t.pktHeld := by unfold Thread.setP; split <;> rfl
@[simp] theorem setP_bodyF (t : Thread) (r : PReg) (x : BitVec 32) : (t.setP r x).bodyF = t.bodyF := by unfold Thread.setP; split <;> rfl
@[simp] theorem setP_pktSeq (t : Thread) (r : PReg) (x : BitVec 32) : (t.setP r x).pktSeq = t.pktSeq := by unfold Thread.setP; split <;> rfl
@[simp] theorem setP_barGen (t : Thread) (r : PReg) (x : BitVec 32) : (t.setP r x).barGen = t.barGen := by unfold Thread.setP; split <;> rfl
@[simp] theorem setP_stepArr (t : Thread) (r : PReg) (x : BitVec 32) : (t.setP r x).stepArr = t.stepArr := by unfold Thread.setP; split <;> rfl
@[simp] theorem setP_stepSeq (t : Thread) (r : PReg) (x : BitVec 32) : (t.setP r x).stepSeq = t.stepSeq := by unfold Thread.setP; split <;> rfl
@[simp] theorem setP_conted (t : Thread) (r : PReg) (x : BitVec 32) : (t.setP r x).conted = t.conted := by unfold Thread.setP; split <;> rfl
@[simp] theorem setP_stepRel (t : Thread) (r : PReg) (x : BitVec 32) : (t.setP r x).stepRel = t.stepRel := by unfold Thread.setP; split <;> rfl
@[simp] theorem setP_runBic (t : Thread) (r : PReg) (x : BitVec 32) : (t.setP r x).runBic = t.runBic := by unfold Thread.setP; split <;> rfl
@[simp] theorem setP_runBmc (t : Thread) (r : PReg) (x : BitVec 32) : (t.setP r x).runBmc = t.runBmc := by unfold Thread.setP; split <;> rfl
@[simp] theorem setP_spanClk (t : Thread) (r : PReg) (x : BitVec 32) : (t.setP r x).spanClk = t.spanClk := by unfold Thread.setP; split <;> rfl
@[simp] theorem setP_halts (t : Thread) (r : PReg) (x : BitVec 32) : (t.setP r x).halts = t.halts := by unfold Thread.setP; split <;> rfl
@[simp] theorem setP_headClk (t : Thread) (r : PReg) (x : BitVec 32) : (t.setP r x).headClk = t.headClk := by unfold Thread.setP; split <;> rfl
@[simp] theorem setP_seqClk (t : Thread) (r : PReg) (x : BitVec 32) : (t.setP r x).seqClk = t.seqClk := by unfold Thread.setP; split <;> rfl
@[simp] theorem setP_scalClk (t : Thread) (r : PReg) (x : BitVec 32) : (t.setP r x).scalClk = t.scalClk := by unfold Thread.setP; split <;> rfl
@[simp] theorem setP_vecClk (t : Thread) (r : PReg) (x : BitVec 32) : (t.setP r x).vecClk = t.vecClk := by unfold Thread.setP; split <;> rfl
@[simp] theorem setP_poked (t : Thread) (r : PReg) (x : BitVec 32) : (t.setP r x).poked = t.poked := by unfold Thread.setP; split <;> rfl
@[simp] theorem setP_lanes (t : Thread) (r : PReg) (x : BitVec 32) : (t.setP r x).lanes = t.lanes := by unfold Thread.setP; split <;> rfl

/-! `Thread.setH`. -/

@[simp] theorem setH_vt (t : Thread) (r : Option HReg) (x : Handle) : (t.setH r x).vt = t.vt := by cases r <;> rfl
@[simp] theorem setH_slot (t : Thread) (r : Option HReg) (x : Handle) : (t.setH r x).slot = t.slot := by cases r <;> rfl
@[simp] theorem setH_st (t : Thread) (r : Option HReg) (x : Handle) : (t.setH r x).st = t.st := by cases r <;> rfl
@[simp] theorem setH_gang (t : Thread) (r : Option HReg) (x : Handle) : (t.setH r x).gang = t.gang := by cases r <;> rfl
@[simp] theorem setH_gslot (t : Thread) (r : Option HReg) (x : Handle) : (t.setH r x).gslot = t.gslot := by cases r <;> rfl
@[simp] theorem setH_pc (t : Thread) (r : Option HReg) (x : Handle) : (t.setH r x).pc = t.pc := by cases r <;> rfl
@[simp] theorem setH_s (t : Thread) (r : Option HReg) (x : Handle) : (t.setH r x).s = t.s := by cases r <;> rfl
@[simp] theorem setH_v (t : Thread) (r : Option HReg) (x : Handle) : (t.setH r x).v = t.v := by cases r <;> rfl
@[simp] theorem setH_p (t : Thread) (r : Option HReg) (x : Handle) : (t.setH r x).p = t.p := by cases r <;> rfl
@[simp] theorem setH_q (t : Thread) (r : Option HReg) (x : Handle) : (t.setH r x).q = t.q := by cases r <;> rfl
@[simp] theorem setH_loops (t : Thread) (r : Option HReg) (x : Handle) : (t.setH r x).loops = t.loops := by cases r <;> rfl
@[simp] theorem setH_rep (t : Thread) (r : Option HReg) (x : Handle) : (t.setH r x).rep = t.rep := by cases r <;> rfl
@[simp] theorem setH_bic (t : Thread) (r : Option HReg) (x : Handle) : (t.setH r x).bic = t.bic := by cases r <;> rfl
@[simp] theorem setH_bmc (t : Thread) (r : Option HReg) (x : Handle) : (t.setH r x).bmc = t.bmc := by cases r <;> rfl
@[simp] theorem setH_grace (t : Thread) (r : Option HReg) (x : Handle) : (t.setH r x).grace = t.grace := by cases r <;> rfl
@[simp] theorem setH_gcause (t : Thread) (r : Option HReg) (x : Handle) : (t.setH r x).gcause = t.gcause := by cases r <;> rfl
@[simp] theorem setH_ingrace (t : Thread) (r : Option HReg) (x : Handle) : (t.setH r x).ingrace = t.ingrace := by cases r <;> rfl
@[simp] theorem setH_pend (t : Thread) (r : Option HReg) (x : Handle) : (t.setH r x).pend = t.pend := by cases r <;> rfl
@[simp] theorem setH_resumes (t : Thread) (r : Option HReg) (x : Handle) : (t.setH r x).resumes = t.resumes := by cases r <;> rfl
@[simp] theorem setH_resumed (t : Thread) (r : Option HReg) (x : Handle) : (t.setH r x).resumed = t.resumed := by cases r <;> rfl
@[simp] theorem setH_lives (t : Thread) (r : Option HReg) (x : Handle) : (t.setH r x).lives = t.lives := by cases r <;> rfl
@[simp] theorem setH_livev (t : Thread) (r : Option HReg) (x : Handle) : (t.setH r x).livev = t.livev := by cases r <;> rfl
@[simp] theorem setH_rng (t : Thread) (r : Option HReg) (x : Handle) : (t.setH r x).rng = t.rng := by cases r <;> rfl
@[simp] theorem setH_heldBic (t : Thread) (r : Option HReg) (x : Handle) : (t.setH r x).heldBic = t.heldBic := by cases r <;> rfl
@[simp] theorem setH_heldBmc (t : Thread) (r : Option HReg) (x : Handle) : (t.setH r x).heldBmc = t.heldBmc := by cases r <;> rfl
@[simp] theorem setH_memctl (t : Thread) (r : Option HReg) (x : Handle) : (t.setH r x).memctl = t.memctl := by cases r <;> rfl
@[simp] theorem setH_rmode (t : Thread) (r : Option HReg) (x : Handle) : (t.setH r x).rmode = t.rmode := by cases r <;> rfl
@[simp] theorem setH_fflags (t : Thread) (r : Option HReg) (x : Handle) : (t.setH r x).fflags = t.fflags := by cases r <;> rfl
@[simp] theorem setH_seed (t : Thread) (r : Option HReg) (x : Handle) : (t.setH r x).seed = t.seed := by cases r <;> rfl
@[simp] theorem setH_tidbase (t : Thread) (r : Option HReg) (x : Handle) : (t.setH r x).tidbase = t.tidbase := by cases r <;> rfl
@[simp] theorem setH_mrow (t : Thread) (r : Option HReg) (x : Handle) : (t.setH r x).mrow = t.mrow := by cases r <;> rfl
@[simp] theorem setH_mcol (t : Thread) (r : Option HReg) (x : Handle) : (t.setH r x).mcol = t.mcol := by cases r <;> rfl
@[simp] theorem setH_mdep (t : Thread) (r : Option HReg) (x : Handle) : (t.setH r x).mdep = t.mdep := by cases r <;> rfl
@[simp] theorem setH_injpl (t : Thread) (r : Option HReg) (x : Handle) : (t.setH r x).injpl = t.injpl := by cases r <;> rfl
@[simp] theorem setH_injarm (t : Thread) (r : Option HReg) (x : Handle) : (t.setH r x).injarm = t.injarm := by cases r <;> rfl
@[simp] theorem setH_fbuf (t : Thread) (r : Option HReg) (x : Handle) : (t.setH r x).fbuf = t.fbuf := by cases r <;> rfl
@[simp] theorem setH_freq (t : Thread) (r : Option HReg) (x : Handle) : (t.setH r x).freq = t.freq := by cases r <;> rfl
@[simp] theorem setH_wait (t : Thread) (r : Option HReg) (x : Handle) : (t.setH r x).wait = t.wait := by cases r <;> rfl
@[simp] theorem setH_since (t : Thread) (r : Option HReg) (x : Handle) : (t.setH r x).since = t.since := by cases r <;> rfl
@[simp] theorem setH_woken (t : Thread) (r : Option HReg) (x : Handle) : (t.setH r x).woken = t.woken := by cases r <;> rfl
@[simp] theorem setH_mailbox (t : Thread) (r : Option HReg) (x : Handle) : (t.setH r x).mailbox = t.mailbox := by cases r <;> rfl
@[simp] theorem setH_node (t : Thread) (r : Option HReg) (x : Handle) : (t.setH r x).node = t.node := by cases r <;> rfl
@[simp] theorem setH_ioHeld (t : Thread) (r : Option HReg) (x : Handle) : (t.setH r x).ioHeld = t.ioHeld := by cases r <;> rfl
@[simp] theorem setH_deferred (t : Thread) (r : Option HReg) (x : Handle) : (t.setH r x).deferred = t.deferred := by cases r <;> rfl
@[simp] theorem setH_asyncF (t : Thread) (r : Option HReg) (x : Handle) : (t.setH r x).asyncF = t.asyncF := by cases r <;> rfl
@[simp] theorem setH_cause (t : Thread) (r : Option HReg) (x : Handle) : (t.setH r x).cause = t.cause := by cases r <;> rfl
@[simp] theorem setH_pktHeld (t : Thread) (r : Option HReg) (x : Handle) : (t.setH r x).pktHeld = t.pktHeld := by cases r <;> rfl
@[simp] theorem setH_bodyF (t : Thread) (r : Option HReg) (x : Handle) : (t.setH r x).bodyF = t.bodyF := by cases r <;> rfl
@[simp] theorem setH_pktSeq (t : Thread) (r : Option HReg) (x : Handle) : (t.setH r x).pktSeq = t.pktSeq := by cases r <;> rfl
@[simp] theorem setH_barGen (t : Thread) (r : Option HReg) (x : Handle) : (t.setH r x).barGen = t.barGen := by cases r <;> rfl
@[simp] theorem setH_stepArr (t : Thread) (r : Option HReg) (x : Handle) : (t.setH r x).stepArr = t.stepArr := by cases r <;> rfl
@[simp] theorem setH_stepSeq (t : Thread) (r : Option HReg) (x : Handle) : (t.setH r x).stepSeq = t.stepSeq := by cases r <;> rfl
@[simp] theorem setH_conted (t : Thread) (r : Option HReg) (x : Handle) : (t.setH r x).conted = t.conted := by cases r <;> rfl
@[simp] theorem setH_stepRel (t : Thread) (r : Option HReg) (x : Handle) : (t.setH r x).stepRel = t.stepRel := by cases r <;> rfl
@[simp] theorem setH_runBic (t : Thread) (r : Option HReg) (x : Handle) : (t.setH r x).runBic = t.runBic := by cases r <;> rfl
@[simp] theorem setH_runBmc (t : Thread) (r : Option HReg) (x : Handle) : (t.setH r x).runBmc = t.runBmc := by cases r <;> rfl
@[simp] theorem setH_spanClk (t : Thread) (r : Option HReg) (x : Handle) : (t.setH r x).spanClk = t.spanClk := by cases r <;> rfl
@[simp] theorem setH_halts (t : Thread) (r : Option HReg) (x : Handle) : (t.setH r x).halts = t.halts := by cases r <;> rfl
@[simp] theorem setH_headClk (t : Thread) (r : Option HReg) (x : Handle) : (t.setH r x).headClk = t.headClk := by cases r <;> rfl
@[simp] theorem setH_seqClk (t : Thread) (r : Option HReg) (x : Handle) : (t.setH r x).seqClk = t.seqClk := by cases r <;> rfl
@[simp] theorem setH_scalClk (t : Thread) (r : Option HReg) (x : Handle) : (t.setH r x).scalClk = t.scalClk := by cases r <;> rfl
@[simp] theorem setH_vecClk (t : Thread) (r : Option HReg) (x : Handle) : (t.setH r x).vecClk = t.vecClk := by cases r <;> rfl
@[simp] theorem setH_poked (t : Thread) (r : Option HReg) (x : Handle) : (t.setH r x).poked = t.poked := by cases r <;> rfl
@[simp] theorem setH_lanes (t : Thread) (r : Option HReg) (x : Handle) : (t.setH r x).lanes = t.lanes := by cases r <;> rfl

/-! `Thread.setV`. -/

@[simp] theorem setV_vt (t : Thread) (b : Bool) (r : VReg) (m : BitVec 32) (g : Fin 32 → Lane) : (t.setV b r m g).vt = t.vt := rfl
@[simp] theorem setV_slot (t : Thread) (b : Bool) (r : VReg) (m : BitVec 32) (g : Fin 32 → Lane) : (t.setV b r m g).slot = t.slot := rfl
@[simp] theorem setV_st (t : Thread) (b : Bool) (r : VReg) (m : BitVec 32) (g : Fin 32 → Lane) : (t.setV b r m g).st = t.st := rfl
@[simp] theorem setV_gang (t : Thread) (b : Bool) (r : VReg) (m : BitVec 32) (g : Fin 32 → Lane) : (t.setV b r m g).gang = t.gang := rfl
@[simp] theorem setV_gslot (t : Thread) (b : Bool) (r : VReg) (m : BitVec 32) (g : Fin 32 → Lane) : (t.setV b r m g).gslot = t.gslot := rfl
@[simp] theorem setV_pc (t : Thread) (b : Bool) (r : VReg) (m : BitVec 32) (g : Fin 32 → Lane) : (t.setV b r m g).pc = t.pc := rfl
@[simp] theorem setV_s (t : Thread) (b : Bool) (r : VReg) (m : BitVec 32) (g : Fin 32 → Lane) : (t.setV b r m g).s = t.s := rfl
@[simp] theorem setV_p (t : Thread) (b : Bool) (r : VReg) (m : BitVec 32) (g : Fin 32 → Lane) : (t.setV b r m g).p = t.p := rfl
@[simp] theorem setV_h (t : Thread) (b : Bool) (r : VReg) (m : BitVec 32) (g : Fin 32 → Lane) : (t.setV b r m g).h = t.h := rfl
@[simp] theorem setV_q (t : Thread) (b : Bool) (r : VReg) (m : BitVec 32) (g : Fin 32 → Lane) : (t.setV b r m g).q = t.q := rfl
@[simp] theorem setV_loops (t : Thread) (b : Bool) (r : VReg) (m : BitVec 32) (g : Fin 32 → Lane) : (t.setV b r m g).loops = t.loops := rfl
@[simp] theorem setV_rep (t : Thread) (b : Bool) (r : VReg) (m : BitVec 32) (g : Fin 32 → Lane) : (t.setV b r m g).rep = t.rep := rfl
@[simp] theorem setV_bic (t : Thread) (b : Bool) (r : VReg) (m : BitVec 32) (g : Fin 32 → Lane) : (t.setV b r m g).bic = t.bic := rfl
@[simp] theorem setV_bmc (t : Thread) (b : Bool) (r : VReg) (m : BitVec 32) (g : Fin 32 → Lane) : (t.setV b r m g).bmc = t.bmc := rfl
@[simp] theorem setV_grace (t : Thread) (b : Bool) (r : VReg) (m : BitVec 32) (g : Fin 32 → Lane) : (t.setV b r m g).grace = t.grace := rfl
@[simp] theorem setV_gcause (t : Thread) (b : Bool) (r : VReg) (m : BitVec 32) (g : Fin 32 → Lane) : (t.setV b r m g).gcause = t.gcause := rfl
@[simp] theorem setV_ingrace (t : Thread) (b : Bool) (r : VReg) (m : BitVec 32) (g : Fin 32 → Lane) : (t.setV b r m g).ingrace = t.ingrace := rfl
@[simp] theorem setV_pend (t : Thread) (b : Bool) (r : VReg) (m : BitVec 32) (g : Fin 32 → Lane) : (t.setV b r m g).pend = t.pend := rfl
@[simp] theorem setV_resumes (t : Thread) (b : Bool) (r : VReg) (m : BitVec 32) (g : Fin 32 → Lane) : (t.setV b r m g).resumes = t.resumes := rfl
@[simp] theorem setV_resumed (t : Thread) (b : Bool) (r : VReg) (m : BitVec 32) (g : Fin 32 → Lane) : (t.setV b r m g).resumed = t.resumed := rfl
@[simp] theorem setV_lives (t : Thread) (b : Bool) (r : VReg) (m : BitVec 32) (g : Fin 32 → Lane) : (t.setV b r m g).lives = t.lives := rfl
@[simp] theorem setV_livev (t : Thread) (b : Bool) (r : VReg) (m : BitVec 32) (g : Fin 32 → Lane) : (t.setV b r m g).livev = t.livev := rfl
@[simp] theorem setV_rng (t : Thread) (b : Bool) (r : VReg) (m : BitVec 32) (g : Fin 32 → Lane) : (t.setV b r m g).rng = t.rng := rfl
@[simp] theorem setV_heldBic (t : Thread) (b : Bool) (r : VReg) (m : BitVec 32) (g : Fin 32 → Lane) : (t.setV b r m g).heldBic = t.heldBic := rfl
@[simp] theorem setV_heldBmc (t : Thread) (b : Bool) (r : VReg) (m : BitVec 32) (g : Fin 32 → Lane) : (t.setV b r m g).heldBmc = t.heldBmc := rfl
@[simp] theorem setV_memctl (t : Thread) (b : Bool) (r : VReg) (m : BitVec 32) (g : Fin 32 → Lane) : (t.setV b r m g).memctl = t.memctl := rfl
@[simp] theorem setV_rmode (t : Thread) (b : Bool) (r : VReg) (m : BitVec 32) (g : Fin 32 → Lane) : (t.setV b r m g).rmode = t.rmode := rfl
@[simp] theorem setV_fflags (t : Thread) (b : Bool) (r : VReg) (m : BitVec 32) (g : Fin 32 → Lane) : (t.setV b r m g).fflags = t.fflags := rfl
@[simp] theorem setV_seed (t : Thread) (b : Bool) (r : VReg) (m : BitVec 32) (g : Fin 32 → Lane) : (t.setV b r m g).seed = t.seed := rfl
@[simp] theorem setV_tidbase (t : Thread) (b : Bool) (r : VReg) (m : BitVec 32) (g : Fin 32 → Lane) : (t.setV b r m g).tidbase = t.tidbase := rfl
@[simp] theorem setV_mrow (t : Thread) (b : Bool) (r : VReg) (m : BitVec 32) (g : Fin 32 → Lane) : (t.setV b r m g).mrow = t.mrow := rfl
@[simp] theorem setV_mcol (t : Thread) (b : Bool) (r : VReg) (m : BitVec 32) (g : Fin 32 → Lane) : (t.setV b r m g).mcol = t.mcol := rfl
@[simp] theorem setV_mdep (t : Thread) (b : Bool) (r : VReg) (m : BitVec 32) (g : Fin 32 → Lane) : (t.setV b r m g).mdep = t.mdep := rfl
@[simp] theorem setV_injpl (t : Thread) (b : Bool) (r : VReg) (m : BitVec 32) (g : Fin 32 → Lane) : (t.setV b r m g).injpl = t.injpl := rfl
@[simp] theorem setV_injarm (t : Thread) (b : Bool) (r : VReg) (m : BitVec 32) (g : Fin 32 → Lane) : (t.setV b r m g).injarm = t.injarm := rfl
@[simp] theorem setV_fbuf (t : Thread) (b : Bool) (r : VReg) (m : BitVec 32) (g : Fin 32 → Lane) : (t.setV b r m g).fbuf = t.fbuf := rfl
@[simp] theorem setV_freq (t : Thread) (b : Bool) (r : VReg) (m : BitVec 32) (g : Fin 32 → Lane) : (t.setV b r m g).freq = t.freq := rfl
@[simp] theorem setV_wait (t : Thread) (b : Bool) (r : VReg) (m : BitVec 32) (g : Fin 32 → Lane) : (t.setV b r m g).wait = t.wait := rfl
@[simp] theorem setV_since (t : Thread) (b : Bool) (r : VReg) (m : BitVec 32) (g : Fin 32 → Lane) : (t.setV b r m g).since = t.since := rfl
@[simp] theorem setV_woken (t : Thread) (b : Bool) (r : VReg) (m : BitVec 32) (g : Fin 32 → Lane) : (t.setV b r m g).woken = t.woken := rfl
@[simp] theorem setV_mailbox (t : Thread) (b : Bool) (r : VReg) (m : BitVec 32) (g : Fin 32 → Lane) : (t.setV b r m g).mailbox = t.mailbox := rfl
@[simp] theorem setV_node (t : Thread) (b : Bool) (r : VReg) (m : BitVec 32) (g : Fin 32 → Lane) : (t.setV b r m g).node = t.node := rfl
@[simp] theorem setV_ioHeld (t : Thread) (b : Bool) (r : VReg) (m : BitVec 32) (g : Fin 32 → Lane) : (t.setV b r m g).ioHeld = t.ioHeld := rfl
@[simp] theorem setV_deferred (t : Thread) (b : Bool) (r : VReg) (m : BitVec 32) (g : Fin 32 → Lane) : (t.setV b r m g).deferred = t.deferred := rfl
@[simp] theorem setV_asyncF (t : Thread) (b : Bool) (r : VReg) (m : BitVec 32) (g : Fin 32 → Lane) : (t.setV b r m g).asyncF = t.asyncF := rfl
@[simp] theorem setV_cause (t : Thread) (b : Bool) (r : VReg) (m : BitVec 32) (g : Fin 32 → Lane) : (t.setV b r m g).cause = t.cause := rfl
@[simp] theorem setV_pktHeld (t : Thread) (b : Bool) (r : VReg) (m : BitVec 32) (g : Fin 32 → Lane) : (t.setV b r m g).pktHeld = t.pktHeld := rfl
@[simp] theorem setV_bodyF (t : Thread) (b : Bool) (r : VReg) (m : BitVec 32) (g : Fin 32 → Lane) : (t.setV b r m g).bodyF = t.bodyF := rfl
@[simp] theorem setV_pktSeq (t : Thread) (b : Bool) (r : VReg) (m : BitVec 32) (g : Fin 32 → Lane) : (t.setV b r m g).pktSeq = t.pktSeq := rfl
@[simp] theorem setV_barGen (t : Thread) (b : Bool) (r : VReg) (m : BitVec 32) (g : Fin 32 → Lane) : (t.setV b r m g).barGen = t.barGen := rfl
@[simp] theorem setV_stepArr (t : Thread) (b : Bool) (r : VReg) (m : BitVec 32) (g : Fin 32 → Lane) : (t.setV b r m g).stepArr = t.stepArr := rfl
@[simp] theorem setV_stepSeq (t : Thread) (b : Bool) (r : VReg) (m : BitVec 32) (g : Fin 32 → Lane) : (t.setV b r m g).stepSeq = t.stepSeq := rfl
@[simp] theorem setV_conted (t : Thread) (b : Bool) (r : VReg) (m : BitVec 32) (g : Fin 32 → Lane) : (t.setV b r m g).conted = t.conted := rfl
@[simp] theorem setV_stepRel (t : Thread) (b : Bool) (r : VReg) (m : BitVec 32) (g : Fin 32 → Lane) : (t.setV b r m g).stepRel = t.stepRel := rfl
@[simp] theorem setV_runBic (t : Thread) (b : Bool) (r : VReg) (m : BitVec 32) (g : Fin 32 → Lane) : (t.setV b r m g).runBic = t.runBic := rfl
@[simp] theorem setV_runBmc (t : Thread) (b : Bool) (r : VReg) (m : BitVec 32) (g : Fin 32 → Lane) : (t.setV b r m g).runBmc = t.runBmc := rfl
@[simp] theorem setV_spanClk (t : Thread) (b : Bool) (r : VReg) (m : BitVec 32) (g : Fin 32 → Lane) : (t.setV b r m g).spanClk = t.spanClk := rfl
@[simp] theorem setV_halts (t : Thread) (b : Bool) (r : VReg) (m : BitVec 32) (g : Fin 32 → Lane) : (t.setV b r m g).halts = t.halts := rfl
@[simp] theorem setV_headClk (t : Thread) (b : Bool) (r : VReg) (m : BitVec 32) (g : Fin 32 → Lane) : (t.setV b r m g).headClk = t.headClk := rfl
@[simp] theorem setV_seqClk (t : Thread) (b : Bool) (r : VReg) (m : BitVec 32) (g : Fin 32 → Lane) : (t.setV b r m g).seqClk = t.seqClk := rfl
@[simp] theorem setV_scalClk (t : Thread) (b : Bool) (r : VReg) (m : BitVec 32) (g : Fin 32 → Lane) : (t.setV b r m g).scalClk = t.scalClk := rfl
@[simp] theorem setV_vecClk (t : Thread) (b : Bool) (r : VReg) (m : BitVec 32) (g : Fin 32 → Lane) : (t.setV b r m g).vecClk = t.vecClk := rfl
@[simp] theorem setV_poked (t : Thread) (b : Bool) (r : VReg) (m : BitVec 32) (g : Fin 32 → Lane) : (t.setV b r m g).poked = t.poked := rfl
@[simp] theorem setV_lanes (t : Thread) (b : Bool) (r : VReg) (m : BitVec 32) (g : Fin 32 → Lane) : (t.setV b r m g).lanes = t.lanes := rfl

/-! `Thread.orFlags`. -/

@[simp] theorem orFlags_vt (t : Thread) (x : FFlags) : (t.orFlags x).vt = t.vt := rfl
@[simp] theorem orFlags_slot (t : Thread) (x : FFlags) : (t.orFlags x).slot = t.slot := rfl
@[simp] theorem orFlags_st (t : Thread) (x : FFlags) : (t.orFlags x).st = t.st := rfl
@[simp] theorem orFlags_gang (t : Thread) (x : FFlags) : (t.orFlags x).gang = t.gang := rfl
@[simp] theorem orFlags_gslot (t : Thread) (x : FFlags) : (t.orFlags x).gslot = t.gslot := rfl
@[simp] theorem orFlags_pc (t : Thread) (x : FFlags) : (t.orFlags x).pc = t.pc := rfl
@[simp] theorem orFlags_s (t : Thread) (x : FFlags) : (t.orFlags x).s = t.s := rfl
@[simp] theorem orFlags_v (t : Thread) (x : FFlags) : (t.orFlags x).v = t.v := rfl
@[simp] theorem orFlags_p (t : Thread) (x : FFlags) : (t.orFlags x).p = t.p := rfl
@[simp] theorem orFlags_h (t : Thread) (x : FFlags) : (t.orFlags x).h = t.h := rfl
@[simp] theorem orFlags_q (t : Thread) (x : FFlags) : (t.orFlags x).q = t.q := rfl
@[simp] theorem orFlags_loops (t : Thread) (x : FFlags) : (t.orFlags x).loops = t.loops := rfl
@[simp] theorem orFlags_rep (t : Thread) (x : FFlags) : (t.orFlags x).rep = t.rep := rfl
@[simp] theorem orFlags_bic (t : Thread) (x : FFlags) : (t.orFlags x).bic = t.bic := rfl
@[simp] theorem orFlags_bmc (t : Thread) (x : FFlags) : (t.orFlags x).bmc = t.bmc := rfl
@[simp] theorem orFlags_grace (t : Thread) (x : FFlags) : (t.orFlags x).grace = t.grace := rfl
@[simp] theorem orFlags_gcause (t : Thread) (x : FFlags) : (t.orFlags x).gcause = t.gcause := rfl
@[simp] theorem orFlags_ingrace (t : Thread) (x : FFlags) : (t.orFlags x).ingrace = t.ingrace := rfl
@[simp] theorem orFlags_pend (t : Thread) (x : FFlags) : (t.orFlags x).pend = t.pend := rfl
@[simp] theorem orFlags_resumes (t : Thread) (x : FFlags) : (t.orFlags x).resumes = t.resumes := rfl
@[simp] theorem orFlags_resumed (t : Thread) (x : FFlags) : (t.orFlags x).resumed = t.resumed := rfl
@[simp] theorem orFlags_lives (t : Thread) (x : FFlags) : (t.orFlags x).lives = t.lives := rfl
@[simp] theorem orFlags_livev (t : Thread) (x : FFlags) : (t.orFlags x).livev = t.livev := rfl
@[simp] theorem orFlags_rng (t : Thread) (x : FFlags) : (t.orFlags x).rng = t.rng := rfl
@[simp] theorem orFlags_heldBic (t : Thread) (x : FFlags) : (t.orFlags x).heldBic = t.heldBic := rfl
@[simp] theorem orFlags_heldBmc (t : Thread) (x : FFlags) : (t.orFlags x).heldBmc = t.heldBmc := rfl
@[simp] theorem orFlags_memctl (t : Thread) (x : FFlags) : (t.orFlags x).memctl = t.memctl := rfl
@[simp] theorem orFlags_rmode (t : Thread) (x : FFlags) : (t.orFlags x).rmode = t.rmode := rfl
@[simp] theorem orFlags_seed (t : Thread) (x : FFlags) : (t.orFlags x).seed = t.seed := rfl
@[simp] theorem orFlags_tidbase (t : Thread) (x : FFlags) : (t.orFlags x).tidbase = t.tidbase := rfl
@[simp] theorem orFlags_mrow (t : Thread) (x : FFlags) : (t.orFlags x).mrow = t.mrow := rfl
@[simp] theorem orFlags_mcol (t : Thread) (x : FFlags) : (t.orFlags x).mcol = t.mcol := rfl
@[simp] theorem orFlags_mdep (t : Thread) (x : FFlags) : (t.orFlags x).mdep = t.mdep := rfl
@[simp] theorem orFlags_injpl (t : Thread) (x : FFlags) : (t.orFlags x).injpl = t.injpl := rfl
@[simp] theorem orFlags_injarm (t : Thread) (x : FFlags) : (t.orFlags x).injarm = t.injarm := rfl
@[simp] theorem orFlags_fbuf (t : Thread) (x : FFlags) : (t.orFlags x).fbuf = t.fbuf := rfl
@[simp] theorem orFlags_freq (t : Thread) (x : FFlags) : (t.orFlags x).freq = t.freq := rfl
@[simp] theorem orFlags_wait (t : Thread) (x : FFlags) : (t.orFlags x).wait = t.wait := rfl
@[simp] theorem orFlags_since (t : Thread) (x : FFlags) : (t.orFlags x).since = t.since := rfl
@[simp] theorem orFlags_woken (t : Thread) (x : FFlags) : (t.orFlags x).woken = t.woken := rfl
@[simp] theorem orFlags_mailbox (t : Thread) (x : FFlags) : (t.orFlags x).mailbox = t.mailbox := rfl
@[simp] theorem orFlags_node (t : Thread) (x : FFlags) : (t.orFlags x).node = t.node := rfl
@[simp] theorem orFlags_ioHeld (t : Thread) (x : FFlags) : (t.orFlags x).ioHeld = t.ioHeld := rfl
@[simp] theorem orFlags_deferred (t : Thread) (x : FFlags) : (t.orFlags x).deferred = t.deferred := rfl
@[simp] theorem orFlags_asyncF (t : Thread) (x : FFlags) : (t.orFlags x).asyncF = t.asyncF := rfl
@[simp] theorem orFlags_cause (t : Thread) (x : FFlags) : (t.orFlags x).cause = t.cause := rfl
@[simp] theorem orFlags_pktHeld (t : Thread) (x : FFlags) : (t.orFlags x).pktHeld = t.pktHeld := rfl
@[simp] theorem orFlags_bodyF (t : Thread) (x : FFlags) : (t.orFlags x).bodyF = t.bodyF := rfl
@[simp] theorem orFlags_pktSeq (t : Thread) (x : FFlags) : (t.orFlags x).pktSeq = t.pktSeq := rfl
@[simp] theorem orFlags_barGen (t : Thread) (x : FFlags) : (t.orFlags x).barGen = t.barGen := rfl
@[simp] theorem orFlags_stepArr (t : Thread) (x : FFlags) : (t.orFlags x).stepArr = t.stepArr := rfl
@[simp] theorem orFlags_stepSeq (t : Thread) (x : FFlags) : (t.orFlags x).stepSeq = t.stepSeq := rfl
@[simp] theorem orFlags_conted (t : Thread) (x : FFlags) : (t.orFlags x).conted = t.conted := rfl
@[simp] theorem orFlags_stepRel (t : Thread) (x : FFlags) : (t.orFlags x).stepRel = t.stepRel := rfl
@[simp] theorem orFlags_runBic (t : Thread) (x : FFlags) : (t.orFlags x).runBic = t.runBic := rfl
@[simp] theorem orFlags_runBmc (t : Thread) (x : FFlags) : (t.orFlags x).runBmc = t.runBmc := rfl
@[simp] theorem orFlags_spanClk (t : Thread) (x : FFlags) : (t.orFlags x).spanClk = t.spanClk := rfl
@[simp] theorem orFlags_halts (t : Thread) (x : FFlags) : (t.orFlags x).halts = t.halts := rfl
@[simp] theorem orFlags_headClk (t : Thread) (x : FFlags) : (t.orFlags x).headClk = t.headClk := rfl
@[simp] theorem orFlags_seqClk (t : Thread) (x : FFlags) : (t.orFlags x).seqClk = t.seqClk := rfl
@[simp] theorem orFlags_scalClk (t : Thread) (x : FFlags) : (t.orFlags x).scalClk = t.scalClk := rfl
@[simp] theorem orFlags_vecClk (t : Thread) (x : FFlags) : (t.orFlags x).vecClk = t.vecClk := rfl
@[simp] theorem orFlags_poked (t : Thread) (x : FFlags) : (t.orFlags x).poked = t.poked := rfl
@[simp] theorem orFlags_lanes (t : Thread) (x : FFlags) : (t.orFlags x).lanes = t.lanes := rfl

/-! `Thread.setWait`. -/

@[simp] theorem setWait_vt (t : Thread) (w : WaitKind) (c : Nat) : (t.setWait w c).vt = t.vt := by unfold Thread.setWait; split <;> rfl
@[simp] theorem setWait_slot (t : Thread) (w : WaitKind) (c : Nat) : (t.setWait w c).slot = t.slot := by unfold Thread.setWait; split <;> rfl
@[simp] theorem setWait_st (t : Thread) (w : WaitKind) (c : Nat) : (t.setWait w c).st = t.st := by unfold Thread.setWait; split <;> rfl
@[simp] theorem setWait_gang (t : Thread) (w : WaitKind) (c : Nat) : (t.setWait w c).gang = t.gang := by unfold Thread.setWait; split <;> rfl
@[simp] theorem setWait_gslot (t : Thread) (w : WaitKind) (c : Nat) : (t.setWait w c).gslot = t.gslot := by unfold Thread.setWait; split <;> rfl
@[simp] theorem setWait_pc (t : Thread) (w : WaitKind) (c : Nat) : (t.setWait w c).pc = t.pc := by unfold Thread.setWait; split <;> rfl
@[simp] theorem setWait_s (t : Thread) (w : WaitKind) (c : Nat) : (t.setWait w c).s = t.s := by unfold Thread.setWait; split <;> rfl
@[simp] theorem setWait_v (t : Thread) (w : WaitKind) (c : Nat) : (t.setWait w c).v = t.v := by unfold Thread.setWait; split <;> rfl
@[simp] theorem setWait_p (t : Thread) (w : WaitKind) (c : Nat) : (t.setWait w c).p = t.p := by unfold Thread.setWait; split <;> rfl
@[simp] theorem setWait_h (t : Thread) (w : WaitKind) (c : Nat) : (t.setWait w c).h = t.h := by unfold Thread.setWait; split <;> rfl
@[simp] theorem setWait_q (t : Thread) (w : WaitKind) (c : Nat) : (t.setWait w c).q = t.q := by unfold Thread.setWait; split <;> rfl
@[simp] theorem setWait_loops (t : Thread) (w : WaitKind) (c : Nat) : (t.setWait w c).loops = t.loops := by unfold Thread.setWait; split <;> rfl
@[simp] theorem setWait_rep (t : Thread) (w : WaitKind) (c : Nat) : (t.setWait w c).rep = t.rep := by unfold Thread.setWait; split <;> rfl
@[simp] theorem setWait_bic (t : Thread) (w : WaitKind) (c : Nat) : (t.setWait w c).bic = t.bic := by unfold Thread.setWait; split <;> rfl
@[simp] theorem setWait_bmc (t : Thread) (w : WaitKind) (c : Nat) : (t.setWait w c).bmc = t.bmc := by unfold Thread.setWait; split <;> rfl
@[simp] theorem setWait_grace (t : Thread) (w : WaitKind) (c : Nat) : (t.setWait w c).grace = t.grace := by unfold Thread.setWait; split <;> rfl
@[simp] theorem setWait_gcause (t : Thread) (w : WaitKind) (c : Nat) : (t.setWait w c).gcause = t.gcause := by unfold Thread.setWait; split <;> rfl
@[simp] theorem setWait_ingrace (t : Thread) (w : WaitKind) (c : Nat) : (t.setWait w c).ingrace = t.ingrace := by unfold Thread.setWait; split <;> rfl
@[simp] theorem setWait_pend (t : Thread) (w : WaitKind) (c : Nat) : (t.setWait w c).pend = t.pend := by unfold Thread.setWait; split <;> rfl
@[simp] theorem setWait_resumes (t : Thread) (w : WaitKind) (c : Nat) : (t.setWait w c).resumes = t.resumes := by unfold Thread.setWait; split <;> rfl
@[simp] theorem setWait_resumed (t : Thread) (w : WaitKind) (c : Nat) : (t.setWait w c).resumed = t.resumed := by unfold Thread.setWait; split <;> rfl
@[simp] theorem setWait_lives (t : Thread) (w : WaitKind) (c : Nat) : (t.setWait w c).lives = t.lives := by unfold Thread.setWait; split <;> rfl
@[simp] theorem setWait_livev (t : Thread) (w : WaitKind) (c : Nat) : (t.setWait w c).livev = t.livev := by unfold Thread.setWait; split <;> rfl
@[simp] theorem setWait_rng (t : Thread) (w : WaitKind) (c : Nat) : (t.setWait w c).rng = t.rng := by unfold Thread.setWait; split <;> rfl
@[simp] theorem setWait_heldBic (t : Thread) (w : WaitKind) (c : Nat) : (t.setWait w c).heldBic = t.heldBic := by unfold Thread.setWait; split <;> rfl
@[simp] theorem setWait_heldBmc (t : Thread) (w : WaitKind) (c : Nat) : (t.setWait w c).heldBmc = t.heldBmc := by unfold Thread.setWait; split <;> rfl
@[simp] theorem setWait_memctl (t : Thread) (w : WaitKind) (c : Nat) : (t.setWait w c).memctl = t.memctl := by unfold Thread.setWait; split <;> rfl
@[simp] theorem setWait_rmode (t : Thread) (w : WaitKind) (c : Nat) : (t.setWait w c).rmode = t.rmode := by unfold Thread.setWait; split <;> rfl
@[simp] theorem setWait_fflags (t : Thread) (w : WaitKind) (c : Nat) : (t.setWait w c).fflags = t.fflags := by unfold Thread.setWait; split <;> rfl
@[simp] theorem setWait_seed (t : Thread) (w : WaitKind) (c : Nat) : (t.setWait w c).seed = t.seed := by unfold Thread.setWait; split <;> rfl
@[simp] theorem setWait_tidbase (t : Thread) (w : WaitKind) (c : Nat) : (t.setWait w c).tidbase = t.tidbase := by unfold Thread.setWait; split <;> rfl
@[simp] theorem setWait_mrow (t : Thread) (w : WaitKind) (c : Nat) : (t.setWait w c).mrow = t.mrow := by unfold Thread.setWait; split <;> rfl
@[simp] theorem setWait_mcol (t : Thread) (w : WaitKind) (c : Nat) : (t.setWait w c).mcol = t.mcol := by unfold Thread.setWait; split <;> rfl
@[simp] theorem setWait_mdep (t : Thread) (w : WaitKind) (c : Nat) : (t.setWait w c).mdep = t.mdep := by unfold Thread.setWait; split <;> rfl
@[simp] theorem setWait_injpl (t : Thread) (w : WaitKind) (c : Nat) : (t.setWait w c).injpl = t.injpl := by unfold Thread.setWait; split <;> rfl
@[simp] theorem setWait_injarm (t : Thread) (w : WaitKind) (c : Nat) : (t.setWait w c).injarm = t.injarm := by unfold Thread.setWait; split <;> rfl
@[simp] theorem setWait_fbuf (t : Thread) (w : WaitKind) (c : Nat) : (t.setWait w c).fbuf = t.fbuf := by unfold Thread.setWait; split <;> rfl
@[simp] theorem setWait_freq (t : Thread) (w : WaitKind) (c : Nat) : (t.setWait w c).freq = t.freq := by unfold Thread.setWait; split <;> rfl
@[simp] theorem setWait_woken (t : Thread) (w : WaitKind) (c : Nat) : (t.setWait w c).woken = t.woken := by unfold Thread.setWait; split <;> rfl
@[simp] theorem setWait_mailbox (t : Thread) (w : WaitKind) (c : Nat) : (t.setWait w c).mailbox = t.mailbox := by unfold Thread.setWait; split <;> rfl
@[simp] theorem setWait_node (t : Thread) (w : WaitKind) (c : Nat) : (t.setWait w c).node = t.node := by unfold Thread.setWait; split <;> rfl
@[simp] theorem setWait_ioHeld (t : Thread) (w : WaitKind) (c : Nat) : (t.setWait w c).ioHeld = t.ioHeld := by unfold Thread.setWait; split <;> rfl
@[simp] theorem setWait_deferred (t : Thread) (w : WaitKind) (c : Nat) : (t.setWait w c).deferred = t.deferred := by unfold Thread.setWait; split <;> rfl
@[simp] theorem setWait_asyncF (t : Thread) (w : WaitKind) (c : Nat) : (t.setWait w c).asyncF = t.asyncF := by unfold Thread.setWait; split <;> rfl
@[simp] theorem setWait_cause (t : Thread) (w : WaitKind) (c : Nat) : (t.setWait w c).cause = t.cause := by unfold Thread.setWait; split <;> rfl
@[simp] theorem setWait_pktHeld (t : Thread) (w : WaitKind) (c : Nat) : (t.setWait w c).pktHeld = t.pktHeld := by unfold Thread.setWait; split <;> rfl
@[simp] theorem setWait_bodyF (t : Thread) (w : WaitKind) (c : Nat) : (t.setWait w c).bodyF = t.bodyF := by unfold Thread.setWait; split <;> rfl
@[simp] theorem setWait_pktSeq (t : Thread) (w : WaitKind) (c : Nat) : (t.setWait w c).pktSeq = t.pktSeq := by unfold Thread.setWait; split <;> rfl
@[simp] theorem setWait_barGen (t : Thread) (w : WaitKind) (c : Nat) : (t.setWait w c).barGen = t.barGen := by unfold Thread.setWait; split <;> rfl
@[simp] theorem setWait_stepArr (t : Thread) (w : WaitKind) (c : Nat) : (t.setWait w c).stepArr = t.stepArr := by unfold Thread.setWait; split <;> rfl
@[simp] theorem setWait_stepSeq (t : Thread) (w : WaitKind) (c : Nat) : (t.setWait w c).stepSeq = t.stepSeq := by unfold Thread.setWait; split <;> rfl
@[simp] theorem setWait_conted (t : Thread) (w : WaitKind) (c : Nat) : (t.setWait w c).conted = t.conted := by unfold Thread.setWait; split <;> rfl
@[simp] theorem setWait_stepRel (t : Thread) (w : WaitKind) (c : Nat) : (t.setWait w c).stepRel = t.stepRel := by unfold Thread.setWait; split <;> rfl
@[simp] theorem setWait_runBic (t : Thread) (w : WaitKind) (c : Nat) : (t.setWait w c).runBic = t.runBic := by unfold Thread.setWait; split <;> rfl
@[simp] theorem setWait_runBmc (t : Thread) (w : WaitKind) (c : Nat) : (t.setWait w c).runBmc = t.runBmc := by unfold Thread.setWait; split <;> rfl
@[simp] theorem setWait_spanClk (t : Thread) (w : WaitKind) (c : Nat) : (t.setWait w c).spanClk = t.spanClk := by unfold Thread.setWait; split <;> rfl
@[simp] theorem setWait_halts (t : Thread) (w : WaitKind) (c : Nat) : (t.setWait w c).halts = t.halts := by unfold Thread.setWait; split <;> rfl
@[simp] theorem setWait_headClk (t : Thread) (w : WaitKind) (c : Nat) : (t.setWait w c).headClk = t.headClk := by unfold Thread.setWait; split <;> rfl
@[simp] theorem setWait_seqClk (t : Thread) (w : WaitKind) (c : Nat) : (t.setWait w c).seqClk = t.seqClk := by unfold Thread.setWait; split <;> rfl
@[simp] theorem setWait_scalClk (t : Thread) (w : WaitKind) (c : Nat) : (t.setWait w c).scalClk = t.scalClk := by unfold Thread.setWait; split <;> rfl
@[simp] theorem setWait_vecClk (t : Thread) (w : WaitKind) (c : Nat) : (t.setWait w c).vecClk = t.vecClk := by unfold Thread.setWait; split <;> rfl
@[simp] theorem setWait_poked (t : Thread) (w : WaitKind) (c : Nat) : (t.setWait w c).poked = t.poked := by unfold Thread.setWait; split <;> rfl
@[simp] theorem setWait_lanes (t : Thread) (w : WaitKind) (c : Nat) : (t.setWait w c).lanes = t.lanes := by unfold Thread.setWait; split <;> rfl

/-- `s0` stays as it is (06 R108). -/
@[simp] theorem setS_zero (t : Thread) (x : Word) : t.setS 0 x = t := rfl
/-- `p0` stays as it is (06 R108). -/
@[simp] theorem setP_zero (t : Thread) (x : BitVec 32) : t.setP 0 x = t := rfl
@[simp] theorem orFlags_fflags (t : Thread) (x : FFlags) : (t.orFlags x).fflags = t.fflags ||| x := rfl
@[simp] theorem setH_none (t : Thread) (x : Handle) : t.setH none x = t := rfl
@[simp] theorem setWait_wait (t : Thread) (w : WaitKind) (c : Nat) : (t.setWait w c).wait = w := by
  unfold Thread.setWait; split <;> simp_all

end Sys2Proof.Machine
end

