-- ==== Sys2Proof/Laws/Memory.lean ====
section
/-! SUPPORT. The canonical form of a memory, kept by every memory operation; what a byte reads after a write; the form of all the panel's memories under the updates of the state. -/

namespace Sys2Proof.Machine

/-! One memory. -/

/-- The form from an address up holds from any lower address. -/
theorem wfFrom_mono : ∀ (m : Memory) (lo hi : Nat), lo ≤ hi → Memory.wfFrom hi m = true → Memory.wfFrom lo m = true
  | [], _, _, _, _ => rfl
  | (a, b) :: r, lo, hi, h, w => by
    simp only [Memory.wfFrom, Bool.and_eq_true, decide_eq_true_eq] at w ⊢
    exact ⟨⟨Nat.le_trans h w.1.1, w.1.2⟩, w.2⟩

/-- Writing a byte keeps the form from an address not above it. -/
theorem wfFrom_put : ∀ (m : Memory) (lo a : Nat) (b : Byte), lo ≤ a → Memory.wfFrom lo m = true → Memory.wfFrom lo (m.put a b) = true
  | [], lo, a, b, h, _ => by
    unfold Memory.put
    split
    · rfl
    · simp [Memory.wfFrom, h]; assumption
  | (k, v) :: r, lo, a, b, h, w => by
    simp only [Memory.wfFrom, Bool.and_eq_true, decide_eq_true_eq] at w
    unfold Memory.put
    split
    · split
      · simp [Memory.wfFrom, w]
      · simp only [Memory.wfFrom, Bool.and_eq_true, decide_eq_true_eq]
        exact ⟨⟨h, by simpa using ‹¬b = unwritten›⟩, ⟨‹a < k›, w.1.2⟩, w.2⟩
    · split
      · split
        · exact wfFrom_mono r lo (k + 1) (by omega) w.2
        · simp only [Memory.wfFrom, Bool.and_eq_true, decide_eq_true_eq]
          exact ⟨⟨h, by simpa using ‹¬b = unwritten›⟩, ‹k = a› ▸ w.2⟩
      · simp only [Memory.wfFrom, Bool.and_eq_true, decide_eq_true_eq]
        exact ⟨w.1, wfFrom_put r (k + 1) a b (by omega) w.2⟩

/-- Keeping some entries keeps the form. -/
theorem wfFrom_filter (q : Host.Cell → Bool) : ∀ (m : Memory) (lo : Nat), Memory.wfFrom lo m = true → Memory.wfFrom lo (m.filter q) = true
  | [], _, _ => rfl
  | (a, b) :: r, lo, w => by
    simp only [Memory.wfFrom, Bool.and_eq_true, decide_eq_true_eq] at w
    rw [List.filter_cons]
    split
    · simp only [Memory.wfFrom, Bool.and_eq_true, decide_eq_true_eq]
      exact ⟨w.1, wfFrom_filter q r (a + 1) w.2⟩
    · exact wfFrom_mono _ lo (a + 1) (by omega) (wfFrom_filter q r (a + 1) w.2)

/-- A written byte keeps the form. -/
theorem wf_put (m : Memory) (a : Nat) (b : Byte) (h : m.wf = true) : (m.put a b).wf = true := wfFrom_put m 0 a b (Nat.zero_le a) h

/-- Written bytes keep the form. -/
theorem wf_putBytes : ∀ (l : List Byte) (m : Memory) (a : Nat), m.wf = true → (m.putBytes a l).wf = true
  | [], _, _, h => h
  | b :: l, m, a, h => wf_putBytes l (m.put a b) (a + 1) (wf_put m a b h)

/-- A written number keeps the form. -/
theorem wf_write (m : Memory) (a n x : Nat) (h : m.wf = true) : (m.write a n x).wf = true := wf_putBytes _ m a h

/-- A memory of which some entries are kept has the form. -/
theorem wf_filter (q : Host.Cell → Bool) (m : Memory) (h : m.wf = true) : Memory.wf (m.filter q) = true := wfFrom_filter q m 0 h

/-- A cleared memory has the form. -/
theorem wf_clear (m : Memory) (lo hi : Nat) (h : m.wf = true) : (m.clear lo hi).wf = true := wf_filter _ m h

/-- Entries put one after the other keep the form. -/
theorem wf_putAll (l : List Host.Cell) : ∀ m : Memory, m.wf = true → (l.foldl (fun m c => m.put c.1 c.2) m : Memory).wf = true := by
  induction l with
  | nil => exact fun m h => h
  | cons c l ih => exact fun m h => ih _ (wf_put m c.1 c.2 h)

/-- Below the lowest entry nothing is listed. -/
theorem byte_below : ∀ (m : Memory) (lo a : Nat), Memory.wfFrom lo m = true → a < lo → m.byte a = unwritten
  | [], _, _, _, _ => rfl
  | (k, v) :: r, lo, a, w, h => by
    simp only [Memory.wfFrom, Bool.and_eq_true, decide_eq_true_eq] at w
    unfold Memory.byte
    have : k ≠ a := by omega
    have : a < k := by omega
    simp [*]

/-- What a byte reads after a write, from an address up. -/
theorem byte_putFrom : ∀ (m : Memory) (lo a : Nat) (b : Byte) (x : Nat), Memory.wfFrom lo m = true →
    (m.put a b).byte x = if x = a then b else m.byte x
  | [], lo, a, b, x, _ => by
    unfold Memory.put
    split
    · split <;> simp_all [Memory.byte]
    · by_cases h : x = a
      · simp [Memory.byte, h]
      · simp only [Memory.byte, h, if_false]
        split
        · omega
        · split <;> rfl
  | (k, v) :: r, lo, a, b, x, w => by
    simp only [Memory.wfFrom, Bool.and_eq_true, decide_eq_true_eq] at w
    have hlow : ∀ y, y < k + 1 → Memory.byte r y = unwritten := fun y hy => byte_below r (k + 1) y w.2 hy
    have ih := byte_putFrom r (k + 1) a b x w.2
    unfold Memory.put
    by_cases h1 : a < k
    · by_cases hb : b = unwritten
      · by_cases hx : x = a
        · subst hx
          have hk : k ≠ x := by omega
          simp [Memory.byte, h1, hb, hk]
        · simp [h1, hb, hx]
      · by_cases hx : x = a
        · subst hx
          simp [Memory.byte, h1, hb]
        · have ha : a ≠ x := fun e => hx e.symm
          by_cases hl : x < a
          · have hk : k ≠ x := by omega
            have hk2 : x < k := by omega
            simp [Memory.byte, h1, hb, hx, ha, hl, hk, hk2]
          · simp [Memory.byte, h1, hb, hx, ha, hl]
    · by_cases h2 : k = a
      · subst h2
        by_cases hb : b = unwritten
        · by_cases hx : x = k
          · subst hx; simp [hb, hlow x (by omega)]
          · have hk : k ≠ x := fun e => hx e.symm
            by_cases hl : x < k
            · simp [Memory.byte, hb, hx, hk, hl, hlow x (by omega)]
            · simp [Memory.byte, hb, hx, hk, hl]
        · by_cases hx : x = k
          · subst hx; simp [Memory.byte, hb]
          · have hk : k ≠ x := fun e => hx e.symm
            simp [Memory.byte, hb, hx, hk]
      · by_cases hx : x = a
        · subst hx
          simp [Memory.byte, h1, h2, ih]
        · simp only [h1, h2, if_false, Memory.byte, ih, hx]

/-- What a byte reads after a write. -/
theorem byte_put (m : Memory) (a : Nat) (b : Byte) (x : Nat) (h : m.wf = true) :
    (m.put a b).byte x = if x = a then b else m.byte x := byte_putFrom m 0 a b x h

/-- What a byte reads after bytes are written. -/
theorem byte_putBytes : ∀ (l : List Byte) (m : Memory) (a x : Nat), m.wf = true →
    (m.putBytes a l).byte x = if a ≤ x ∧ x < a + l.length then nth l (x - a) 0 else m.byte x
  | [], m, a, x, _ => by
    have h0 : ¬ (a ≤ x ∧ x < a + ([] : List Byte).length) := by simp only [List.length_nil]; omega
    rw [if_neg h0, Memory.putBytes]
  | b :: l, m, a, x, h => by
    rw [Memory.putBytes, byte_putBytes l _ (a + 1) x (wf_put m a b h), byte_put m a b x h]
    by_cases h1 : x = a
    · subst h1
      have h2 : ¬ (x + 1 ≤ x ∧ x < x + 1 + l.length) := by omega
      simp [h2, nth]
    · by_cases h2 : a + 1 ≤ x ∧ x < a + 1 + l.length
      · have h3 : a ≤ x ∧ x < a + (b :: l).length := by simp only [List.length_cons]; omega
        have h4 : x - a = (x - (a + 1)) + 1 := by omega
        rw [if_pos h2, if_pos h3, h4]
        simp [nth]
      · have h3 : ¬ (a ≤ x ∧ x < a + (b :: l).length) := by simp only [List.length_cons]; omega
        rw [if_neg h2, if_neg h3, if_neg h1]

/-- A byte of a memory of which a range is cleared. -/
theorem byte_clearFrom : ∀ (m : Memory) (lo a n x : Nat), Memory.wfFrom lo m = true →
    (m.clear a n).byte x = if a ≤ x ∧ x < n then unwritten else m.byte x
  | [], _, _, _, _, _ => by simp [Memory.clear, Memory.byte]
  | (k, v) :: r, lo, a, n, x, w => by
    simp only [Memory.wfFrom, Bool.and_eq_true, decide_eq_true_eq] at w
    have ih := byte_clearFrom r (k + 1) a n x w.2
    have hc : Memory.clear ((k, v) :: r) a n = if k < a ∨ n ≤ k then (k, v) :: Memory.clear r a n else Memory.clear r a n := by
      by_cases h : k < a ∨ n ≤ k <;> simp [Memory.clear, h]
    rw [hc]
    by_cases h : k < a ∨ n ≤ k
    · simp only [h, if_true, Memory.byte, ih]
      by_cases hx : k = x
      · subst hx
        have : ¬ (a ≤ k ∧ k < n) := by omega
        simp [this]
      · by_cases hl : x < k <;> simp [hx, hl]
    · simp only [h, if_false, ih, Memory.byte]
      by_cases hi : a ≤ x ∧ x < n
      · simp [hi]
      · have hx : k ≠ x := by omega
        by_cases hl : x < k
        · simp [hi, hx, hl, byte_below r (k + 1) x w.2 (by omega)]
        · simp [hi, hx, hl]

/-! The memories of the panel. -/

/-- The form of every memory, said of the three tables that hold them. -/
theorem memoryWf_iff (s : State) : s.memoryWf = true ↔
    s.hbm.wf = true ∧ (∀ c ∈ s.cores, c.ls.wf = true) ∧ ∀ k ∈ s.ckpts, ∀ c ∈ k.cores, c.core.ls.wf = true := by
  simp [State.memoryWf, and_assoc]

/-- States with the same memories have the form together. -/
theorem memoryWf_congr {s t : State} (h1 : s.hbm = t.hbm) (h2 : s.cores = t.cores) (h3 : s.ckpts = t.ckpts) :
    s.memoryWf = t.memoryWf := by
  simp [State.memoryWf, h1, h2, h3]

/-- What holds of every element and is kept by a change holds after `modFirst`. -/
theorem forall_modFirst {α : Type} (P : α → Prop) (is : α → Bool) (f : α → α) (hf : ∀ x, P x → P (f x)) :
    ∀ l : List α, (∀ x ∈ l, P x) → ∀ x ∈ modFirst is f l, P x
  | [], _, x, hx => by cases hx
  | y :: r, h, x, hx => by
    rw [List.forall_mem_cons] at h
    unfold modFirst at hx
    split at hx
    · rcases List.mem_cons.1 hx with rfl | hx
      · exact hf _ h.1
      · exact h.2 x hx
    · rcases List.mem_cons.1 hx with rfl | hx
      · exact h.1
      · exact forall_modFirst P is f hf r h.2 x hx

/-- What holds of every element and of the default and is kept by a change holds after `upsert`. -/
theorem forall_upsert {α : Type} (P : α → Prop) (is : α → Bool) (d : α) (f : α → α) (hd : P (f d)) (hf : ∀ x, P x → P (f x)) :
    ∀ l : List α, (∀ x ∈ l, P x) → ∀ x ∈ upsert is d f l, P x
  | [], _, x, hx => by
    simp only [upsert, List.mem_singleton] at hx
    exact hx ▸ hd
  | y :: r, h, x, hx => by
    rw [List.forall_mem_cons] at h
    unfold upsert at hx
    split at hx
    · rcases List.mem_cons.1 hx with rfl | hx
      · exact hf _ h.1
      · exact h.2 x hx
    · rcases List.mem_cons.1 hx with rfl | hx
      · exact h.1
      · exact forall_upsert P is d f hd hf r h.2 x hx

/-- A change of a core that keeps the form of its local store keeps the form of all. -/
theorem memoryWf_modCore (s : State) (v k : Nat) (f : Core → Core) (hf : ∀ c : Core, c.ls.wf = true → (f c).ls.wf = true)
    (h : s.memoryWf = true) : (s.modCore v k f).memoryWf = true := by
  rw [memoryWf_iff] at h ⊢
  refine ⟨h.1, ?_, h.2.2⟩
  exact forall_upsert (fun c : Core => c.ls.wf = true) (fun c => c.isAt v k) (Core.fresh v k) f (hf _ rfl) hf s.cores h.2.1

/-- Bytes put into HBM keep the form of all. -/
theorem memoryWf_putHbm (s : State) (a : Nat) (l : List Byte) (h : s.memoryWf = true) : (s.putHbm a l).memoryWf = true := by
  rw [memoryWf_iff] at h ⊢
  exact ⟨wf_putBytes l s.hbm a h.1, h.2⟩

/-- The core behind a slot has the form. -/
theorem wf_core (s : State) (v k : Nat) (h : s.memoryWf = true) : (s.core v k).ls.wf = true := by
  rw [memoryWf_iff] at h
  unfold State.core
  cases hc : s.cores.find? fun c => c.isAt v k with
  | none => rfl
  | some c => exact h.2.1 c (List.mem_of_find?_eq_some hc)

@[simp] theorem memoryWf_modThread (s : State) (v k : Nat) (f : Thread → Thread) : (s.modThread v k f).memoryWf = s.memoryWf := rfl
@[simp] theorem memoryWf_modCur (s : State) (f : Thread → Thread) : (s.modCur f).memoryWf = s.memoryWf := rfl
@[simp] theorem memoryWf_putThread (s : State) (t : Thread) : (s.putThread t).memoryWf = s.memoryWf := rfl
@[simp] theorem memoryWf_modVTile (s : State) (v : Nat) (f : VTile → VTile) : (s.modVTile v f).memoryWf = s.memoryWf := rfl
@[simp] theorem memoryWf_modPTile (s : State) (v : Nat) (f : PTile → PTile) : (s.modPTile v f).memoryWf = s.memoryWf := rfl
@[simp] theorem memoryWf_modGang (s : State) (v : Nat) (f : Gang → Gang) : (s.modGang v f).memoryWf = s.memoryWf := rfl
@[simp] theorem memoryWf_modQueue (s : State) (v : Nat) (f : Queue → Queue) : (s.modQueue v f).memoryWf = s.memoryWf := rfl
@[simp] theorem memoryWf_modPart (s : State) (v : Nat) (f : Partition → Partition) : (s.modPart v f).memoryWf = s.memoryWf := rfl
@[simp] theorem memoryWf_modZone (s : State) (v : Nat) (f : Zone → Zone) : (s.modZone v f).memoryWf = s.memoryWf := rfl
@[simp] theorem memoryWf_modStack (s : State) (v : Nat) (f : Stack → Stack) : (s.modStack v f).memoryWf = s.memoryWf := rfl
@[simp] theorem memoryWf_modPort (s : State) (v : Nat) (f : Port → Port) : (s.modPort v f).memoryWf = s.memoryWf := rfl
@[simp] theorem memoryWf_modRotation (s : State) (v : Nat) (f : Rotation → Rotation) : (s.modRotation v f).memoryWf = s.memoryWf := rfl
@[simp] theorem memoryWf_hkPut (s : State) (k p : Nat) (d : List Word) : (s.hkPut k p d).memoryWf = s.memoryWf := rfl
@[simp] theorem memoryWf_notice (s : State) : s.notice.memoryWf = s.memoryWf := rfl
@[simp] theorem memoryWf_tick (s : State) (n : Nat) : (s.tick n).memoryWf = s.memoryWf := rfl
@[simp] theorem memoryWf_hkEnergy (s : State) : s.hkEnergy.memoryWf = s.memoryWf := rfl
@[simp] theorem memoryWf_modScreen (s : State) (v k : Nat) (f : Screen → Screen) : (s.modScreen v k f).memoryWf = s.memoryWf := by
  unfold State.modScreen; split <;> rfl
@[simp] theorem memoryWf_count (s : State) (p k n : Nat) : (s.count p k n).memoryWf = s.memoryWf := rfl

/-- Bytes written into a local store keep its form. -/
theorem wf_putLs (c : Core) (a : Nat) (l : List Byte) (h : c.ls.wf = true) : (c.putLs a l).ls.wf = true := wf_putBytes l c.ls a h

/-- A number written into a local store keeps its form. -/
theorem wf_writeLs (c : Core) (a n x : Nat) (h : c.ls.wf = true) : (c.writeLs a n x).ls.wf = true := wf_putLs c a _ h

/-- Bytes put into a checkpoint reserve keep the form. -/
theorem wf_reservePut (c : Core) (a : Nat) (l : List Byte) (h : c.ls.wf = true) : (c.reservePut a l).ls.wf = true := wf_putBytes l c.ls a h

/-- A scrub keeps the form. -/
theorem wf_scrub (c : Core) (a n : Nat) (h : c.ls.wf = true) : (c.scrub a n).ls.wf = true := wf_clear c.ls a (a + n) h

/-- A bundle of memory writes that translate keeps the form of all. -/
theorem memoryWf_writePage {s s' : State} {sp : Space} {nd : Need} {va : Nat} {l : List Byte}
    (e : s.writePage sp nd va l = .ok s') (h : s.memoryWf = true) : s'.memoryWf = true := by
  unfold State.writePage at e
  split at e
  · cases e
  · cases e; exact memoryWf_putHbm s _ _ h

end Sys2Proof.Machine
end

