-- ==== Sys2Proof/Laws/Places.lean ====
section
/-! SUPPORT. The places of the state: what a lookup gives after a change, for lists in general and for thread slots, cores, partitions and the other tables. -/

namespace Sys2Proof.Machine

/-! Lists changed in one place. -/

/-- Two changes that agree on the element found are the same change. -/
theorem modFirst_congr {α : Type} (is : α → Bool) (f g : α → α) (l : List α) (x : α)
    (hx : l.find? is = some x) (h : f x = g x) : modFirst is f l = modFirst is g l := by
  induction l with
  | nil => rfl
  | cons y r ih =>
    by_cases hy : is y = true
    · rw [List.find?_cons_of_pos hy] at hx
      cases hx; simp [modFirst, hy, h]
    · rw [List.find?_cons_of_neg hy] at hx
      simp [modFirst, hy, ih hx]

/-- A lookup finds the changed element, where the change keeps what is looked for. -/
theorem find?_modFirst {α : Type} (is : α → Bool) (f : α → α) (l : List α)
    (h : ∀ x, is x = true → is (f x) = true) : (modFirst is f l).find? is = (l.find? is).map f := by
  induction l with
  | nil => rfl
  | cons y r ih =>
    by_cases hy : is y = true
    · simp [modFirst, hy, h y hy]
    · simp [modFirst, hy, ih]

/-- A lookup of something else finds what it found before. -/
theorem find?_modFirst_ne {α : Type} (is other : α → Bool) (f : α → α) (l : List α)
    (h : ∀ x, is x = true → other x = false ∧ other (f x) = false) : (modFirst is f l).find? other = l.find? other := by
  induction l with
  | nil => rfl
  | cons y r ih =>
    by_cases hy : is y = true
    · have := h y hy; simp [modFirst, hy, this.1, this.2]
    · simp [modFirst, hy, List.find?_cons, ih]

/-- A lookup after an `upsert` finds the changed element or the changed default. -/
theorem find?_upsert {α : Type} (is : α → Bool) (d : α) (f : α → α) (l : List α)
    (h : ∀ x, is x = true → is (f x) = true) (hd : is (f d) = true) :
    (upsert is d f l).find? is = some (f ((l.find? is).getD d)) := by
  induction l with
  | nil => simp [upsert, hd]
  | cons y r ih =>
    by_cases hy : is y = true
    · simp [upsert, hy, h y hy]
    · simp [upsert, hy, ih]

/-- A lookup of something else after an `upsert` finds what it found before. -/
theorem find?_upsert_ne {α : Type} (is other : α → Bool) (d : α) (f : α → α) (l : List α)
    (h : ∀ x, is x = true → other x = false ∧ other (f x) = false) (hd : other (f d) = false) :
    (upsert is d f l).find? other = l.find? other := by
  induction l with
  | nil => simp [upsert, hd]
  | cons y r ih =>
    by_cases hy : is y = true
    · have := h y hy; simp [upsert, hy, this.1, this.2]
    · simp [upsert, hy, List.find?_cons, ih]

/-! Thread slots. -/

/-- The thread found stands at the place looked for. -/
theorem thread?_isAt {s : State} {vt slot : Nat} {t : Thread} (h : s.thread? vt slot = some t) : t.vt = vt ∧ t.slot = slot := by
  have := List.find?_some h
  simpa [Thread.isAt] using this

/-- The thread behind `cur` stands at its place. -/
theorem curThread?_isAt {s : State} {t : Thread} (h : s.curThread? = some t) : t.vt = s.cur.vt ∧ t.slot = s.cur.slot := thread?_isAt h

/-- Two changes that agree on a thread are the same change of its slot. -/
theorem modThread_congr {s : State} {vt slot : Nat} {t : Thread} (h : s.thread? vt slot = some t) {f g : Thread → Thread}
    (hfg : f t = g t) : s.modThread vt slot f = s.modThread vt slot g := by
  unfold State.modThread
  rw [modFirst_congr _ f g s.threads t h hfg]

/-- Two changes that agree on the thread behind `cur` are the same change of it. -/
theorem modCur_congr {s : State} {t : Thread} (h : s.curThread? = some t) {f g : Thread → Thread} (hfg : f t = g t) :
    s.modCur f = s.modCur g := modThread_congr h hfg

/-- A changed slot holds the changed record. -/
theorem thread?_modThread {s : State} {vt slot : Nat} {f : Thread → Thread} (h : ∀ t, (f t).vt = t.vt ∧ (f t).slot = t.slot) :
    (s.modThread vt slot f).thread? vt slot = (s.thread? vt slot).map f := by
  unfold State.modThread State.thread?
  exact find?_modFirst _ f s.threads fun x hx => by simpa [Thread.isAt, (h x).1, (h x).2] using hx

/-- Every other slot holds what it held. -/
theorem thread?_modThread_ne {s : State} {vt slot v k : Nat} {f : Thread → Thread} (h : ∀ t, (f t).vt = t.vt ∧ (f t).slot = t.slot)
    (hne : (v, k) ≠ (vt, slot)) : (s.modThread vt slot f).thread? v k = s.thread? v k := by
  unfold State.modThread State.thread?
  refine find?_modFirst_ne _ _ f s.threads fun x hx => ?_
  simp only [Thread.isAt, Bool.and_eq_true, beq_iff_eq] at hx
  have : ¬ (x.vt = v ∧ x.slot = k) := fun hh => hne (by rw [← hh.1, ← hh.2, hx.1, hx.2])
  simpa [Thread.isAt, (h x).1, (h x).2] using this

/-- The same of the record or a FREE slot's. -/
theorem thread_modThread_ne {s : State} {vt slot v k : Nat} {f : Thread → Thread} (h : ∀ t, (f t).vt = t.vt ∧ (f t).slot = t.slot)
    (hne : (v, k) ≠ (vt, slot)) : (s.modThread vt slot f).thread v k = s.thread v k := by
  unfold State.thread; rw [thread?_modThread_ne h hne]

/-- A thread that is there is the record of its slot. -/
theorem thread_of_thread? {s : State} {vt slot : Nat} {t : Thread} (h : s.thread? vt slot = some t) : s.thread vt slot = t := by
  unfold State.thread; rw [h]; rfl

/-! Partitions. -/

/-- A changed partition. -/
theorem part_modPart {s : State} {p : Nat} {f : Partition → Partition} (h : ∀ q, (f q).num = q.num) :
    (s.modPart p f).part p = f (s.part p) := by
  unfold State.modPart State.part
  rw [find?_upsert]
  · rfl
  · intro x hx; simpa [h x] using hx
  · simp [h, Partition.fresh]

/-- Every other partition stays. -/
theorem part_modPart_ne {s : State} {p n : Nat} {f : Partition → Partition} (h : ∀ q, (f q).num = q.num) (hne : n ≠ p) :
    (s.modPart p f).part n = s.part n := by
  unfold State.modPart State.part
  rw [find?_upsert_ne]
  · intro x hx
    have : x.num = p := by simpa using hx
    simp [h x, this, Ne.symm hne]
  · simp [h, Partition.fresh, Ne.symm hne]

/-! Cores. -/

/-- A changed core slot. -/
theorem core_modCore {s : State} {vt cs : Nat} {f : Core → Core} (h : ∀ c, (f c).vt = c.vt ∧ (f c).slot = c.slot) :
    (s.modCore vt cs f).core vt cs = f (s.core vt cs) := by
  unfold State.modCore State.core
  rw [find?_upsert]
  · rfl
  · intro x hx; simpa [Core.isAt, (h x).1, (h x).2] using hx
  · simp [Core.isAt, (h _).1, (h _).2, Core.fresh]

/-- Every other core slot stays. -/
theorem core_modCore_ne {s : State} {vt cs v c : Nat} {f : Core → Core} (h : ∀ c, (f c).vt = c.vt ∧ (f c).slot = c.slot)
    (hne : (v, c) ≠ (vt, cs)) : (s.modCore vt cs f).core v c = s.core v c := by
  unfold State.modCore State.core
  rw [find?_upsert_ne]
  · intro x hx
    simp only [Core.isAt, Bool.and_eq_true, beq_iff_eq] at hx
    have : ¬ (x.vt = v ∧ x.slot = c) := fun hh => hne (by rw [← hh.1, ← hh.2, hx.1, hx.2])
    simpa [Core.isAt, (h x).1, (h x).2] using this
  · have : ¬ (vt = v ∧ cs = c) := fun hh => hne (by rw [hh.1, hh.2])
    simpa [Core.isAt, (h _).1, (h _).2, Core.fresh] using this

end Sys2Proof.Machine
end

