-- ==== Sys2Proof/Laws/Ops.lean ====
section
/-! SUPPORT. The shared operations, each once: what issue does before an instruction's own checks, what a charge does to the thread, what a fault does to a thread that is not in RUN, the checks of a local access that pass, and that none of them changes the form of a memory. -/

namespace Sys2Proof.Machine

/-! Issue (06 R109, R113, 07 R148, 11 R240, 15 R292). -/

/-- A thread not in RUN issues nothing. -/
theorem issue_notRun {s : State} {t : Thread} (h : s.curThread? = some t) (r : t.st ≠ .run) (f : Form) (b : State → Thread → Res) :
    s.issue f b = .next s := by
  simp [State.issue, h, r]

/-- A pending budget fault precedes the instruction. -/
theorem issue_pend {s : State} {t : Thread} (h : s.curThread? = some t) (r : t.st = .run) {f : Form} (p : t.pend = true) (w : f.wins = false)
    (b : State → Thread → Res) :
    s.issue f b = .next (s.freeze t.vt t.slot { cause := .budget, info := t.cont } (t.issuePc s.cur.body) s.cur.body) := by
  simp [State.issue, h, r, p, w]

/-- An asynchronous fault freezes the thread at its next instruction. -/
theorem issue_async {s : State} {t : Thread} (h : s.curThread? = some t) (r : t.st = .run) {f : Form} (p : t.pend = true → f.wins = true)
    {a : FaultInfo} (e : t.asyncF = some a) (b : State → Thread → Res) :
    s.issue f b = .next ((s.modCur fun t => { t with asyncF := none }).freeze t.vt t.slot a (t.issuePc s.cur.body) s.cur.body) := by
  have h1 : (t.pend && !f.wins) = false := by cases hp : t.pend <;> simp_all
  simp [State.issue, h, r, h1, e]

/-- The scalar stream waits for a running sequencer. -/
theorem issue_seq {s : State} {t : Thread} (h : s.curThread? = some t) (r : t.st = .run) {f : Form} (p : t.pend = true → f.wins = true)
    (e : t.asyncF = none) (q1 : s.cur.body = false) (q2 : t.rep.isSome = true) (q3 : f.free = false) (b : State → Thread → Res) :
    s.issue f b = .next (s.scalarWait (.stall 11)) := by
  have h1 : (t.pend && !f.wins) = false := by cases hp : t.pend <;> simp_all
  simp [State.issue, h, r, h1, e, q1, q2, q3]

/-- A missing capability faults CAPABILITY. -/
theorem issue_cap {s : State} {t : Thread} (h : s.curThread? = some t) (r : t.st = .run) {f : Form} (p : t.pend = true → f.wins = true)
    (e : t.asyncF = none) (q : s.cur.body = false → t.rep.isSome = true → f.free = true) {c : Nat} (hc : f.cap = some c)
    (n : s.hasCap t c = false) (b : State → Thread → Res) :
    s.issue f b = .next (s.freeze t.vt t.slot { cause := .capability, info := w64 c } (t.issuePc s.cur.body) s.cur.body) := by
  have h1 : (t.pend && !f.wins) = false := by cases hp : t.pend <;> simp_all
  have h2 : (!s.cur.body && t.rep.isSome && !f.free) = false := by
    cases hb : s.cur.body <;> cases hr : t.rep.isSome <;> simp_all
  have h3 : (f.cap.filter fun c => !s.hasCap t c) = some c := by simp [hc, Option.filter, n]
  simp only [State.issue, h, r, ne_eq, not_true_eq_false, if_false, h1, e, h2, h3, Bool.false_eq_true]

/-- A false predicate: the instruction only retires. -/
theorem issue_false {s : State} {t : Thread} (h : s.curThread? = some t) (r : t.st = .run) {f : Form} (p : t.pend = true → f.wins = true)
    (e : t.asyncF = none) (q : s.cur.body = false → t.rep.isSome = true → f.free = true) (hc : ∀ c, f.cap = some c → s.hasCap t c = true)
    (l : f.lane = false) (z : (t.predMask f.pred).getLsbD 0 = false) (b : State → Thread → Res) :
    s.issue f b = s.completes t f s 1 0 := by
  have h1 : (t.pend && !f.wins) = false := by cases hp : t.pend <;> simp_all
  have h2 : (!s.cur.body && t.rep.isSome && !f.free) = false := by
    cases hb : s.cur.body <;> cases hr : t.rep.isSome <;> simp_all
  have h3 : (f.cap.filter fun c => !s.hasCap t c) = none := by
    cases hf : f.cap with
    | none => rfl
    | some c => simp [hc c hf]
  simp only [State.issue, State.completes, h, r, ne_eq, not_true_eq_false, if_false, h1, e, h2, h3, l, z, Bool.not_false, Bool.and_self,
    if_true, Bool.false_eq_true]

/-! The thread behind `cur`. -/

/-- The record of the thread behind `cur` is found at its place. -/
theorem thread_of_cur {s : State} {t : Thread} (h : s.curThread? = some t) : s.thread s.cur.vt s.cur.slot = t := by
  unfold State.thread
  unfold State.curThread? at h
  rw [h]; rfl

/-- The thread behind `cur` stands at the place that `cur` names. -/
theorem cur_place {s : State} {t : Thread} (h : s.curThread? = some t) : t.vt = s.cur.vt ∧ t.slot = s.cur.slot := by
  unfold State.curThread? State.thread? at h
  have := List.find?_some h
  simpa [Thread.isAt] using this

/-! Charges (15 R287, R288). -/

/-- A charge outside grace that both budgets cover. -/
theorem debit_covered {t : Thread} {u b : Nat} (g : t.ingrace = false) (hu : u ≤ t.bic) (hb : b ≤ t.bmc) :
    t.debit u b = { t with bic := t.bic - u, bmc := t.bmc - b } := by
  simp [Thread.debit, g, hu, hb]

/-- A charge in grace that GRACE covers. -/
theorem debit_grace {t : Thread} {u b : Nat} (g : t.ingrace = true) (h : u + (b + 63) / 64 ≤ t.grace) :
    t.debit u b = { t with grace := t.grace - (u + (b + 63) / 64) } := by
  have : ¬ u + (b + 63) / 64 > t.grace := by omega
  simp [Thread.debit, Thread.takeGrace, g, this]

/-- A charge in grace that GRACE does not cover sets PEND. -/
theorem debit_pend {t : Thread} {u b : Nat} (g : t.ingrace = true) (h : t.grace < u + (b + 63) / 64) :
    t.debit u b = { t with grace := 0, pend := true } := by
  simp [Thread.debit, Thread.takeGrace, g, h]

/-- Nothing is charged for nothing. -/
@[simp] theorem charge_zero (s : State) (v k : Nat) : s.charge v k 0 0 = s := by simp [State.charge]

/-! Faults and resumes (16 R319-R325, R331). -/

/-- A thread that is not in RUN raises nothing. -/
theorem freeze_notRun {s : State} {v k : Nat} (h : (s.thread v k).st ≠ .run) (f : FaultInfo) (pc : Word) (b : Bool) :
    s.freeze v k f pc b = s := by
  simp [State.freeze, h]

/-! Local accesses (11 R218). -/

/-- A search that fails at every element. -/
theorem findSome?_none {α β : Type} (f : α → Option β) : ∀ l : List α, (∀ x ∈ l, f x = none) → l.findSome? f = none
  | [], _ => rfl
  | x :: r, h => by
    rw [List.findSome?_cons, h x List.mem_cons_self]
    exact findSome?_none f r fun y hy => h y (List.mem_cons_of_mem x hy)

/-- A word in error that a range touches meets the range. -/
theorem badWord_none {c : Core} {a n : Nat} (h : ∀ w ∈ c.bad, ¬ (4 * w < a + n ∧ a < 4 * w + 4)) : c.badWord a n = none := by
  unfold Core.badWord
  rw [List.find?_eq_none]
  intro w hw hb
  have hb : w ∈ c.bad := by simpa using hb
  refine h w hb ?_
  unfold unitsOf at hw
  split at hw
  · cases hw
  · obtain ⟨i, hi, rfl⟩ := List.mem_map.1 hw
    rw [List.mem_range] at hi
    constructor <;> omega

/-- An access that is free passes its checks. -/
theorem lsCheckOne_of_free {s : State} {t : Thread} {x : LsAccess} (h : s.LsFree t x) : s.lsCheckOne t x = .ok := by
  obtain ⟨⟨al, ins, rdy, wr⟩, snd⟩ := h
  have h1 : ¬ (x.width ≠ 0 ∧ x.addr % x.width ≠ 0) := fun e => al.elim (fun z => e.1 z) (fun z => e.2 z)
  have h2 : (((s.core t.vt t.cslot).stash.filter fun e => e.meets x.addr x.bytes).find? fun e => e.st != .ready) = none := by
    rw [List.find?_eq_none]
    intro e he
    rw [List.mem_filter] at he
    simp [rdy e he.1 he.2]
  have h3 : (if x.write then ((s.core t.vt t.cslot).stash.filter fun e => e.meets x.addr x.bytes).findSome? fun e =>
      e.readOnlyPage x.addr x.bytes else none) = none := by
    split
    · refine findSome?_none _ _ fun e he => ?_
      rw [List.mem_filter] at he
      exact wr (by assumption) e he.1 he.2
    · rfl
  unfold State.lsCheckOne
  simp only [h1, if_false, ins, Bool.not_true, h2, h3, Bool.false_eq_true]
  cases hw : x.write with
  | true => simp
  | false => simp [badWord_none (snd hw)]

/-- Accesses that are all free pass their checks. -/
theorem lsCheck_of_free {s : State} {t : Thread} : ∀ l : List LsAccess, (∀ x ∈ l, s.LsFree t x) → s.lsCheck t l = .ok
  | [], _ => rfl
  | x :: r, h => by
    unfold State.lsCheck
    rw [lsCheckOne_of_free (h x List.mem_cons_self)]
    exact lsCheck_of_free r fun y hy => h y (List.mem_cons_of_mem x hy)

/-- A body behind accesses that are all free. -/
theorem withLs_of_free {s : State} {t : Thread} {l : List LsAccess} (h : ∀ x ∈ l, s.LsFree t x) (b : Res) : s.withLs t l b = b := by
  simp [State.withLs, lsCheck_of_free l h]

/-! The form of the memories. -/

/-- An event keeps the form of all. -/
theorem memoryWf_event (s : State) (p y b g : Nat) (w1 w2 : Word) (h : s.memoryWf = true) : (s.event p y b g w1 w2).memoryWf = true := by
  unfold State.event
  dsimp only
  repeat' split
  all_goals first
    | exact h
    | (simpa [State.hkEvent] using h)
    | (rw [memoryWf_hkEnergy, memoryWf_modPart]; exact memoryWf_writePage (by assumption) h)

/-- Writing LINK keeps the form of all. -/
theorem memoryWf_setLink (s : State) (pa : Nat) (l : Link) (h : s.memoryWf = true) : (s.setLink pa l).memoryWf = true :=
  memoryWf_putHbm s _ _ h

/-- Setting a chain keeps the form of all. -/
theorem memoryWf_setChain (pa : Nat) : ∀ (l : List Nat) (s : State), (s.setChain pa l).memoryWf = s.memoryWf
  | [], _ => rfl
  | a :: r, s => by rw [State.setChain, memoryWf_setChain pa r]; rfl

/-- Setting the waiters of a header keeps the form of all. -/
theorem memoryWf_setWaiters (s : State) (pa : Nat) (l : List Nat) (h : s.memoryWf = true) : (s.setWaiters pa l).memoryWf = true :=
  memoryWf_setLink _ _ _ (by rw [memoryWf_setChain]; exact h)

/-- Unlinking a waiter keeps the form of all. -/
theorem memoryWf_unlinkWq (s : State) (v k : Nat) (h : s.memoryWf = true) : (s.unlinkWq v k).memoryWf = true := by
  unfold State.unlinkWq
  split
  · exact h
  · simp only [memoryWf_modThread]
    split
    · exact h
    · exact memoryWf_setWaiters s _ _ h

/-- Ending a sleep keeps the form of all. -/
theorem memoryWf_interrupt (s : State) (v k : Nat) (h : s.memoryWf = true) : (s.interrupt v k).memoryWf = true := by
  unfold State.interrupt
  dsimp only
  split
  · simp only [memoryWf_modThread]; exact memoryWf_unlinkWq s v k h
  · exact h
  · exact h

/-- A charge keeps the form of all. -/
theorem memoryWf_charge (s : State) (v k u b : Nat) (h : s.memoryWf = true) : (s.charge v k u b).memoryWf = true := by
  unfold State.charge
  split
  · exact h
  · dsimp only
    split
    · exact memoryWf_interrupt _ v k h
    · exact h

/-- A signal of the device keeps the form of all. -/
theorem memoryWf_deliverDevice (s : State) (p v k : Nat) (x : Signal) (h : s.memoryWf = true) : (s.deliverDevice p v k x).memoryWf = true := by
  unfold State.deliverDevice
  split
  · exact h
  · exact memoryWf_modCore s v (k / 4) _ (fun c hc => hc) h

/-- A signal to the supervisor keeps the form of all. -/
theorem memoryWf_notifySupervisor (s : State) (p : Nat) (h : s.memoryWf = true) : (s.notifySupervisor p).memoryWf = true := by
  unfold State.notifySupervisor
  dsimp only
  split
  · exact h
  · exact memoryWf_deliverDevice s _ _ _ _ h

/-- Writing a packet into a ring keeps the form of all. -/
theorem memoryWf_writeRing (s : State) (p : Nat) (x : Packet) (h : s.memoryWf = true) : (s.writeRing p x).memoryWf = true := by
  unfold State.writeRing
  dsimp only
  split
  · exact h
  · apply memoryWf_notifySupervisor
    rw [memoryWf_modPart]
    exact memoryWf_writePage (by assumption) h

/-- Delivering a packet keeps the form of all. -/
theorem memoryWf_deliverPacket (s : State) (p : Nat) (k : Option (Nat × Nat)) (v : Bool) (x : Packet) (h : s.memoryWf = true) :
    (s.deliverPacket p k v x).memoryWf = true := by
  unfold State.deliverPacket
  dsimp only
  split
  · exact h
  · split
    · split
      · exact h
      · exact h
    · exact memoryWf_writeRing s p x h

/-- A packet that freezes nothing keeps the form of all. -/
theorem memoryWf_packetOnly (s : State) (p : Nat) (w : Option Thread) (v : Bool) (f : FaultInfo) (o : Bool) (h : s.memoryWf = true) :
    (s.packetOnly p w v f o).memoryWf = true := by
  unfold State.packetOnly
  simp only [State.nextPacket]
  generalize packetWords _ _ _ _ _ _ _ = x
  split
  · simpa using h
  · apply memoryWf_deliverPacket
    simpa using h

/-- A fault keeps the form of all. -/
theorem memoryWf_freeze (s : State) (v k : Nat) (f : FaultInfo) (pc : Word) (b : Bool) (h : s.memoryWf = true) :
    (s.freeze v k f pc b).memoryWf = true := by
  unfold State.freeze
  simp only [State.nextPacket]
  generalize packetWords _ _ _ _ _ _ _ = x
  split
  · exact h
  · apply memoryWf_deliverPacket
    simpa using memoryWf_unlinkWq s v k h

/-- A resume keeps the form of all. -/
theorem memoryWf_resumeThread (s : State) (v k : Nat) : (s.resumeThread v k).memoryWf = s.memoryWf := by
  unfold State.resumeThread
  dsimp only
  split <;> rfl

/-- A wait of the scalar stream keeps the form of all. -/
theorem memoryWf_scalarWait (s : State) (w : WaitKind) (h : s.memoryWf = true) : (s.scalarWait w).memoryWf = true := by
  unfold State.scalarWait
  dsimp only
  split
  · exact memoryWf_freeze s _ _ _ _ _ h
  · exact h

/-- A wait of the sequencer keeps the form of all. -/
theorem memoryWf_bodyWait (s : State) (h : s.memoryWf = true) : s.bodyWait.memoryWf = true := by
  unfold State.bodyWait
  dsimp only
  split
  · exact memoryWf_freeze s _ _ _ _ _ h
  · exact h

/-- What an instruction's answer holds in its own state has the form. -/
def Res.memoryWf : Res → Prop
  | .done s _ _ => s.memoryWf = true
  | .jump s _ _ => s.memoryWf = true
  | .wait s _ => s.memoryWf = true
  | .fault _ => True
  | .left s => s.memoryWf = true

/-- An instruction's answer keeps the form where its own effects do. -/
theorem memoryWf_finish (s : State) (f : Form) (pc : Word) (r : Res) (h : s.memoryWf = true) (hr : r.memoryWf) :
    (s.finish f pc r).memoryWf = true := by
  cases r with
  | done s' u b => exact memoryWf_charge s' _ _ u b hr
  | jump s' a u => exact memoryWf_charge s' _ _ u 0 hr
  | wait s' w =>
    unfold State.finish
    dsimp only
    split
    · exact memoryWf_bodyWait s' hr
    · exact memoryWf_scalarWait s' w hr
  | fault i => exact memoryWf_freeze s _ _ _ _ _ h
  | left s' => exact hr

/-- An instruction that issues keeps the form where its body does. -/
theorem memoryWf_issue (s s' : State) (f : Form) (b : State → Thread → Res) (h : s.memoryWf = true) (hb : ∀ t, (b s t).memoryWf)
    (e : s.issue f b = .next s') : s'.memoryWf = true := by
  unfold State.issue at e
  split at e
  · cases e
  · dsimp only at e
    injection e with e
    subst e
    split
    · exact h
    · split
      · exact memoryWf_freeze s _ _ _ _ _ h
      · split
        · exact memoryWf_freeze _ _ _ _ _ _ h
        · split
          · exact memoryWf_scalarWait s _ h
          · split
            · exact memoryWf_freeze s _ _ _ _ _ h
            · split
              · exact memoryWf_finish s _ _ _ h h
              · exact memoryWf_finish s _ _ _ h (hb _)

end Sys2Proof.Machine
end

