-- ==== Sys2Proof/Laws/Lanes.lean ====
section
/-! SUPPORT. Lanes of vector accesses that have not been applied: what applying one, a thread's, or all of them does, and that where none is on its way nothing happens. -/

namespace Sys2Proof.Machine

/-- With no lane on its way none lands. -/
theorem landLane_none {s : State} {vt slot : Nat} (h : (s.thread vt slot).lanes = []) : s.landLane vt slot = s := by
  simp [State.landLane, h]

/-- A store lane is stored in the thread's core. -/
theorem landLane_store {s : State} {vt slot a : Nat} {x : Lane} {l : List LaneOp} (h : (s.thread vt slot).lanes = .store a x :: l) :
    s.landLane vt slot =
      (s.modThread vt slot fun t => { t with lanes := l }).modCore vt (slot / 4) fun c => c.store a (natBytes 4 x.toNat) := by
  simp [State.landLane, h]

/-- A load lane reads the thread's core. -/
theorem landLane_load {s : State} {vt slot a : Nat} {d : VReg} {i : Fin 32} {l : List LaneOp} (h : (s.thread vt slot).lanes = .load a d i :: l) :
    s.landLane vt slot = s.modThread vt slot fun t =>
      ({ t with lanes := l } : Thread).setLane d i (w32 ((s.core vt (slot / 4)).readLs a 4)) := by
  simp [State.landLane, h]

/-- What a change of a thread that has a lane on its way leaves in its place. -/
theorem thread_modThread_of_lane {s : State} {vt slot : Nat} {f : Thread → Thread} (hf : ∀ t, (f t).vt = t.vt ∧ (f t).slot = t.slot)
    (h : (s.thread vt slot).lanes ≠ []) : (s.modThread vt slot f).thread vt slot = f (s.thread vt slot) := by
  unfold State.thread at h ⊢
  rw [thread?_modThread hf]
  cases hs : s.thread? vt slot with
  | none => rw [hs] at h; exact absurd rfl h
  | some t => rfl

/-- One lane less is on its way. -/
theorem landLane_lanes {s : State} {vt slot : Nat} : ((s.landLane vt slot).thread vt slot).lanes = (s.thread vt slot).lanes.drop 1 := by
  cases h : (s.thread vt slot).lanes with
  | nil => rw [landLane_none h, h]; rfl
  | cons x l =>
    have hne : (s.thread vt slot).lanes ≠ [] := by rw [h]; exact List.cons_ne_nil x l
    cases x with
    | store a x =>
      rw [landLane_store h]
      exact congrArg Thread.lanes (thread_modThread_of_lane (f := fun t : Thread => { t with lanes := l }) (fun _ => ⟨rfl, rfl⟩) hne)
    | load a d i =>
      rw [landLane_load h]
      exact congrArg Thread.lanes (thread_modThread_of_lane
        (f := fun t : Thread => ({ t with lanes := l } : Thread).setLane d i (w32 ((s.core vt (slot / 4)).readLs a 4))) (fun _ => ⟨rfl, rfl⟩) hne)

/-- What a lane makes of the core's local store. -/
def LaneOp.onCore (c : Core) : LaneOp → Core
  | .store a x => c.store a (natBytes 4 x.toNat)
  | .load _ _ _ => c

/-- What applying the next lane does to the thread's core. -/
theorem landLane_core {s : State} {vt slot : Nat} {x : LaneOp} {l : List LaneOp} (h : (s.thread vt slot).lanes = x :: l) :
    (s.landLane vt slot).core vt (slot / 4) = x.onCore (s.core vt (slot / 4)) := by
  cases x with
  | store a x =>
    rw [landLane_store h, core_modCore (f := fun c => c.store a (natBytes 4 x.toNat)) fun _ => ⟨rfl, rfl⟩]
    rfl
  | load a d i => rw [landLane_load h]; rfl

/-- Applying a thread's lanes stores each store, in order, and leaves none on its way. -/
theorem landThread_all {s : State} {vt slot : Nat} :
    (s.landThread vt slot).core vt (slot / 4) = (s.thread vt slot).lanes.foldl LaneOp.onCore (s.core vt (slot / 4)) ∧
    ((s.landThread vt slot).thread vt slot).lanes = [] := by
  unfold State.landThread
  generalize hl : (s.thread vt slot).lanes = l
  induction l generalizing s with
  | nil => exact ⟨rfl, hl⟩
  | cons x r ih =>
    have h1 := ih (s := s.landLane vt slot) (by rw [landLane_lanes, hl]; rfl)
    rw [List.foldl_cons, List.foldl_cons, h1.1, landLane_core hl]
    exact ⟨rfl, h1.2⟩

/-- With no lane on its way a thread's landing is none. -/
theorem landThread_none {s : State} {vt slot : Nat} (h : (s.thread vt slot).lanes = []) : s.landThread vt slot = s := by
  simp [State.landThread, h]

/-- Where no thread has a lane on its way, whatever would land changes nothing. -/
theorem landWhere_none {s : State} (h : ∀ t ∈ s.threads, t.lanes = []) (f : Thread → Bool) : s.landWhere f = s := by
  have : s.threads.filter (fun t => !t.lanes.isEmpty && f t) = [] := by
    simp only [List.filter_eq_nil_iff, Bool.and_eq_true, not_and]
    intro t ht hl
    simp [h t ht] at hl
  simp [State.landWhere, this]

/-- The same of all lanes. -/
theorem landAll_none {s : State} (h : ∀ t ∈ s.threads, t.lanes = []) : s.landAll = s := landWhere_none h _

/-- The same of those that a head waits for. -/
theorem landFor_none {s : State} (h : ∀ t ∈ s.threads, t.lanes = []) (vt slot : Nat) (body : Bool) : s.landFor vt slot body = s :=
  landWhere_none h _

/-- Landing a lane keeps the memories' canonical form. -/
theorem memoryWf_landLane (s : State) (vt slot : Nat) (h : s.memoryWf = true) : (s.landLane vt slot).memoryWf = true := by
  unfold State.landLane
  split
  · exact h
  · rename_i a x r _
    exact memoryWf_modCore _ vt (slot / 4) _ (fun c hc => wf_putLs c a (natBytes 4 x.toNat) hc) (by simpa using h)
  · simpa using h

/-- Landing a thread's lanes keeps it. -/
theorem memoryWf_landThread (s : State) (vt slot : Nat) (h : s.memoryWf = true) : (s.landThread vt slot).memoryWf = true := by
  unfold State.landThread
  generalize (s.thread vt slot).lanes = l
  induction l generalizing s with
  | nil => exact h
  | cons x r ih => exact ih _ (memoryWf_landLane s vt slot h)

/-- Landing lanes keeps it. -/
theorem memoryWf_landWhere (s : State) (f : Thread → Bool) (h : s.memoryWf = true) : (s.landWhere f).memoryWf = true := by
  unfold State.landWhere
  generalize s.threads.filter _ = l
  induction l generalizing s with
  | nil => exact h
  | cons x r ih => exact ih _ (memoryWf_landThread s x.vt x.slot h)

end Sys2Proof.Machine
end

