-- ==== Sys2Proof/Laws/PerInstr.lean ====
section
/-! SUPPORT. The family `Encoding` of LAWS.json, one lemma per constructor: the LEN field of an instruction's encoding names the words that follow, and the decoder's candidate for the encoding's own fields is the instruction (06 R106, R107, R113). An event row has no encoding. -/

set_option Elab.async false

namespace Sys2Proof.Laws.Encoding

/-- What the family says of an instruction. -/
def Statement (i : Instr) : Prop :=
  ∀ w : Enc, i.enc = some w → w.f.len = w.e.len ∧ candidate w.f w.e w.px = some i

theorem deviceReset (fail : BootReport) (snapOk : Bool) : Statement (.deviceReset fail snapOk) := fun _ h => nomatch h
theorem nop : Statement .nop := by
  intro w h; cases h
  exact ⟨rfl, (opc00 _ _ _ rfl).trans (congrArg some (show (.nop : Instr) = .nop by simp))⟩
theorem pad : Statement .pad := by
  intro w h; cases h
  exact ⟨rfl, (opc00 _ _ _ rfl).trans (congrArg some (show (.pad : Instr) = .pad by simp))⟩
theorem br (p : Pred) (off : BitVec 16) : Statement (.br p off) := by
  intro w h; cases h
  exact ⟨rfl, (opc01 _ _ _ rfl).trans (congrArg some (show (.br (mkEnc 0x01 0 p 0 0 0 0 0 off .none .none).f.pred (off : BitVec 16) : Instr) = (.br p off) by simp))⟩
theorem brLong (p : Pred) (off : BitVec 32) : Statement (.brLong p off) := by
  intro w h; cases h
  exact ⟨rfl, (opc01 _ _ _ rfl).trans (congrArg some (show (.brLong (mkEnc 0x01 0 p 0 0 0 0 0 0 (.w32 off) .none).f.pred (off : BitVec 32) : Instr) = (.brLong p off) by simp))⟩
theorem brReg (p : Pred) (a : SReg) : Statement (.brReg p a) := by
  intro w h; cases h
  exact ⟨rfl, (opc01 _ _ _ rfl).trans (congrArg some (show (.brReg (mkEnc 0x01 1 p 0 0 (encS a) 0 0 0 .none .none).f.pred (decS ((encS a) : BitVec 6)) : Instr) = (.brReg p a) by simp))⟩
theorem brC (p : Pred) (cc : Cond) (a b : SReg) (off : BitVec 16) : Statement (.brC p cc a b off) := by
  intro w h; cases h
  exact ⟨rfl, (opc02 _ _ _ rfl).trans (congrArg some (show (.brC (mkEnc 0x02 0 p (encCond cc) 0 (encS a) (encS b) 0 off .none .none).f.pred (decCond ((encCond cc) : BitVec 4)) (decS ((encS a) : BitVec 6)) (decS ((encS b) : BitVec 6)) (off : BitVec 16) : Instr) = (.brC p cc a b off) by simp))⟩
theorem brCLong (p : Pred) (cc : Cond) (a b : SReg) (off : BitVec 32) : Statement (.brCLong p cc a b off) := by
  intro w h; cases h
  exact ⟨rfl, (opc02 _ _ _ rfl).trans (congrArg some (show (.brCLong (mkEnc 0x02 0 p (encCond cc) 0 (encS a) (encS b) 0 0 (.w32 off) .none).f.pred (decCond ((encCond cc) : BitVec 4)) (decS ((encS a) : BitVec 6)) (decS ((encS b) : BitVec 6)) (off : BitVec 32) : Instr) = (.brCLong p cc a b off) by simp))⟩
theorem brCImm (p : Pred) (cc : Cond) (a : SReg) (off : BitVec 16) (imm : BitVec 32) : Statement (.brCImm p cc a off imm) := by
  intro w h; cases h
  exact ⟨rfl, (opc02 _ _ _ rfl).trans (congrArg some (show (.brCImm (mkEnc 0x02 1 p (encCond cc) 0 (encS a) 0 0 off (.w32 imm) .none).f.pred (decCond ((encCond cc) : BitVec 4)) (decS ((encS a) : BitVec 6)) (off : BitVec 16) (imm : BitVec 32) : Instr) = (.brCImm p cc a off imm) by simp))⟩
theorem call (p : Pred) (d : SReg) (off : BitVec 16) : Statement (.call p d off) := by
  intro w h; cases h
  exact ⟨rfl, (opc03 _ _ _ rfl).trans (congrArg some (show (.call (mkEnc 0x03 0 p 0 (encS d) 0 0 0 off .none .none).f.pred (decS ((encS d) : BitVec 6)) (off : BitVec 16) : Instr) = (.call p d off) by simp))⟩
theorem callLong (p : Pred) (d : SReg) (off : BitVec 32) : Statement (.callLong p d off) := by
  intro w h; cases h
  exact ⟨rfl, (opc03 _ _ _ rfl).trans (congrArg some (show (.callLong (mkEnc 0x03 0 p 0 (encS d) 0 0 0 0 (.w32 off) .none).f.pred (decS ((encS d) : BitVec 6)) (off : BitVec 32) : Instr) = (.callLong p d off) by simp))⟩
theorem callReg (p : Pred) (d a : SReg) : Statement (.callReg p d a) := by
  intro w h; cases h
  exact ⟨rfl, (opc03 _ _ _ rfl).trans (congrArg some (show (.callReg (mkEnc 0x03 1 p 0 (encS d) (encS a) 0 0 0 .none .none).f.pred (decS ((encS d) : BitVec 6)) (decS ((encS a) : BitVec 6)) : Instr) = (.callReg p d a) by simp))⟩
theorem ret (p : Pred) (a : SReg) : Statement (.ret p a) := by
  intro w h; cases h
  exact ⟨rfl, (opc03 _ _ _ rfl).trans (congrArg some (show (.ret (mkEnc 0x03 2 p 0 0 (encS a) 0 0 0 .none .none).f.pred (decS ((encS a) : BitVec 6)) : Instr) = (.ret p a) by simp))⟩
theorem halt (p : Pred) : Statement (.halt p) := by
  intro w h; cases h
  exact ⟨rfl, (opc04 _ _ _ rfl).trans (congrArg some (show (.halt (mkEnc 0x04 0 p 0 0 0 0 0 0 .none .none).f.pred : Instr) = (.halt p) by simp))⟩
theorem realign (p : Pred) (a : SReg) : Statement (.realign p a) := by
  intro w h; cases h
  exact ⟨rfl, (opc05 _ _ _ rfl).trans (congrArg some (show (.realign (mkEnc 0x05 0 p 0 0 (encS a) 0 0 0 .none .none).f.pred (decS ((encS a) : BitVec 6)) : Instr) = (.realign p a) by simp))⟩
theorem realignResume (vt slot : Nat) : Statement (.realignResume vt slot) := fun _ h => nomatch h
theorem loop (p : Pred) (a : SReg) (off : BitVec 16) : Statement (.loop p a off) := by
  intro w h; cases h
  exact ⟨rfl, (opc06 _ _ _ rfl).trans (congrArg some (show (.loop (mkEnc 0x06 0 p 0 0 (encS a) 0 0 off .none .none).f.pred (decS ((encS a) : BitVec 6)) (off : BitVec 16) : Instr) = (.loop p a off) by simp))⟩
theorem loopImm (p : Pred) (off : BitVec 16) (cnt : BitVec 32) : Statement (.loopImm p off cnt) := by
  intro w h; cases h
  exact ⟨rfl, (opc06 _ _ _ rfl).trans (congrArg some (show (.loopImm (mkEnc 0x06 1 p 0 0 0 0 0 off (.w32 cnt) .none).f.pred (off : BitVec 16) (cnt : BitVec 32) : Instr) = (.loopImm p off cnt) by simp))⟩
theorem loopEnd (p : Pred) : Statement (.loopEnd p) := by
  intro w h; cases h
  exact ⟨rfl, (opc06 _ _ _ rfl).trans (congrArg some (show (.loopEnd (mkEnc 0x06 2 p 0 0 0 0 0 0 .none .none).f.pred : Instr) = (.loopEnd p) by simp))⟩
theorem rep (p : Pred) (a : SReg) (sh : RepShape) : Statement (.rep p a sh) := by
  intro w h; cases h
  exact ⟨rfl, (opc07 _ _ _ rfl).trans (congrArg some (show (.rep (mkEnc 0x07 0 p (encRepX sh) 0 (encS a) 0 0 (encRepI sh) .none .none).f.pred (decS ((encS a) : BitVec 6)) (decRep ((encRepX sh) : BitVec 4) ((encRepI sh) : BitVec 16)) : Instr) = (.rep p a sh) by simp))⟩
theorem repImm (p : Pred) (cnt : BitVec 32) (sh : RepShape) : Statement (.repImm p cnt sh) := by
  intro w h; cases h
  exact ⟨rfl, (opc07 _ _ _ rfl).trans (congrArg some (show (.repImm (mkEnc 0x07 1 p (encRepX sh) 0 0 0 0 (encRepI sh) (.w32 cnt) .none).f.pred (cnt : BitVec 32) (decRep ((encRepX sh) : BitVec 4) ((encRepI sh) : BitVec 16)) : Instr) = (.repImm p cnt sh) by simp))⟩
theorem qPush (p : Pred) (d : QReg) (a : SReg) : Statement (.qPush p d a) := by
  intro w h; cases h
  exact ⟨rfl, (opc08 _ _ _ rfl).trans (congrArg some (show (.qPush (mkEnc 0x08 0 p 0 (encQ d) (encS a) 0 0 0 .none .none).f.pred (decQ ((encQ d) : BitVec 6)) (decS ((encS a) : BitVec 6)) : Instr) = (.qPush p d a) by simp))⟩
theorem qEos (p : Pred) (d : QReg) : Statement (.qEos p d) := by
  intro w h; cases h
  exact ⟨rfl, (opc08 _ _ _ rfl).trans (congrArg some (show (.qEos (mkEnc 0x08 1 p 0 (encQ d) 0 0 0 0 .none .none).f.pred (decQ ((encQ d) : BitVec 6)) : Instr) = (.qEos p d) by simp))⟩
theorem qPop (p : Pred) (d : SReg) (a : QReg) : Statement (.qPop p d a) := by
  intro w h; cases h
  exact ⟨rfl, (opc08 _ _ _ rfl).trans (congrArg some (show (.qPop (mkEnc 0x08 2 p 0 (encS d) (encQ a) 0 0 0 .none .none).f.pred (decS ((encS d) : BitVec 6)) (decQ ((encQ a) : BitVec 6)) : Instr) = (.qPop p d a) by simp))⟩
theorem qPeek (p : Pred) (d : SReg) (a : QReg) : Statement (.qPeek p d a) := by
  intro w h; cases h
  exact ⟨rfl, (opc08 _ _ _ rfl).trans (congrArg some (show (.qPeek (mkEnc 0x08 3 p 0 (encS d) (encQ a) 0 0 0 .none .none).f.pred (decS ((encS d) : BitVec 6)) (decQ ((encQ a) : BitVec 6)) : Instr) = (.qPeek p d a) by simp))⟩
theorem qTest (p : Pred) (d : SReg) (a : QReg) : Statement (.qTest p d a) := by
  intro w h; cases h
  exact ⟨rfl, (opc08 _ _ _ rfl).trans (congrArg some (show (.qTest (mkEnc 0x08 4 p 0 (encS d) (encQ a) 0 0 0 .none .none).f.pred (decS ((encS d) : BitVec 6)) (decQ ((encQ a) : BitVec 6)) : Instr) = (.qTest p d a) by simp))⟩
theorem fetchRequestServe (vt : Nat) : Statement (.fetchRequestServe vt) := fun _ h => nomatch h
theorem add (p : Pred) (m : AluMode) (d a b : SReg) : Statement (.add p m d a b) := by
  intro w h; cases h
  exact ⟨rfl, (opc20 _ _ _ rfl).trans (congrArg some (show (.add (mkEnc 0x20 0 p (encAlu m) (encS d) (encS a) (encS b) 0 0 .none .none).f.pred (decAlu ((encAlu m) : BitVec 4)) (decS ((encS d) : BitVec 6)) (decS ((encS a) : BitVec 6)) (decS ((encS b) : BitVec 6)) : Instr) = (.add p m d a b) by simp))⟩
theorem sub (p : Pred) (m : AluMode) (d a b : SReg) : Statement (.sub p m d a b) := by
  intro w h; cases h
  exact ⟨rfl, (opc20 _ _ _ rfl).trans (congrArg some (show (.sub (mkEnc 0x20 1 p (encAlu m) (encS d) (encS a) (encS b) 0 0 .none .none).f.pred (decAlu ((encAlu m) : BitVec 4)) (decS ((encS d) : BitVec 6)) (decS ((encS a) : BitVec 6)) (decS ((encS b) : BitVec 6)) : Instr) = (.sub p m d a b) by simp))⟩
theorem addImm (p : Pred) (m : AluMode) (d a : SReg) (imm : BitVec 16) : Statement (.addImm p m d a imm) := by
  intro w h; cases h
  exact ⟨rfl, (opc20 _ _ _ rfl).trans (congrArg some (show (.addImm (mkEnc 0x20 2 p (encAlu m) (encS d) (encS a) 0 0 imm .none .none).f.pred (decAlu ((encAlu m) : BitVec 4)) (decS ((encS d) : BitVec 6)) (decS ((encS a) : BitVec 6)) (imm : BitVec 16) : Instr) = (.addImm p m d a imm) by simp))⟩
theorem addImmLong (p : Pred) (m : AluMode) (d a : SReg) (imm : BitVec 32) : Statement (.addImmLong p m d a imm) := by
  intro w h; cases h
  exact ⟨rfl, (opc20 _ _ _ rfl).trans (congrArg some (show (.addImmLong (mkEnc 0x20 2 p (encAlu m) (encS d) (encS a) 0 0 0 (.w32 imm) .none).f.pred (decAlu ((encAlu m) : BitVec 4)) (decS ((encS d) : BitVec 6)) (decS ((encS a) : BitVec 6)) (imm : BitVec 32) : Instr) = (.addImmLong p m d a imm) by simp))⟩
theorem subImm (p : Pred) (m : AluMode) (d a : SReg) (imm : BitVec 16) : Statement (.subImm p m d a imm) := by
  intro w h; cases h
  exact ⟨rfl, (opc20 _ _ _ rfl).trans (congrArg some (show (.subImm (mkEnc 0x20 3 p (encAlu m) (encS d) (encS a) 0 0 imm .none .none).f.pred (decAlu ((encAlu m) : BitVec 4)) (decS ((encS d) : BitVec 6)) (decS ((encS a) : BitVec 6)) (imm : BitVec 16) : Instr) = (.subImm p m d a imm) by simp))⟩
theorem subImmLong (p : Pred) (m : AluMode) (d a : SReg) (imm : BitVec 32) : Statement (.subImmLong p m d a imm) := by
  intro w h; cases h
  exact ⟨rfl, (opc20 _ _ _ rfl).trans (congrArg some (show (.subImmLong (mkEnc 0x20 3 p (encAlu m) (encS d) (encS a) 0 0 0 (.w32 imm) .none).f.pred (decAlu ((encAlu m) : BitVec 4)) (decS ((encS d) : BitVec 6)) (decS ((encS a) : BitVec 6)) (imm : BitVec 32) : Instr) = (.subImmLong p m d a imm) by simp))⟩
theorem mul (p : Pred) (m : AluMode) (d a b : SReg) : Statement (.mul p m d a b) := by
  intro w h; cases h
  exact ⟨rfl, (opc21 _ _ _ rfl).trans (congrArg some (show (.mul (mkEnc 0x21 0 p (encAlu m) (encS d) (encS a) (encS b) 0 0 .none .none).f.pred (decAlu ((encAlu m) : BitVec 4)) (decS ((encS d) : BitVec 6)) (decS ((encS a) : BitVec 6)) (decS ((encS b) : BitVec 6)) : Instr) = (.mul p m d a b) by simp))⟩
theorem mulh (p : Pred) (k : MulhKind) (d a b : SReg) : Statement (.mulh p k d a b) := by
  intro w h; cases h
  exact ⟨rfl, (opc21 _ _ _ rfl).trans (congrArg some (show (.mulh (mkEnc 0x21 1 p (encMulh k) (encS d) (encS a) (encS b) 0 0 .none .none).f.pred (decMulh ((encMulh k) : BitVec 4)) (decS ((encS d) : BitVec 6)) (decS ((encS a) : BitVec 6)) (decS ((encS b) : BitVec 6)) : Instr) = (.mulh p k d a b) by simp))⟩
theorem div (p : Pred) (w : Bool) (d a b : SReg) : Statement (.div p w d a b) := by
  intro w h; cases h
  exact ⟨rfl, (opc22 _ _ _ rfl).trans (congrArg some (show (.div (mkEnc 0x22 0 p (encBit w) (encS d) (encS a) (encS b) 0 0 .none .none).f.pred (((encBit w) : BitVec 4).getLsbD 0) (decS ((encS d) : BitVec 6)) (decS ((encS a) : BitVec 6)) (decS ((encS b) : BitVec 6)) : Instr) = (.div p w d a b) by simp))⟩
theorem divU (p : Pred) (w : Bool) (d a b : SReg) : Statement (.divU p w d a b) := by
  intro w h; cases h
  exact ⟨rfl, (opc22 _ _ _ rfl).trans (congrArg some (show (.divU (mkEnc 0x22 1 p (encBit w) (encS d) (encS a) (encS b) 0 0 .none .none).f.pred (((encBit w) : BitVec 4).getLsbD 0) (decS ((encS d) : BitVec 6)) (decS ((encS a) : BitVec 6)) (decS ((encS b) : BitVec 6)) : Instr) = (.divU p w d a b) by simp))⟩
theorem rem (p : Pred) (w : Bool) (d a b : SReg) : Statement (.rem p w d a b) := by
  intro w h; cases h
  exact ⟨rfl, (opc22 _ _ _ rfl).trans (congrArg some (show (.rem (mkEnc 0x22 2 p (encBit w) (encS d) (encS a) (encS b) 0 0 .none .none).f.pred (((encBit w) : BitVec 4).getLsbD 0) (decS ((encS d) : BitVec 6)) (decS ((encS a) : BitVec 6)) (decS ((encS b) : BitVec 6)) : Instr) = (.rem p w d a b) by simp))⟩
theorem remU (p : Pred) (w : Bool) (d a b : SReg) : Statement (.remU p w d a b) := by
  intro w h; cases h
  exact ⟨rfl, (opc22 _ _ _ rfl).trans (congrArg some (show (.remU (mkEnc 0x22 3 p (encBit w) (encS d) (encS a) (encS b) 0 0 .none .none).f.pred (((encBit w) : BitVec 4).getLsbD 0) (decS ((encS d) : BitVec 6)) (decS ((encS a) : BitVec 6)) (decS ((encS b) : BitVec 6)) : Instr) = (.remU p w d a b) by simp))⟩
theorem min (p : Pred) (d a b : SReg) : Statement (.min p d a b) := by
  intro w h; cases h
  exact ⟨rfl, (opc23 _ _ _ rfl).trans (congrArg some (show (.min (mkEnc 0x23 0 p 0 (encS d) (encS a) (encS b) 0 0 .none .none).f.pred (decS ((encS d) : BitVec 6)) (decS ((encS a) : BitVec 6)) (decS ((encS b) : BitVec 6)) : Instr) = (.min p d a b) by simp))⟩
theorem max (p : Pred) (d a b : SReg) : Statement (.max p d a b) := by
  intro w h; cases h
  exact ⟨rfl, (opc23 _ _ _ rfl).trans (congrArg some (show (.max (mkEnc 0x23 1 p 0 (encS d) (encS a) (encS b) 0 0 .none .none).f.pred (decS ((encS d) : BitVec 6)) (decS ((encS a) : BitVec 6)) (decS ((encS b) : BitVec 6)) : Instr) = (.max p d a b) by simp))⟩
theorem minU (p : Pred) (d a b : SReg) : Statement (.minU p d a b) := by
  intro w h; cases h
  exact ⟨rfl, (opc23 _ _ _ rfl).trans (congrArg some (show (.minU (mkEnc 0x23 2 p 0 (encS d) (encS a) (encS b) 0 0 .none .none).f.pred (decS ((encS d) : BitVec 6)) (decS ((encS a) : BitVec 6)) (decS ((encS b) : BitVec 6)) : Instr) = (.minU p d a b) by simp))⟩
theorem maxU (p : Pred) (d a b : SReg) : Statement (.maxU p d a b) := by
  intro w h; cases h
  exact ⟨rfl, (opc23 _ _ _ rfl).trans (congrArg some (show (.maxU (mkEnc 0x23 3 p 0 (encS d) (encS a) (encS b) 0 0 .none .none).f.pred (decS ((encS d) : BitVec 6)) (decS ((encS a) : BitVec 6)) (decS ((encS b) : BitVec 6)) : Instr) = (.maxU p d a b) by simp))⟩
theorem abs (p : Pred) (sat : Bool) (d a : SReg) : Statement (.abs p sat d a) := by
  intro w h; cases h
  exact ⟨rfl, (opc23 _ _ _ rfl).trans (congrArg some (show (.abs (mkEnc 0x23 4 p (encBit sat) (encS d) (encS a) 0 0 0 .none .none).f.pred (((encBit sat) : BitVec 4).getLsbD 0) (decS ((encS d) : BitVec 6)) (decS ((encS a) : BitVec 6)) : Instr) = (.abs p sat d a) by simp))⟩
theorem neg (p : Pred) (sat : Bool) (d a : SReg) : Statement (.neg p sat d a) := by
  intro w h; cases h
  exact ⟨rfl, (opc23 _ _ _ rfl).trans (congrArg some (show (.neg (mkEnc 0x23 5 p (encBit sat) (encS d) (encS a) 0 0 0 .none .none).f.pred (((encBit sat) : BitVec 4).getLsbD 0) (decS ((encS d) : BitVec 6)) (decS ((encS a) : BitVec 6)) : Instr) = (.neg p sat d a) by simp))⟩
theorem and (p : Pred) (d a b : SReg) : Statement (.and p d a b) := by
  intro w h; cases h
  exact ⟨rfl, (opc24 _ _ _ rfl).trans (congrArg some (show (.and (mkEnc 0x24 0 p 0 (encS d) (encS a) (encS b) 0 0 .none .none).f.pred (decS ((encS d) : BitVec 6)) (decS ((encS a) : BitVec 6)) (decS ((encS b) : BitVec 6)) : Instr) = (.and p d a b) by simp))⟩
theorem or (p : Pred) (d a b : SReg) : Statement (.or p d a b) := by
  intro w h; cases h
  exact ⟨rfl, (opc24 _ _ _ rfl).trans (congrArg some (show (.or (mkEnc 0x24 1 p 0 (encS d) (encS a) (encS b) 0 0 .none .none).f.pred (decS ((encS d) : BitVec 6)) (decS ((encS a) : BitVec 6)) (decS ((encS b) : BitVec 6)) : Instr) = (.or p d a b) by simp))⟩
theorem xor (p : Pred) (d a b : SReg) : Statement (.xor p d a b) := by
  intro w h; cases h
  exact ⟨rfl, (opc24 _ _ _ rfl).trans (congrArg some (show (.xor (mkEnc 0x24 2 p 0 (encS d) (encS a) (encS b) 0 0 .none .none).f.pred (decS ((encS d) : BitVec 6)) (decS ((encS a) : BitVec 6)) (decS ((encS b) : BitVec 6)) : Instr) = (.xor p d a b) by simp))⟩
theorem andn (p : Pred) (d a b : SReg) : Statement (.andn p d a b) := by
  intro w h; cases h
  exact ⟨rfl, (opc24 _ _ _ rfl).trans (congrArg some (show (.andn (mkEnc 0x24 3 p 0 (encS d) (encS a) (encS b) 0 0 .none .none).f.pred (decS ((encS d) : BitVec 6)) (decS ((encS a) : BitVec 6)) (decS ((encS b) : BitVec 6)) : Instr) = (.andn p d a b) by simp))⟩
theorem not (p : Pred) (d a : SReg) : Statement (.not p d a) := by
  intro w h; cases h
  exact ⟨rfl, (opc24 _ _ _ rfl).trans (congrArg some (show (.not (mkEnc 0x24 4 p 0 (encS d) (encS a) 0 0 0 .none .none).f.pred (decS ((encS d) : BitVec 6)) (decS ((encS a) : BitVec 6)) : Instr) = (.not p d a) by simp))⟩
theorem andImm (p : Pred) (d a : SReg) (imm : BitVec 16) : Statement (.andImm p d a imm) := by
  intro w h; cases h
  exact ⟨rfl, (opc24 _ _ _ rfl).trans (congrArg some (show (.andImm (mkEnc 0x24 5 p 0 (encS d) (encS a) 0 0 imm .none .none).f.pred (decS ((encS d) : BitVec 6)) (decS ((encS a) : BitVec 6)) (imm : BitVec 16) : Instr) = (.andImm p d a imm) by simp))⟩
theorem andImmLong (p : Pred) (d a : SReg) (imm : BitVec 32) : Statement (.andImmLong p d a imm) := by
  intro w h; cases h
  exact ⟨rfl, (opc24 _ _ _ rfl).trans (congrArg some (show (.andImmLong (mkEnc 0x24 5 p 0 (encS d) (encS a) 0 0 0 (.w32 imm) .none).f.pred (decS ((encS d) : BitVec 6)) (decS ((encS a) : BitVec 6)) (imm : BitVec 32) : Instr) = (.andImmLong p d a imm) by simp))⟩
theorem orImm (p : Pred) (d a : SReg) (imm : BitVec 16) : Statement (.orImm p d a imm) := by
  intro w h; cases h
  exact ⟨rfl, (opc24 _ _ _ rfl).trans (congrArg some (show (.orImm (mkEnc 0x24 6 p 0 (encS d) (encS a) 0 0 imm .none .none).f.pred (decS ((encS d) : BitVec 6)) (decS ((encS a) : BitVec 6)) (imm : BitVec 16) : Instr) = (.orImm p d a imm) by simp))⟩
theorem orImmLong (p : Pred) (d a : SReg) (imm : BitVec 32) : Statement (.orImmLong p d a imm) := by
  intro w h; cases h
  exact ⟨rfl, (opc24 _ _ _ rfl).trans (congrArg some (show (.orImmLong (mkEnc 0x24 6 p 0 (encS d) (encS a) 0 0 0 (.w32 imm) .none).f.pred (decS ((encS d) : BitVec 6)) (decS ((encS a) : BitVec 6)) (imm : BitVec 32) : Instr) = (.orImmLong p d a imm) by simp))⟩
theorem xorImm (p : Pred) (d a : SReg) (imm : BitVec 16) : Statement (.xorImm p d a imm) := by
  intro w h; cases h
  exact ⟨rfl, (opc24 _ _ _ rfl).trans (congrArg some (show (.xorImm (mkEnc 0x24 7 p 0 (encS d) (encS a) 0 0 imm .none .none).f.pred (decS ((encS d) : BitVec 6)) (decS ((encS a) : BitVec 6)) (imm : BitVec 16) : Instr) = (.xorImm p d a imm) by simp))⟩
theorem xorImmLong (p : Pred) (d a : SReg) (imm : BitVec 32) : Statement (.xorImmLong p d a imm) := by
  intro w h; cases h
  exact ⟨rfl, (opc24 _ _ _ rfl).trans (congrArg some (show (.xorImmLong (mkEnc 0x24 7 p 0 (encS d) (encS a) 0 0 0 (.w32 imm) .none).f.pred (decS ((encS d) : BitVec 6)) (decS ((encS a) : BitVec 6)) (imm : BitVec 32) : Instr) = (.xorImmLong p d a imm) by simp))⟩
theorem shl (p : Pred) (w : Bool) (d a b : SReg) : Statement (.shl p w d a b) := by
  intro w h; cases h
  exact ⟨rfl, (opc25 _ _ _ rfl).trans (congrArg some (show (if ((encShift w false) : BitVec 4).getLsbD 0 = false then .shl (mkEnc 0x25 0 p (encShift w false) (encS d) (encS a) (encS b) 0 0 .none .none).f.pred (((encShift w false) : BitVec 4).getLsbD 1) (decS ((encS d) : BitVec 6)) (decS ((encS a) : BitVec 6)) (decS ((encS b) : BitVec 6)) else .shlImm (mkEnc 0x25 0 p (encShift w false) (encS d) (encS a) (encS b) 0 0 .none .none).f.pred (((encShift w false) : BitVec 4).getLsbD 1) (decS ((encS d) : BitVec 6)) (decS ((encS a) : BitVec 6)) ((0 : BitVec 16).extractLsb' 0 6) : Instr) = (.shl p w d a b) by simp <;> (repeat' apply And.intro) <;> first | with_reducible exact extract_low _ _ | with_reducible exact extract_high _ _ | with_reducible exact extract_mid _ _ _))⟩
theorem shlImm (p : Pred) (w : Bool) (d a : SReg) (n : BitVec 6) : Statement (.shlImm p w d a n) := by
  intro w h; cases h
  exact ⟨rfl, (opc25 _ _ _ rfl).trans (congrArg some (show (if ((encShift w true) : BitVec 4).getLsbD 0 = false then .shl (mkEnc 0x25 0 p (encShift w true) (encS d) (encS a) 0 0 ((0 : BitVec 10) ++ n) .none .none).f.pred (((encShift w true) : BitVec 4).getLsbD 1) (decS ((encS d) : BitVec 6)) (decS ((encS a) : BitVec 6)) (decS (0 : BitVec 6)) else .shlImm (mkEnc 0x25 0 p (encShift w true) (encS d) (encS a) 0 0 ((0 : BitVec 10) ++ n) .none .none).f.pred (((encShift w true) : BitVec 4).getLsbD 1) (decS ((encS d) : BitVec 6)) (decS ((encS a) : BitVec 6)) ((((0 : BitVec 10) ++ n) : BitVec 16).extractLsb' 0 6) : Instr) = (.shlImm p w d a n) by simp <;> (repeat' apply And.intro) <;> first | with_reducible exact extract_low _ _ | with_reducible exact extract_high _ _ | with_reducible exact extract_mid _ _ _))⟩
theorem shr (p : Pred) (w : Bool) (d a b : SReg) : Statement (.shr p w d a b) := by
  intro w h; cases h
  exact ⟨rfl, (opc25 _ _ _ rfl).trans (congrArg some (show (if ((encShift w false) : BitVec 4).getLsbD 0 = false then .shr (mkEnc 0x25 1 p (encShift w false) (encS d) (encS a) (encS b) 0 0 .none .none).f.pred (((encShift w false) : BitVec 4).getLsbD 1) (decS ((encS d) : BitVec 6)) (decS ((encS a) : BitVec 6)) (decS ((encS b) : BitVec 6)) else .shrImm (mkEnc 0x25 1 p (encShift w false) (encS d) (encS a) (encS b) 0 0 .none .none).f.pred (((encShift w false) : BitVec 4).getLsbD 1) (decS ((encS d) : BitVec 6)) (decS ((encS a) : BitVec 6)) ((0 : BitVec 16).extractLsb' 0 6) : Instr) = (.shr p w d a b) by simp <;> (repeat' apply And.intro) <;> first | with_reducible exact extract_low _ _ | with_reducible exact extract_high _ _ | with_reducible exact extract_mid _ _ _))⟩
theorem shrImm (p : Pred) (w : Bool) (d a : SReg) (n : BitVec 6) : Statement (.shrImm p w d a n) := by
  intro w h; cases h
  exact ⟨rfl, (opc25 _ _ _ rfl).trans (congrArg some (show (if ((encShift w true) : BitVec 4).getLsbD 0 = false then .shr (mkEnc 0x25 1 p (encShift w true) (encS d) (encS a) 0 0 ((0 : BitVec 10) ++ n) .none .none).f.pred (((encShift w true) : BitVec 4).getLsbD 1) (decS ((encS d) : BitVec 6)) (decS ((encS a) : BitVec 6)) (decS (0 : BitVec 6)) else .shrImm (mkEnc 0x25 1 p (encShift w true) (encS d) (encS a) 0 0 ((0 : BitVec 10) ++ n) .none .none).f.pred (((encShift w true) : BitVec 4).getLsbD 1) (decS ((encS d) : BitVec 6)) (decS ((encS a) : BitVec 6)) ((((0 : BitVec 10) ++ n) : BitVec 16).extractLsb' 0 6) : Instr) = (.shrImm p w d a n) by simp <;> (repeat' apply And.intro) <;> first | with_reducible exact extract_low _ _ | with_reducible exact extract_high _ _ | with_reducible exact extract_mid _ _ _))⟩
theorem sar (p : Pred) (w : Bool) (d a b : SReg) : Statement (.sar p w d a b) := by
  intro w h; cases h
  exact ⟨rfl, (opc25 _ _ _ rfl).trans (congrArg some (show (if ((encShift w false) : BitVec 4).getLsbD 0 = false then .sar (mkEnc 0x25 2 p (encShift w false) (encS d) (encS a) (encS b) 0 0 .none .none).f.pred (((encShift w false) : BitVec 4).getLsbD 1) (decS ((encS d) : BitVec 6)) (decS ((encS a) : BitVec 6)) (decS ((encS b) : BitVec 6)) else .sarImm (mkEnc 0x25 2 p (encShift w false) (encS d) (encS a) (encS b) 0 0 .none .none).f.pred (((encShift w false) : BitVec 4).getLsbD 1) (decS ((encS d) : BitVec 6)) (decS ((encS a) : BitVec 6)) ((0 : BitVec 16).extractLsb' 0 6) : Instr) = (.sar p w d a b) by simp <;> (repeat' apply And.intro) <;> first | with_reducible exact extract_low _ _ | with_reducible exact extract_high _ _ | with_reducible exact extract_mid _ _ _))⟩
theorem sarImm (p : Pred) (w : Bool) (d a : SReg) (n : BitVec 6) : Statement (.sarImm p w d a n) := by
  intro w h; cases h
  exact ⟨rfl, (opc25 _ _ _ rfl).trans (congrArg some (show (if ((encShift w true) : BitVec 4).getLsbD 0 = false then .sar (mkEnc 0x25 2 p (encShift w true) (encS d) (encS a) 0 0 ((0 : BitVec 10) ++ n) .none .none).f.pred (((encShift w true) : BitVec 4).getLsbD 1) (decS ((encS d) : BitVec 6)) (decS ((encS a) : BitVec 6)) (decS (0 : BitVec 6)) else .sarImm (mkEnc 0x25 2 p (encShift w true) (encS d) (encS a) 0 0 ((0 : BitVec 10) ++ n) .none .none).f.pred (((encShift w true) : BitVec 4).getLsbD 1) (decS ((encS d) : BitVec 6)) (decS ((encS a) : BitVec 6)) ((((0 : BitVec 10) ++ n) : BitVec 16).extractLsb' 0 6) : Instr) = (.sarImm p w d a n) by simp <;> (repeat' apply And.intro) <;> first | with_reducible exact extract_low _ _ | with_reducible exact extract_high _ _ | with_reducible exact extract_mid _ _ _))⟩
theorem rot (p : Pred) (w : Bool) (d a b : SReg) : Statement (.rot p w d a b) := by
  intro w h; cases h
  exact ⟨rfl, (opc25 _ _ _ rfl).trans (congrArg some (show (if ((encShift w false) : BitVec 4).getLsbD 0 = false then .rot (mkEnc 0x25 3 p (encShift w false) (encS d) (encS a) (encS b) 0 0 .none .none).f.pred (((encShift w false) : BitVec 4).getLsbD 1) (decS ((encS d) : BitVec 6)) (decS ((encS a) : BitVec 6)) (decS ((encS b) : BitVec 6)) else .rotImm (mkEnc 0x25 3 p (encShift w false) (encS d) (encS a) (encS b) 0 0 .none .none).f.pred (((encShift w false) : BitVec 4).getLsbD 1) (decS ((encS d) : BitVec 6)) (decS ((encS a) : BitVec 6)) ((0 : BitVec 16).extractLsb' 0 6) : Instr) = (.rot p w d a b) by simp <;> (repeat' apply And.intro) <;> first | with_reducible exact extract_low _ _ | with_reducible exact extract_high _ _ | with_reducible exact extract_mid _ _ _))⟩
theorem rotImm (p : Pred) (w : Bool) (d a : SReg) (n : BitVec 6) : Statement (.rotImm p w d a n) := by
  intro w h; cases h
  exact ⟨rfl, (opc25 _ _ _ rfl).trans (congrArg some (show (if ((encShift w true) : BitVec 4).getLsbD 0 = false then .rot (mkEnc 0x25 3 p (encShift w true) (encS d) (encS a) 0 0 ((0 : BitVec 10) ++ n) .none .none).f.pred (((encShift w true) : BitVec 4).getLsbD 1) (decS ((encS d) : BitVec 6)) (decS ((encS a) : BitVec 6)) (decS (0 : BitVec 6)) else .rotImm (mkEnc 0x25 3 p (encShift w true) (encS d) (encS a) 0 0 ((0 : BitVec 10) ++ n) .none .none).f.pred (((encShift w true) : BitVec 4).getLsbD 1) (decS ((encS d) : BitVec 6)) (decS ((encS a) : BitVec 6)) ((((0 : BitVec 10) ++ n) : BitVec 16).extractLsb' 0 6) : Instr) = (.rotImm p w d a n) by simp <;> (repeat' apply And.intro) <;> first | with_reducible exact extract_low _ _ | with_reducible exact extract_high _ _ | with_reducible exact extract_mid _ _ _))⟩
theorem cmpP (p : Pred) (cc : Cond) (d : PReg) (a b : SReg) : Statement (.cmpP p cc d a b) := by
  intro w h; cases h
  exact ⟨rfl, (opc26 _ _ _ rfl).trans (congrArg some (show (.cmpP (mkEnc 0x26 0 p (encCond cc) (encP d) (encS a) (encS b) 0 0 .none .none).f.pred (decCond ((encCond cc) : BitVec 4)) (decP ((encP d) : BitVec 6)) (decS ((encS a) : BitVec 6)) (decS ((encS b) : BitVec 6)) : Instr) = (.cmpP p cc d a b) by simp))⟩
theorem cmpPImm (p : Pred) (cc : Cond) (d : PReg) (a : SReg) (imm : BitVec 16) : Statement (.cmpPImm p cc d a imm) := by
  intro w h; cases h
  exact ⟨rfl, (opc26 _ _ _ rfl).trans (congrArg some (show (.cmpPImm (mkEnc 0x26 1 p (encCond cc) (encP d) (encS a) 0 0 imm .none .none).f.pred (decCond ((encCond cc) : BitVec 4)) (decP ((encP d) : BitVec 6)) (decS ((encS a) : BitVec 6)) (imm : BitVec 16) : Instr) = (.cmpPImm p cc d a imm) by simp))⟩
theorem cmpPImmLong (p : Pred) (cc : Cond) (d : PReg) (a : SReg) (imm : BitVec 32) : Statement (.cmpPImmLong p cc d a imm) := by
  intro w h; cases h
  exact ⟨rfl, (opc26 _ _ _ rfl).trans (congrArg some (show (.cmpPImmLong (mkEnc 0x26 1 p (encCond cc) (encP d) (encS a) 0 0 0 (.w32 imm) .none).f.pred (decCond ((encCond cc) : BitVec 4)) (decP ((encP d) : BitVec 6)) (decS ((encS a) : BitVec 6)) (imm : BitVec 32) : Instr) = (.cmpPImmLong p cc d a imm) by simp))⟩
theorem cmpS (p : Pred) (cc : Cond) (d a b : SReg) : Statement (.cmpS p cc d a b) := by
  intro w h; cases h
  exact ⟨rfl, (opc26 _ _ _ rfl).trans (congrArg some (show (.cmpS (mkEnc 0x26 2 p (encCond cc) (encS d) (encS a) (encS b) 0 0 .none .none).f.pred (decCond ((encCond cc) : BitVec 4)) (decS ((encS d) : BitVec 6)) (decS ((encS a) : BitVec 6)) (decS ((encS b) : BitVec 6)) : Instr) = (.cmpS p cc d a b) by simp))⟩
theorem cmpSImm (p : Pred) (cc : Cond) (d a : SReg) (imm : BitVec 16) : Statement (.cmpSImm p cc d a imm) := by
  intro w h; cases h
  exact ⟨rfl, (opc26 _ _ _ rfl).trans (congrArg some (show (.cmpSImm (mkEnc 0x26 3 p (encCond cc) (encS d) (encS a) 0 0 imm .none .none).f.pred (decCond ((encCond cc) : BitVec 4)) (decS ((encS d) : BitVec 6)) (decS ((encS a) : BitVec 6)) (imm : BitVec 16) : Instr) = (.cmpSImm p cc d a imm) by simp))⟩
theorem cmpSImmLong (p : Pred) (cc : Cond) (d a : SReg) (imm : BitVec 32) : Statement (.cmpSImmLong p cc d a imm) := by
  intro w h; cases h
  exact ⟨rfl, (opc26 _ _ _ rfl).trans (congrArg some (show (.cmpSImmLong (mkEnc 0x26 3 p (encCond cc) (encS d) (encS a) 0 0 0 (.w32 imm) .none).f.pred (decCond ((encCond cc) : BitVec 4)) (decS ((encS d) : BitVec 6)) (decS ((encS a) : BitVec 6)) (imm : BitVec 32) : Instr) = (.cmpSImmLong p cc d a imm) by simp))⟩
theorem selP (p : Pred) (d a b : SReg) (c : PReg) : Statement (.selP p d a b c) := by
  intro w h; cases h
  exact ⟨rfl, (opc27 _ _ _ rfl).trans (congrArg some (show (.selP (mkEnc 0x27 0 p 0 (encS d) (encS a) (encS b) (encP c) 0 .none .none).f.pred (decS ((encS d) : BitVec 6)) (decS ((encS a) : BitVec 6)) (decS ((encS b) : BitVec 6)) (decP ((encP c) : BitVec 6)) : Instr) = (.selP p d a b c) by simp))⟩
theorem selS (p : Pred) (d a b c : SReg) : Statement (.selS p d a b c) := by
  intro w h; cases h
  exact ⟨rfl, (opc27 _ _ _ rfl).trans (congrArg some (show (.selS (mkEnc 0x27 1 p 0 (encS d) (encS a) (encS b) (encS c) 0 .none .none).f.pred (decS ((encS d) : BitVec 6)) (decS ((encS a) : BitVec 6)) (decS ((encS b) : BitVec 6)) (decS ((encS c) : BitVec 6)) : Instr) = (.selS p d a b c) by simp))⟩
theorem bfX (p : Pred) (sgn : Bool) (d a : SReg) (pos lenm1 : BitVec 6) : Statement (.bfX p sgn d a pos lenm1) := by
  intro w h; cases h
  exact ⟨rfl, (opc28 _ _ _ rfl).trans (congrArg some (show (.bfX (mkEnc 0x28 0 p (encBit sgn) (encS d) (encS a) 0 0 ((0 : BitVec 4) ++ lenm1 ++ pos) .none .none).f.pred (((encBit sgn) : BitVec 4).getLsbD 0) (decS ((encS d) : BitVec 6)) (decS ((encS a) : BitVec 6)) ((((0 : BitVec 4) ++ lenm1 ++ pos) : BitVec 16).extractLsb' 0 6) ((((0 : BitVec 4) ++ lenm1 ++ pos) : BitVec 16).extractLsb' 6 6) : Instr) = (.bfX p sgn d a pos lenm1) by simp <;> (repeat' apply And.intro) <;> first | with_reducible exact extract_low _ _ | with_reducible exact extract_high _ _ | with_reducible exact extract_mid _ _ _))⟩
theorem bfI (p : Pred) (d a : SReg) (pos lenm1 : BitVec 6) : Statement (.bfI p d a pos lenm1) := by
  intro w h; cases h
  exact ⟨rfl, (opc28 _ _ _ rfl).trans (congrArg some (show (.bfI (mkEnc 0x28 1 p 0 (encS d) (encS a) 0 0 ((0 : BitVec 4) ++ lenm1 ++ pos) .none .none).f.pred (decS ((encS d) : BitVec 6)) (decS ((encS a) : BitVec 6)) ((((0 : BitVec 4) ++ lenm1 ++ pos) : BitVec 16).extractLsb' 0 6) ((((0 : BitVec 4) ++ lenm1 ++ pos) : BitVec 16).extractLsb' 6 6) : Instr) = (.bfI p d a pos lenm1) by simp <;> (repeat' apply And.intro) <;> first | with_reducible exact extract_low _ _ | with_reducible exact extract_high _ _ | with_reducible exact extract_mid _ _ _))⟩
theorem clz (p : Pred) (w : Bool) (d a : SReg) : Statement (.clz p w d a) := by
  intro w h; cases h
  exact ⟨rfl, (opc28 _ _ _ rfl).trans (congrArg some (show (.clz (mkEnc 0x28 2 p (encBit w) (encS d) (encS a) 0 0 0 .none .none).f.pred (((encBit w) : BitVec 4).getLsbD 0) (decS ((encS d) : BitVec 6)) (decS ((encS a) : BitVec 6)) : Instr) = (.clz p w d a) by simp))⟩
theorem ctz (p : Pred) (w : Bool) (d a : SReg) : Statement (.ctz p w d a) := by
  intro w h; cases h
  exact ⟨rfl, (opc28 _ _ _ rfl).trans (congrArg some (show (.ctz (mkEnc 0x28 3 p (encBit w) (encS d) (encS a) 0 0 0 .none .none).f.pred (((encBit w) : BitVec 4).getLsbD 0) (decS ((encS d) : BitVec 6)) (decS ((encS a) : BitVec 6)) : Instr) = (.ctz p w d a) by simp))⟩
theorem popc (p : Pred) (w : Bool) (d a : SReg) : Statement (.popc p w d a) := by
  intro w h; cases h
  exact ⟨rfl, (opc28 _ _ _ rfl).trans (congrArg some (show (.popc (mkEnc 0x28 4 p (encBit w) (encS d) (encS a) 0 0 0 .none .none).f.pred (((encBit w) : BitVec 4).getLsbD 0) (decS ((encS d) : BitVec 6)) (decS ((encS a) : BitVec 6)) : Instr) = (.popc p w d a) by simp))⟩
theorem lea (p : Pred) (sh : BitVec 3) (d a b : SReg) (disp : BitVec 16) : Statement (.lea p sh d a b disp) := by
  intro w h; cases h
  exact ⟨rfl, (opc29 _ _ _ rfl).trans (congrArg some (show (.lea (mkEnc 0x29 0 p ((0 : BitVec 1) ++ sh) (encS d) (encS a) (encS b) 0 disp .none .none).f.pred ((((0 : BitVec 1) ++ sh) : BitVec 4).extractLsb' 0 3) (decS ((encS d) : BitVec 6)) (decS ((encS a) : BitVec 6)) (decS ((encS b) : BitVec 6)) (disp : BitVec 16) : Instr) = (.lea p sh d a b disp) by simp <;> (repeat' apply And.intro) <;> first | with_reducible exact extract_low _ _ | with_reducible exact extract_high _ _ | with_reducible exact extract_mid _ _ _))⟩
theorem leaLong (p : Pred) (sh : BitVec 3) (d a b : SReg) (disp : BitVec 32) : Statement (.leaLong p sh d a b disp) := by
  intro w h; cases h
  exact ⟨rfl, (opc29 _ _ _ rfl).trans (congrArg some (show (.leaLong (mkEnc 0x29 0 p ((0 : BitVec 1) ++ sh) (encS d) (encS a) (encS b) 0 0 (.w32 disp) .none).f.pred ((((0 : BitVec 1) ++ sh) : BitVec 4).extractLsb' 0 3) (decS ((encS d) : BitVec 6)) (decS ((encS a) : BitVec 6)) (decS ((encS b) : BitVec 6)) (disp : BitVec 32) : Instr) = (.leaLong p sh d a b disp) by simp <;> (repeat' apply And.intro) <;> first | with_reducible exact extract_low _ _ | with_reducible exact extract_high _ _ | with_reducible exact extract_mid _ _ _))⟩
theorem leaPc (p : Pred) (d : SReg) (off : BitVec 32) : Statement (.leaPc p d off) := by
  intro w h; cases h
  exact ⟨rfl, (opc29 _ _ _ rfl).trans (congrArg some (show (.leaPc (mkEnc 0x29 1 p 0 (encS d) 0 0 0 0 (.w32 off) .none).f.pred (decS ((encS d) : BitVec 6)) (off : BitVec 32) : Instr) = (.leaPc p d off) by simp))⟩
theorem li (p : Pred) (d : SReg) (imm : BitVec 32) : Statement (.li p d imm) := by
  intro w h; cases h
  exact ⟨rfl, (opc2C _ _ _ rfl).trans (congrArg some (show (.li (mkEnc 0x2C 0 p 0 (encS d) 0 0 0 0 (.w32 imm) .none).f.pred (decS ((encS d) : BitVec 6)) (imm : BitVec 32) : Instr) = (.li p d imm) by simp))⟩
theorem liLong (p : Pred) (d : SReg) (imm : BitVec 64) : Statement (.liLong p d imm) := by
  intro w h; cases h
  exact ⟨rfl, (opc2C _ _ _ rfl).trans (congrArg some (show (.liLong (mkEnc 0x2C 0 p 0 (encS d) 0 0 0 0 (.w64 imm) .none).f.pred (decS ((encS d) : BitVec 6)) (imm : BitVec 64) : Instr) = (.liLong p d imm) by simp))⟩
theorem pAnd (p : Pred) (d a b : PReg) : Statement (.pAnd p d a b) := by
  intro w h; cases h
  exact ⟨rfl, (opc2A _ _ _ rfl).trans (congrArg some (show (.pAnd (mkEnc 0x2A 0 p 0 (encP d) (encP a) (encP b) 0 0 .none .none).f.pred (decP ((encP d) : BitVec 6)) (decP ((encP a) : BitVec 6)) (decP ((encP b) : BitVec 6)) : Instr) = (.pAnd p d a b) by simp))⟩
theorem pOr (p : Pred) (d a b : PReg) : Statement (.pOr p d a b) := by
  intro w h; cases h
  exact ⟨rfl, (opc2A _ _ _ rfl).trans (congrArg some (show (.pOr (mkEnc 0x2A 1 p 0 (encP d) (encP a) (encP b) 0 0 .none .none).f.pred (decP ((encP d) : BitVec 6)) (decP ((encP a) : BitVec 6)) (decP ((encP b) : BitVec 6)) : Instr) = (.pOr p d a b) by simp))⟩
theorem pXor (p : Pred) (d a b : PReg) : Statement (.pXor p d a b) := by
  intro w h; cases h
  exact ⟨rfl, (opc2A _ _ _ rfl).trans (congrArg some (show (.pXor (mkEnc 0x2A 2 p 0 (encP d) (encP a) (encP b) 0 0 .none .none).f.pred (decP ((encP d) : BitVec 6)) (decP ((encP a) : BitVec 6)) (decP ((encP b) : BitVec 6)) : Instr) = (.pXor p d a b) by simp))⟩
theorem pNot (p : Pred) (d a : PReg) : Statement (.pNot p d a) := by
  intro w h; cases h
  exact ⟨rfl, (opc2A _ _ _ rfl).trans (congrArg some (show (.pNot (mkEnc 0x2A 3 p 0 (encP d) (encP a) 0 0 0 .none .none).f.pred (decP ((encP d) : BitVec 6)) (decP ((encP a) : BitVec 6)) : Instr) = (.pNot p d a) by simp))⟩
theorem pMov (p : Pred) (d a : PReg) : Statement (.pMov p d a) := by
  intro w h; cases h
  exact ⟨rfl, (opc2A _ _ _ rfl).trans (congrArg some (show (.pMov (mkEnc 0x2A 4 p 0 (encP d) (encP a) 0 0 0 .none .none).f.pred (decP ((encP d) : BitVec 6)) (decP ((encP a) : BitVec 6)) : Instr) = (.pMov p d a) by simp))⟩
theorem pMovFromScalar (p : Pred) (d : PReg) (a : SReg) : Statement (.pMovFromScalar p d a) := by
  intro w h; cases h
  exact ⟨rfl, (opc2A _ _ _ rfl).trans (congrArg some (show (.pMovFromScalar (mkEnc 0x2A 5 p 0 (encP d) (encS a) 0 0 0 .none .none).f.pred (decP ((encP d) : BitVec 6)) (decS ((encS a) : BitVec 6)) : Instr) = (.pMovFromScalar p d a) by simp))⟩
theorem pMovToScalar (p : Pred) (d : SReg) (a : PReg) : Statement (.pMovToScalar p d a) := by
  intro w h; cases h
  exact ⟨rfl, (opc2A _ _ _ rfl).trans (congrArg some (show (.pMovToScalar (mkEnc 0x2A 6 p 0 (encS d) (encP a) 0 0 0 .none .none).f.pred (decS ((encS d) : BitVec 6)) (decP ((encP a) : BitVec 6)) : Instr) = (.pMovToScalar p d a) by simp))⟩
theorem csrRd (p : Pred) (d : SReg) (n : BitVec 12) : Statement (.csrRd p d n) := by
  intro w h; cases h
  exact ⟨rfl, (opc2B _ _ _ rfl).trans (congrArg some (show (.csrRd (mkEnc 0x2B 0 p 0 (encS d) 0 0 0 ((0 : BitVec 4) ++ n) .none .none).f.pred (decS ((encS d) : BitVec 6)) ((((0 : BitVec 4) ++ n) : BitVec 16).extractLsb' 0 12) : Instr) = (.csrRd p d n) by simp <;> (repeat' apply And.intro) <;> first | with_reducible exact extract_low _ _ | with_reducible exact extract_high _ _ | with_reducible exact extract_mid _ _ _))⟩
theorem csrWr (p : Pred) (d a : SReg) (n : BitVec 12) : Statement (.csrWr p d a n) := by
  intro w h; cases h
  exact ⟨rfl, (opc2B _ _ _ rfl).trans (congrArg some (show (.csrWr (mkEnc 0x2B 1 p 0 (encS d) (encS a) 0 0 ((0 : BitVec 4) ++ n) .none .none).f.pred (decS ((encS d) : BitVec 6)) (decS ((encS a) : BitVec 6)) ((((0 : BitVec 4) ++ n) : BitVec 16).extractLsb' 0 12) : Instr) = (.csrWr p d a n) by simp <;> (repeat' apply And.intro) <;> first | with_reducible exact extract_low _ _ | with_reducible exact extract_high _ _ | with_reducible exact extract_mid _ _ _))⟩
theorem csrSet (p : Pred) (d a : SReg) (n : BitVec 12) : Statement (.csrSet p d a n) := by
  intro w h; cases h
  exact ⟨rfl, (opc2B _ _ _ rfl).trans (congrArg some (show (.csrSet (mkEnc 0x2B 2 p 0 (encS d) (encS a) 0 0 ((0 : BitVec 4) ++ n) .none .none).f.pred (decS ((encS d) : BitVec 6)) (decS ((encS a) : BitVec 6)) ((((0 : BitVec 4) ++ n) : BitVec 16).extractLsb' 0 12) : Instr) = (.csrSet p d a n) by simp <;> (repeat' apply And.intro) <;> first | with_reducible exact extract_low _ _ | with_reducible exact extract_high _ _ | with_reducible exact extract_mid _ _ _))⟩
theorem csrClr (p : Pred) (d a : SReg) (n : BitVec 12) : Statement (.csrClr p d a n) := by
  intro w h; cases h
  exact ⟨rfl, (opc2B _ _ _ rfl).trans (congrArg some (show (.csrClr (mkEnc 0x2B 3 p 0 (encS d) (encS a) 0 0 ((0 : BitVec 4) ++ n) .none .none).f.pred (decS ((encS d) : BitVec 6)) (decS ((encS a) : BitVec 6)) ((((0 : BitVec 4) ++ n) : BitVec 16).extractLsb' 0 12) : Instr) = (.csrClr p d a n) by simp <;> (repeat' apply And.intro) <;> first | with_reducible exact extract_low _ _ | with_reducible exact extract_high _ _ | with_reducible exact extract_mid _ _ _))⟩
theorem vAdd (p : Pred) (e : VWidth) (m : VMode) (d a b : VReg) : Statement (.vAdd p e m d a b) := by
  intro w h; cases h
  exact ⟨rfl, (opc50 _ _ _ rfl).trans (congrArg some (show (.vAdd (mkEnc 0x50 0 p (encVw e ++ encVm m) (encV d) (encV a) (encV b) 0 0 .none .none).f.pred (decVw (((encVw e ++ encVm m) : BitVec 4).extractLsb' 2 2)) (decVm (((encVw e ++ encVm m) : BitVec 4).extractLsb' 0 2)) (decV ((encV d) : BitVec 6)) (decV ((encV a) : BitVec 6)) (decV ((encV b) : BitVec 6)) : Instr) = (.vAdd p e m d a b) by simp <;> (repeat' apply And.intro) <;> first | with_reducible exact decVw_high _ _ | with_reducible exact decVm_low _ _))⟩
theorem vSub (p : Pred) (e : VWidth) (m : VMode) (d a b : VReg) : Statement (.vSub p e m d a b) := by
  intro w h; cases h
  exact ⟨rfl, (opc50 _ _ _ rfl).trans (congrArg some (show (.vSub (mkEnc 0x50 1 p (encVw e ++ encVm m) (encV d) (encV a) (encV b) 0 0 .none .none).f.pred (decVw (((encVw e ++ encVm m) : BitVec 4).extractLsb' 2 2)) (decVm (((encVw e ++ encVm m) : BitVec 4).extractLsb' 0 2)) (decV ((encV d) : BitVec 6)) (decV ((encV a) : BitVec 6)) (decV ((encV b) : BitVec 6)) : Instr) = (.vSub p e m d a b) by simp <;> (repeat' apply And.intro) <;> first | with_reducible exact decVw_high _ _ | with_reducible exact decVm_low _ _))⟩
theorem vMul (p : Pred) (e : VWidth) (m : VMode) (d a b : VReg) : Statement (.vMul p e m d a b) := by
  intro w h; cases h
  exact ⟨rfl, (opc50 _ _ _ rfl).trans (congrArg some (show (.vMul (mkEnc 0x50 2 p (encVw e ++ encVm m) (encV d) (encV a) (encV b) 0 0 .none .none).f.pred (decVw (((encVw e ++ encVm m) : BitVec 4).extractLsb' 2 2)) (decVm (((encVw e ++ encVm m) : BitVec 4).extractLsb' 0 2)) (decV ((encV d) : BitVec 6)) (decV ((encV a) : BitVec 6)) (decV ((encV b) : BitVec 6)) : Instr) = (.vMul p e m d a b) by simp <;> (repeat' apply And.intro) <;> first | with_reducible exact decVw_high _ _ | with_reducible exact decVm_low _ _))⟩
theorem vMulh (p : Pred) (e : VWidth) (m : VMode) (d a b : VReg) : Statement (.vMulh p e m d a b) := by
  intro w h; cases h
  exact ⟨rfl, (opc50 _ _ _ rfl).trans (congrArg some (show (.vMulh (mkEnc 0x50 3 p (encVw e ++ encVm m) (encV d) (encV a) (encV b) 0 0 .none .none).f.pred (decVw (((encVw e ++ encVm m) : BitVec 4).extractLsb' 2 2)) (decVm (((encVw e ++ encVm m) : BitVec 4).extractLsb' 0 2)) (decV ((encV d) : BitVec 6)) (decV ((encV a) : BitVec 6)) (decV ((encV b) : BitVec 6)) : Instr) = (.vMulh p e m d a b) by simp <;> (repeat' apply And.intro) <;> first | with_reducible exact decVw_high _ _ | with_reducible exact decVm_low _ _))⟩
theorem vMac (p : Pred) (e : VWidth) (m : VMode) (d a b : VReg) : Statement (.vMac p e m d a b) := by
  intro w h; cases h
  exact ⟨rfl, (opc50 _ _ _ rfl).trans (congrArg some (show (.vMac (mkEnc 0x50 4 p (encVw e ++ encVm m) (encV d) (encV a) (encV b) 0 0 .none .none).f.pred (decVw (((encVw e ++ encVm m) : BitVec 4).extractLsb' 2 2)) (decVm (((encVw e ++ encVm m) : BitVec 4).extractLsb' 0 2)) (decV ((encV d) : BitVec 6)) (decV ((encV a) : BitVec 6)) (decV ((encV b) : BitVec 6)) : Instr) = (.vMac p e m d a b) by simp <;> (repeat' apply And.intro) <;> first | with_reducible exact decVw_high _ _ | with_reducible exact decVm_low _ _))⟩
theorem vMin (p : Pred) (e : VWidth) (m : VMode) (d a b : VReg) : Statement (.vMin p e m d a b) := by
  intro w h; cases h
  exact ⟨rfl, (opc50 _ _ _ rfl).trans (congrArg some (show (.vMin (mkEnc 0x50 5 p (encVw e ++ encVm m) (encV d) (encV a) (encV b) 0 0 .none .none).f.pred (decVw (((encVw e ++ encVm m) : BitVec 4).extractLsb' 2 2)) (decVm (((encVw e ++ encVm m) : BitVec 4).extractLsb' 0 2)) (decV ((encV d) : BitVec 6)) (decV ((encV a) : BitVec 6)) (decV ((encV b) : BitVec 6)) : Instr) = (.vMin p e m d a b) by simp <;> (repeat' apply And.intro) <;> first | with_reducible exact decVw_high _ _ | with_reducible exact decVm_low _ _))⟩
theorem vMax (p : Pred) (e : VWidth) (m : VMode) (d a b : VReg) : Statement (.vMax p e m d a b) := by
  intro w h; cases h
  exact ⟨rfl, (opc50 _ _ _ rfl).trans (congrArg some (show (.vMax (mkEnc 0x50 6 p (encVw e ++ encVm m) (encV d) (encV a) (encV b) 0 0 .none .none).f.pred (decVw (((encVw e ++ encVm m) : BitVec 4).extractLsb' 2 2)) (decVm (((encVw e ++ encVm m) : BitVec 4).extractLsb' 0 2)) (decV ((encV d) : BitVec 6)) (decV ((encV a) : BitVec 6)) (decV ((encV b) : BitVec 6)) : Instr) = (.vMax p e m d a b) by simp <;> (repeat' apply And.intro) <;> first | with_reducible exact decVw_high _ _ | with_reducible exact decVm_low _ _))⟩
theorem vAbs (p : Pred) (e : VWidth) (m : VMode) (d a : VReg) : Statement (.vAbs p e m d a) := by
  intro w h; cases h
  exact ⟨rfl, (opc50 _ _ _ rfl).trans (congrArg some (show (.vAbs (mkEnc 0x50 7 p (encVw e ++ encVm m) (encV d) (encV a) 0 0 0 .none .none).f.pred (decVw (((encVw e ++ encVm m) : BitVec 4).extractLsb' 2 2)) (decVm (((encVw e ++ encVm m) : BitVec 4).extractLsb' 0 2)) (decV ((encV d) : BitVec 6)) (decV ((encV a) : BitVec 6)) : Instr) = (.vAbs p e m d a) by simp <;> (repeat' apply And.intro) <;> first | with_reducible exact decVw_high _ _ | with_reducible exact decVm_low _ _))⟩
theorem vNeg (p : Pred) (e : VWidth) (m : VMode) (d a : VReg) : Statement (.vNeg p e m d a) := by
  intro w h; cases h
  exact ⟨rfl, (opc50 _ _ _ rfl).trans (congrArg some (show (.vNeg (mkEnc 0x50 8 p (encVw e ++ encVm m) (encV d) (encV a) 0 0 0 .none .none).f.pred (decVw (((encVw e ++ encVm m) : BitVec 4).extractLsb' 2 2)) (decVm (((encVw e ++ encVm m) : BitVec 4).extractLsb' 0 2)) (decV ((encV d) : BitVec 6)) (decV ((encV a) : BitVec 6)) : Instr) = (.vNeg p e m d a) by simp <;> (repeat' apply And.intro) <;> first | with_reducible exact decVw_high _ _ | with_reducible exact decVm_low _ _))⟩
theorem vAddScalar (p : Pred) (e : VWidth) (m : VMode) (d a : VReg) (b : SReg) : Statement (.vAddScalar p e m d a b) := by
  intro w h; cases h
  exact ⟨rfl, (opc51 _ _ _ rfl).trans (congrArg some (show (.vAddScalar (mkEnc 0x51 0 p (encVw e ++ encVm m) (encV d) (encV a) (encS b) 0 0 .none .none).f.pred (decVw (((encVw e ++ encVm m) : BitVec 4).extractLsb' 2 2)) (decVm (((encVw e ++ encVm m) : BitVec 4).extractLsb' 0 2)) (decV ((encV d) : BitVec 6)) (decV ((encV a) : BitVec 6)) (decS ((encS b) : BitVec 6)) : Instr) = (.vAddScalar p e m d a b) by simp <;> (repeat' apply And.intro) <;> first | with_reducible exact decVw_high _ _ | with_reducible exact decVm_low _ _))⟩
theorem vSubScalar (p : Pred) (e : VWidth) (m : VMode) (d a : VReg) (b : SReg) : Statement (.vSubScalar p e m d a b) := by
  intro w h; cases h
  exact ⟨rfl, (opc51 _ _ _ rfl).trans (congrArg some (show (.vSubScalar (mkEnc 0x51 1 p (encVw e ++ encVm m) (encV d) (encV a) (encS b) 0 0 .none .none).f.pred (decVw (((encVw e ++ encVm m) : BitVec 4).extractLsb' 2 2)) (decVm (((encVw e ++ encVm m) : BitVec 4).extractLsb' 0 2)) (decV ((encV d) : BitVec 6)) (decV ((encV a) : BitVec 6)) (decS ((encS b) : BitVec 6)) : Instr) = (.vSubScalar p e m d a b) by simp <;> (repeat' apply And.intro) <;> first | with_reducible exact decVw_high _ _ | with_reducible exact decVm_low _ _))⟩
theorem vMulScalar (p : Pred) (e : VWidth) (m : VMode) (d a : VReg) (b : SReg) : Statement (.vMulScalar p e m d a b) := by
  intro w h; cases h
  exact ⟨rfl, (opc51 _ _ _ rfl).trans (congrArg some (show (.vMulScalar (mkEnc 0x51 2 p (encVw e ++ encVm m) (encV d) (encV a) (encS b) 0 0 .none .none).f.pred (decVw (((encVw e ++ encVm m) : BitVec 4).extractLsb' 2 2)) (decVm (((encVw e ++ encVm m) : BitVec 4).extractLsb' 0 2)) (decV ((encV d) : BitVec 6)) (decV ((encV a) : BitVec 6)) (decS ((encS b) : BitVec 6)) : Instr) = (.vMulScalar p e m d a b) by simp <;> (repeat' apply And.intro) <;> first | with_reducible exact decVw_high _ _ | with_reducible exact decVm_low _ _))⟩
theorem vMulhScalar (p : Pred) (e : VWidth) (m : VMode) (d a : VReg) (b : SReg) : Statement (.vMulhScalar p e m d a b) := by
  intro w h; cases h
  exact ⟨rfl, (opc51 _ _ _ rfl).trans (congrArg some (show (.vMulhScalar (mkEnc 0x51 3 p (encVw e ++ encVm m) (encV d) (encV a) (encS b) 0 0 .none .none).f.pred (decVw (((encVw e ++ encVm m) : BitVec 4).extractLsb' 2 2)) (decVm (((encVw e ++ encVm m) : BitVec 4).extractLsb' 0 2)) (decV ((encV d) : BitVec 6)) (decV ((encV a) : BitVec 6)) (decS ((encS b) : BitVec 6)) : Instr) = (.vMulhScalar p e m d a b) by simp <;> (repeat' apply And.intro) <;> first | with_reducible exact decVw_high _ _ | with_reducible exact decVm_low _ _))⟩
theorem vMacScalar (p : Pred) (e : VWidth) (m : VMode) (d a : VReg) (b : SReg) : Statement (.vMacScalar p e m d a b) := by
  intro w h; cases h
  exact ⟨rfl, (opc51 _ _ _ rfl).trans (congrArg some (show (.vMacScalar (mkEnc 0x51 4 p (encVw e ++ encVm m) (encV d) (encV a) (encS b) 0 0 .none .none).f.pred (decVw (((encVw e ++ encVm m) : BitVec 4).extractLsb' 2 2)) (decVm (((encVw e ++ encVm m) : BitVec 4).extractLsb' 0 2)) (decV ((encV d) : BitVec 6)) (decV ((encV a) : BitVec 6)) (decS ((encS b) : BitVec 6)) : Instr) = (.vMacScalar p e m d a b) by simp <;> (repeat' apply And.intro) <;> first | with_reducible exact decVw_high _ _ | with_reducible exact decVm_low _ _))⟩
theorem vMinScalar (p : Pred) (e : VWidth) (m : VMode) (d a : VReg) (b : SReg) : Statement (.vMinScalar p e m d a b) := by
  intro w h; cases h
  exact ⟨rfl, (opc51 _ _ _ rfl).trans (congrArg some (show (.vMinScalar (mkEnc 0x51 5 p (encVw e ++ encVm m) (encV d) (encV a) (encS b) 0 0 .none .none).f.pred (decVw (((encVw e ++ encVm m) : BitVec 4).extractLsb' 2 2)) (decVm (((encVw e ++ encVm m) : BitVec 4).extractLsb' 0 2)) (decV ((encV d) : BitVec 6)) (decV ((encV a) : BitVec 6)) (decS ((encS b) : BitVec 6)) : Instr) = (.vMinScalar p e m d a b) by simp <;> (repeat' apply And.intro) <;> first | with_reducible exact decVw_high _ _ | with_reducible exact decVm_low _ _))⟩
theorem vMaxScalar (p : Pred) (e : VWidth) (m : VMode) (d a : VReg) (b : SReg) : Statement (.vMaxScalar p e m d a b) := by
  intro w h; cases h
  exact ⟨rfl, (opc51 _ _ _ rfl).trans (congrArg some (show (.vMaxScalar (mkEnc 0x51 6 p (encVw e ++ encVm m) (encV d) (encV a) (encS b) 0 0 .none .none).f.pred (decVw (((encVw e ++ encVm m) : BitVec 4).extractLsb' 2 2)) (decVm (((encVw e ++ encVm m) : BitVec 4).extractLsb' 0 2)) (decV ((encV d) : BitVec 6)) (decV ((encV a) : BitVec 6)) (decS ((encS b) : BitVec 6)) : Instr) = (.vMaxScalar p e m d a b) by simp <;> (repeat' apply And.intro) <;> first | with_reducible exact decVw_high _ _ | with_reducible exact decVm_low _ _))⟩
theorem vAddImm (p : Pred) (e : VWidth) (m : VMode) (d a : VReg) (imm : BitVec 16) : Statement (.vAddImm p e m d a imm) := by
  intro w h; cases h
  exact ⟨rfl, (opc52 _ _ _ rfl).trans (congrArg some (show (.vAddImm (mkEnc 0x52 0 p (encVw e ++ encVm m) (encV d) (encV a) 0 0 imm .none .none).f.pred (decVw (((encVw e ++ encVm m) : BitVec 4).extractLsb' 2 2)) (decVm (((encVw e ++ encVm m) : BitVec 4).extractLsb' 0 2)) (decV ((encV d) : BitVec 6)) (decV ((encV a) : BitVec 6)) (imm : BitVec 16) : Instr) = (.vAddImm p e m d a imm) by simp <;> (repeat' apply And.intro) <;> first | with_reducible exact decVw_high _ _ | with_reducible exact decVm_low _ _))⟩
theorem vAddImmLong (p : Pred) (e : VWidth) (m : VMode) (d a : VReg) (imm : BitVec 32) : Statement (.vAddImmLong p e m d a imm) := by
  intro w h; cases h
  exact ⟨rfl, (opc52 _ _ _ rfl).trans (congrArg some (show (.vAddImmLong (mkEnc 0x52 0 p (encVw e ++ encVm m) (encV d) (encV a) 0 0 0 (.w32 imm) .none).f.pred (decVw (((encVw e ++ encVm m) : BitVec 4).extractLsb' 2 2)) (decVm (((encVw e ++ encVm m) : BitVec 4).extractLsb' 0 2)) (decV ((encV d) : BitVec 6)) (decV ((encV a) : BitVec 6)) (imm : BitVec 32) : Instr) = (.vAddImmLong p e m d a imm) by simp <;> (repeat' apply And.intro) <;> first | with_reducible exact decVw_high _ _ | with_reducible exact decVm_low _ _))⟩
theorem vSubImm (p : Pred) (e : VWidth) (m : VMode) (d a : VReg) (imm : BitVec 16) : Statement (.vSubImm p e m d a imm) := by
  intro w h; cases h
  exact ⟨rfl, (opc52 _ _ _ rfl).trans (congrArg some (show (.vSubImm (mkEnc 0x52 1 p (encVw e ++ encVm m) (encV d) (encV a) 0 0 imm .none .none).f.pred (decVw (((encVw e ++ encVm m) : BitVec 4).extractLsb' 2 2)) (decVm (((encVw e ++ encVm m) : BitVec 4).extractLsb' 0 2)) (decV ((encV d) : BitVec 6)) (decV ((encV a) : BitVec 6)) (imm : BitVec 16) : Instr) = (.vSubImm p e m d a imm) by simp <;> (repeat' apply And.intro) <;> first | with_reducible exact decVw_high _ _ | with_reducible exact decVm_low _ _))⟩
theorem vSubImmLong (p : Pred) (e : VWidth) (m : VMode) (d a : VReg) (imm : BitVec 32) : Statement (.vSubImmLong p e m d a imm) := by
  intro w h; cases h
  exact ⟨rfl, (opc52 _ _ _ rfl).trans (congrArg some (show (.vSubImmLong (mkEnc 0x52 1 p (encVw e ++ encVm m) (encV d) (encV a) 0 0 0 (.w32 imm) .none).f.pred (decVw (((encVw e ++ encVm m) : BitVec 4).extractLsb' 2 2)) (decVm (((encVw e ++ encVm m) : BitVec 4).extractLsb' 0 2)) (decV ((encV d) : BitVec 6)) (decV ((encV a) : BitVec 6)) (imm : BitVec 32) : Instr) = (.vSubImmLong p e m d a imm) by simp <;> (repeat' apply And.intro) <;> first | with_reducible exact decVw_high _ _ | with_reducible exact decVm_low _ _))⟩
theorem vMulImm (p : Pred) (e : VWidth) (m : VMode) (d a : VReg) (imm : BitVec 16) : Statement (.vMulImm p e m d a imm) := by
  intro w h; cases h
  exact ⟨rfl, (opc52 _ _ _ rfl).trans (congrArg some (show (.vMulImm (mkEnc 0x52 2 p (encVw e ++ encVm m) (encV d) (encV a) 0 0 imm .none .none).f.pred (decVw (((encVw e ++ encVm m) : BitVec 4).extractLsb' 2 2)) (decVm (((encVw e ++ encVm m) : BitVec 4).extractLsb' 0 2)) (decV ((encV d) : BitVec 6)) (decV ((encV a) : BitVec 6)) (imm : BitVec 16) : Instr) = (.vMulImm p e m d a imm) by simp <;> (repeat' apply And.intro) <;> first | with_reducible exact decVw_high _ _ | with_reducible exact decVm_low _ _))⟩
theorem vMulImmLong (p : Pred) (e : VWidth) (m : VMode) (d a : VReg) (imm : BitVec 32) : Statement (.vMulImmLong p e m d a imm) := by
  intro w h; cases h
  exact ⟨rfl, (opc52 _ _ _ rfl).trans (congrArg some (show (.vMulImmLong (mkEnc 0x52 2 p (encVw e ++ encVm m) (encV d) (encV a) 0 0 0 (.w32 imm) .none).f.pred (decVw (((encVw e ++ encVm m) : BitVec 4).extractLsb' 2 2)) (decVm (((encVw e ++ encVm m) : BitVec 4).extractLsb' 0 2)) (decV ((encV d) : BitVec 6)) (decV ((encV a) : BitVec 6)) (imm : BitVec 32) : Instr) = (.vMulImmLong p e m d a imm) by simp <;> (repeat' apply And.intro) <;> first | with_reducible exact decVw_high _ _ | with_reducible exact decVm_low _ _))⟩
theorem vMinImm (p : Pred) (e : VWidth) (m : VMode) (d a : VReg) (imm : BitVec 16) : Statement (.vMinImm p e m d a imm) := by
  intro w h; cases h
  exact ⟨rfl, (opc52 _ _ _ rfl).trans (congrArg some (show (.vMinImm (mkEnc 0x52 5 p (encVw e ++ encVm m) (encV d) (encV a) 0 0 imm .none .none).f.pred (decVw (((encVw e ++ encVm m) : BitVec 4).extractLsb' 2 2)) (decVm (((encVw e ++ encVm m) : BitVec 4).extractLsb' 0 2)) (decV ((encV d) : BitVec 6)) (decV ((encV a) : BitVec 6)) (imm : BitVec 16) : Instr) = (.vMinImm p e m d a imm) by simp <;> (repeat' apply And.intro) <;> first | with_reducible exact decVw_high _ _ | with_reducible exact decVm_low _ _))⟩
theorem vMinImmLong (p : Pred) (e : VWidth) (m : VMode) (d a : VReg) (imm : BitVec 32) : Statement (.vMinImmLong p e m d a imm) := by
  intro w h; cases h
  exact ⟨rfl, (opc52 _ _ _ rfl).trans (congrArg some (show (.vMinImmLong (mkEnc 0x52 5 p (encVw e ++ encVm m) (encV d) (encV a) 0 0 0 (.w32 imm) .none).f.pred (decVw (((encVw e ++ encVm m) : BitVec 4).extractLsb' 2 2)) (decVm (((encVw e ++ encVm m) : BitVec 4).extractLsb' 0 2)) (decV ((encV d) : BitVec 6)) (decV ((encV a) : BitVec 6)) (imm : BitVec 32) : Instr) = (.vMinImmLong p e m d a imm) by simp <;> (repeat' apply And.intro) <;> first | with_reducible exact decVw_high _ _ | with_reducible exact decVm_low _ _))⟩
theorem vMaxImm (p : Pred) (e : VWidth) (m : VMode) (d a : VReg) (imm : BitVec 16) : Statement (.vMaxImm p e m d a imm) := by
  intro w h; cases h
  exact ⟨rfl, (opc52 _ _ _ rfl).trans (congrArg some (show (.vMaxImm (mkEnc 0x52 6 p (encVw e ++ encVm m) (encV d) (encV a) 0 0 imm .none .none).f.pred (decVw (((encVw e ++ encVm m) : BitVec 4).extractLsb' 2 2)) (decVm (((encVw e ++ encVm m) : BitVec 4).extractLsb' 0 2)) (decV ((encV d) : BitVec 6)) (decV ((encV a) : BitVec 6)) (imm : BitVec 16) : Instr) = (.vMaxImm p e m d a imm) by simp <;> (repeat' apply And.intro) <;> first | with_reducible exact decVw_high _ _ | with_reducible exact decVm_low _ _))⟩
theorem vMaxImmLong (p : Pred) (e : VWidth) (m : VMode) (d a : VReg) (imm : BitVec 32) : Statement (.vMaxImmLong p e m d a imm) := by
  intro w h; cases h
  exact ⟨rfl, (opc52 _ _ _ rfl).trans (congrArg some (show (.vMaxImmLong (mkEnc 0x52 6 p (encVw e ++ encVm m) (encV d) (encV a) 0 0 0 (.w32 imm) .none).f.pred (decVw (((encVw e ++ encVm m) : BitVec 4).extractLsb' 2 2)) (decVm (((encVw e ++ encVm m) : BitVec 4).extractLsb' 0 2)) (decV ((encV d) : BitVec 6)) (decV ((encV a) : BitVec 6)) (imm : BitVec 32) : Instr) = (.vMaxImmLong p e m d a imm) by simp <;> (repeat' apply And.intro) <;> first | with_reducible exact decVw_high _ _ | with_reducible exact decVm_low _ _))⟩
theorem vAnd (p : Pred) (d a b : VReg) : Statement (.vAnd p d a b) := by
  intro w h; cases h
  exact ⟨rfl, (opc54 _ _ _ rfl).trans (congrArg some (show (.vAnd (mkEnc 0x54 0 p 0 (encV d) (encV a) (encV b) 0 0 .none .none).f.pred (decV ((encV d) : BitVec 6)) (decV ((encV a) : BitVec 6)) (decV ((encV b) : BitVec 6)) : Instr) = (.vAnd p d a b) by simp))⟩
theorem vOr (p : Pred) (d a b : VReg) : Statement (.vOr p d a b) := by
  intro w h; cases h
  exact ⟨rfl, (opc54 _ _ _ rfl).trans (congrArg some (show (.vOr (mkEnc 0x54 1 p 0 (encV d) (encV a) (encV b) 0 0 .none .none).f.pred (decV ((encV d) : BitVec 6)) (decV ((encV a) : BitVec 6)) (decV ((encV b) : BitVec 6)) : Instr) = (.vOr p d a b) by simp))⟩
theorem vXor (p : Pred) (d a b : VReg) : Statement (.vXor p d a b) := by
  intro w h; cases h
  exact ⟨rfl, (opc54 _ _ _ rfl).trans (congrArg some (show (.vXor (mkEnc 0x54 2 p 0 (encV d) (encV a) (encV b) 0 0 .none .none).f.pred (decV ((encV d) : BitVec 6)) (decV ((encV a) : BitVec 6)) (decV ((encV b) : BitVec 6)) : Instr) = (.vXor p d a b) by simp))⟩
theorem vAndn (p : Pred) (d a b : VReg) : Statement (.vAndn p d a b) := by
  intro w h; cases h
  exact ⟨rfl, (opc54 _ _ _ rfl).trans (congrArg some (show (.vAndn (mkEnc 0x54 3 p 0 (encV d) (encV a) (encV b) 0 0 .none .none).f.pred (decV ((encV d) : BitVec 6)) (decV ((encV a) : BitVec 6)) (decV ((encV b) : BitVec 6)) : Instr) = (.vAndn p d a b) by simp))⟩
theorem vNot (p : Pred) (d a : VReg) : Statement (.vNot p d a) := by
  intro w h; cases h
  exact ⟨rfl, (opc54 _ _ _ rfl).trans (congrArg some (show (.vNot (mkEnc 0x54 4 p 0 (encV d) (encV a) 0 0 0 .none .none).f.pred (decV ((encV d) : BitVec 6)) (decV ((encV a) : BitVec 6)) : Instr) = (.vNot p d a) by simp))⟩
theorem vShl (p : Pred) (e : VWidth) (d a b : VReg) : Statement (.vShl p e d a b) := by
  intro w h; cases h
  exact ⟨rfl, (opc55 _ _ _ rfl).trans (congrArg some (show (if ((encVw e ++ (0 : BitVec 2)) : BitVec 4).getLsbD 0 = false then .vShl (mkEnc 0x55 0 p (encVw e ++ (0 : BitVec 2)) (encV d) (encV a) (encV b) 0 0 .none .none).f.pred (decVw (((encVw e ++ (0 : BitVec 2)) : BitVec 4).extractLsb' 2 2)) (decV ((encV d) : BitVec 6)) (decV ((encV a) : BitVec 6)) (decV ((encV b) : BitVec 6)) else .vShlImm (mkEnc 0x55 0 p (encVw e ++ (0 : BitVec 2)) (encV d) (encV a) (encV b) 0 0 .none .none).f.pred (decVw (((encVw e ++ (0 : BitVec 2)) : BitVec 4).extractLsb' 2 2)) (decV ((encV d) : BitVec 6)) (decV ((encV a) : BitVec 6)) ((0 : BitVec 16).extractLsb' 0 5) : Instr) = (.vShl p e d a b) by simp <;> (rw [vshift_reg, decVw_high]; rfl)))⟩
theorem vShlImm (p : Pred) (e : VWidth) (d a : VReg) (n : BitVec 5) : Statement (.vShlImm p e d a n) := by
  intro w h; cases h
  exact ⟨rfl, (opc55 _ _ _ rfl).trans (congrArg some (show (if ((encVw e ++ (1 : BitVec 2)) : BitVec 4).getLsbD 0 = false then .vShl (mkEnc 0x55 0 p (encVw e ++ (1 : BitVec 2)) (encV d) (encV a) 0 0 ((0 : BitVec 11) ++ n) .none .none).f.pred (decVw (((encVw e ++ (1 : BitVec 2)) : BitVec 4).extractLsb' 2 2)) (decV ((encV d) : BitVec 6)) (decV ((encV a) : BitVec 6)) (decV (0 : BitVec 6)) else .vShlImm (mkEnc 0x55 0 p (encVw e ++ (1 : BitVec 2)) (encV d) (encV a) 0 0 ((0 : BitVec 11) ++ n) .none .none).f.pred (decVw (((encVw e ++ (1 : BitVec 2)) : BitVec 4).extractLsb' 2 2)) (decV ((encV d) : BitVec 6)) (decV ((encV a) : BitVec 6)) ((((0 : BitVec 11) ++ n) : BitVec 16).extractLsb' 0 5) : Instr) = (.vShlImm p e d a n) by simp <;> (rw [vshift_imm, decVw_high, if_neg (by decide)]; exact congrArg _ (extract_low _ _))))⟩
theorem vShr (p : Pred) (e : VWidth) (d a b : VReg) : Statement (.vShr p e d a b) := by
  intro w h; cases h
  exact ⟨rfl, (opc55 _ _ _ rfl).trans (congrArg some (show (if ((encVw e ++ (0 : BitVec 2)) : BitVec 4).getLsbD 0 = false then .vShr (mkEnc 0x55 1 p (encVw e ++ (0 : BitVec 2)) (encV d) (encV a) (encV b) 0 0 .none .none).f.pred (decVw (((encVw e ++ (0 : BitVec 2)) : BitVec 4).extractLsb' 2 2)) (decV ((encV d) : BitVec 6)) (decV ((encV a) : BitVec 6)) (decV ((encV b) : BitVec 6)) else .vShrImm (mkEnc 0x55 1 p (encVw e ++ (0 : BitVec 2)) (encV d) (encV a) (encV b) 0 0 .none .none).f.pred (decVw (((encVw e ++ (0 : BitVec 2)) : BitVec 4).extractLsb' 2 2)) (decV ((encV d) : BitVec 6)) (decV ((encV a) : BitVec 6)) ((0 : BitVec 16).extractLsb' 0 5) : Instr) = (.vShr p e d a b) by simp <;> (rw [vshift_reg, decVw_high]; rfl)))⟩
theorem vShrImm (p : Pred) (e : VWidth) (d a : VReg) (n : BitVec 5) : Statement (.vShrImm p e d a n) := by
  intro w h; cases h
  exact ⟨rfl, (opc55 _ _ _ rfl).trans (congrArg some (show (if ((encVw e ++ (1 : BitVec 2)) : BitVec 4).getLsbD 0 = false then .vShr (mkEnc 0x55 1 p (encVw e ++ (1 : BitVec 2)) (encV d) (encV a) 0 0 ((0 : BitVec 11) ++ n) .none .none).f.pred (decVw (((encVw e ++ (1 : BitVec 2)) : BitVec 4).extractLsb' 2 2)) (decV ((encV d) : BitVec 6)) (decV ((encV a) : BitVec 6)) (decV (0 : BitVec 6)) else .vShrImm (mkEnc 0x55 1 p (encVw e ++ (1 : BitVec 2)) (encV d) (encV a) 0 0 ((0 : BitVec 11) ++ n) .none .none).f.pred (decVw (((encVw e ++ (1 : BitVec 2)) : BitVec 4).extractLsb' 2 2)) (decV ((encV d) : BitVec 6)) (decV ((encV a) : BitVec 6)) ((((0 : BitVec 11) ++ n) : BitVec 16).extractLsb' 0 5) : Instr) = (.vShrImm p e d a n) by simp <;> (rw [vshift_imm, decVw_high, if_neg (by decide)]; exact congrArg _ (extract_low _ _))))⟩
theorem vSar (p : Pred) (e : VWidth) (d a b : VReg) : Statement (.vSar p e d a b) := by
  intro w h; cases h
  exact ⟨rfl, (opc55 _ _ _ rfl).trans (congrArg some (show (if ((encVw e ++ (0 : BitVec 2)) : BitVec 4).getLsbD 0 = false then .vSar (mkEnc 0x55 2 p (encVw e ++ (0 : BitVec 2)) (encV d) (encV a) (encV b) 0 0 .none .none).f.pred (decVw (((encVw e ++ (0 : BitVec 2)) : BitVec 4).extractLsb' 2 2)) (decV ((encV d) : BitVec 6)) (decV ((encV a) : BitVec 6)) (decV ((encV b) : BitVec 6)) else .vSarImm (mkEnc 0x55 2 p (encVw e ++ (0 : BitVec 2)) (encV d) (encV a) (encV b) 0 0 .none .none).f.pred (decVw (((encVw e ++ (0 : BitVec 2)) : BitVec 4).extractLsb' 2 2)) (decV ((encV d) : BitVec 6)) (decV ((encV a) : BitVec 6)) ((0 : BitVec 16).extractLsb' 0 5) : Instr) = (.vSar p e d a b) by simp <;> (rw [vshift_reg, decVw_high]; rfl)))⟩
theorem vSarImm (p : Pred) (e : VWidth) (d a : VReg) (n : BitVec 5) : Statement (.vSarImm p e d a n) := by
  intro w h; cases h
  exact ⟨rfl, (opc55 _ _ _ rfl).trans (congrArg some (show (if ((encVw e ++ (1 : BitVec 2)) : BitVec 4).getLsbD 0 = false then .vSar (mkEnc 0x55 2 p (encVw e ++ (1 : BitVec 2)) (encV d) (encV a) 0 0 ((0 : BitVec 11) ++ n) .none .none).f.pred (decVw (((encVw e ++ (1 : BitVec 2)) : BitVec 4).extractLsb' 2 2)) (decV ((encV d) : BitVec 6)) (decV ((encV a) : BitVec 6)) (decV (0 : BitVec 6)) else .vSarImm (mkEnc 0x55 2 p (encVw e ++ (1 : BitVec 2)) (encV d) (encV a) 0 0 ((0 : BitVec 11) ++ n) .none .none).f.pred (decVw (((encVw e ++ (1 : BitVec 2)) : BitVec 4).extractLsb' 2 2)) (decV ((encV d) : BitVec 6)) (decV ((encV a) : BitVec 6)) ((((0 : BitVec 11) ++ n) : BitVec 16).extractLsb' 0 5) : Instr) = (.vSarImm p e d a n) by simp <;> (rw [vshift_imm, decVw_high, if_neg (by decide)]; exact congrArg _ (extract_low _ _))))⟩
theorem vRot (p : Pred) (e : VWidth) (d a b : VReg) : Statement (.vRot p e d a b) := by
  intro w h; cases h
  exact ⟨rfl, (opc55 _ _ _ rfl).trans (congrArg some (show (if ((encVw e ++ (0 : BitVec 2)) : BitVec 4).getLsbD 0 = false then .vRot (mkEnc 0x55 3 p (encVw e ++ (0 : BitVec 2)) (encV d) (encV a) (encV b) 0 0 .none .none).f.pred (decVw (((encVw e ++ (0 : BitVec 2)) : BitVec 4).extractLsb' 2 2)) (decV ((encV d) : BitVec 6)) (decV ((encV a) : BitVec 6)) (decV ((encV b) : BitVec 6)) else .vRotImm (mkEnc 0x55 3 p (encVw e ++ (0 : BitVec 2)) (encV d) (encV a) (encV b) 0 0 .none .none).f.pred (decVw (((encVw e ++ (0 : BitVec 2)) : BitVec 4).extractLsb' 2 2)) (decV ((encV d) : BitVec 6)) (decV ((encV a) : BitVec 6)) ((0 : BitVec 16).extractLsb' 0 5) : Instr) = (.vRot p e d a b) by simp <;> (rw [vshift_reg, decVw_high]; rfl)))⟩
theorem vRotImm (p : Pred) (e : VWidth) (d a : VReg) (n : BitVec 5) : Statement (.vRotImm p e d a n) := by
  intro w h; cases h
  exact ⟨rfl, (opc55 _ _ _ rfl).trans (congrArg some (show (if ((encVw e ++ (1 : BitVec 2)) : BitVec 4).getLsbD 0 = false then .vRot (mkEnc 0x55 3 p (encVw e ++ (1 : BitVec 2)) (encV d) (encV a) 0 0 ((0 : BitVec 11) ++ n) .none .none).f.pred (decVw (((encVw e ++ (1 : BitVec 2)) : BitVec 4).extractLsb' 2 2)) (decV ((encV d) : BitVec 6)) (decV ((encV a) : BitVec 6)) (decV (0 : BitVec 6)) else .vRotImm (mkEnc 0x55 3 p (encVw e ++ (1 : BitVec 2)) (encV d) (encV a) 0 0 ((0 : BitVec 11) ++ n) .none .none).f.pred (decVw (((encVw e ++ (1 : BitVec 2)) : BitVec 4).extractLsb' 2 2)) (decV ((encV d) : BitVec 6)) (decV ((encV a) : BitVec 6)) ((((0 : BitVec 11) ++ n) : BitVec 16).extractLsb' 0 5) : Instr) = (.vRotImm p e d a n) by simp <;> (rw [vshift_imm, decVw_high, if_neg (by decide)]; exact congrArg _ (extract_low _ _))))⟩
theorem vClz (p : Pred) (e : VWidth) (d a : VReg) : Statement (.vClz p e d a) := by
  intro w h; cases h
  exact ⟨rfl, (opc55 _ _ _ rfl).trans (congrArg some (show (.vClz (mkEnc 0x55 4 p (encVw e ++ (0 : BitVec 2)) (encV d) (encV a) 0 0 0 .none .none).f.pred (decVw (((encVw e ++ (0 : BitVec 2)) : BitVec 4).extractLsb' 2 2)) (decV ((encV d) : BitVec 6)) (decV ((encV a) : BitVec 6)) : Instr) = (.vClz p e d a) by simp <;> (repeat' apply And.intro) <;> first | with_reducible exact decVw_high _ _))⟩
theorem vPopc (p : Pred) (e : VWidth) (d a : VReg) : Statement (.vPopc p e d a) := by
  intro w h; cases h
  exact ⟨rfl, (opc55 _ _ _ rfl).trans (congrArg some (show (.vPopc (mkEnc 0x55 5 p (encVw e ++ (0 : BitVec 2)) (encV d) (encV a) 0 0 0 .none .none).f.pred (decVw (((encVw e ++ (0 : BitVec 2)) : BitVec 4).extractLsb' 2 2)) (decV ((encV d) : BitVec 6)) (decV ((encV a) : BitVec 6)) : Instr) = (.vPopc p e d a) by simp <;> (repeat' apply And.intro) <;> first | with_reducible exact decVw_high _ _))⟩
theorem vFadd (p : Pred) (rm : RM) (d a b : VReg) : Statement (.vFadd p rm d a b) := by
  intro w h; cases h
  exact ⟨rfl, (opc56 _ _ _ rfl).trans (congrArg some (show (.vFadd (mkEnc 0x56 0 p ((0 : BitVec 1) ++ encRM rm) (encV d) (encV a) (encV b) 0 0 .none .none).f.pred (decRM ((((0 : BitVec 1) ++ encRM rm) : BitVec 4).extractLsb' 0 3)) (decV ((encV d) : BitVec 6)) (decV ((encV a) : BitVec 6)) (decV ((encV b) : BitVec 6)) : Instr) = (.vFadd p rm d a b) by simp <;> (repeat' apply And.intro) <;> first | with_reducible exact decRM_low _ _))⟩
theorem vFsub (p : Pred) (rm : RM) (d a b : VReg) : Statement (.vFsub p rm d a b) := by
  intro w h; cases h
  exact ⟨rfl, (opc56 _ _ _ rfl).trans (congrArg some (show (.vFsub (mkEnc 0x56 1 p ((0 : BitVec 1) ++ encRM rm) (encV d) (encV a) (encV b) 0 0 .none .none).f.pred (decRM ((((0 : BitVec 1) ++ encRM rm) : BitVec 4).extractLsb' 0 3)) (decV ((encV d) : BitVec 6)) (decV ((encV a) : BitVec 6)) (decV ((encV b) : BitVec 6)) : Instr) = (.vFsub p rm d a b) by simp <;> (repeat' apply And.intro) <;> first | with_reducible exact decRM_low _ _))⟩
theorem vFmul (p : Pred) (rm : RM) (d a b : VReg) : Statement (.vFmul p rm d a b) := by
  intro w h; cases h
  exact ⟨rfl, (opc56 _ _ _ rfl).trans (congrArg some (show (.vFmul (mkEnc 0x56 2 p ((0 : BitVec 1) ++ encRM rm) (encV d) (encV a) (encV b) 0 0 .none .none).f.pred (decRM ((((0 : BitVec 1) ++ encRM rm) : BitVec 4).extractLsb' 0 3)) (decV ((encV d) : BitVec 6)) (decV ((encV a) : BitVec 6)) (decV ((encV b) : BitVec 6)) : Instr) = (.vFmul p rm d a b) by simp <;> (repeat' apply And.intro) <;> first | with_reducible exact decRM_low _ _))⟩
theorem vFmin (p : Pred) (d a b : VReg) : Statement (.vFmin p d a b) := by
  intro w h; cases h
  exact ⟨rfl, (opc56 _ _ _ rfl).trans (congrArg some (show (.vFmin (mkEnc 0x56 3 p 0 (encV d) (encV a) (encV b) 0 0 .none .none).f.pred (decV ((encV d) : BitVec 6)) (decV ((encV a) : BitVec 6)) (decV ((encV b) : BitVec 6)) : Instr) = (.vFmin p d a b) by simp))⟩
theorem vFmax (p : Pred) (d a b : VReg) : Statement (.vFmax p d a b) := by
  intro w h; cases h
  exact ⟨rfl, (opc56 _ _ _ rfl).trans (congrArg some (show (.vFmax (mkEnc 0x56 4 p 0 (encV d) (encV a) (encV b) 0 0 .none .none).f.pred (decV ((encV d) : BitVec 6)) (decV ((encV a) : BitVec 6)) (decV ((encV b) : BitVec 6)) : Instr) = (.vFmax p d a b) by simp))⟩
theorem vFaddScalar (p : Pred) (rm : RM) (d a : VReg) (b : SReg) : Statement (.vFaddScalar p rm d a b) := by
  intro w h; cases h
  exact ⟨rfl, (opc57 _ _ _ rfl).trans (congrArg some (show (.vFaddScalar (mkEnc 0x57 0 p ((0 : BitVec 1) ++ encRM rm) (encV d) (encV a) (encS b) 0 0 .none .none).f.pred (decRM ((((0 : BitVec 1) ++ encRM rm) : BitVec 4).extractLsb' 0 3)) (decV ((encV d) : BitVec 6)) (decV ((encV a) : BitVec 6)) (decS ((encS b) : BitVec 6)) : Instr) = (.vFaddScalar p rm d a b) by simp <;> (repeat' apply And.intro) <;> first | with_reducible exact decRM_low _ _))⟩
theorem vFsubScalar (p : Pred) (rm : RM) (d a : VReg) (b : SReg) : Statement (.vFsubScalar p rm d a b) := by
  intro w h; cases h
  exact ⟨rfl, (opc57 _ _ _ rfl).trans (congrArg some (show (.vFsubScalar (mkEnc 0x57 1 p ((0 : BitVec 1) ++ encRM rm) (encV d) (encV a) (encS b) 0 0 .none .none).f.pred (decRM ((((0 : BitVec 1) ++ encRM rm) : BitVec 4).extractLsb' 0 3)) (decV ((encV d) : BitVec 6)) (decV ((encV a) : BitVec 6)) (decS ((encS b) : BitVec 6)) : Instr) = (.vFsubScalar p rm d a b) by simp <;> (repeat' apply And.intro) <;> first | with_reducible exact decRM_low _ _))⟩
theorem vFmulScalar (p : Pred) (rm : RM) (d a : VReg) (b : SReg) : Statement (.vFmulScalar p rm d a b) := by
  intro w h; cases h
  exact ⟨rfl, (opc57 _ _ _ rfl).trans (congrArg some (show (.vFmulScalar (mkEnc 0x57 2 p ((0 : BitVec 1) ++ encRM rm) (encV d) (encV a) (encS b) 0 0 .none .none).f.pred (decRM ((((0 : BitVec 1) ++ encRM rm) : BitVec 4).extractLsb' 0 3)) (decV ((encV d) : BitVec 6)) (decV ((encV a) : BitVec 6)) (decS ((encS b) : BitVec 6)) : Instr) = (.vFmulScalar p rm d a b) by simp <;> (repeat' apply And.intro) <;> first | with_reducible exact decRM_low _ _))⟩
theorem vFminScalar (p : Pred) (d a : VReg) (b : SReg) : Statement (.vFminScalar p d a b) := by
  intro w h; cases h
  exact ⟨rfl, (opc57 _ _ _ rfl).trans (congrArg some (show (.vFminScalar (mkEnc 0x57 3 p 0 (encV d) (encV a) (encS b) 0 0 .none .none).f.pred (decV ((encV d) : BitVec 6)) (decV ((encV a) : BitVec 6)) (decS ((encS b) : BitVec 6)) : Instr) = (.vFminScalar p d a b) by simp))⟩
theorem vFmaxScalar (p : Pred) (d a : VReg) (b : SReg) : Statement (.vFmaxScalar p d a b) := by
  intro w h; cases h
  exact ⟨rfl, (opc57 _ _ _ rfl).trans (congrArg some (show (.vFmaxScalar (mkEnc 0x57 4 p 0 (encV d) (encV a) (encS b) 0 0 .none .none).f.pred (decV ((encV d) : BitVec 6)) (decV ((encV a) : BitVec 6)) (decS ((encS b) : BitVec 6)) : Instr) = (.vFmaxScalar p d a b) by simp))⟩
theorem vFma (p : Pred) (rm : RM) (d a b c : VReg) : Statement (.vFma p rm d a b c) := by
  intro w h; cases h
  exact ⟨rfl, (opc58 _ _ _ rfl).trans (congrArg some (show (.vFma (mkEnc 0x58 0 p ((0 : BitVec 1) ++ encRM rm) (encV d) (encV a) (encV b) (encV c) 0 .none .none).f.pred (decRM ((((0 : BitVec 1) ++ encRM rm) : BitVec 4).extractLsb' 0 3)) (decV ((encV d) : BitVec 6)) (decV ((encV a) : BitVec 6)) (decV ((encV b) : BitVec 6)) (decV ((encV c) : BitVec 6)) : Instr) = (.vFma p rm d a b c) by simp <;> (repeat' apply And.intro) <;> first | with_reducible exact decRM_low _ _))⟩
theorem vFms (p : Pred) (rm : RM) (d a b c : VReg) : Statement (.vFms p rm d a b c) := by
  intro w h; cases h
  exact ⟨rfl, (opc58 _ _ _ rfl).trans (congrArg some (show (.vFms (mkEnc 0x58 1 p ((0 : BitVec 1) ++ encRM rm) (encV d) (encV a) (encV b) (encV c) 0 .none .none).f.pred (decRM ((((0 : BitVec 1) ++ encRM rm) : BitVec 4).extractLsb' 0 3)) (decV ((encV d) : BitVec 6)) (decV ((encV a) : BitVec 6)) (decV ((encV b) : BitVec 6)) (decV ((encV c) : BitVec 6)) : Instr) = (.vFms p rm d a b c) by simp <;> (repeat' apply And.intro) <;> first | with_reducible exact decRM_low _ _))⟩
theorem vFnma (p : Pred) (rm : RM) (d a b c : VReg) : Statement (.vFnma p rm d a b c) := by
  intro w h; cases h
  exact ⟨rfl, (opc58 _ _ _ rfl).trans (congrArg some (show (.vFnma (mkEnc 0x58 2 p ((0 : BitVec 1) ++ encRM rm) (encV d) (encV a) (encV b) (encV c) 0 .none .none).f.pred (decRM ((((0 : BitVec 1) ++ encRM rm) : BitVec 4).extractLsb' 0 3)) (decV ((encV d) : BitVec 6)) (decV ((encV a) : BitVec 6)) (decV ((encV b) : BitVec 6)) (decV ((encV c) : BitVec 6)) : Instr) = (.vFnma p rm d a b c) by simp <;> (repeat' apply And.intro) <;> first | with_reducible exact decRM_low _ _))⟩
theorem vFdiv (p : Pred) (rm : RM) (d a b : VReg) : Statement (.vFdiv p rm d a b) := by
  intro w h; cases h
  exact ⟨rfl, (opc59 _ _ _ rfl).trans (congrArg some (show (.vFdiv (mkEnc 0x59 0 p ((0 : BitVec 1) ++ encRM rm) (encV d) (encV a) (encV b) 0 0 .none .none).f.pred (decRM ((((0 : BitVec 1) ++ encRM rm) : BitVec 4).extractLsb' 0 3)) (decV ((encV d) : BitVec 6)) (decV ((encV a) : BitVec 6)) (decV ((encV b) : BitVec 6)) : Instr) = (.vFdiv p rm d a b) by simp <;> (repeat' apply And.intro) <;> first | with_reducible exact decRM_low _ _))⟩
theorem vFsqrt (p : Pred) (rm : RM) (d a : VReg) : Statement (.vFsqrt p rm d a) := by
  intro w h; cases h
  exact ⟨rfl, (opc59 _ _ _ rfl).trans (congrArg some (show (.vFsqrt (mkEnc 0x59 1 p ((0 : BitVec 1) ++ encRM rm) (encV d) (encV a) 0 0 0 .none .none).f.pred (decRM ((((0 : BitVec 1) ++ encRM rm) : BitVec 4).extractLsb' 0 3)) (decV ((encV d) : BitVec 6)) (decV ((encV a) : BitVec 6)) : Instr) = (.vFsqrt p rm d a) by simp <;> (repeat' apply And.intro) <;> first | with_reducible exact decRM_low _ _))⟩
theorem vFrcp (p : Pred) (rm : RM) (d a : VReg) : Statement (.vFrcp p rm d a) := by
  intro w h; cases h
  exact ⟨rfl, (opc59 _ _ _ rfl).trans (congrArg some (show (.vFrcp (mkEnc 0x59 2 p ((0 : BitVec 1) ++ encRM rm) (encV d) (encV a) 0 0 0 .none .none).f.pred (decRM ((((0 : BitVec 1) ++ encRM rm) : BitVec 4).extractLsb' 0 3)) (decV ((encV d) : BitVec 6)) (decV ((encV a) : BitVec 6)) : Instr) = (.vFrcp p rm d a) by simp <;> (repeat' apply And.intro) <;> first | with_reducible exact decRM_low _ _))⟩
theorem vFrsq (p : Pred) (rm : RM) (d a : VReg) : Statement (.vFrsq p rm d a) := by
  intro w h; cases h
  exact ⟨rfl, (opc59 _ _ _ rfl).trans (congrArg some (show (.vFrsq (mkEnc 0x59 3 p ((0 : BitVec 1) ++ encRM rm) (encV d) (encV a) 0 0 0 .none .none).f.pred (decRM ((((0 : BitVec 1) ++ encRM rm) : BitVec 4).extractLsb' 0 3)) (decV ((encV d) : BitVec 6)) (decV ((encV a) : BitVec 6)) : Instr) = (.vFrsq p rm d a) by simp <;> (repeat' apply And.intro) <;> first | with_reducible exact decRM_low _ _))⟩
theorem vFabs (p : Pred) (d a : VReg) : Statement (.vFabs p d a) := by
  intro w h; cases h
  exact ⟨rfl, (opc5A _ _ _ rfl).trans (congrArg some (show (.vFabs (mkEnc 0x5A 0 p 0 (encV d) (encV a) 0 0 0 .none .none).f.pred (decV ((encV d) : BitVec 6)) (decV ((encV a) : BitVec 6)) : Instr) = (.vFabs p d a) by simp))⟩
theorem vFneg (p : Pred) (d a : VReg) : Statement (.vFneg p d a) := by
  intro w h; cases h
  exact ⟨rfl, (opc5A _ _ _ rfl).trans (congrArg some (show (.vFneg (mkEnc 0x5A 1 p 0 (encV d) (encV a) 0 0 0 .none .none).f.pred (decV ((encV d) : BitVec 6)) (decV ((encV a) : BitVec 6)) : Instr) = (.vFneg p d a) by simp))⟩
theorem vFcopysign (p : Pred) (d a b : VReg) : Statement (.vFcopysign p d a b) := by
  intro w h; cases h
  exact ⟨rfl, (opc5A _ _ _ rfl).trans (congrArg some (show (.vFcopysign (mkEnc 0x5A 2 p 0 (encV d) (encV a) (encV b) 0 0 .none .none).f.pred (decV ((encV d) : BitVec 6)) (decV ((encV a) : BitVec 6)) (decV ((encV b) : BitVec 6)) : Instr) = (.vFcopysign p d a b) by simp))⟩
theorem vFclass (p : Pred) (d a : VReg) : Statement (.vFclass p d a) := by
  intro w h; cases h
  exact ⟨rfl, (opc5A _ _ _ rfl).trans (congrArg some (show (.vFclass (mkEnc 0x5A 3 p 0 (encV d) (encV a) 0 0 0 .none .none).f.pred (decV ((encV d) : BitVec 6)) (decV ((encV a) : BitVec 6)) : Instr) = (.vFclass p d a) by simp))⟩
theorem vFscale (p : Pred) (rm : RM) (d a b : VReg) : Statement (.vFscale p rm d a b) := by
  intro w h; cases h
  exact ⟨rfl, (opc5B _ _ _ rfl).trans (congrArg some (show (.vFscale (mkEnc 0x5B 0 p ((0 : BitVec 1) ++ encRM rm) (encV d) (encV a) (encV b) 0 0 .none .none).f.pred (decRM ((((0 : BitVec 1) ++ encRM rm) : BitVec 4).extractLsb' 0 3)) (decV ((encV d) : BitVec 6)) (decV ((encV a) : BitVec 6)) (decV ((encV b) : BitVec 6)) : Instr) = (.vFscale p rm d a b) by simp <;> (repeat' apply And.intro) <;> first | with_reducible exact decRM_low _ _))⟩
theorem vFround (p : Pred) (rm : RM) (d a : VReg) : Statement (.vFround p rm d a) := by
  intro w h; cases h
  exact ⟨rfl, (opc5B _ _ _ rfl).trans (congrArg some (show (.vFround (mkEnc 0x5B 1 p ((0 : BitVec 1) ++ encRM rm) (encV d) (encV a) 0 0 0 .none .none).f.pred (decRM ((((0 : BitVec 1) ++ encRM rm) : BitVec 4).extractLsb' 0 3)) (decV ((encV d) : BitVec 6)) (decV ((encV a) : BitVec 6)) : Instr) = (.vFround p rm d a) by simp <;> (repeat' apply And.intro) <;> first | with_reducible exact decRM_low _ _))⟩
theorem vCmp (p : Pred) (cc : Cond) (d : PReg) (a b : VReg) : Statement (.vCmp p cc d a b) := by
  intro w h; cases h
  exact ⟨rfl, (opc5C _ _ _ rfl).trans (congrArg some (show (.vCmp (mkEnc 0x5C 0 p (encCond cc) (encP d) (encV a) (encV b) 0 0 .none .none).f.pred (decCond ((encCond cc) : BitVec 4)) (decP ((encP d) : BitVec 6)) (decV ((encV a) : BitVec 6)) (decV ((encV b) : BitVec 6)) : Instr) = (.vCmp p cc d a b) by simp))⟩
theorem vCmpScalar (p : Pred) (cc : Cond) (d : PReg) (a : VReg) (b : SReg) : Statement (.vCmpScalar p cc d a b) := by
  intro w h; cases h
  exact ⟨rfl, (opc5C _ _ _ rfl).trans (congrArg some (show (.vCmpScalar (mkEnc 0x5C 1 p (encCond cc) (encP d) (encV a) (encS b) 0 0 .none .none).f.pred (decCond ((encCond cc) : BitVec 4)) (decP ((encP d) : BitVec 6)) (decV ((encV a) : BitVec 6)) (decS ((encS b) : BitVec 6)) : Instr) = (.vCmpScalar p cc d a b) by simp))⟩
theorem vFcmp (p : Pred) (cc : FCond) (d : PReg) (a b : VReg) : Statement (.vFcmp p cc d a b) := by
  intro w h; cases h
  exact ⟨rfl, (opc5D _ _ _ rfl).trans (congrArg some (show (.vFcmp (mkEnc 0x5D 0 p (encFCond cc) (encP d) (encV a) (encV b) 0 0 .none .none).f.pred (decFCond ((encFCond cc) : BitVec 4)) (decP ((encP d) : BitVec 6)) (decV ((encV a) : BitVec 6)) (decV ((encV b) : BitVec 6)) : Instr) = (.vFcmp p cc d a b) by simp))⟩
theorem vFcmpScalar (p : Pred) (cc : FCond) (d : PReg) (a : VReg) (b : SReg) : Statement (.vFcmpScalar p cc d a b) := by
  intro w h; cases h
  exact ⟨rfl, (opc5D _ _ _ rfl).trans (congrArg some (show (.vFcmpScalar (mkEnc 0x5D 1 p (encFCond cc) (encP d) (encV a) (encS b) 0 0 .none .none).f.pred (decFCond ((encFCond cc) : BitVec 4)) (decP ((encP d) : BitVec 6)) (decV ((encV a) : BitVec 6)) (decS ((encS b) : BitVec 6)) : Instr) = (.vFcmpScalar p cc d a b) by simp))⟩
theorem vPerm (p : Pred) (d a b : VReg) : Statement (.vPerm p d a b) := by
  intro w h; cases h
  exact ⟨rfl, (opc5E _ _ _ rfl).trans (congrArg some (show (.vPerm (mkEnc 0x5E 0 p 0 (encV d) (encV a) (encV b) 0 0 .none .none).f.pred (decV ((encV d) : BitVec 6)) (decV ((encV a) : BitVec 6)) (decV ((encV b) : BitVec 6)) : Instr) = (.vPerm p d a b) by simp))⟩
theorem vPerm2 (p : Pred) (d a b c : VReg) : Statement (.vPerm2 p d a b c) := by
  intro w h; cases h
  exact ⟨rfl, (opc5E _ _ _ rfl).trans (congrArg some (show (.vPerm2 (mkEnc 0x5E 1 p 0 (encV d) (encV a) (encV b) (encV c) 0 .none .none).f.pred (decV ((encV d) : BitVec 6)) (decV ((encV a) : BitVec 6)) (decV ((encV b) : BitVec 6)) (decV ((encV c) : BitVec 6)) : Instr) = (.vPerm2 p d a b c) by simp))⟩
theorem vShuf (p : Pred) (k : Shuf) (d a b : VReg) : Statement (.vShuf p k d a b) := by
  intro w h; cases h
  exact ⟨rfl, (opc5F _ _ _ rfl).trans (congrArg some (show (.vShuf (mkEnc 0x5F 0 p (encShuf k) (encV d) (encV a) (encV b) 0 0 .none .none).f.pred (decShuf ((encShuf k) : BitVec 4)) (decV ((encV d) : BitVec 6)) (decV ((encV a) : BitVec 6)) (decV ((encV b) : BitVec 6)) : Instr) = (.vShuf p k d a b) by simp))⟩
theorem vBcast (p : Pred) (d : VReg) (a : SReg) : Statement (.vBcast p d a) := by
  intro w h; cases h
  exact ⟨rfl, (opc60 _ _ _ rfl).trans (congrArg some (show (.vBcast (mkEnc 0x60 0 p 0 (encV d) (encS a) 0 0 0 .none .none).f.pred (decV ((encV d) : BitVec 6)) (decS ((encS a) : BitVec 6)) : Instr) = (.vBcast p d a) by simp))⟩
theorem vBcastLane (p : Pred) (d a : VReg) (k : BitVec 5) : Statement (.vBcastLane p d a k) := by
  intro w h; cases h
  exact ⟨rfl, (opc60 _ _ _ rfl).trans (congrArg some (show (.vBcastLane (mkEnc 0x60 1 p 0 (encV d) (encV a) 0 0 ((0 : BitVec 11) ++ k) .none .none).f.pred (decV ((encV d) : BitVec 6)) (decV ((encV a) : BitVec 6)) ((((0 : BitVec 11) ++ k) : BitVec 16).extractLsb' 0 5) : Instr) = (.vBcastLane p d a k) by simp <;> (repeat' apply And.intro) <;> first | with_reducible exact extract_low _ _ | with_reducible exact extract_high _ _ | with_reducible exact extract_mid _ _ _))⟩
theorem vBcastImm (p : Pred) (d : VReg) (imm : BitVec 32) : Statement (.vBcastImm p d imm) := by
  intro w h; cases h
  exact ⟨rfl, (opc60 _ _ _ rfl).trans (congrArg some (show (.vBcastImm (mkEnc 0x60 2 p 0 (encV d) 0 0 0 0 (.w32 imm) .none).f.pred (decV ((encV d) : BitVec 6)) (imm : BitVec 32) : Instr) = (.vBcastImm p d imm) by simp))⟩
theorem vBcastQ (p : Pred) (d : VReg) (a : QReg) : Statement (.vBcastQ p d a) := by
  intro w h; cases h
  exact ⟨rfl, (opc60 _ _ _ rfl).trans (congrArg some (show (.vBcastQ (mkEnc 0x60 3 p 0 (encV d) (encQ a) 0 0 0 .none .none).f.pred (decV ((encV d) : BitVec 6)) (decQ ((encQ a) : BitVec 6)) : Instr) = (.vBcastQ p d a) by simp))⟩
theorem vSlide (p : Pred) (d a b : VReg) (k : BitVec 5) : Statement (.vSlide p d a b k) := by
  intro w h; cases h
  exact ⟨rfl, (opc61 _ _ _ rfl).trans (congrArg some (show (.vSlide (mkEnc 0x61 0 p 0 (encV d) (encV a) (encV b) 0 ((0 : BitVec 11) ++ k) .none .none).f.pred (decV ((encV d) : BitVec 6)) (decV ((encV a) : BitVec 6)) (decV ((encV b) : BitVec 6)) ((((0 : BitVec 11) ++ k) : BitVec 16).extractLsb' 0 5) : Instr) = (.vSlide p d a b k) by simp <;> (repeat' apply And.intro) <;> first | with_reducible exact extract_low _ _ | with_reducible exact extract_high _ _ | with_reducible exact extract_mid _ _ _))⟩
theorem vMov (p : Pred) (d a : VReg) : Statement (.vMov p d a) := by
  intro w h; cases h
  exact ⟨rfl, (opc61 _ _ _ rfl).trans (congrArg some (show (.vMov (mkEnc 0x61 1 p 0 (encV d) (encV a) 0 0 0 .none .none).f.pred (decV ((encV d) : BitVec 6)) (decV ((encV a) : BitVec 6)) : Instr) = (.vMov p d a) by simp))⟩
theorem vSel (p : Pred) (d a b : VReg) (c : PReg) : Statement (.vSel p d a b c) := by
  intro w h; cases h
  exact ⟨rfl, (opc61 _ _ _ rfl).trans (congrArg some (show (.vSel (mkEnc 0x61 2 p 0 (encV d) (encV a) (encV b) (encP c) 0 .none .none).f.pred (decV ((encV d) : BitVec 6)) (decV ((encV a) : BitVec 6)) (decV ((encV b) : BitVec 6)) (decP ((encP c) : BitVec 6)) : Instr) = (.vSel p d a b c) by simp))⟩
theorem vMovToLane (p : Pred) (d : VReg) (a : SReg) (k : BitVec 5) : Statement (.vMovToLane p d a k) := by
  intro w h; cases h
  exact ⟨rfl, (opc61 _ _ _ rfl).trans (congrArg some (show (.vMovToLane (mkEnc 0x61 3 p 0 (encV d) (encS a) 0 0 ((0 : BitVec 11) ++ k) .none .none).f.pred (decV ((encV d) : BitVec 6)) (decS ((encS a) : BitVec 6)) ((((0 : BitVec 11) ++ k) : BitVec 16).extractLsb' 0 5) : Instr) = (.vMovToLane p d a k) by simp <;> (repeat' apply And.intro) <;> first | with_reducible exact extract_low _ _ | with_reducible exact extract_high _ _ | with_reducible exact extract_mid _ _ _))⟩
theorem vMovFromLane (p : Pred) (d : SReg) (a : VReg) (k : BitVec 5) : Statement (.vMovFromLane p d a k) := by
  intro w h; cases h
  exact ⟨rfl, (opc61 _ _ _ rfl).trans (congrArg some (show (.vMovFromLane (mkEnc 0x61 4 p 0 (encS d) (encV a) 0 0 ((0 : BitVec 11) ++ k) .none .none).f.pred (decS ((encS d) : BitVec 6)) (decV ((encV a) : BitVec 6)) ((((0 : BitVec 11) ++ k) : BitVec 16).extractLsb' 0 5) : Instr) = (.vMovFromLane p d a k) by simp <;> (repeat' apply And.intro) <;> first | with_reducible exact extract_low _ _ | with_reducible exact extract_high _ _ | with_reducible exact extract_mid _ _ _))⟩
theorem vRedAdd (p : Pred) (m : VMode) (d a : VReg) : Statement (.vRedAdd p m d a) := by
  intro w h; cases h
  exact ⟨rfl, (opc62 _ _ _ rfl).trans (congrArg some (show (.vRedAdd (mkEnc 0x62 0 p ((0 : BitVec 2) ++ encVm m) (encV d) (encV a) 0 0 0 .none .none).f.pred (decVm ((((0 : BitVec 2) ++ encVm m) : BitVec 4).extractLsb' 0 2)) (decV ((encV d) : BitVec 6)) (decV ((encV a) : BitVec 6)) : Instr) = (.vRedAdd p m d a) by simp <;> (repeat' apply And.intro) <;> first | with_reducible exact decVm_low _ _))⟩
theorem vRedMin (p : Pred) (m : VMode) (d a : VReg) : Statement (.vRedMin p m d a) := by
  intro w h; cases h
  exact ⟨rfl, (opc62 _ _ _ rfl).trans (congrArg some (show (.vRedMin (mkEnc 0x62 1 p ((0 : BitVec 2) ++ encVm m) (encV d) (encV a) 0 0 0 .none .none).f.pred (decVm ((((0 : BitVec 2) ++ encVm m) : BitVec 4).extractLsb' 0 2)) (decV ((encV d) : BitVec 6)) (decV ((encV a) : BitVec 6)) : Instr) = (.vRedMin p m d a) by simp <;> (repeat' apply And.intro) <;> first | with_reducible exact decVm_low _ _))⟩
theorem vRedMax (p : Pred) (m : VMode) (d a : VReg) : Statement (.vRedMax p m d a) := by
  intro w h; cases h
  exact ⟨rfl, (opc62 _ _ _ rfl).trans (congrArg some (show (.vRedMax (mkEnc 0x62 2 p ((0 : BitVec 2) ++ encVm m) (encV d) (encV a) 0 0 0 .none .none).f.pred (decVm ((((0 : BitVec 2) ++ encVm m) : BitVec 4).extractLsb' 0 2)) (decV ((encV d) : BitVec 6)) (decV ((encV a) : BitVec 6)) : Instr) = (.vRedMax p m d a) by simp <;> (repeat' apply And.intro) <;> first | with_reducible exact decVm_low _ _))⟩
theorem vRedAnd (p : Pred) (d a : VReg) : Statement (.vRedAnd p d a) := by
  intro w h; cases h
  exact ⟨rfl, (opc62 _ _ _ rfl).trans (congrArg some (show (.vRedAnd (mkEnc 0x62 3 p 0 (encV d) (encV a) 0 0 0 .none .none).f.pred (decV ((encV d) : BitVec 6)) (decV ((encV a) : BitVec 6)) : Instr) = (.vRedAnd p d a) by simp))⟩
theorem vRedOr (p : Pred) (d a : VReg) : Statement (.vRedOr p d a) := by
  intro w h; cases h
  exact ⟨rfl, (opc62 _ _ _ rfl).trans (congrArg some (show (.vRedOr (mkEnc 0x62 4 p 0 (encV d) (encV a) 0 0 0 .none .none).f.pred (decV ((encV d) : BitVec 6)) (decV ((encV a) : BitVec 6)) : Instr) = (.vRedOr p d a) by simp))⟩
theorem vRedXor (p : Pred) (d a : VReg) : Statement (.vRedXor p d a) := by
  intro w h; cases h
  exact ⟨rfl, (opc62 _ _ _ rfl).trans (congrArg some (show (.vRedXor (mkEnc 0x62 5 p 0 (encV d) (encV a) 0 0 0 .none .none).f.pred (decV ((encV d) : BitVec 6)) (decV ((encV a) : BitVec 6)) : Instr) = (.vRedXor p d a) by simp))⟩
theorem vRedFadd (p : Pred) (rm : RM) (d a : VReg) : Statement (.vRedFadd p rm d a) := by
  intro w h; cases h
  exact ⟨rfl, (opc63 _ _ _ rfl).trans (congrArg some (show (.vRedFadd (mkEnc 0x63 0 p ((0 : BitVec 1) ++ encRM rm) (encV d) (encV a) 0 0 0 .none .none).f.pred (decRM ((((0 : BitVec 1) ++ encRM rm) : BitVec 4).extractLsb' 0 3)) (decV ((encV d) : BitVec 6)) (decV ((encV a) : BitVec 6)) : Instr) = (.vRedFadd p rm d a) by simp <;> (repeat' apply And.intro) <;> first | with_reducible exact decRM_low _ _))⟩
theorem vRedFmin (p : Pred) (d a : VReg) : Statement (.vRedFmin p d a) := by
  intro w h; cases h
  exact ⟨rfl, (opc63 _ _ _ rfl).trans (congrArg some (show (.vRedFmin (mkEnc 0x63 1 p 0 (encV d) (encV a) 0 0 0 .none .none).f.pred (decV ((encV d) : BitVec 6)) (decV ((encV a) : BitVec 6)) : Instr) = (.vRedFmin p d a) by simp))⟩
theorem vRedFmax (p : Pred) (d a : VReg) : Statement (.vRedFmax p d a) := by
  intro w h; cases h
  exact ⟨rfl, (opc63 _ _ _ rfl).trans (congrArg some (show (.vRedFmax (mkEnc 0x63 2 p 0 (encV d) (encV a) 0 0 0 .none .none).f.pred (decV ((encV d) : BitVec 6)) (decV ((encV a) : BitVec 6)) : Instr) = (.vRedFmax p d a) by simp))⟩
theorem vScanAdd (p : Pred) (m : VMode) (d a : VReg) : Statement (.vScanAdd p m d a) := by
  intro w h; cases h
  exact ⟨rfl, (opc64 _ _ _ rfl).trans (congrArg some (show (.vScanAdd (mkEnc 0x64 0 p ((0 : BitVec 2) ++ encVm m) (encV d) (encV a) 0 0 0 .none .none).f.pred (decVm ((((0 : BitVec 2) ++ encVm m) : BitVec 4).extractLsb' 0 2)) (decV ((encV d) : BitVec 6)) (decV ((encV a) : BitVec 6)) : Instr) = (.vScanAdd p m d a) by simp <;> (repeat' apply And.intro) <;> first | with_reducible exact decVm_low _ _))⟩
theorem vScanMin (p : Pred) (m : VMode) (d a : VReg) : Statement (.vScanMin p m d a) := by
  intro w h; cases h
  exact ⟨rfl, (opc64 _ _ _ rfl).trans (congrArg some (show (.vScanMin (mkEnc 0x64 1 p ((0 : BitVec 2) ++ encVm m) (encV d) (encV a) 0 0 0 .none .none).f.pred (decVm ((((0 : BitVec 2) ++ encVm m) : BitVec 4).extractLsb' 0 2)) (decV ((encV d) : BitVec 6)) (decV ((encV a) : BitVec 6)) : Instr) = (.vScanMin p m d a) by simp <;> (repeat' apply And.intro) <;> first | with_reducible exact decVm_low _ _))⟩
theorem vScanMax (p : Pred) (m : VMode) (d a : VReg) : Statement (.vScanMax p m d a) := by
  intro w h; cases h
  exact ⟨rfl, (opc64 _ _ _ rfl).trans (congrArg some (show (.vScanMax (mkEnc 0x64 2 p ((0 : BitVec 2) ++ encVm m) (encV d) (encV a) 0 0 0 .none .none).f.pred (decVm ((((0 : BitVec 2) ++ encVm m) : BitVec 4).extractLsb' 0 2)) (decV ((encV d) : BitVec 6)) (decV ((encV a) : BitVec 6)) : Instr) = (.vScanMax p m d a) by simp <;> (repeat' apply And.intro) <;> first | with_reducible exact decVm_low _ _))⟩
theorem vScanXadd (p : Pred) (m : VMode) (d a : VReg) : Statement (.vScanXadd p m d a) := by
  intro w h; cases h
  exact ⟨rfl, (opc64 _ _ _ rfl).trans (congrArg some (show (.vScanXadd (mkEnc 0x64 3 p ((0 : BitVec 2) ++ encVm m) (encV d) (encV a) 0 0 0 .none .none).f.pred (decVm ((((0 : BitVec 2) ++ encVm m) : BitVec 4).extractLsb' 0 2)) (decV ((encV d) : BitVec 6)) (decV ((encV a) : BitVec 6)) : Instr) = (.vScanXadd p m d a) by simp <;> (repeat' apply And.intro) <;> first | with_reducible exact decVm_low _ _))⟩
theorem vScanFadd (p : Pred) (rm : RM) (d a : VReg) : Statement (.vScanFadd p rm d a) := by
  intro w h; cases h
  exact ⟨rfl, (opc65 _ _ _ rfl).trans (congrArg some (show (.vScanFadd (mkEnc 0x65 0 p ((0 : BitVec 1) ++ encRM rm) (encV d) (encV a) 0 0 0 .none .none).f.pred (decRM ((((0 : BitVec 1) ++ encRM rm) : BitVec 4).extractLsb' 0 3)) (decV ((encV d) : BitVec 6)) (decV ((encV a) : BitVec 6)) : Instr) = (.vScanFadd p rm d a) by simp <;> (repeat' apply And.intro) <;> first | with_reducible exact decRM_low _ _))⟩
theorem vScanFmin (p : Pred) (d a : VReg) : Statement (.vScanFmin p d a) := by
  intro w h; cases h
  exact ⟨rfl, (opc65 _ _ _ rfl).trans (congrArg some (show (.vScanFmin (mkEnc 0x65 1 p 0 (encV d) (encV a) 0 0 0 .none .none).f.pred (decV ((encV d) : BitVec 6)) (decV ((encV a) : BitVec 6)) : Instr) = (.vScanFmin p d a) by simp))⟩
theorem vScanFmax (p : Pred) (d a : VReg) : Statement (.vScanFmax p d a) := by
  intro w h; cases h
  exact ⟨rfl, (opc65 _ _ _ rfl).trans (congrArg some (show (.vScanFmax (mkEnc 0x65 2 p 0 (encV d) (encV a) 0 0 0 .none .none).f.pred (decV ((encV d) : BitVec 6)) (decV ((encV a) : BitVec 6)) : Instr) = (.vScanFmax p d a) by simp))⟩
theorem vCvtN (p : Pred) (rm : RM) (ty : CvtType) (d a : VReg) (fmt k : BitVec 5) : Statement (.vCvtN p rm ty d a fmt k) := by
  intro w h; cases h
  exact ⟨rfl, (opc66 _ _ _ rfl).trans (congrArg some (show (.vCvtN (mkEnc 0x66 0 p ((0 : BitVec 1) ++ encRM rm) (encV d) (encV a) 0 0 ((0 : BitVec 4) ++ encTy ty ++ k ++ fmt) .none .none).f.pred (decRM ((((0 : BitVec 1) ++ encRM rm) : BitVec 4).extractLsb' 0 3)) (decTy ((((0 : BitVec 4) ++ encTy ty ++ k ++ fmt) : BitVec 16).extractLsb' 10 2)) (decV ((encV d) : BitVec 6)) (decV ((encV a) : BitVec 6)) ((((0 : BitVec 4) ++ encTy ty ++ k ++ fmt) : BitVec 16).extractLsb' 0 5) ((((0 : BitVec 4) ++ encTy ty ++ k ++ fmt) : BitVec 16).extractLsb' 5 5) : Instr) = (.vCvtN p rm ty d a fmt k) by simp <;> (repeat' apply And.intro) <;> first | with_reducible exact decRM_low _ _ | with_reducible exact cvt_type _ _ _ | with_reducible exact extract_low _ _ | with_reducible exact extract_high _ _ | with_reducible exact extract_mid _ _ _))⟩
theorem vCvtW (p : Pred) (rm : RM) (ty : CvtType) (d a : VReg) (fmt k : BitVec 5) : Statement (.vCvtW p rm ty d a fmt k) := by
  intro w h; cases h
  exact ⟨rfl, (opc67 _ _ _ rfl).trans (congrArg some (show (.vCvtW (mkEnc 0x67 0 p ((0 : BitVec 1) ++ encRM rm) (encV d) (encV a) 0 0 ((0 : BitVec 4) ++ encTy ty ++ k ++ fmt) .none .none).f.pred (decRM ((((0 : BitVec 1) ++ encRM rm) : BitVec 4).extractLsb' 0 3)) (decTy ((((0 : BitVec 4) ++ encTy ty ++ k ++ fmt) : BitVec 16).extractLsb' 10 2)) (decV ((encV d) : BitVec 6)) (decV ((encV a) : BitVec 6)) ((((0 : BitVec 4) ++ encTy ty ++ k ++ fmt) : BitVec 16).extractLsb' 0 5) ((((0 : BitVec 4) ++ encTy ty ++ k ++ fmt) : BitVec 16).extractLsb' 5 5) : Instr) = (.vCvtW p rm ty d a fmt k) by simp <;> (repeat' apply And.intro) <;> first | with_reducible exact decRM_low _ _ | with_reducible exact cvt_type _ _ _ | with_reducible exact extract_low _ _ | with_reducible exact extract_high _ _ | with_reducible exact extract_mid _ _ _))⟩
theorem vLd (p : Pred) (px : Option Prefix) (d : VReg) (a : SReg) (disp : BitVec 16) : Statement (.vLd p px d a disp) := by
  intro w h; cases h
  exact ⟨rfl, (opc68 _ _ _ rfl).trans (congrArg some (show (.vLd (mkEnc 0x68 0 p 0 (encV d) (encS a) 0 0 disp .none px).f.pred px (decV ((encV d) : BitVec 6)) (decS ((encS a) : BitVec 6)) (disp : BitVec 16) : Instr) = (.vLd p px d a disp) by simp))⟩
theorem vLdLong (p : Pred) (px : Option Prefix) (d : VReg) (a : SReg) (disp : BitVec 32) : Statement (.vLdLong p px d a disp) := by
  intro w h; cases h
  exact ⟨rfl, (opc68 _ _ _ rfl).trans (congrArg some (show (.vLdLong (mkEnc 0x68 0 p 0 (encV d) (encS a) 0 0 0 (.w32 disp) px).f.pred px (decV ((encV d) : BitVec 6)) (decS ((encS a) : BitVec 6)) (disp : BitVec 32) : Instr) = (.vLdLong p px d a disp) by simp))⟩
theorem vLdS (p : Pred) (px : Option Prefix) (d : VReg) (a b : SReg) (disp : BitVec 16) : Statement (.vLdS p px d a b disp) := by
  intro w h; cases h
  exact ⟨rfl, (opc68 _ _ _ rfl).trans (congrArg some (show (.vLdS (mkEnc 0x68 1 p 0 (encV d) (encS a) (encS b) 0 disp .none px).f.pred px (decV ((encV d) : BitVec 6)) (decS ((encS a) : BitVec 6)) (decS ((encS b) : BitVec 6)) (disp : BitVec 16) : Instr) = (.vLdS p px d a b disp) by simp))⟩
theorem vLdSLong (p : Pred) (px : Option Prefix) (d : VReg) (a b : SReg) (disp : BitVec 32) : Statement (.vLdSLong p px d a b disp) := by
  intro w h; cases h
  exact ⟨rfl, (opc68 _ _ _ rfl).trans (congrArg some (show (.vLdSLong (mkEnc 0x68 1 p 0 (encV d) (encS a) (encS b) 0 0 (.w32 disp) px).f.pred px (decV ((encV d) : BitVec 6)) (decS ((encS a) : BitVec 6)) (decS ((encS b) : BitVec 6)) (disp : BitVec 32) : Instr) = (.vLdSLong p px d a b disp) by simp))⟩
theorem vSt (p : Pred) (px : Option Prefix) (c : VReg) (a : SReg) (disp : BitVec 16) : Statement (.vSt p px c a disp) := by
  intro w h; cases h
  exact ⟨rfl, (opc69 _ _ _ rfl).trans (congrArg some (show (.vSt (mkEnc 0x69 0 p 0 0 (encS a) 0 (encV c) disp .none px).f.pred px (decV ((encV c) : BitVec 6)) (decS ((encS a) : BitVec 6)) (disp : BitVec 16) : Instr) = (.vSt p px c a disp) by simp))⟩
theorem vStLong (p : Pred) (px : Option Prefix) (c : VReg) (a : SReg) (disp : BitVec 32) : Statement (.vStLong p px c a disp) := by
  intro w h; cases h
  exact ⟨rfl, (opc69 _ _ _ rfl).trans (congrArg some (show (.vStLong (mkEnc 0x69 0 p 0 0 (encS a) 0 (encV c) 0 (.w32 disp) px).f.pred px (decV ((encV c) : BitVec 6)) (decS ((encS a) : BitVec 6)) (disp : BitVec 32) : Instr) = (.vStLong p px c a disp) by simp))⟩
theorem vStS (p : Pred) (px : Option Prefix) (c : VReg) (a b : SReg) (disp : BitVec 16) : Statement (.vStS p px c a b disp) := by
  intro w h; cases h
  exact ⟨rfl, (opc69 _ _ _ rfl).trans (congrArg some (show (.vStS (mkEnc 0x69 1 p 0 0 (encS a) (encS b) (encV c) disp .none px).f.pred px (decV ((encV c) : BitVec 6)) (decS ((encS a) : BitVec 6)) (decS ((encS b) : BitVec 6)) (disp : BitVec 16) : Instr) = (.vStS p px c a b disp) by simp))⟩
theorem vStSLong (p : Pred) (px : Option Prefix) (c : VReg) (a b : SReg) (disp : BitVec 32) : Statement (.vStSLong p px c a b disp) := by
  intro w h; cases h
  exact ⟨rfl, (opc69 _ _ _ rfl).trans (congrArg some (show (.vStSLong (mkEnc 0x69 1 p 0 0 (encS a) (encS b) (encV c) 0 (.w32 disp) px).f.pred px (decV ((encV c) : BitVec 6)) (decS ((encS a) : BitVec 6)) (decS ((encS b) : BitVec 6)) (disp : BitVec 32) : Instr) = (.vStSLong p px c a b disp) by simp))⟩
theorem vLdQ (p : Pred) (px : Option Prefix) (d : VReg) (a : QReg) (disp : BitVec 16) : Statement (.vLdQ p px d a disp) := by
  intro w h; cases h
  exact ⟨rfl, (opc6A _ _ _ rfl).trans (congrArg some (show (.vLdQ (mkEnc 0x6A 0 p 0 (encV d) (encQ a) 0 0 disp .none px).f.pred px (decV ((encV d) : BitVec 6)) (decQ ((encQ a) : BitVec 6)) (disp : BitVec 16) : Instr) = (.vLdQ p px d a disp) by simp))⟩
theorem vLdQLong (p : Pred) (px : Option Prefix) (d : VReg) (a : QReg) (disp : BitVec 32) : Statement (.vLdQLong p px d a disp) := by
  intro w h; cases h
  exact ⟨rfl, (opc6A _ _ _ rfl).trans (congrArg some (show (.vLdQLong (mkEnc 0x6A 0 p 0 (encV d) (encQ a) 0 0 0 (.w32 disp) px).f.pred px (decV ((encV d) : BitVec 6)) (decQ ((encQ a) : BitVec 6)) (disp : BitVec 32) : Instr) = (.vLdQLong p px d a disp) by simp))⟩
theorem vLdQS (p : Pred) (px : Option Prefix) (d : VReg) (a : QReg) (b : SReg) (disp : BitVec 16) : Statement (.vLdQS p px d a b disp) := by
  intro w h; cases h
  exact ⟨rfl, (opc6A _ _ _ rfl).trans (congrArg some (show (.vLdQS (mkEnc 0x6A 1 p 0 (encV d) (encQ a) (encS b) 0 disp .none px).f.pred px (decV ((encV d) : BitVec 6)) (decQ ((encQ a) : BitVec 6)) (decS ((encS b) : BitVec 6)) (disp : BitVec 16) : Instr) = (.vLdQS p px d a b disp) by simp))⟩
theorem vLdQSLong (p : Pred) (px : Option Prefix) (d : VReg) (a : QReg) (b : SReg) (disp : BitVec 32) : Statement (.vLdQSLong p px d a b disp) := by
  intro w h; cases h
  exact ⟨rfl, (opc6A _ _ _ rfl).trans (congrArg some (show (.vLdQSLong (mkEnc 0x6A 1 p 0 (encV d) (encQ a) (encS b) 0 0 (.w32 disp) px).f.pred px (decV ((encV d) : BitVec 6)) (decQ ((encQ a) : BitVec 6)) (decS ((encS b) : BitVec 6)) (disp : BitVec 32) : Instr) = (.vLdQSLong p px d a b disp) by simp))⟩
theorem vStQ (p : Pred) (px : Option Prefix) (c : VReg) (a : QReg) (disp : BitVec 16) : Statement (.vStQ p px c a disp) := by
  intro w h; cases h
  exact ⟨rfl, (opc6B _ _ _ rfl).trans (congrArg some (show (.vStQ (mkEnc 0x6B 0 p 0 0 (encQ a) 0 (encV c) disp .none px).f.pred px (decV ((encV c) : BitVec 6)) (decQ ((encQ a) : BitVec 6)) (disp : BitVec 16) : Instr) = (.vStQ p px c a disp) by simp))⟩
theorem vStQLong (p : Pred) (px : Option Prefix) (c : VReg) (a : QReg) (disp : BitVec 32) : Statement (.vStQLong p px c a disp) := by
  intro w h; cases h
  exact ⟨rfl, (opc6B _ _ _ rfl).trans (congrArg some (show (.vStQLong (mkEnc 0x6B 0 p 0 0 (encQ a) 0 (encV c) 0 (.w32 disp) px).f.pred px (decV ((encV c) : BitVec 6)) (decQ ((encQ a) : BitVec 6)) (disp : BitVec 32) : Instr) = (.vStQLong p px c a disp) by simp))⟩
theorem vStQS (p : Pred) (px : Option Prefix) (c : VReg) (a : QReg) (b : SReg) (disp : BitVec 16) : Statement (.vStQS p px c a b disp) := by
  intro w h; cases h
  exact ⟨rfl, (opc6B _ _ _ rfl).trans (congrArg some (show (.vStQS (mkEnc 0x6B 1 p 0 0 (encQ a) (encS b) (encV c) disp .none px).f.pred px (decV ((encV c) : BitVec 6)) (decQ ((encQ a) : BitVec 6)) (decS ((encS b) : BitVec 6)) (disp : BitVec 16) : Instr) = (.vStQS p px c a b disp) by simp))⟩
theorem vStQSLong (p : Pred) (px : Option Prefix) (c : VReg) (a : QReg) (b : SReg) (disp : BitVec 32) : Statement (.vStQSLong p px c a b disp) := by
  intro w h; cases h
  exact ⟨rfl, (opc6B _ _ _ rfl).trans (congrArg some (show (.vStQSLong (mkEnc 0x6B 1 p 0 0 (encQ a) (encS b) (encV c) 0 (.w32 disp) px).f.pred px (decV ((encV c) : BitVec 6)) (decQ ((encQ a) : BitVec 6)) (decS ((encS b) : BitVec 6)) (disp : BitVec 32) : Instr) = (.vStQSLong p px c a b disp) by simp))⟩
theorem vGath (p : Pred) (px : Option Prefix) (d : VReg) (a : SReg) (b : VReg) (sh : BitVec 2) (disp : BitVec 16) : Statement (.vGath p px d a b sh disp) := by
  intro w h; cases h
  exact ⟨rfl, (opc6C _ _ _ rfl).trans (congrArg some (show (.vGath (mkEnc 0x6C 0 p ((0 : BitVec 2) ++ sh) (encV d) (encS a) (encV b) 0 disp .none px).f.pred px (decV ((encV d) : BitVec 6)) (decS ((encS a) : BitVec 6)) (decV ((encV b) : BitVec 6)) ((((0 : BitVec 2) ++ sh) : BitVec 4).extractLsb' 0 2) (disp : BitVec 16) : Instr) = (.vGath p px d a b sh disp) by simp <;> (repeat' apply And.intro) <;> first | with_reducible exact extract_low _ _ | with_reducible exact extract_high _ _ | with_reducible exact extract_mid _ _ _))⟩
theorem vScat (p : Pred) (px : Option Prefix) (c : VReg) (a : SReg) (b : VReg) (sh : BitVec 2) (disp : BitVec 16) : Statement (.vScat p px c a b sh disp) := by
  intro w h; cases h
  exact ⟨rfl, (opc6D _ _ _ rfl).trans (congrArg some (show (.vScat (mkEnc 0x6D 0 p ((0 : BitVec 2) ++ sh) 0 (encS a) (encV b) (encV c) disp .none px).f.pred px (decV ((encV c) : BitVec 6)) (decS ((encS a) : BitVec 6)) (decV ((encV b) : BitVec 6)) ((((0 : BitVec 2) ++ sh) : BitVec 4).extractLsb' 0 2) (disp : BitVec 16) : Instr) = (.vScat p px c a b sh disp) by simp <;> (repeat' apply And.intro) <;> first | with_reducible exact extract_low _ _ | with_reducible exact extract_high _ _ | with_reducible exact extract_mid _ _ _))⟩
theorem vTdec (p : Pred) (px : Option Prefix) (rm : RM) (int : Bool) (d : VReg) (t : TidN) (a : SReg) : Statement (.vTdec p px rm int d t a) := by
  intro w h; cases h
  exact ⟨rfl, (opc6E _ _ _ rfl).trans (congrArg some (show (.vTdec (mkEnc 0x6E 0 p ((0 : BitVec 1) ++ encRM rm) (encV d) (encS a) (encS t) 0 ((0 : BitVec 15) ++ encB int) .none px).f.pred px (decRM ((((0 : BitVec 1) ++ encRM rm) : BitVec 4).extractLsb' 0 3)) ((((0 : BitVec 15) ++ encB int) : BitVec 16).getLsbD 0) (decV ((encV d) : BitVec 6)) (decS ((encS t) : BitVec 6)) (decS ((encS a) : BitVec 6)) : Instr) = (.vTdec p px rm int d t a) by simp <;> (repeat' apply And.intro) <;> first | with_reducible exact tdec_int _ | with_reducible exact decRM_low _ _ | with_reducible exact extract_low _ _ | with_reducible exact extract_high _ _ | with_reducible exact extract_mid _ _ _))⟩
theorem vTdecLong (p : Pred) (px : Option Prefix) (rm : RM) (int : Bool) (d : VReg) (t : TidN) (a : SReg) (axis : BitVec 2) (stp : BitVec 16) : Statement (.vTdecLong p px rm int d t a axis stp) := by
  intro w h; cases h
  exact ⟨rfl, (opc6E _ _ _ rfl).trans (congrArg some (show (.vTdecLong (mkEnc 0x6E 0 p ((0 : BitVec 1) ++ encRM rm) (encV d) (encS a) (encS t) 0 ((0 : BitVec 15) ++ encB int) (.w32 (stp ++ (0 : BitVec 14) ++ axis)) px).f.pred px (decRM ((((0 : BitVec 1) ++ encRM rm) : BitVec 4).extractLsb' 0 3)) ((((0 : BitVec 15) ++ encB int) : BitVec 16).getLsbD 0) (decV ((encV d) : BitVec 6)) (decS ((encS t) : BitVec 6)) (decS ((encS a) : BitVec 6)) (((stp ++ (0 : BitVec 14) ++ axis) : BitVec 32).extractLsb' 0 2) (((stp ++ (0 : BitVec 14) ++ axis) : BitVec 32).extractLsb' 16 16) : Instr) = (.vTdecLong p px rm int d t a axis stp) by simp <;> (repeat' apply And.intro) <;> first | with_reducible exact tdec_int _ | with_reducible exact decRM_low _ _ | with_reducible exact tdec_step _ _ | with_reducible exact extract_low _ _ | with_reducible exact extract_high _ _ | with_reducible exact extract_mid _ _ _))⟩
theorem vTdecQ (p : Pred) (px : Option Prefix) (rm : RM) (int : Bool) (d : VReg) (t : TidN) (a : QReg) : Statement (.vTdecQ p px rm int d t a) := by
  intro w h; cases h
  exact ⟨rfl, (opc6E _ _ _ rfl).trans (congrArg some (show (.vTdecQ (mkEnc 0x6E 1 p ((0 : BitVec 1) ++ encRM rm) (encV d) (encQ a) (encS t) 0 ((0 : BitVec 15) ++ encB int) .none px).f.pred px (decRM ((((0 : BitVec 1) ++ encRM rm) : BitVec 4).extractLsb' 0 3)) ((((0 : BitVec 15) ++ encB int) : BitVec 16).getLsbD 0) (decV ((encV d) : BitVec 6)) (decS ((encS t) : BitVec 6)) (decQ ((encQ a) : BitVec 6)) : Instr) = (.vTdecQ p px rm int d t a) by simp <;> (repeat' apply And.intro) <;> first | with_reducible exact tdec_int _ | with_reducible exact decRM_low _ _ | with_reducible exact extract_low _ _ | with_reducible exact extract_high _ _ | with_reducible exact extract_mid _ _ _))⟩
theorem vTdecQLong (p : Pred) (px : Option Prefix) (rm : RM) (int : Bool) (d : VReg) (t : TidN) (a : QReg) (axis : BitVec 2) (stp : BitVec 16) : Statement (.vTdecQLong p px rm int d t a axis stp) := by
  intro w h; cases h
  exact ⟨rfl, (opc6E _ _ _ rfl).trans (congrArg some (show (.vTdecQLong (mkEnc 0x6E 1 p ((0 : BitVec 1) ++ encRM rm) (encV d) (encQ a) (encS t) 0 ((0 : BitVec 15) ++ encB int) (.w32 (stp ++ (0 : BitVec 14) ++ axis)) px).f.pred px (decRM ((((0 : BitVec 1) ++ encRM rm) : BitVec 4).extractLsb' 0 3)) ((((0 : BitVec 15) ++ encB int) : BitVec 16).getLsbD 0) (decV ((encV d) : BitVec 6)) (decS ((encS t) : BitVec 6)) (decQ ((encQ a) : BitVec 6)) (((stp ++ (0 : BitVec 14) ++ axis) : BitVec 32).extractLsb' 0 2) (((stp ++ (0 : BitVec 14) ++ axis) : BitVec 32).extractLsb' 16 16) : Instr) = (.vTdecQLong p px rm int d t a axis stp) by simp <;> (repeat' apply And.intro) <;> first | with_reducible exact tdec_int _ | with_reducible exact decRM_low _ _ | with_reducible exact tdec_step _ _ | with_reducible exact extract_low _ _ | with_reducible exact extract_high _ _ | with_reducible exact extract_mid _ _ _))⟩
theorem vTenc (p : Pred) (px : Option Prefix) (rm : RM) (int : Bool) (c : VReg) (t : TidN) (a : SReg) : Statement (.vTenc p px rm int c t a) := by
  intro w h; cases h
  exact ⟨rfl, (opc6F _ _ _ rfl).trans (congrArg some (show (.vTenc (mkEnc 0x6F 0 p ((0 : BitVec 1) ++ encRM rm) 0 (encS a) (encS t) (encV c) ((0 : BitVec 15) ++ encB int) .none px).f.pred px (decRM ((((0 : BitVec 1) ++ encRM rm) : BitVec 4).extractLsb' 0 3)) ((((0 : BitVec 15) ++ encB int) : BitVec 16).getLsbD 0) (decV ((encV c) : BitVec 6)) (decS ((encS t) : BitVec 6)) (decS ((encS a) : BitVec 6)) : Instr) = (.vTenc p px rm int c t a) by simp <;> (repeat' apply And.intro) <;> first | with_reducible exact tdec_int _ | with_reducible exact decRM_low _ _ | with_reducible exact extract_low _ _ | with_reducible exact extract_high _ _ | with_reducible exact extract_mid _ _ _))⟩
theorem vTencLong (p : Pred) (px : Option Prefix) (rm : RM) (int : Bool) (c : VReg) (t : TidN) (a : SReg) (axis : BitVec 2) (stp : BitVec 16) : Statement (.vTencLong p px rm int c t a axis stp) := by
  intro w h; cases h
  exact ⟨rfl, (opc6F _ _ _ rfl).trans (congrArg some (show (.vTencLong (mkEnc 0x6F 0 p ((0 : BitVec 1) ++ encRM rm) 0 (encS a) (encS t) (encV c) ((0 : BitVec 15) ++ encB int) (.w32 (stp ++ (0 : BitVec 14) ++ axis)) px).f.pred px (decRM ((((0 : BitVec 1) ++ encRM rm) : BitVec 4).extractLsb' 0 3)) ((((0 : BitVec 15) ++ encB int) : BitVec 16).getLsbD 0) (decV ((encV c) : BitVec 6)) (decS ((encS t) : BitVec 6)) (decS ((encS a) : BitVec 6)) (((stp ++ (0 : BitVec 14) ++ axis) : BitVec 32).extractLsb' 0 2) (((stp ++ (0 : BitVec 14) ++ axis) : BitVec 32).extractLsb' 16 16) : Instr) = (.vTencLong p px rm int c t a axis stp) by simp <;> (repeat' apply And.intro) <;> first | with_reducible exact tdec_int _ | with_reducible exact decRM_low _ _ | with_reducible exact tdec_step _ _ | with_reducible exact extract_low _ _ | with_reducible exact extract_high _ _ | with_reducible exact extract_mid _ _ _))⟩
theorem vTencQ (p : Pred) (px : Option Prefix) (rm : RM) (int : Bool) (c : VReg) (t : TidN) (a : QReg) : Statement (.vTencQ p px rm int c t a) := by
  intro w h; cases h
  exact ⟨rfl, (opc6F _ _ _ rfl).trans (congrArg some (show (.vTencQ (mkEnc 0x6F 1 p ((0 : BitVec 1) ++ encRM rm) 0 (encQ a) (encS t) (encV c) ((0 : BitVec 15) ++ encB int) .none px).f.pred px (decRM ((((0 : BitVec 1) ++ encRM rm) : BitVec 4).extractLsb' 0 3)) ((((0 : BitVec 15) ++ encB int) : BitVec 16).getLsbD 0) (decV ((encV c) : BitVec 6)) (decS ((encS t) : BitVec 6)) (decQ ((encQ a) : BitVec 6)) : Instr) = (.vTencQ p px rm int c t a) by simp <;> (repeat' apply And.intro) <;> first | with_reducible exact tdec_int _ | with_reducible exact decRM_low _ _ | with_reducible exact extract_low _ _ | with_reducible exact extract_high _ _ | with_reducible exact extract_mid _ _ _))⟩
theorem vTencQLong (p : Pred) (px : Option Prefix) (rm : RM) (int : Bool) (c : VReg) (t : TidN) (a : QReg) (axis : BitVec 2) (stp : BitVec 16) : Statement (.vTencQLong p px rm int c t a axis stp) := by
  intro w h; cases h
  exact ⟨rfl, (opc6F _ _ _ rfl).trans (congrArg some (show (.vTencQLong (mkEnc 0x6F 1 p ((0 : BitVec 1) ++ encRM rm) 0 (encQ a) (encS t) (encV c) ((0 : BitVec 15) ++ encB int) (.w32 (stp ++ (0 : BitVec 14) ++ axis)) px).f.pred px (decRM ((((0 : BitVec 1) ++ encRM rm) : BitVec 4).extractLsb' 0 3)) ((((0 : BitVec 15) ++ encB int) : BitVec 16).getLsbD 0) (decV ((encV c) : BitVec 6)) (decS ((encS t) : BitVec 6)) (decQ ((encQ a) : BitVec 6)) (((stp ++ (0 : BitVec 14) ++ axis) : BitVec 32).extractLsb' 0 2) (((stp ++ (0 : BitVec 14) ++ axis) : BitVec 32).extractLsb' 16 16) : Instr) = (.vTencQLong p px rm int c t a axis stp) by simp <;> (repeat' apply And.intro) <;> first | with_reducible exact tdec_int _ | with_reducible exact decRM_low _ _ | with_reducible exact tdec_step _ _ | with_reducible exact extract_low _ _ | with_reducible exact extract_high _ _ | with_reducible exact extract_mid _ _ _))⟩
theorem mxMma (p : Pred) (i32 accz : Bool) (d : AReg) (ta tb : TidN) (c : SReg) (nslm1 : BitVec 10) (h : Option HReg) : Statement (.mxMma p i32 accz d ta tb c nslm1 h) := by
  intro w h; cases h
  exact ⟨rfl, (opc90 _ _ _ rfl).trans (congrArg some (show (.mxMma (mkEnc 0x90 0 p (encShift accz i32) (encP d) (encS ta) (encS tb) (encS c) (encHen h ++ nslm1) .none .none).f.pred (((encShift accz i32) : BitVec 4).getLsbD 0) (((encShift accz i32) : BitVec 4).getLsbD 1) (decP ((encP d) : BitVec 6)) (decS ((encS ta) : BitVec 6)) (decS ((encS tb) : BitVec 6)) (decS ((encS c) : BitVec 6)) (((encHen h ++ nslm1) : BitVec 16).extractLsb' 0 10) (decHen (((encHen h ++ nslm1) : BitVec 16).extractLsb' 10 6)) : Instr) = (.mxMma p i32 accz d ta tb c nslm1 h) by simp <;> (repeat' apply And.intro) <;> first | with_reducible exact decHen_high _ _ | with_reducible exact extract_low _ _ | with_reducible exact extract_high _ _ | with_reducible exact extract_mid _ _ _))⟩
theorem mxMmaLong (p : Pred) (i32 accz : Bool) (d : AReg) (ta tb : TidN) (c : SReg) (nslm1 : BitVec 10) (h : Option HReg) (fa fb : BitVec 16) : Statement (.mxMmaLong p i32 accz d ta tb c nslm1 h fa fb) := by
  intro w h; cases h
  exact ⟨rfl, (opc90 _ _ _ rfl).trans (congrArg some (show (.mxMmaLong (mkEnc 0x90 0 p (encShift accz i32) (encP d) (encS ta) (encS tb) (encS c) (encHen h ++ nslm1) (.w32 (fb ++ fa)) .none).f.pred (((encShift accz i32) : BitVec 4).getLsbD 0) (((encShift accz i32) : BitVec 4).getLsbD 1) (decP ((encP d) : BitVec 6)) (decS ((encS ta) : BitVec 6)) (decS ((encS tb) : BitVec 6)) (decS ((encS c) : BitVec 6)) (((encHen h ++ nslm1) : BitVec 16).extractLsb' 0 10) (decHen (((encHen h ++ nslm1) : BitVec 16).extractLsb' 10 6)) (((fb ++ fa) : BitVec 32).extractLsb' 0 16) (((fb ++ fa) : BitVec 32).extractLsb' 16 16) : Instr) = (.mxMmaLong p i32 accz d ta tb c nslm1 h fa fb) by simp <;> (repeat' apply And.intro) <;> first | with_reducible exact decHen_high _ _ | with_reducible exact extract_low _ _ | with_reducible exact extract_high _ _ | with_reducible exact extract_mid _ _ _))⟩
theorem mxMmaQ (p : Pred) (i32 accz : Bool) (d : AReg) (ta tb : TidN) (c : QReg) (nslm1 : BitVec 10) (h : Option HReg) : Statement (.mxMmaQ p i32 accz d ta tb c nslm1 h) := by
  intro w h; cases h
  exact ⟨rfl, (opc90 _ _ _ rfl).trans (congrArg some (show (.mxMmaQ (mkEnc 0x90 1 p (encShift accz i32) (encP d) (encS ta) (encS tb) (encQ c) (encHen h ++ nslm1) .none .none).f.pred (((encShift accz i32) : BitVec 4).getLsbD 0) (((encShift accz i32) : BitVec 4).getLsbD 1) (decP ((encP d) : BitVec 6)) (decS ((encS ta) : BitVec 6)) (decS ((encS tb) : BitVec 6)) (decQ ((encQ c) : BitVec 6)) (((encHen h ++ nslm1) : BitVec 16).extractLsb' 0 10) (decHen (((encHen h ++ nslm1) : BitVec 16).extractLsb' 10 6)) : Instr) = (.mxMmaQ p i32 accz d ta tb c nslm1 h) by simp <;> (repeat' apply And.intro) <;> first | with_reducible exact decHen_high _ _ | with_reducible exact extract_low _ _ | with_reducible exact extract_high _ _ | with_reducible exact extract_mid _ _ _))⟩
theorem mxMmaQLong (p : Pred) (i32 accz : Bool) (d : AReg) (ta tb : TidN) (c : QReg) (nslm1 : BitVec 10) (h : Option HReg) (fa fb : BitVec 16) : Statement (.mxMmaQLong p i32 accz d ta tb c nslm1 h fa fb) := by
  intro w h; cases h
  exact ⟨rfl, (opc90 _ _ _ rfl).trans (congrArg some (show (.mxMmaQLong (mkEnc 0x90 1 p (encShift accz i32) (encP d) (encS ta) (encS tb) (encQ c) (encHen h ++ nslm1) (.w32 (fb ++ fa)) .none).f.pred (((encShift accz i32) : BitVec 4).getLsbD 0) (((encShift accz i32) : BitVec 4).getLsbD 1) (decP ((encP d) : BitVec 6)) (decS ((encS ta) : BitVec 6)) (decS ((encS tb) : BitVec 6)) (decQ ((encQ c) : BitVec 6)) (((encHen h ++ nslm1) : BitVec 16).extractLsb' 0 10) (decHen (((encHen h ++ nslm1) : BitVec 16).extractLsb' 10 6)) (((fb ++ fa) : BitVec 32).extractLsb' 0 16) (((fb ++ fa) : BitVec 32).extractLsb' 16 16) : Instr) = (.mxMmaQLong p i32 accz d ta tb c nslm1 h fa fb) by simp <;> (repeat' apply And.intro) <;> first | with_reducible exact decHen_high _ _ | with_reducible exact extract_low _ _ | with_reducible exact extract_high _ _ | with_reducible exact extract_mid _ _ _))⟩
theorem mxPlane (p : Pred) (rm : RM) (ta tb : TidN) (c : SReg) (nb0m1 nb1m1 : BitVec 5) (h : Option HReg) : Statement (.mxPlane p rm ta tb c nb0m1 nb1m1 h) := by
  intro w h; cases h
  exact ⟨rfl, (opc91 _ _ _ rfl).trans (congrArg some (show (.mxPlane (mkEnc 0x91 0 p ((0 : BitVec 1) ++ encRM rm) 0 (encS ta) (encS tb) (encS c) (encHen h ++ nb1m1 ++ nb0m1) .none .none).f.pred (decRM ((((0 : BitVec 1) ++ encRM rm) : BitVec 4).extractLsb' 0 3)) (decS ((encS ta) : BitVec 6)) (decS ((encS tb) : BitVec 6)) (decS ((encS c) : BitVec 6)) (((encHen h ++ nb1m1 ++ nb0m1) : BitVec 16).extractLsb' 0 5) (((encHen h ++ nb1m1 ++ nb0m1) : BitVec 16).extractLsb' 5 5) (decHen (((encHen h ++ nb1m1 ++ nb0m1) : BitVec 16).extractLsb' 10 6)) : Instr) = (.mxPlane p rm ta tb c nb0m1 nb1m1 h) by simp <;> (repeat' apply And.intro) <;> first | with_reducible exact decRM_low _ _ | with_reducible exact decHen_top _ _ _ | with_reducible exact extract_low _ _ | with_reducible exact extract_high _ _ | with_reducible exact extract_mid _ _ _))⟩
theorem mxPlaneLong (p : Pred) (rm : RM) (ta tb : TidN) (c : SReg) (nb0m1 nb1m1 : BitVec 5) (h : Option HReg) (o0 o1 : BitVec 16) : Statement (.mxPlaneLong p rm ta tb c nb0m1 nb1m1 h o0 o1) := by
  intro w h; cases h
  exact ⟨rfl, (opc91 _ _ _ rfl).trans (congrArg some (show (.mxPlaneLong (mkEnc 0x91 0 p ((0 : BitVec 1) ++ encRM rm) 0 (encS ta) (encS tb) (encS c) (encHen h ++ nb1m1 ++ nb0m1) (.w32 (o1 ++ o0)) .none).f.pred (decRM ((((0 : BitVec 1) ++ encRM rm) : BitVec 4).extractLsb' 0 3)) (decS ((encS ta) : BitVec 6)) (decS ((encS tb) : BitVec 6)) (decS ((encS c) : BitVec 6)) (((encHen h ++ nb1m1 ++ nb0m1) : BitVec 16).extractLsb' 0 5) (((encHen h ++ nb1m1 ++ nb0m1) : BitVec 16).extractLsb' 5 5) (decHen (((encHen h ++ nb1m1 ++ nb0m1) : BitVec 16).extractLsb' 10 6)) (((o1 ++ o0) : BitVec 32).extractLsb' 0 16) (((o1 ++ o0) : BitVec 32).extractLsb' 16 16) : Instr) = (.mxPlaneLong p rm ta tb c nb0m1 nb1m1 h o0 o1) by simp <;> (repeat' apply And.intro) <;> first | with_reducible exact decRM_low _ _ | with_reducible exact decHen_top _ _ _ | with_reducible exact extract_low _ _ | with_reducible exact extract_high _ _ | with_reducible exact extract_mid _ _ _))⟩
theorem mxPlaneQ (p : Pred) (rm : RM) (ta tb : TidN) (c : QReg) (nb0m1 nb1m1 : BitVec 5) (h : Option HReg) : Statement (.mxPlaneQ p rm ta tb c nb0m1 nb1m1 h) := by
  intro w h; cases h
  exact ⟨rfl, (opc91 _ _ _ rfl).trans (congrArg some (show (.mxPlaneQ (mkEnc 0x91 1 p ((0 : BitVec 1) ++ encRM rm) 0 (encS ta) (encS tb) (encQ c) (encHen h ++ nb1m1 ++ nb0m1) .none .none).f.pred (decRM ((((0 : BitVec 1) ++ encRM rm) : BitVec 4).extractLsb' 0 3)) (decS ((encS ta) : BitVec 6)) (decS ((encS tb) : BitVec 6)) (decQ ((encQ c) : BitVec 6)) (((encHen h ++ nb1m1 ++ nb0m1) : BitVec 16).extractLsb' 0 5) (((encHen h ++ nb1m1 ++ nb0m1) : BitVec 16).extractLsb' 5 5) (decHen (((encHen h ++ nb1m1 ++ nb0m1) : BitVec 16).extractLsb' 10 6)) : Instr) = (.mxPlaneQ p rm ta tb c nb0m1 nb1m1 h) by simp <;> (repeat' apply And.intro) <;> first | with_reducible exact decRM_low _ _ | with_reducible exact decHen_top _ _ _ | with_reducible exact extract_low _ _ | with_reducible exact extract_high _ _ | with_reducible exact extract_mid _ _ _))⟩
theorem mxPlaneQLong (p : Pred) (rm : RM) (ta tb : TidN) (c : QReg) (nb0m1 nb1m1 : BitVec 5) (h : Option HReg) (o0 o1 : BitVec 16) : Statement (.mxPlaneQLong p rm ta tb c nb0m1 nb1m1 h o0 o1) := by
  intro w h; cases h
  exact ⟨rfl, (opc91 _ _ _ rfl).trans (congrArg some (show (.mxPlaneQLong (mkEnc 0x91 1 p ((0 : BitVec 1) ++ encRM rm) 0 (encS ta) (encS tb) (encQ c) (encHen h ++ nb1m1 ++ nb0m1) (.w32 (o1 ++ o0)) .none).f.pred (decRM ((((0 : BitVec 1) ++ encRM rm) : BitVec 4).extractLsb' 0 3)) (decS ((encS ta) : BitVec 6)) (decS ((encS tb) : BitVec 6)) (decQ ((encQ c) : BitVec 6)) (((encHen h ++ nb1m1 ++ nb0m1) : BitVec 16).extractLsb' 0 5) (((encHen h ++ nb1m1 ++ nb0m1) : BitVec 16).extractLsb' 5 5) (decHen (((encHen h ++ nb1m1 ++ nb0m1) : BitVec 16).extractLsb' 10 6)) (((o1 ++ o0) : BitVec 32).extractLsb' 0 16) (((o1 ++ o0) : BitVec 32).extractLsb' 16 16) : Instr) = (.mxPlaneQLong p rm ta tb c nb0m1 nb1m1 h o0 o1) by simp <;> (repeat' apply And.intro) <;> first | with_reducible exact decRM_low _ _ | with_reducible exact decHen_top _ _ _ | with_reducible exact extract_low _ _ | with_reducible exact extract_high _ _ | with_reducible exact extract_mid _ _ _))⟩
theorem mxUnplane (p : Pred) (rm : RM) (ta tb : TidN) (c : SReg) (nb0m1 nb1m1 : BitVec 5) (h : Option HReg) : Statement (.mxUnplane p rm ta tb c nb0m1 nb1m1 h) := by
  intro w h; cases h
  exact ⟨rfl, (opc92 _ _ _ rfl).trans (congrArg some (show (.mxUnplane (mkEnc 0x92 0 p ((0 : BitVec 1) ++ encRM rm) 0 (encS ta) (encS tb) (encS c) (encHen h ++ nb1m1 ++ nb0m1) .none .none).f.pred (decRM ((((0 : BitVec 1) ++ encRM rm) : BitVec 4).extractLsb' 0 3)) (decS ((encS ta) : BitVec 6)) (decS ((encS tb) : BitVec 6)) (decS ((encS c) : BitVec 6)) (((encHen h ++ nb1m1 ++ nb0m1) : BitVec 16).extractLsb' 0 5) (((encHen h ++ nb1m1 ++ nb0m1) : BitVec 16).extractLsb' 5 5) (decHen (((encHen h ++ nb1m1 ++ nb0m1) : BitVec 16).extractLsb' 10 6)) : Instr) = (.mxUnplane p rm ta tb c nb0m1 nb1m1 h) by simp <;> (repeat' apply And.intro) <;> first | with_reducible exact decRM_low _ _ | with_reducible exact decHen_top _ _ _ | with_reducible exact extract_low _ _ | with_reducible exact extract_high _ _ | with_reducible exact extract_mid _ _ _))⟩
theorem mxUnplaneLong (p : Pred) (rm : RM) (ta tb : TidN) (c : SReg) (nb0m1 nb1m1 : BitVec 5) (h : Option HReg) (o0 o1 : BitVec 16) : Statement (.mxUnplaneLong p rm ta tb c nb0m1 nb1m1 h o0 o1) := by
  intro w h; cases h
  exact ⟨rfl, (opc92 _ _ _ rfl).trans (congrArg some (show (.mxUnplaneLong (mkEnc 0x92 0 p ((0 : BitVec 1) ++ encRM rm) 0 (encS ta) (encS tb) (encS c) (encHen h ++ nb1m1 ++ nb0m1) (.w32 (o1 ++ o0)) .none).f.pred (decRM ((((0 : BitVec 1) ++ encRM rm) : BitVec 4).extractLsb' 0 3)) (decS ((encS ta) : BitVec 6)) (decS ((encS tb) : BitVec 6)) (decS ((encS c) : BitVec 6)) (((encHen h ++ nb1m1 ++ nb0m1) : BitVec 16).extractLsb' 0 5) (((encHen h ++ nb1m1 ++ nb0m1) : BitVec 16).extractLsb' 5 5) (decHen (((encHen h ++ nb1m1 ++ nb0m1) : BitVec 16).extractLsb' 10 6)) (((o1 ++ o0) : BitVec 32).extractLsb' 0 16) (((o1 ++ o0) : BitVec 32).extractLsb' 16 16) : Instr) = (.mxUnplaneLong p rm ta tb c nb0m1 nb1m1 h o0 o1) by simp <;> (repeat' apply And.intro) <;> first | with_reducible exact decRM_low _ _ | with_reducible exact decHen_top _ _ _ | with_reducible exact extract_low _ _ | with_reducible exact extract_high _ _ | with_reducible exact extract_mid _ _ _))⟩
theorem mxUnplaneQ (p : Pred) (rm : RM) (ta tb : TidN) (c : QReg) (nb0m1 nb1m1 : BitVec 5) (h : Option HReg) : Statement (.mxUnplaneQ p rm ta tb c nb0m1 nb1m1 h) := by
  intro w h; cases h
  exact ⟨rfl, (opc92 _ _ _ rfl).trans (congrArg some (show (.mxUnplaneQ (mkEnc 0x92 1 p ((0 : BitVec 1) ++ encRM rm) 0 (encS ta) (encS tb) (encQ c) (encHen h ++ nb1m1 ++ nb0m1) .none .none).f.pred (decRM ((((0 : BitVec 1) ++ encRM rm) : BitVec 4).extractLsb' 0 3)) (decS ((encS ta) : BitVec 6)) (decS ((encS tb) : BitVec 6)) (decQ ((encQ c) : BitVec 6)) (((encHen h ++ nb1m1 ++ nb0m1) : BitVec 16).extractLsb' 0 5) (((encHen h ++ nb1m1 ++ nb0m1) : BitVec 16).extractLsb' 5 5) (decHen (((encHen h ++ nb1m1 ++ nb0m1) : BitVec 16).extractLsb' 10 6)) : Instr) = (.mxUnplaneQ p rm ta tb c nb0m1 nb1m1 h) by simp <;> (repeat' apply And.intro) <;> first | with_reducible exact decRM_low _ _ | with_reducible exact decHen_top _ _ _ | with_reducible exact extract_low _ _ | with_reducible exact extract_high _ _ | with_reducible exact extract_mid _ _ _))⟩
theorem mxUnplaneQLong (p : Pred) (rm : RM) (ta tb : TidN) (c : QReg) (nb0m1 nb1m1 : BitVec 5) (h : Option HReg) (o0 o1 : BitVec 16) : Statement (.mxUnplaneQLong p rm ta tb c nb0m1 nb1m1 h o0 o1) := by
  intro w h; cases h
  exact ⟨rfl, (opc92 _ _ _ rfl).trans (congrArg some (show (.mxUnplaneQLong (mkEnc 0x92 1 p ((0 : BitVec 1) ++ encRM rm) 0 (encS ta) (encS tb) (encQ c) (encHen h ++ nb1m1 ++ nb0m1) (.w32 (o1 ++ o0)) .none).f.pred (decRM ((((0 : BitVec 1) ++ encRM rm) : BitVec 4).extractLsb' 0 3)) (decS ((encS ta) : BitVec 6)) (decS ((encS tb) : BitVec 6)) (decQ ((encQ c) : BitVec 6)) (((encHen h ++ nb1m1 ++ nb0m1) : BitVec 16).extractLsb' 0 5) (((encHen h ++ nb1m1 ++ nb0m1) : BitVec 16).extractLsb' 5 5) (decHen (((encHen h ++ nb1m1 ++ nb0m1) : BitVec 16).extractLsb' 10 6)) (((o1 ++ o0) : BitVec 32).extractLsb' 0 16) (((o1 ++ o0) : BitVec 32).extractLsb' 16 16) : Instr) = (.mxUnplaneQLong p rm ta tb c nb0m1 nb1m1 h o0 o1) by simp <;> (repeat' apply And.intro) <;> first | with_reducible exact decRM_low _ _ | with_reducible exact decHen_top _ _ _ | with_reducible exact extract_low _ _ | with_reducible exact extract_high _ _ | with_reducible exact extract_mid _ _ _))⟩
theorem mxSt (p : Pred) (rm : RM) (i32 : Bool) (a : AReg) (tb : TidN) (c : SReg) (h : Option HReg) : Statement (.mxSt p rm i32 a tb c h) := by
  intro w h; cases h
  exact ⟨rfl, (opc93 _ _ _ rfl).trans (congrArg some (show (.mxSt (mkEnc 0x93 0 p (encB i32 ++ encRM rm) 0 (encP a) (encS tb) (encS c) (encHen h ++ (0 : BitVec 10)) .none .none).f.pred (decRM (((encB i32 ++ encRM rm) : BitVec 4).extractLsb' 0 3)) (((encB i32 ++ encRM rm) : BitVec 4).getLsbD 3) (decP ((encP a) : BitVec 6)) (decS ((encS tb) : BitVec 6)) (decS ((encS c) : BitVec 6)) (decHen (((encHen h ++ (0 : BitVec 10)) : BitVec 16).extractLsb' 10 6)) : Instr) = (.mxSt p rm i32 a tb c h) by simp <;> (repeat' apply And.intro) <;> first | with_reducible exact mxst_bit _ _ | with_reducible exact decRM_low _ _ | with_reducible exact decHen_high _ _ | with_reducible exact extract_low _ _ | with_reducible exact extract_high _ _ | with_reducible exact extract_mid _ _ _))⟩
theorem mxStLong (p : Pred) (rm : RM) (i32 : Bool) (a : AReg) (tb : TidN) (c : SReg) (h : Option HReg) (f2 f3 : BitVec 16) : Statement (.mxStLong p rm i32 a tb c h f2 f3) := by
  intro w h; cases h
  exact ⟨rfl, (opc93 _ _ _ rfl).trans (congrArg some (show (.mxStLong (mkEnc 0x93 0 p (encB i32 ++ encRM rm) 0 (encP a) (encS tb) (encS c) (encHen h ++ (0 : BitVec 10)) (.w32 (f3 ++ f2)) .none).f.pred (decRM (((encB i32 ++ encRM rm) : BitVec 4).extractLsb' 0 3)) (((encB i32 ++ encRM rm) : BitVec 4).getLsbD 3) (decP ((encP a) : BitVec 6)) (decS ((encS tb) : BitVec 6)) (decS ((encS c) : BitVec 6)) (decHen (((encHen h ++ (0 : BitVec 10)) : BitVec 16).extractLsb' 10 6)) (((f3 ++ f2) : BitVec 32).extractLsb' 0 16) (((f3 ++ f2) : BitVec 32).extractLsb' 16 16) : Instr) = (.mxStLong p rm i32 a tb c h f2 f3) by simp <;> (repeat' apply And.intro) <;> first | with_reducible exact mxst_bit _ _ | with_reducible exact decRM_low _ _ | with_reducible exact decHen_high _ _ | with_reducible exact extract_low _ _ | with_reducible exact extract_high _ _ | with_reducible exact extract_mid _ _ _))⟩
theorem mxStQ (p : Pred) (rm : RM) (i32 : Bool) (a : AReg) (tb : TidN) (c : QReg) (h : Option HReg) : Statement (.mxStQ p rm i32 a tb c h) := by
  intro w h; cases h
  exact ⟨rfl, (opc93 _ _ _ rfl).trans (congrArg some (show (.mxStQ (mkEnc 0x93 1 p (encB i32 ++ encRM rm) 0 (encP a) (encS tb) (encQ c) (encHen h ++ (0 : BitVec 10)) .none .none).f.pred (decRM (((encB i32 ++ encRM rm) : BitVec 4).extractLsb' 0 3)) (((encB i32 ++ encRM rm) : BitVec 4).getLsbD 3) (decP ((encP a) : BitVec 6)) (decS ((encS tb) : BitVec 6)) (decQ ((encQ c) : BitVec 6)) (decHen (((encHen h ++ (0 : BitVec 10)) : BitVec 16).extractLsb' 10 6)) : Instr) = (.mxStQ p rm i32 a tb c h) by simp <;> (repeat' apply And.intro) <;> first | with_reducible exact mxst_bit _ _ | with_reducible exact decRM_low _ _ | with_reducible exact decHen_high _ _ | with_reducible exact extract_low _ _ | with_reducible exact extract_high _ _ | with_reducible exact extract_mid _ _ _))⟩
theorem mxStQLong (p : Pred) (rm : RM) (i32 : Bool) (a : AReg) (tb : TidN) (c : QReg) (h : Option HReg) (f2 f3 : BitVec 16) : Statement (.mxStQLong p rm i32 a tb c h f2 f3) := by
  intro w h; cases h
  exact ⟨rfl, (opc93 _ _ _ rfl).trans (congrArg some (show (.mxStQLong (mkEnc 0x93 1 p (encB i32 ++ encRM rm) 0 (encP a) (encS tb) (encQ c) (encHen h ++ (0 : BitVec 10)) (.w32 (f3 ++ f2)) .none).f.pred (decRM (((encB i32 ++ encRM rm) : BitVec 4).extractLsb' 0 3)) (((encB i32 ++ encRM rm) : BitVec 4).getLsbD 3) (decP ((encP a) : BitVec 6)) (decS ((encS tb) : BitVec 6)) (decQ ((encQ c) : BitVec 6)) (decHen (((encHen h ++ (0 : BitVec 10)) : BitVec 16).extractLsb' 10 6)) (((f3 ++ f2) : BitVec 32).extractLsb' 0 16) (((f3 ++ f2) : BitVec 32).extractLsb' 16 16) : Instr) = (.mxStQLong p rm i32 a tb c h f2 f3) by simp <;> (repeat' apply And.intro) <;> first | with_reducible exact mxst_bit _ _ | with_reducible exact decRM_low _ _ | with_reducible exact decHen_high _ _ | with_reducible exact extract_low _ _ | with_reducible exact extract_high _ _ | with_reducible exact extract_mid _ _ _))⟩
theorem mxLd (p : Pred) (d : AReg) (a : SReg) (rows : BitVec 16) (h : Option HReg) : Statement (.mxLd p d a rows h) := by
  intro w h; cases h
  exact ⟨rfl, (opc94 _ _ _ rfl).trans (congrArg some (show (.mxLd (mkEnc 0x94 0 p (encHasH h) (encP d) (encS a) 0 (encOptH h) rows .none .none).f.pred (decP ((encP d) : BitVec 6)) (decS ((encS a) : BitVec 6)) (rows : BitVec 16) (decOptH ((encOptH h) : BitVec 6) (((encHasH h) : BitVec 4).getLsbD 0)) : Instr) = (.mxLd p d a rows h) by simp))⟩
theorem mxZero (p : Pred) (d : AReg) (rows : BitVec 16) : Statement (.mxZero p d rows) := by
  intro w h; cases h
  exact ⟨rfl, (opc95 _ _ _ rfl).trans (congrArg some (show (.mxZero (mkEnc 0x95 0 p 0 (encP d) 0 0 0 rows .none .none).f.pred (decP ((encP d) : BitVec 6)) (rows : BitVec 16) : Instr) = (.mxZero p d rows) by simp))⟩
theorem mxMask (p : Pred) (a : SReg) : Statement (.mxMask p a) := by
  intro w h; cases h
  exact ⟨rfl, (opc96 _ _ _ rfl).trans (congrArg some (show (.mxMask (mkEnc 0x96 0 p 0 0 (encS a) 0 0 0 .none .none).f.pred (decS ((encS a) : BitVec 6)) : Instr) = (.mxMask p a) by simp))⟩
theorem mxMaskImm (p : Pred) (row col dep : BitVec 16) : Statement (.mxMaskImm p row col dep) := by
  intro w h; cases h
  exact ⟨rfl, (opc96 _ _ _ rfl).trans (congrArg some (show (.mxMaskImm (mkEnc 0x96 1 p 0 0 0 0 0 dep (.w32 (col ++ row)) .none).f.pred (((col ++ row) : BitVec 32).extractLsb' 0 16) (((col ++ row) : BitVec 32).extractLsb' 16 16) (dep : BitVec 16) : Instr) = (.mxMaskImm p row col dep) by simp <;> (repeat' apply And.intro) <;> first | with_reducible exact extract_low _ _ | with_reducible exact extract_high _ _ | with_reducible exact extract_mid _ _ _))⟩
theorem mxMovToVector (p : Pred) (d : VReg) (a : AReg) (m : BitVec 3) : Statement (.mxMovToVector p d a m) := by
  intro w h; cases h
  exact ⟨rfl, (opc97 _ _ _ rfl).trans (congrArg some (show (.mxMovToVector (mkEnc 0x97 0 p 0 (encV d) (encP a) 0 0 ((0 : BitVec 13) ++ m) .none .none).f.pred (decV ((encV d) : BitVec 6)) (decP ((encP a) : BitVec 6)) ((((0 : BitVec 13) ++ m) : BitVec 16).extractLsb' 0 3) : Instr) = (.mxMovToVector p d a m) by simp <;> (repeat' apply And.intro) <;> first | with_reducible exact extract_low _ _ | with_reducible exact extract_high _ _ | with_reducible exact extract_mid _ _ _))⟩
theorem mxMovToAcc (p : Pred) (d : AReg) (a : VReg) (m : BitVec 3) : Statement (.mxMovToAcc p d a m) := by
  intro w h; cases h
  exact ⟨rfl, (opc97 _ _ _ rfl).trans (congrArg some (show (.mxMovToAcc (mkEnc 0x97 1 p 0 (encP d) (encV a) 0 0 ((0 : BitVec 13) ++ m) .none .none).f.pred (decP ((encP d) : BitVec 6)) (decV ((encV a) : BitVec 6)) ((((0 : BitVec 13) ++ m) : BitVec 16).extractLsb' 0 3) : Instr) = (.mxMovToAcc p d a m) by simp <;> (repeat' apply And.intro) <;> first | with_reducible exact extract_low _ _ | with_reducible exact extract_high _ _ | with_reducible exact extract_mid _ _ _))⟩
theorem mxScr (p : Pred) (d : SReg) : Statement (.mxScr p d) := by
  intro w h; cases h
  exact ⟨rfl, (opc98 _ _ _ rfl).trans (congrArg some (show (.mxScr (mkEnc 0x98 0 p 0 (encS d) 0 0 0 0 .none .none).f.pred (decS ((encS d) : BitVec 6)) : Instr) = (.mxScr p d) by simp))⟩
theorem mxScrInj (p : Pred) (a : SReg) : Statement (.mxScrInj p a) := by
  intro w h; cases h
  exact ⟨rfl, (opc98 _ _ _ rfl).trans (congrArg some (show (.mxScrInj (mkEnc 0x98 1 p 0 0 (encS a) 0 0 0 .none .none).f.pred (decS ((encS a) : BitVec 6)) : Instr) = (.mxScrInj p a) by simp))⟩
theorem mxCommandStart (vt slot : Nat) : Statement (.mxCommandStart vt slot) := fun _ h => nomatch h
theorem mxCommandComplete (vt slot : Nat) : Statement (.mxCommandComplete vt slot) := fun _ h => nomatch h
theorem ldB (p : Pred) (px : Option Prefix) (d a : SReg) (disp : BitVec 16) : Statement (.ldB p px d a disp) := by
  intro w h; cases h
  exact ⟨rfl, (opcA8 _ _ _ rfl).trans (congrArg some (show (.ldB (mkEnc 0xA8 0 p 0 (encS d) (encS a) 0 0 disp .none px).f.pred px (decS ((encS d) : BitVec 6)) (decS ((encS a) : BitVec 6)) (disp : BitVec 16) : Instr) = (.ldB p px d a disp) by simp))⟩
theorem ldH (p : Pred) (px : Option Prefix) (d a : SReg) (disp : BitVec 16) : Statement (.ldH p px d a disp) := by
  intro w h; cases h
  exact ⟨rfl, (opcA8 _ _ _ rfl).trans (congrArg some (show (.ldH (mkEnc 0xA8 1 p 0 (encS d) (encS a) 0 0 disp .none px).f.pred px (decS ((encS d) : BitVec 6)) (decS ((encS a) : BitVec 6)) (disp : BitVec 16) : Instr) = (.ldH p px d a disp) by simp))⟩
theorem ldW (p : Pred) (px : Option Prefix) (d a : SReg) (disp : BitVec 16) : Statement (.ldW p px d a disp) := by
  intro w h; cases h
  exact ⟨rfl, (opcA8 _ _ _ rfl).trans (congrArg some (show (.ldW (mkEnc 0xA8 2 p 0 (encS d) (encS a) 0 0 disp .none px).f.pred px (decS ((encS d) : BitVec 6)) (decS ((encS a) : BitVec 6)) (disp : BitVec 16) : Instr) = (.ldW p px d a disp) by simp))⟩
theorem ldD (p : Pred) (px : Option Prefix) (d a : SReg) (disp : BitVec 16) : Statement (.ldD p px d a disp) := by
  intro w h; cases h
  exact ⟨rfl, (opcA8 _ _ _ rfl).trans (congrArg some (show (.ldD (mkEnc 0xA8 3 p 0 (encS d) (encS a) 0 0 disp .none px).f.pred px (decS ((encS d) : BitVec 6)) (decS ((encS a) : BitVec 6)) (disp : BitVec 16) : Instr) = (.ldD p px d a disp) by simp))⟩
theorem ldBs (p : Pred) (px : Option Prefix) (d a : SReg) (disp : BitVec 16) : Statement (.ldBs p px d a disp) := by
  intro w h; cases h
  exact ⟨rfl, (opcA8 _ _ _ rfl).trans (congrArg some (show (.ldBs (mkEnc 0xA8 4 p 0 (encS d) (encS a) 0 0 disp .none px).f.pred px (decS ((encS d) : BitVec 6)) (decS ((encS a) : BitVec 6)) (disp : BitVec 16) : Instr) = (.ldBs p px d a disp) by simp))⟩
theorem ldHs (p : Pred) (px : Option Prefix) (d a : SReg) (disp : BitVec 16) : Statement (.ldHs p px d a disp) := by
  intro w h; cases h
  exact ⟨rfl, (opcA8 _ _ _ rfl).trans (congrArg some (show (.ldHs (mkEnc 0xA8 5 p 0 (encS d) (encS a) 0 0 disp .none px).f.pred px (decS ((encS d) : BitVec 6)) (decS ((encS a) : BitVec 6)) (disp : BitVec 16) : Instr) = (.ldHs p px d a disp) by simp))⟩
theorem ldWs (p : Pred) (px : Option Prefix) (d a : SReg) (disp : BitVec 16) : Statement (.ldWs p px d a disp) := by
  intro w h; cases h
  exact ⟨rfl, (opcA8 _ _ _ rfl).trans (congrArg some (show (.ldWs (mkEnc 0xA8 6 p 0 (encS d) (encS a) 0 0 disp .none px).f.pred px (decS ((encS d) : BitVec 6)) (decS ((encS a) : BitVec 6)) (disp : BitVec 16) : Instr) = (.ldWs p px d a disp) by simp))⟩
theorem stB (p : Pred) (px : Option Prefix) (a b : SReg) (disp : BitVec 16) : Statement (.stB p px a b disp) := by
  intro w h; cases h
  exact ⟨rfl, (opcA9 _ _ _ rfl).trans (congrArg some (show (.stB (mkEnc 0xA9 0 p 0 0 (encS a) (encS b) 0 disp .none px).f.pred px (decS ((encS a) : BitVec 6)) (decS ((encS b) : BitVec 6)) (disp : BitVec 16) : Instr) = (.stB p px a b disp) by simp))⟩
theorem stH (p : Pred) (px : Option Prefix) (a b : SReg) (disp : BitVec 16) : Statement (.stH p px a b disp) := by
  intro w h; cases h
  exact ⟨rfl, (opcA9 _ _ _ rfl).trans (congrArg some (show (.stH (mkEnc 0xA9 1 p 0 0 (encS a) (encS b) 0 disp .none px).f.pred px (decS ((encS a) : BitVec 6)) (decS ((encS b) : BitVec 6)) (disp : BitVec 16) : Instr) = (.stH p px a b disp) by simp))⟩
theorem stW (p : Pred) (px : Option Prefix) (a b : SReg) (disp : BitVec 16) : Statement (.stW p px a b disp) := by
  intro w h; cases h
  exact ⟨rfl, (opcA9 _ _ _ rfl).trans (congrArg some (show (.stW (mkEnc 0xA9 2 p 0 0 (encS a) (encS b) 0 disp .none px).f.pred px (decS ((encS a) : BitVec 6)) (decS ((encS b) : BitVec 6)) (disp : BitVec 16) : Instr) = (.stW p px a b disp) by simp))⟩
theorem stD (p : Pred) (px : Option Prefix) (a b : SReg) (disp : BitVec 16) : Statement (.stD p px a b disp) := by
  intro w h; cases h
  exact ⟨rfl, (opcA9 _ _ _ rfl).trans (congrArg some (show (.stD (mkEnc 0xA9 3 p 0 0 (encS a) (encS b) 0 disp .none px).f.pred px (decS ((encS a) : BitVec 6)) (decS ((encS b) : BitVec 6)) (disp : BitVec 16) : Instr) = (.stD p px a b disp) by simp))⟩
theorem gldB (p : Pred) (at' : Attr) (d a : SReg) (disp : BitVec 24) : Statement (.gldB p at' d a disp) := by
  intro w h; cases h
  exact ⟨rfl, (opcAA _ _ _ rfl).trans (congrArg some (show (.gldB (mkEnc 0xAA 0 p 0 (encS d) (encS a) 0 0 0 (.w32 (disp ++ encAttr at')) .none).f.pred (decAttr (((disp ++ encAttr at') : BitVec 32).extractLsb' 0 8)) (decS ((encS d) : BitVec 6)) (decS ((encS a) : BitVec 6)) (((disp ++ encAttr at') : BitVec 32).extractLsb' 8 24) : Instr) = (.gldB p at' d a disp) by simp <;> (repeat' apply And.intro) <;> first | with_reducible exact decAttr_low _ _ | with_reducible exact extract_low _ _ | with_reducible exact extract_high _ _ | with_reducible exact extract_mid _ _ _))⟩
theorem gldH (p : Pred) (at' : Attr) (d a : SReg) (disp : BitVec 24) : Statement (.gldH p at' d a disp) := by
  intro w h; cases h
  exact ⟨rfl, (opcAA _ _ _ rfl).trans (congrArg some (show (.gldH (mkEnc 0xAA 1 p 0 (encS d) (encS a) 0 0 0 (.w32 (disp ++ encAttr at')) .none).f.pred (decAttr (((disp ++ encAttr at') : BitVec 32).extractLsb' 0 8)) (decS ((encS d) : BitVec 6)) (decS ((encS a) : BitVec 6)) (((disp ++ encAttr at') : BitVec 32).extractLsb' 8 24) : Instr) = (.gldH p at' d a disp) by simp <;> (repeat' apply And.intro) <;> first | with_reducible exact decAttr_low _ _ | with_reducible exact extract_low _ _ | with_reducible exact extract_high _ _ | with_reducible exact extract_mid _ _ _))⟩
theorem gldW (p : Pred) (at' : Attr) (d a : SReg) (disp : BitVec 24) : Statement (.gldW p at' d a disp) := by
  intro w h; cases h
  exact ⟨rfl, (opcAA _ _ _ rfl).trans (congrArg some (show (.gldW (mkEnc 0xAA 2 p 0 (encS d) (encS a) 0 0 0 (.w32 (disp ++ encAttr at')) .none).f.pred (decAttr (((disp ++ encAttr at') : BitVec 32).extractLsb' 0 8)) (decS ((encS d) : BitVec 6)) (decS ((encS a) : BitVec 6)) (((disp ++ encAttr at') : BitVec 32).extractLsb' 8 24) : Instr) = (.gldW p at' d a disp) by simp <;> (repeat' apply And.intro) <;> first | with_reducible exact decAttr_low _ _ | with_reducible exact extract_low _ _ | with_reducible exact extract_high _ _ | with_reducible exact extract_mid _ _ _))⟩
theorem gldD (p : Pred) (at' : Attr) (d a : SReg) (disp : BitVec 24) : Statement (.gldD p at' d a disp) := by
  intro w h; cases h
  exact ⟨rfl, (opcAA _ _ _ rfl).trans (congrArg some (show (.gldD (mkEnc 0xAA 3 p 0 (encS d) (encS a) 0 0 0 (.w32 (disp ++ encAttr at')) .none).f.pred (decAttr (((disp ++ encAttr at') : BitVec 32).extractLsb' 0 8)) (decS ((encS d) : BitVec 6)) (decS ((encS a) : BitVec 6)) (((disp ++ encAttr at') : BitVec 32).extractLsb' 8 24) : Instr) = (.gldD p at' d a disp) by simp <;> (repeat' apply And.intro) <;> first | with_reducible exact decAttr_low _ _ | with_reducible exact extract_low _ _ | with_reducible exact extract_high _ _ | with_reducible exact extract_mid _ _ _))⟩
theorem gldBs (p : Pred) (at' : Attr) (d a : SReg) (disp : BitVec 24) : Statement (.gldBs p at' d a disp) := by
  intro w h; cases h
  exact ⟨rfl, (opcAA _ _ _ rfl).trans (congrArg some (show (.gldBs (mkEnc 0xAA 4 p 0 (encS d) (encS a) 0 0 0 (.w32 (disp ++ encAttr at')) .none).f.pred (decAttr (((disp ++ encAttr at') : BitVec 32).extractLsb' 0 8)) (decS ((encS d) : BitVec 6)) (decS ((encS a) : BitVec 6)) (((disp ++ encAttr at') : BitVec 32).extractLsb' 8 24) : Instr) = (.gldBs p at' d a disp) by simp <;> (repeat' apply And.intro) <;> first | with_reducible exact decAttr_low _ _ | with_reducible exact extract_low _ _ | with_reducible exact extract_high _ _ | with_reducible exact extract_mid _ _ _))⟩
theorem gldHs (p : Pred) (at' : Attr) (d a : SReg) (disp : BitVec 24) : Statement (.gldHs p at' d a disp) := by
  intro w h; cases h
  exact ⟨rfl, (opcAA _ _ _ rfl).trans (congrArg some (show (.gldHs (mkEnc 0xAA 5 p 0 (encS d) (encS a) 0 0 0 (.w32 (disp ++ encAttr at')) .none).f.pred (decAttr (((disp ++ encAttr at') : BitVec 32).extractLsb' 0 8)) (decS ((encS d) : BitVec 6)) (decS ((encS a) : BitVec 6)) (((disp ++ encAttr at') : BitVec 32).extractLsb' 8 24) : Instr) = (.gldHs p at' d a disp) by simp <;> (repeat' apply And.intro) <;> first | with_reducible exact decAttr_low _ _ | with_reducible exact extract_low _ _ | with_reducible exact extract_high _ _ | with_reducible exact extract_mid _ _ _))⟩
theorem gldWs (p : Pred) (at' : Attr) (d a : SReg) (disp : BitVec 24) : Statement (.gldWs p at' d a disp) := by
  intro w h; cases h
  exact ⟨rfl, (opcAA _ _ _ rfl).trans (congrArg some (show (.gldWs (mkEnc 0xAA 6 p 0 (encS d) (encS a) 0 0 0 (.w32 (disp ++ encAttr at')) .none).f.pred (decAttr (((disp ++ encAttr at') : BitVec 32).extractLsb' 0 8)) (decS ((encS d) : BitVec 6)) (decS ((encS a) : BitVec 6)) (((disp ++ encAttr at') : BitVec 32).extractLsb' 8 24) : Instr) = (.gldWs p at' d a disp) by simp <;> (repeat' apply And.intro) <;> first | with_reducible exact decAttr_low _ _ | with_reducible exact extract_low _ _ | with_reducible exact extract_high _ _ | with_reducible exact extract_mid _ _ _))⟩
theorem gstB (p : Pred) (at' : Attr) (a b : SReg) (disp : BitVec 24) : Statement (.gstB p at' a b disp) := by
  intro w h; cases h
  exact ⟨rfl, (opcAA _ _ _ rfl).trans (congrArg some (show (.gstB (mkEnc 0xAA 8 p 0 0 (encS a) (encS b) 0 0 (.w32 (disp ++ encAttr at')) .none).f.pred (decAttr (((disp ++ encAttr at') : BitVec 32).extractLsb' 0 8)) (decS ((encS a) : BitVec 6)) (decS ((encS b) : BitVec 6)) (((disp ++ encAttr at') : BitVec 32).extractLsb' 8 24) : Instr) = (.gstB p at' a b disp) by simp <;> (repeat' apply And.intro) <;> first | with_reducible exact decAttr_low _ _ | with_reducible exact extract_low _ _ | with_reducible exact extract_high _ _ | with_reducible exact extract_mid _ _ _))⟩
theorem gstH (p : Pred) (at' : Attr) (a b : SReg) (disp : BitVec 24) : Statement (.gstH p at' a b disp) := by
  intro w h; cases h
  exact ⟨rfl, (opcAA _ _ _ rfl).trans (congrArg some (show (.gstH (mkEnc 0xAA 9 p 0 0 (encS a) (encS b) 0 0 (.w32 (disp ++ encAttr at')) .none).f.pred (decAttr (((disp ++ encAttr at') : BitVec 32).extractLsb' 0 8)) (decS ((encS a) : BitVec 6)) (decS ((encS b) : BitVec 6)) (((disp ++ encAttr at') : BitVec 32).extractLsb' 8 24) : Instr) = (.gstH p at' a b disp) by simp <;> (repeat' apply And.intro) <;> first | with_reducible exact decAttr_low _ _ | with_reducible exact extract_low _ _ | with_reducible exact extract_high _ _ | with_reducible exact extract_mid _ _ _))⟩
theorem gstW (p : Pred) (at' : Attr) (a b : SReg) (disp : BitVec 24) : Statement (.gstW p at' a b disp) := by
  intro w h; cases h
  exact ⟨rfl, (opcAA _ _ _ rfl).trans (congrArg some (show (.gstW (mkEnc 0xAA 10 p 0 0 (encS a) (encS b) 0 0 (.w32 (disp ++ encAttr at')) .none).f.pred (decAttr (((disp ++ encAttr at') : BitVec 32).extractLsb' 0 8)) (decS ((encS a) : BitVec 6)) (decS ((encS b) : BitVec 6)) (((disp ++ encAttr at') : BitVec 32).extractLsb' 8 24) : Instr) = (.gstW p at' a b disp) by simp <;> (repeat' apply And.intro) <;> first | with_reducible exact decAttr_low _ _ | with_reducible exact extract_low _ _ | with_reducible exact extract_high _ _ | with_reducible exact extract_mid _ _ _))⟩
theorem gstD (p : Pred) (at' : Attr) (a b : SReg) (disp : BitVec 24) : Statement (.gstD p at' a b disp) := by
  intro w h; cases h
  exact ⟨rfl, (opcAA _ _ _ rfl).trans (congrArg some (show (.gstD (mkEnc 0xAA 11 p 0 0 (encS a) (encS b) 0 0 (.w32 (disp ++ encAttr at')) .none).f.pred (decAttr (((disp ++ encAttr at') : BitVec 32).extractLsb' 0 8)) (decS ((encS a) : BitVec 6)) (decS ((encS b) : BitVec 6)) (((disp ++ encAttr at') : BitVec 32).extractLsb' 8 24) : Instr) = (.gstD p at' a b disp) by simp <;> (repeat' apply And.intro) <;> first | with_reducible exact decAttr_low _ _ | with_reducible exact extract_low _ _ | with_reducible exact extract_high _ _ | with_reducible exact extract_mid _ _ _))⟩
theorem staMap (p : Pred) (px : Option Prefix) (keep : Bool) (a b : SReg) (e : BitVec 8) (z : BitVec 3) : Statement (.staMap p px keep a b e z) := by
  intro w h; cases h
  exact ⟨rfl, (opcAB _ _ _ rfl).trans (congrArg some (show (.staMap (mkEnc 0xAB 0 p (encBit keep) 0 (encS a) (encS b) 0 ((0 : BitVec 5) ++ z ++ e) .none px).f.pred px (((encBit keep) : BitVec 4).getLsbD 0) (decS ((encS a) : BitVec 6)) (decS ((encS b) : BitVec 6)) ((((0 : BitVec 5) ++ z ++ e) : BitVec 16).extractLsb' 0 8) ((((0 : BitVec 5) ++ z ++ e) : BitVec 16).extractLsb' 8 3) : Instr) = (.staMap p px keep a b e z) by simp <;> (repeat' apply And.intro) <;> first | with_reducible exact extract_low _ _ | with_reducible exact extract_high _ _ | with_reducible exact extract_mid _ _ _))⟩
theorem staMapLong (p : Pred) (px : Option Prefix) (keep : Bool) (a b : SReg) (e : BitVec 8) (z : BitVec 3) (disp : BitVec 32) : Statement (.staMapLong p px keep a b e z disp) := by
  intro w h; cases h
  exact ⟨rfl, (opcAB _ _ _ rfl).trans (congrArg some (show (.staMapLong (mkEnc 0xAB 0 p (encBit keep) 0 (encS a) (encS b) 0 ((0 : BitVec 5) ++ z ++ e) (.w32 disp) px).f.pred px (((encBit keep) : BitVec 4).getLsbD 0) (decS ((encS a) : BitVec 6)) (decS ((encS b) : BitVec 6)) ((((0 : BitVec 5) ++ z ++ e) : BitVec 16).extractLsb' 0 8) ((((0 : BitVec 5) ++ z ++ e) : BitVec 16).extractLsb' 8 3) (disp : BitVec 32) : Instr) = (.staMapLong p px keep a b e z disp) by simp <;> (repeat' apply And.intro) <;> first | with_reducible exact extract_low _ _ | with_reducible exact extract_high _ _ | with_reducible exact extract_mid _ _ _))⟩
theorem staFill (p : Pred) (px : Option Prefix) (e : BitVec 8) (h : Option HReg) : Statement (.staFill p px e h) := by
  intro w h; cases h
  exact ⟨rfl, (opcAB _ _ _ rfl).trans (congrArg some (show (.staFill (mkEnc 0xAB 1 p (encHasH h) (encOptH h) 0 0 0 ((0 : BitVec 8) ++ e) .none px).f.pred px ((((0 : BitVec 8) ++ e) : BitVec 16).extractLsb' 0 8) (decOptH ((encOptH h) : BitVec 6) (((encHasH h) : BitVec 4).getLsbD 0)) : Instr) = (.staFill p px e h) by simp <;> (repeat' apply And.intro) <;> first | with_reducible exact extract_low _ _ | with_reducible exact extract_high _ _ | with_reducible exact extract_mid _ _ _))⟩
theorem staDrop (p : Pred) (px : Option Prefix) (discard : Bool) (e : BitVec 8) : Statement (.staDrop p px discard e) := by
  intro w h; cases h
  exact ⟨rfl, (opcAB _ _ _ rfl).trans (congrArg some (show (.staDrop (mkEnc 0xAB 2 p (encBit discard) 0 0 0 0 ((0 : BitVec 8) ++ e) .none px).f.pred px (((encBit discard) : BitVec 4).getLsbD 0) ((((0 : BitVec 8) ++ e) : BitVec 16).extractLsb' 0 8) : Instr) = (.staDrop p px discard e) by simp <;> (repeat' apply And.intro) <;> first | with_reducible exact extract_low _ _ | with_reducible exact extract_high _ _ | with_reducible exact extract_mid _ _ _))⟩
theorem staWb (p : Pred) (px : Option Prefix) (e : BitVec 8) (h : Option HReg) : Statement (.staWb p px e h) := by
  intro w h; cases h
  exact ⟨rfl, (opcAB _ _ _ rfl).trans (congrArg some (show (.staWb (mkEnc 0xAB 3 p (encHasH h) (encOptH h) 0 0 0 ((0 : BitVec 8) ++ e) .none px).f.pred px ((((0 : BitVec 8) ++ e) : BitVec 16).extractLsb' 0 8) (decOptH ((encOptH h) : BitVec 6) (((encHasH h) : BitVec 4).getLsbD 0)) : Instr) = (.staWb p px e h) by simp <;> (repeat' apply And.intro) <;> first | with_reducible exact extract_low _ _ | with_reducible exact extract_high _ _ | with_reducible exact extract_mid _ _ _))⟩
theorem staTest (p : Pred) (px : Option Prefix) (d : SReg) (e : BitVec 8) : Statement (.staTest p px d e) := by
  intro w h; cases h
  exact ⟨rfl, (opcAB _ _ _ rfl).trans (congrArg some (show (.staTest (mkEnc 0xAB 4 p 0 (encS d) 0 0 0 ((0 : BitVec 8) ++ e) .none px).f.pred px (decS ((encS d) : BitVec 6)) ((((0 : BitVec 8) ++ e) : BitVec 16).extractLsb' 0 8) : Instr) = (.staTest p px d e) by simp <;> (repeat' apply And.intro) <;> first | with_reducible exact extract_low _ _ | with_reducible exact extract_high _ _ | with_reducible exact extract_mid _ _ _))⟩
theorem stashFillComplete (vt slot e : Nat) : Statement (.stashFillComplete vt slot e) := fun _ h => nomatch h
theorem stashWritebackComplete (vt slot e : Nat) : Statement (.stashWritebackComplete vt slot e) := fun _ h => nomatch h
theorem stFarB (p : Pred) (at' : Attr) (a b c : SReg) : Statement (.stFarB p at' a b c) := by
  intro w h; cases h
  exact ⟨rfl, (opcAC _ _ _ rfl).trans (congrArg some (show (.stFarB (mkEnc 0xAC 0 p 0 0 (encS a) (encS b) (encS c) 0 (.w32 ((0 : BitVec 24) ++ encAttr at')) .none).f.pred (decAttr ((((0 : BitVec 24) ++ encAttr at') : BitVec 32).extractLsb' 0 8)) (decS ((encS a) : BitVec 6)) (decS ((encS b) : BitVec 6)) (decS ((encS c) : BitVec 6)) : Instr) = (.stFarB p at' a b c) by simp <;> (repeat' apply And.intro) <;> first | with_reducible exact decAttr_low _ _ | with_reducible exact extract_low _ _ | with_reducible exact extract_high _ _ | with_reducible exact extract_mid _ _ _))⟩
theorem stFarH (p : Pred) (at' : Attr) (a b c : SReg) : Statement (.stFarH p at' a b c) := by
  intro w h; cases h
  exact ⟨rfl, (opcAC _ _ _ rfl).trans (congrArg some (show (.stFarH (mkEnc 0xAC 1 p 0 0 (encS a) (encS b) (encS c) 0 (.w32 ((0 : BitVec 24) ++ encAttr at')) .none).f.pred (decAttr ((((0 : BitVec 24) ++ encAttr at') : BitVec 32).extractLsb' 0 8)) (decS ((encS a) : BitVec 6)) (decS ((encS b) : BitVec 6)) (decS ((encS c) : BitVec 6)) : Instr) = (.stFarH p at' a b c) by simp <;> (repeat' apply And.intro) <;> first | with_reducible exact decAttr_low _ _ | with_reducible exact extract_low _ _ | with_reducible exact extract_high _ _ | with_reducible exact extract_mid _ _ _))⟩
theorem stFarW (p : Pred) (at' : Attr) (a b c : SReg) : Statement (.stFarW p at' a b c) := by
  intro w h; cases h
  exact ⟨rfl, (opcAC _ _ _ rfl).trans (congrArg some (show (.stFarW (mkEnc 0xAC 2 p 0 0 (encS a) (encS b) (encS c) 0 (.w32 ((0 : BitVec 24) ++ encAttr at')) .none).f.pred (decAttr ((((0 : BitVec 24) ++ encAttr at') : BitVec 32).extractLsb' 0 8)) (decS ((encS a) : BitVec 6)) (decS ((encS b) : BitVec 6)) (decS ((encS c) : BitVec 6)) : Instr) = (.stFarW p at' a b c) by simp <;> (repeat' apply And.intro) <;> first | with_reducible exact decAttr_low _ _ | with_reducible exact extract_low _ _ | with_reducible exact extract_high _ _ | with_reducible exact extract_mid _ _ _))⟩
theorem stFarD (p : Pred) (at' : Attr) (a b c : SReg) : Statement (.stFarD p at' a b c) := by
  intro w h; cases h
  exact ⟨rfl, (opcAC _ _ _ rfl).trans (congrArg some (show (.stFarD (mkEnc 0xAC 3 p 0 0 (encS a) (encS b) (encS c) 0 (.w32 ((0 : BitVec 24) ++ encAttr at')) .none).f.pred (decAttr ((((0 : BitVec 24) ++ encAttr at') : BitVec 32).extractLsb' 0 8)) (decS ((encS a) : BitVec 6)) (decS ((encS b) : BitVec 6)) (decS ((encS c) : BitVec 6)) : Instr) = (.stFarD p at' a b c) by simp <;> (repeat' apply And.intro) <;> first | with_reducible exact decAttr_low _ _ | with_reducible exact extract_low _ _ | with_reducible exact extract_high _ _ | with_reducible exact extract_mid _ _ _))⟩
theorem cpGet (p : Pred) (at' : Attr) (a b : SReg) (len : BitVec 24) (h : Option HReg) : Statement (.cpGet p at' a b len h) := by
  intro w h; cases h
  exact ⟨rfl, (opcAD _ _ _ rfl).trans (congrArg some (show (.cpGet (mkEnc 0xAD 0 p (encHasH h) (encOptH h) (encS a) (encS b) 0 0 (.w32 (len ++ encAttr at')) .none).f.pred (decAttr (((len ++ encAttr at') : BitVec 32).extractLsb' 0 8)) (decS ((encS a) : BitVec 6)) (decS ((encS b) : BitVec 6)) (((len ++ encAttr at') : BitVec 32).extractLsb' 8 24) (decOptH ((encOptH h) : BitVec 6) (((encHasH h) : BitVec 4).getLsbD 0)) : Instr) = (.cpGet p at' a b len h) by simp <;> (repeat' apply And.intro) <;> first | with_reducible exact decAttr_low _ _ | with_reducible exact extract_low _ _ | with_reducible exact extract_high _ _ | with_reducible exact extract_mid _ _ _))⟩
theorem cpGetMc (p : Pred) (at' : Attr) (a b : SReg) (len : BitVec 24) (cmask : BitVec 16) (h : Option HReg) : Statement (.cpGetMc p at' a b len cmask h) := by
  intro w h; cases h
  exact ⟨rfl, (opcAD _ _ _ rfl).trans (congrArg some (show (.cpGetMc (mkEnc 0xAD 0 p (encHasH h) (encOptH h) (encS a) (encS b) 0 0 (.w64 ((0 : BitVec 16) ++ cmask ++ len ++ encAttr at')) .none).f.pred (decAttr ((((0 : BitVec 16) ++ cmask ++ len ++ encAttr at') : BitVec 64).extractLsb' 0 8)) (decS ((encS a) : BitVec 6)) (decS ((encS b) : BitVec 6)) ((((0 : BitVec 16) ++ cmask ++ len ++ encAttr at') : BitVec 64).extractLsb' 8 24) ((((0 : BitVec 16) ++ cmask ++ len ++ encAttr at') : BitVec 64).extractLsb' 32 16) (decOptH ((encOptH h) : BitVec 6) (((encHasH h) : BitVec 4).getLsbD 0)) : Instr) = (.cpGetMc p at' a b len cmask h) by simp <;> (repeat' apply And.intro) <;> first | with_reducible exact decAttr_low _ _ | with_reducible exact extract_low _ _ | with_reducible exact extract_high _ _ | with_reducible exact extract_mid _ _ _ | exact getmc_mask _ _ _))⟩
theorem cpPut (p : Pred) (at' : Attr) (a b : SReg) (len : BitVec 24) (h : Option HReg) : Statement (.cpPut p at' a b len h) := by
  intro w h; cases h
  exact ⟨rfl, (opcAD _ _ _ rfl).trans (congrArg some (show (.cpPut (mkEnc 0xAD 1 p (encHasH h) (encOptH h) (encS a) (encS b) 0 0 (.w32 (len ++ encAttr at')) .none).f.pred (decAttr (((len ++ encAttr at') : BitVec 32).extractLsb' 0 8)) (decS ((encS a) : BitVec 6)) (decS ((encS b) : BitVec 6)) (((len ++ encAttr at') : BitVec 32).extractLsb' 8 24) (decOptH ((encOptH h) : BitVec 6) (((encHasH h) : BitVec 4).getLsbD 0)) : Instr) = (.cpPut p at' a b len h) by simp <;> (repeat' apply And.intro) <;> first | with_reducible exact decAttr_low _ _ | with_reducible exact extract_low _ _ | with_reducible exact extract_high _ _ | with_reducible exact extract_mid _ _ _))⟩
theorem cpDeferGet (p : Pred) (at' : Attr) (a b : SReg) (len : BitVec 24) (h : Option HReg) : Statement (.cpDeferGet p at' a b len h) := by
  intro w h; cases h
  exact ⟨rfl, (opcAD _ _ _ rfl).trans (congrArg some (show (if ((encHasH h) : BitVec 4).getLsbD 1 = false then .cpDeferGet (mkEnc 0xAD 2 p (encHasH h) (encOptH h) (encS a) (encS b) 0 0 (.w32 (len ++ encAttr at')) .none).f.pred (decAttr (((len ++ encAttr at') : BitVec 32).extractLsb' 0 8)) (decS ((encS a) : BitVec 6)) (decS ((encS b) : BitVec 6)) (((len ++ encAttr at') : BitVec 32).extractLsb' 8 24) (decOptH ((encOptH h) : BitVec 6) (((encHasH h) : BitVec 4).getLsbD 0)) else .cpDeferPut (mkEnc 0xAD 2 p (encHasH h) (encOptH h) (encS a) (encS b) 0 0 (.w32 (len ++ encAttr at')) .none).f.pred (decAttr (((len ++ encAttr at') : BitVec 32).extractLsb' 0 8)) (decS ((encS a) : BitVec 6)) (decS ((encS b) : BitVec 6)) (((len ++ encAttr at') : BitVec 32).extractLsb' 8 24) (decOptH ((encOptH h) : BitVec 6) (((encHasH h) : BitVec 4).getLsbD 0)) : Instr) = (.cpDeferGet p at' a b len h) by simp <;> (repeat' apply And.intro) <;> first | with_reducible exact decAttr_low _ _ | with_reducible exact extract_low _ _ | with_reducible exact extract_high _ _ | with_reducible exact extract_mid _ _ _))⟩
theorem cpDeferPut (p : Pred) (at' : Attr) (a b : SReg) (len : BitVec 24) (h : Option HReg) : Statement (.cpDeferPut p at' a b len h) := by
  intro w h; cases h
  exact ⟨rfl, (opcAD _ _ _ rfl).trans (congrArg some (show (if ((encHasH h ||| 2) : BitVec 4).getLsbD 1 = false then .cpDeferGet (mkEnc 0xAD 2 p (encHasH h ||| 2) (encOptH h) (encS a) (encS b) 0 0 (.w32 (len ++ encAttr at')) .none).f.pred (decAttr (((len ++ encAttr at') : BitVec 32).extractLsb' 0 8)) (decS ((encS a) : BitVec 6)) (decS ((encS b) : BitVec 6)) (((len ++ encAttr at') : BitVec 32).extractLsb' 8 24) (decOptH ((encOptH h) : BitVec 6) (((encHasH h ||| 2) : BitVec 4).getLsbD 0)) else .cpDeferPut (mkEnc 0xAD 2 p (encHasH h ||| 2) (encOptH h) (encS a) (encS b) 0 0 (.w32 (len ++ encAttr at')) .none).f.pred (decAttr (((len ++ encAttr at') : BitVec 32).extractLsb' 0 8)) (decS ((encS a) : BitVec 6)) (decS ((encS b) : BitVec 6)) (((len ++ encAttr at') : BitVec 32).extractLsb' 8 24) (decOptH ((encOptH h) : BitVec 6) (((encHasH h ||| 2) : BitVec 4).getLsbD 0)) : Instr) = (.cpDeferPut p at' a b len h) by simp <;> (repeat' apply And.intro) <;> first | with_reducible exact decAttr_low _ _ | with_reducible exact extract_low _ _ | with_reducible exact extract_high _ _ | with_reducible exact extract_mid _ _ _))⟩
theorem cpCvt (p : Pred) (at' : Attr) (rm : RM) (ta tb : TidN) (c : SReg) (n0 n1 : BitVec 16) (h : Option HReg) : Statement (.cpCvt p at' rm ta tb c n0 n1 h) := by
  intro w h; cases h
  exact ⟨rfl, (opcAD _ _ _ rfl).trans (congrArg some (show (.cpCvt (mkEnc 0xAD 3 p (encHasH h) (encOptH h) (encS ta) (encS tb) (encS c) 0 (.w64 (n1 ++ n0 ++ (0 : BitVec 21) ++ encRM rm ++ encAttr at')) .none).f.pred (decAttr (((n1 ++ n0 ++ (0 : BitVec 21) ++ encRM rm ++ encAttr at') : BitVec 64).extractLsb' 0 8)) (decRM (((n1 ++ n0 ++ (0 : BitVec 21) ++ encRM rm ++ encAttr at') : BitVec 64).extractLsb' 8 3)) (decS ((encS ta) : BitVec 6)) (decS ((encS tb) : BitVec 6)) (decS ((encS c) : BitVec 6)) (((n1 ++ n0 ++ (0 : BitVec 21) ++ encRM rm ++ encAttr at') : BitVec 64).extractLsb' 32 16) (((n1 ++ n0 ++ (0 : BitVec 21) ++ encRM rm ++ encAttr at') : BitVec 64).extractLsb' 48 16) (decOptH ((encOptH h) : BitVec 6) (((encHasH h) : BitVec 4).getLsbD 0)) : Instr) = (.cpCvt p at' rm ta tb c n0 n1 h) by simp <;> (repeat' apply And.intro) <;> first | with_reducible exact decAttr_low _ _ | with_reducible exact decRM_mid _ _ _ | with_reducible exact cvt_n0 _ _ _ _ _ | with_reducible exact cvt_n1 _ _ _ _ _ | with_reducible exact extract_low _ _ | with_reducible exact extract_high _ _ | with_reducible exact extract_mid _ _ _))⟩
theorem copyComplete (vt id : Nat) : Statement (.copyComplete vt id) := fun _ h => nomatch h
theorem futWait (p : Pred) (d : SReg) (a : HReg) : Statement (.futWait p d a) := by
  intro w h; cases h
  exact ⟨rfl, (opcAE _ _ _ rfl).trans (congrArg some (show (.futWait (mkEnc 0xAE 0 p 0 (encS d) (encH a) 0 0 0 .none .none).f.pred (decS ((encS d) : BitVec 6)) (decH ((encH a) : BitVec 6)) : Instr) = (.futWait p d a) by simp))⟩
theorem futTest (p : Pred) (d : SReg) (a : HReg) : Statement (.futTest p d a) := by
  intro w h; cases h
  exact ⟨rfl, (opcAE _ _ _ rfl).trans (congrArg some (show (.futTest (mkEnc 0xAE 1 p 0 (encS d) (encH a) 0 0 0 .none .none).f.pred (decS ((encS d) : BitVec 6)) (decH ((encH a) : BitVec 6)) : Instr) = (.futTest p d a) by simp))⟩
theorem futPass (p : Pred) (d a : HReg) (t : BitVec 2) : Statement (.futPass p d a t) := by
  intro w h; cases h
  exact ⟨rfl, (opcAE _ _ _ rfl).trans (congrArg some (show (.futPass (mkEnc 0xAE 2 p 0 (encH d) (encH a) 0 0 ((0 : BitVec 14) ++ t) .none .none).f.pred (decH ((encH d) : BitVec 6)) (decH ((encH a) : BitVec 6)) ((((0 : BitVec 14) ++ t) : BitVec 16).extractLsb' 0 2) : Instr) = (.futPass p d a t) by simp <;> (repeat' apply And.intro) <;> first | with_reducible exact tdec_step _ _ | with_reducible exact extract_low _ _ | with_reducible exact extract_high _ _ | with_reducible exact extract_mid _ _ _))⟩
theorem futCancel (p : Pred) (a : HReg) : Statement (.futCancel p a) := by
  intro w h; cases h
  exact ⟨rfl, (opcAE _ _ _ rfl).trans (congrArg some (show (.futCancel (mkEnc 0xAE 3 p 0 0 (encH a) 0 0 0 .none .none).f.pred (decH ((encH a) : BitVec 6)) : Instr) = (.futCancel p a) by simp))⟩
theorem asyncFaultFreeze (vt slot : Nat) : Statement (.asyncFaultFreeze vt slot) := fun _ h => nomatch h
theorem wdAsk (p : Pred) (d : HReg) (a : SReg) (km1 : BitVec 12) : Statement (.wdAsk p d a km1) := by
  intro w h; cases h
  exact ⟨rfl, (opcAF _ _ _ rfl).trans (congrArg some (show (.wdAsk (mkEnc 0xAF 0 p 0 (encH d) (encS a) 0 0 ((0 : BitVec 4) ++ km1) .none .none).f.pred (decH ((encH d) : BitVec 6)) (decS ((encS a) : BitVec 6)) ((((0 : BitVec 4) ++ km1) : BitVec 16).extractLsb' 0 12) : Instr) = (.wdAsk p d a km1) by simp <;> (repeat' apply And.intro) <;> first | with_reducible exact extract_low _ _ | with_reducible exact extract_high _ _ | with_reducible exact extract_mid _ _ _))⟩
theorem wdAskLong (p : Pred) (d : HReg) (a : SReg) (km1 : BitVec 12) (disp : BitVec 32) : Statement (.wdAskLong p d a km1 disp) := by
  intro w h; cases h
  exact ⟨rfl, (opcAF _ _ _ rfl).trans (congrArg some (show (.wdAskLong (mkEnc 0xAF 0 p 0 (encH d) (encS a) 0 0 ((0 : BitVec 4) ++ km1) (.w32 disp) .none).f.pred (decH ((encH d) : BitVec 6)) (decS ((encS a) : BitVec 6)) ((((0 : BitVec 4) ++ km1) : BitVec 16).extractLsb' 0 12) (disp : BitVec 32) : Instr) = (.wdAskLong p d a km1 disp) by simp <;> (repeat' apply And.intro) <;> first | with_reducible exact extract_low _ _ | with_reducible exact extract_high _ _ | with_reducible exact extract_mid _ _ _))⟩
theorem wdAskComplete (id : Nat) : Statement (.wdAskComplete id) := fun _ h => nomatch h
theorem tgLd (p : Pred) (px : Option Prefix) (take : Bool) (d a : SReg) (disp : BitVec 16) : Statement (.tgLd p px take d a disp) := by
  intro w h; cases h
  exact ⟨rfl, (opcC0 _ _ _ rfl).trans (congrArg some (show (.tgLd (mkEnc 0xC0 0 p (encBit take) (encS d) (encS a) 0 0 disp .none px).f.pred px (((encBit take) : BitVec 4).getLsbD 0) (decS ((encS d) : BitVec 6)) (decS ((encS a) : BitVec 6)) (disp : BitVec 16) : Instr) = (.tgLd p px take d a disp) by simp))⟩
theorem tgSt (p : Pred) (px : Option Prefix) (a b : SReg) (disp : BitVec 16) : Statement (.tgSt p px a b disp) := by
  intro w h; cases h
  exact ⟨rfl, (opcC0 _ _ _ rfl).trans (congrArg some (show (.tgSt (mkEnc 0xC0 1 p 0 0 (encS a) (encS b) 0 disp .none px).f.pred px (decS ((encS a) : BitVec 6)) (decS ((encS b) : BitVec 6)) (disp : BitVec 16) : Instr) = (.tgSt p px a b disp) by simp))⟩
theorem tgSet (p : Pred) (px : Option Prefix) (d a : SReg) (disp : BitVec 16) : Statement (.tgSet p px d a disp) := by
  intro w h; cases h
  exact ⟨rfl, (opcC0 _ _ _ rfl).trans (congrArg some (show (.tgSet (mkEnc 0xC0 2 p 0 (encS d) (encS a) 0 0 disp .none px).f.pred px (decS ((encS d) : BitVec 6)) (decS ((encS a) : BitVec 6)) (disp : BitVec 16) : Instr) = (.tgSet p px d a disp) by simp))⟩
theorem tgClr (p : Pred) (px : Option Prefix) (d a : SReg) (disp : BitVec 16) : Statement (.tgClr p px d a disp) := by
  intro w h; cases h
  exact ⟨rfl, (opcC0 _ _ _ rfl).trans (congrArg some (show (.tgClr (mkEnc 0xC0 3 p 0 (encS d) (encS a) 0 0 disp .none px).f.pred px (decS ((encS d) : BitVec 6)) (decS ((encS a) : BitVec 6)) (disp : BitVec 16) : Instr) = (.tgClr p px d a disp) by simp))⟩
theorem tagWaitRetest (vt slot : Nat) : Statement (.tagWaitRetest vt slot) := fun _ h => nomatch h
theorem barArr (p : Pred) (d : SReg) : Statement (.barArr p d) := by
  intro w h; cases h
  exact ⟨rfl, (opcC1 _ _ _ rfl).trans (congrArg some (show (.barArr (mkEnc 0xC1 0 p 0 (encS d) 0 0 0 0 .none .none).f.pred (decS ((encS d) : BitVec 6)) : Instr) = (.barArr p d) by simp))⟩
theorem barWait (p : Pred) : Statement (.barWait p) := by
  intro w h; cases h
  exact ⟨rfl, (opcC1 _ _ _ rfl).trans (congrArg some (show (if (1 : BitVec 4).getLsbD 0 = true then .barWait (mkEnc 0xC1 1 p 1 0 0 0 0 0 .none .none).f.pred else .barWaitGen (mkEnc 0xC1 1 p 1 0 0 0 0 0 .none .none).f.pred (decS (0 : BitVec 6)) : Instr) = (.barWait p) by simp))⟩
theorem barWaitGen (p : Pred) (a : SReg) : Statement (.barWaitGen p a) := by
  intro w h; cases h
  exact ⟨rfl, (opcC1 _ _ _ rfl).trans (congrArg some (show (if (0 : BitVec 4).getLsbD 0 = true then .barWait (mkEnc 0xC1 1 p 0 0 (encS a) 0 0 0 .none .none).f.pred else .barWaitGen (mkEnc 0xC1 1 p 0 0 (encS a) 0 0 0 .none .none).f.pred (decS ((encS a) : BitVec 6)) : Instr) = (.barWaitGen p a) by simp))⟩
theorem barTest (p : Pred) (d a : SReg) : Statement (.barTest p d a) := by
  intro w h; cases h
  exact ⟨rfl, (opcC1 _ _ _ rfl).trans (congrArg some (show (.barTest (mkEnc 0xC1 2 p 0 (encS d) (encS a) 0 0 0 .none .none).f.pred (decS ((encS d) : BitVec 6)) (decS ((encS a) : BitVec 6)) : Instr) = (.barTest p d a) by simp))⟩
theorem barrierPhaseComplete (vt bar : Nat) : Statement (.barrierPhaseComplete vt bar) := fun _ h => nomatch h
theorem step (lvl : StepLevel) : Statement (.step lvl) := by
  intro w h; cases h
  exact ⟨rfl, (opcC2 _ _ _ rfl).trans (congrArg some (show (.step (decLvl ((encLvl lvl) : BitVec 4)) : Instr) = (.step lvl) by simp))⟩
theorem dataMovementPhase (lvl : StepLevel) (gang vt : Nat) : Statement (.dataMovementPhase lvl gang vt) := fun _ h => nomatch h
theorem checkpointCommit (vt : Nat) : Statement (.checkpointCommit vt) := fun _ h => nomatch h
theorem phaseRelease (lvl : StepLevel) (gang vt : Nat) : Statement (.phaseRelease lvl gang vt) := fun _ h => nomatch h
theorem fence (p : Pred) (at' : Attr) : Statement (.fence p at') := by
  intro w h; cases h
  exact ⟨rfl, (opcC3 _ _ _ rfl).trans (congrArg some (show (.fence (mkEnc 0xC3 0 p 0 0 0 0 0 ((0 : BitVec 8) ++ encAttr at') .none .none).f.pred (decAttr ((((0 : BitVec 8) ++ encAttr at') : BitVec 16).extractLsb' 0 8)) : Instr) = (.fence p at') by simp <;> (repeat' apply And.intro) <;> first | with_reducible exact decAttr_low _ _ | with_reducible exact extract_low _ _ | with_reducible exact extract_high _ _ | with_reducible exact extract_mid _ _ _))⟩
theorem atSwap (p : Pred) (at' : Attr) (dw : Bool) (d a b : SReg) (disp : BitVec 24) : Statement (.atSwap p at' dw d a b disp) := by
  intro w h; cases h
  exact ⟨rfl, (opcC4 _ _ _ rfl).trans (congrArg some (show (.atSwap (mkEnc 0xC4 0 p (encBit dw) (encS d) (encS a) (encS b) 0 0 (.w32 (disp ++ encAttr at')) .none).f.pred (decAttr (((disp ++ encAttr at') : BitVec 32).extractLsb' 0 8)) (((encBit dw) : BitVec 4).getLsbD 0) (decS ((encS d) : BitVec 6)) (decS ((encS a) : BitVec 6)) (decS ((encS b) : BitVec 6)) (((disp ++ encAttr at') : BitVec 32).extractLsb' 8 24) : Instr) = (.atSwap p at' dw d a b disp) by simp <;> (repeat' apply And.intro) <;> first | with_reducible exact decAttr_low _ _ | with_reducible exact extract_low _ _ | with_reducible exact extract_high _ _ | with_reducible exact extract_mid _ _ _))⟩
theorem atCas (p : Pred) (at' : Attr) (dw : Bool) (d a b c : SReg) (disp : BitVec 24) : Statement (.atCas p at' dw d a b c disp) := by
  intro w h; cases h
  exact ⟨rfl, (opcC4 _ _ _ rfl).trans (congrArg some (show (.atCas (mkEnc 0xC4 1 p (encBit dw) (encS d) (encS a) (encS b) (encS c) 0 (.w32 (disp ++ encAttr at')) .none).f.pred (decAttr (((disp ++ encAttr at') : BitVec 32).extractLsb' 0 8)) (((encBit dw) : BitVec 4).getLsbD 0) (decS ((encS d) : BitVec 6)) (decS ((encS a) : BitVec 6)) (decS ((encS b) : BitVec 6)) (decS ((encS c) : BitVec 6)) (((disp ++ encAttr at') : BitVec 32).extractLsb' 8 24) : Instr) = (.atCas p at' dw d a b c disp) by simp <;> (repeat' apply And.intro) <;> first | with_reducible exact decAttr_low _ _ | with_reducible exact extract_low _ _ | with_reducible exact extract_high _ _ | with_reducible exact extract_mid _ _ _))⟩
theorem atAdd (p : Pred) (at' : Attr) (dw : Bool) (d a b : SReg) (disp : BitVec 24) : Statement (.atAdd p at' dw d a b disp) := by
  intro w h; cases h
  exact ⟨rfl, (opcC4 _ _ _ rfl).trans (congrArg some (show (.atAdd (mkEnc 0xC4 2 p (encBit dw) (encS d) (encS a) (encS b) 0 0 (.w32 (disp ++ encAttr at')) .none).f.pred (decAttr (((disp ++ encAttr at') : BitVec 32).extractLsb' 0 8)) (((encBit dw) : BitVec 4).getLsbD 0) (decS ((encS d) : BitVec 6)) (decS ((encS a) : BitVec 6)) (decS ((encS b) : BitVec 6)) (((disp ++ encAttr at') : BitVec 32).extractLsb' 8 24) : Instr) = (.atAdd p at' dw d a b disp) by simp <;> (repeat' apply And.intro) <;> first | with_reducible exact decAttr_low _ _ | with_reducible exact extract_low _ _ | with_reducible exact extract_high _ _ | with_reducible exact extract_mid _ _ _))⟩
theorem atAnd (p : Pred) (at' : Attr) (dw : Bool) (d a b : SReg) (disp : BitVec 24) : Statement (.atAnd p at' dw d a b disp) := by
  intro w h; cases h
  exact ⟨rfl, (opcC4 _ _ _ rfl).trans (congrArg some (show (.atAnd (mkEnc 0xC4 3 p (encBit dw) (encS d) (encS a) (encS b) 0 0 (.w32 (disp ++ encAttr at')) .none).f.pred (decAttr (((disp ++ encAttr at') : BitVec 32).extractLsb' 0 8)) (((encBit dw) : BitVec 4).getLsbD 0) (decS ((encS d) : BitVec 6)) (decS ((encS a) : BitVec 6)) (decS ((encS b) : BitVec 6)) (((disp ++ encAttr at') : BitVec 32).extractLsb' 8 24) : Instr) = (.atAnd p at' dw d a b disp) by simp <;> (repeat' apply And.intro) <;> first | with_reducible exact decAttr_low _ _ | with_reducible exact extract_low _ _ | with_reducible exact extract_high _ _ | with_reducible exact extract_mid _ _ _))⟩
theorem atOr (p : Pred) (at' : Attr) (dw : Bool) (d a b : SReg) (disp : BitVec 24) : Statement (.atOr p at' dw d a b disp) := by
  intro w h; cases h
  exact ⟨rfl, (opcC4 _ _ _ rfl).trans (congrArg some (show (.atOr (mkEnc 0xC4 4 p (encBit dw) (encS d) (encS a) (encS b) 0 0 (.w32 (disp ++ encAttr at')) .none).f.pred (decAttr (((disp ++ encAttr at') : BitVec 32).extractLsb' 0 8)) (((encBit dw) : BitVec 4).getLsbD 0) (decS ((encS d) : BitVec 6)) (decS ((encS a) : BitVec 6)) (decS ((encS b) : BitVec 6)) (((disp ++ encAttr at') : BitVec 32).extractLsb' 8 24) : Instr) = (.atOr p at' dw d a b disp) by simp <;> (repeat' apply And.intro) <;> first | with_reducible exact decAttr_low _ _ | with_reducible exact extract_low _ _ | with_reducible exact extract_high _ _ | with_reducible exact extract_mid _ _ _))⟩
theorem atXor (p : Pred) (at' : Attr) (dw : Bool) (d a b : SReg) (disp : BitVec 24) : Statement (.atXor p at' dw d a b disp) := by
  intro w h; cases h
  exact ⟨rfl, (opcC4 _ _ _ rfl).trans (congrArg some (show (.atXor (mkEnc 0xC4 5 p (encBit dw) (encS d) (encS a) (encS b) 0 0 (.w32 (disp ++ encAttr at')) .none).f.pred (decAttr (((disp ++ encAttr at') : BitVec 32).extractLsb' 0 8)) (((encBit dw) : BitVec 4).getLsbD 0) (decS ((encS d) : BitVec 6)) (decS ((encS a) : BitVec 6)) (decS ((encS b) : BitVec 6)) (((disp ++ encAttr at') : BitVec 32).extractLsb' 8 24) : Instr) = (.atXor p at' dw d a b disp) by simp <;> (repeat' apply And.intro) <;> first | with_reducible exact decAttr_low _ _ | with_reducible exact extract_low _ _ | with_reducible exact extract_high _ _ | with_reducible exact extract_mid _ _ _))⟩
theorem atMin (p : Pred) (at' : Attr) (dw : Bool) (d a b : SReg) (disp : BitVec 24) : Statement (.atMin p at' dw d a b disp) := by
  intro w h; cases h
  exact ⟨rfl, (opcC4 _ _ _ rfl).trans (congrArg some (show (.atMin (mkEnc 0xC4 6 p (encBit dw) (encS d) (encS a) (encS b) 0 0 (.w32 (disp ++ encAttr at')) .none).f.pred (decAttr (((disp ++ encAttr at') : BitVec 32).extractLsb' 0 8)) (((encBit dw) : BitVec 4).getLsbD 0) (decS ((encS d) : BitVec 6)) (decS ((encS a) : BitVec 6)) (decS ((encS b) : BitVec 6)) (((disp ++ encAttr at') : BitVec 32).extractLsb' 8 24) : Instr) = (.atMin p at' dw d a b disp) by simp <;> (repeat' apply And.intro) <;> first | with_reducible exact decAttr_low _ _ | with_reducible exact extract_low _ _ | with_reducible exact extract_high _ _ | with_reducible exact extract_mid _ _ _))⟩
theorem atMax (p : Pred) (at' : Attr) (dw : Bool) (d a b : SReg) (disp : BitVec 24) : Statement (.atMax p at' dw d a b disp) := by
  intro w h; cases h
  exact ⟨rfl, (opcC4 _ _ _ rfl).trans (congrArg some (show (.atMax (mkEnc 0xC4 7 p (encBit dw) (encS d) (encS a) (encS b) 0 0 (.w32 (disp ++ encAttr at')) .none).f.pred (decAttr (((disp ++ encAttr at') : BitVec 32).extractLsb' 0 8)) (((encBit dw) : BitVec 4).getLsbD 0) (decS ((encS d) : BitVec 6)) (decS ((encS a) : BitVec 6)) (decS ((encS b) : BitVec 6)) (((disp ++ encAttr at') : BitVec 32).extractLsb' 8 24) : Instr) = (.atMax p at' dw d a b disp) by simp <;> (repeat' apply And.intro) <;> first | with_reducible exact decAttr_low _ _ | with_reducible exact extract_low _ _ | with_reducible exact extract_high _ _ | with_reducible exact extract_mid _ _ _))⟩
theorem atMinu (p : Pred) (at' : Attr) (dw : Bool) (d a b : SReg) (disp : BitVec 24) : Statement (.atMinu p at' dw d a b disp) := by
  intro w h; cases h
  exact ⟨rfl, (opcC4 _ _ _ rfl).trans (congrArg some (show (.atMinu (mkEnc 0xC4 8 p (encBit dw) (encS d) (encS a) (encS b) 0 0 (.w32 (disp ++ encAttr at')) .none).f.pred (decAttr (((disp ++ encAttr at') : BitVec 32).extractLsb' 0 8)) (((encBit dw) : BitVec 4).getLsbD 0) (decS ((encS d) : BitVec 6)) (decS ((encS a) : BitVec 6)) (decS ((encS b) : BitVec 6)) (((disp ++ encAttr at') : BitVec 32).extractLsb' 8 24) : Instr) = (.atMinu p at' dw d a b disp) by simp <;> (repeat' apply And.intro) <;> first | with_reducible exact decAttr_low _ _ | with_reducible exact extract_low _ _ | with_reducible exact extract_high _ _ | with_reducible exact extract_mid _ _ _))⟩
theorem atMaxu (p : Pred) (at' : Attr) (dw : Bool) (d a b : SReg) (disp : BitVec 24) : Statement (.atMaxu p at' dw d a b disp) := by
  intro w h; cases h
  exact ⟨rfl, (opcC4 _ _ _ rfl).trans (congrArg some (show (.atMaxu (mkEnc 0xC4 9 p (encBit dw) (encS d) (encS a) (encS b) 0 0 (.w32 (disp ++ encAttr at')) .none).f.pred (decAttr (((disp ++ encAttr at') : BitVec 32).extractLsb' 0 8)) (((encBit dw) : BitVec 4).getLsbD 0) (decS ((encS d) : BitVec 6)) (decS ((encS a) : BitVec 6)) (decS ((encS b) : BitVec 6)) (((disp ++ encAttr at') : BitVec 32).extractLsb' 8 24) : Instr) = (.atMaxu p at' dw d a b disp) by simp <;> (repeat' apply And.intro) <;> first | with_reducible exact decAttr_low _ _ | with_reducible exact extract_low _ _ | with_reducible exact extract_high _ _ | with_reducible exact extract_mid _ _ _))⟩
theorem atFadd (p : Pred) (at' : Attr) (d a b : SReg) (disp : BitVec 24) : Statement (.atFadd p at' d a b disp) := by
  intro w h; cases h
  exact ⟨rfl, (opcC4 _ _ _ rfl).trans (congrArg some (show (.atFadd (mkEnc 0xC4 10 p 0 (encS d) (encS a) (encS b) 0 0 (.w32 (disp ++ encAttr at')) .none).f.pred (decAttr (((disp ++ encAttr at') : BitVec 32).extractLsb' 0 8)) (decS ((encS d) : BitVec 6)) (decS ((encS a) : BitVec 6)) (decS ((encS b) : BitVec 6)) (((disp ++ encAttr at') : BitVec 32).extractLsb' 8 24) : Instr) = (.atFadd p at' d a b disp) by simp <;> (repeat' apply And.intro) <;> first | with_reducible exact decAttr_low _ _ | with_reducible exact extract_low _ _ | with_reducible exact extract_high _ _ | with_reducible exact extract_mid _ _ _))⟩
theorem redAdd (p : Pred) (at' : Attr) (dw : Bool) (a b : SReg) (disp : BitVec 24) : Statement (.redAdd p at' dw a b disp) := by
  intro w h; cases h
  exact ⟨rfl, (opcC5 _ _ _ rfl).trans (congrArg some (show (.redAdd (mkEnc 0xC5 2 p (encBit dw) 0 (encS a) (encS b) 0 0 (.w32 (disp ++ encAttr at')) .none).f.pred (decAttr (((disp ++ encAttr at') : BitVec 32).extractLsb' 0 8)) (((encBit dw) : BitVec 4).getLsbD 0) (decS ((encS a) : BitVec 6)) (decS ((encS b) : BitVec 6)) (((disp ++ encAttr at') : BitVec 32).extractLsb' 8 24) : Instr) = (.redAdd p at' dw a b disp) by simp <;> (repeat' apply And.intro) <;> first | with_reducible exact decAttr_low _ _ | with_reducible exact extract_low _ _ | with_reducible exact extract_high _ _ | with_reducible exact extract_mid _ _ _))⟩
theorem redAnd (p : Pred) (at' : Attr) (dw : Bool) (a b : SReg) (disp : BitVec 24) : Statement (.redAnd p at' dw a b disp) := by
  intro w h; cases h
  exact ⟨rfl, (opcC5 _ _ _ rfl).trans (congrArg some (show (.redAnd (mkEnc 0xC5 3 p (encBit dw) 0 (encS a) (encS b) 0 0 (.w32 (disp ++ encAttr at')) .none).f.pred (decAttr (((disp ++ encAttr at') : BitVec 32).extractLsb' 0 8)) (((encBit dw) : BitVec 4).getLsbD 0) (decS ((encS a) : BitVec 6)) (decS ((encS b) : BitVec 6)) (((disp ++ encAttr at') : BitVec 32).extractLsb' 8 24) : Instr) = (.redAnd p at' dw a b disp) by simp <;> (repeat' apply And.intro) <;> first | with_reducible exact decAttr_low _ _ | with_reducible exact extract_low _ _ | with_reducible exact extract_high _ _ | with_reducible exact extract_mid _ _ _))⟩
theorem redOr (p : Pred) (at' : Attr) (dw : Bool) (a b : SReg) (disp : BitVec 24) : Statement (.redOr p at' dw a b disp) := by
  intro w h; cases h
  exact ⟨rfl, (opcC5 _ _ _ rfl).trans (congrArg some (show (.redOr (mkEnc 0xC5 4 p (encBit dw) 0 (encS a) (encS b) 0 0 (.w32 (disp ++ encAttr at')) .none).f.pred (decAttr (((disp ++ encAttr at') : BitVec 32).extractLsb' 0 8)) (((encBit dw) : BitVec 4).getLsbD 0) (decS ((encS a) : BitVec 6)) (decS ((encS b) : BitVec 6)) (((disp ++ encAttr at') : BitVec 32).extractLsb' 8 24) : Instr) = (.redOr p at' dw a b disp) by simp <;> (repeat' apply And.intro) <;> first | with_reducible exact decAttr_low _ _ | with_reducible exact extract_low _ _ | with_reducible exact extract_high _ _ | with_reducible exact extract_mid _ _ _))⟩
theorem redXor (p : Pred) (at' : Attr) (dw : Bool) (a b : SReg) (disp : BitVec 24) : Statement (.redXor p at' dw a b disp) := by
  intro w h; cases h
  exact ⟨rfl, (opcC5 _ _ _ rfl).trans (congrArg some (show (.redXor (mkEnc 0xC5 5 p (encBit dw) 0 (encS a) (encS b) 0 0 (.w32 (disp ++ encAttr at')) .none).f.pred (decAttr (((disp ++ encAttr at') : BitVec 32).extractLsb' 0 8)) (((encBit dw) : BitVec 4).getLsbD 0) (decS ((encS a) : BitVec 6)) (decS ((encS b) : BitVec 6)) (((disp ++ encAttr at') : BitVec 32).extractLsb' 8 24) : Instr) = (.redXor p at' dw a b disp) by simp <;> (repeat' apply And.intro) <;> first | with_reducible exact decAttr_low _ _ | with_reducible exact extract_low _ _ | with_reducible exact extract_high _ _ | with_reducible exact extract_mid _ _ _))⟩
theorem redMin (p : Pred) (at' : Attr) (dw : Bool) (a b : SReg) (disp : BitVec 24) : Statement (.redMin p at' dw a b disp) := by
  intro w h; cases h
  exact ⟨rfl, (opcC5 _ _ _ rfl).trans (congrArg some (show (.redMin (mkEnc 0xC5 6 p (encBit dw) 0 (encS a) (encS b) 0 0 (.w32 (disp ++ encAttr at')) .none).f.pred (decAttr (((disp ++ encAttr at') : BitVec 32).extractLsb' 0 8)) (((encBit dw) : BitVec 4).getLsbD 0) (decS ((encS a) : BitVec 6)) (decS ((encS b) : BitVec 6)) (((disp ++ encAttr at') : BitVec 32).extractLsb' 8 24) : Instr) = (.redMin p at' dw a b disp) by simp <;> (repeat' apply And.intro) <;> first | with_reducible exact decAttr_low _ _ | with_reducible exact extract_low _ _ | with_reducible exact extract_high _ _ | with_reducible exact extract_mid _ _ _))⟩
theorem redMax (p : Pred) (at' : Attr) (dw : Bool) (a b : SReg) (disp : BitVec 24) : Statement (.redMax p at' dw a b disp) := by
  intro w h; cases h
  exact ⟨rfl, (opcC5 _ _ _ rfl).trans (congrArg some (show (.redMax (mkEnc 0xC5 7 p (encBit dw) 0 (encS a) (encS b) 0 0 (.w32 (disp ++ encAttr at')) .none).f.pred (decAttr (((disp ++ encAttr at') : BitVec 32).extractLsb' 0 8)) (((encBit dw) : BitVec 4).getLsbD 0) (decS ((encS a) : BitVec 6)) (decS ((encS b) : BitVec 6)) (((disp ++ encAttr at') : BitVec 32).extractLsb' 8 24) : Instr) = (.redMax p at' dw a b disp) by simp <;> (repeat' apply And.intro) <;> first | with_reducible exact decAttr_low _ _ | with_reducible exact extract_low _ _ | with_reducible exact extract_high _ _ | with_reducible exact extract_mid _ _ _))⟩
theorem redMinu (p : Pred) (at' : Attr) (dw : Bool) (a b : SReg) (disp : BitVec 24) : Statement (.redMinu p at' dw a b disp) := by
  intro w h; cases h
  exact ⟨rfl, (opcC5 _ _ _ rfl).trans (congrArg some (show (.redMinu (mkEnc 0xC5 8 p (encBit dw) 0 (encS a) (encS b) 0 0 (.w32 (disp ++ encAttr at')) .none).f.pred (decAttr (((disp ++ encAttr at') : BitVec 32).extractLsb' 0 8)) (((encBit dw) : BitVec 4).getLsbD 0) (decS ((encS a) : BitVec 6)) (decS ((encS b) : BitVec 6)) (((disp ++ encAttr at') : BitVec 32).extractLsb' 8 24) : Instr) = (.redMinu p at' dw a b disp) by simp <;> (repeat' apply And.intro) <;> first | with_reducible exact decAttr_low _ _ | with_reducible exact extract_low _ _ | with_reducible exact extract_high _ _ | with_reducible exact extract_mid _ _ _))⟩
theorem redMaxu (p : Pred) (at' : Attr) (dw : Bool) (a b : SReg) (disp : BitVec 24) : Statement (.redMaxu p at' dw a b disp) := by
  intro w h; cases h
  exact ⟨rfl, (opcC5 _ _ _ rfl).trans (congrArg some (show (.redMaxu (mkEnc 0xC5 9 p (encBit dw) 0 (encS a) (encS b) 0 0 (.w32 (disp ++ encAttr at')) .none).f.pred (decAttr (((disp ++ encAttr at') : BitVec 32).extractLsb' 0 8)) (((encBit dw) : BitVec 4).getLsbD 0) (decS ((encS a) : BitVec 6)) (decS ((encS b) : BitVec 6)) (((disp ++ encAttr at') : BitVec 32).extractLsb' 8 24) : Instr) = (.redMaxu p at' dw a b disp) by simp <;> (repeat' apply And.intro) <;> first | with_reducible exact decAttr_low _ _ | with_reducible exact extract_low _ _ | with_reducible exact extract_high _ _ | with_reducible exact extract_mid _ _ _))⟩
theorem redFadd (p : Pred) (at' : Attr) (a b : SReg) (disp : BitVec 24) : Statement (.redFadd p at' a b disp) := by
  intro w h; cases h
  exact ⟨rfl, (opcC5 _ _ _ rfl).trans (congrArg some (show (.redFadd (mkEnc 0xC5 10 p 0 0 (encS a) (encS b) 0 0 (.w32 (disp ++ encAttr at')) .none).f.pred (decAttr (((disp ++ encAttr at') : BitVec 32).extractLsb' 0 8)) (decS ((encS a) : BitVec 6)) (decS ((encS b) : BitVec 6)) (((disp ++ encAttr at') : BitVec 32).extractLsb' 8 24) : Instr) = (.redFadd p at' a b disp) by simp <;> (repeat' apply And.intro) <;> first | with_reducible exact decAttr_low _ _ | with_reducible exact extract_low _ _ | with_reducible exact extract_high _ _ | with_reducible exact extract_mid _ _ _))⟩
theorem reductionPerform (id : Nat) : Statement (.reductionPerform id) := fun _ h => nomatch h
theorem wqWait (p : Pred) (at' : Attr) (d a b : SReg) (disp : BitVec 24) : Statement (.wqWait p at' d a b disp) := by
  intro w h; cases h
  exact ⟨rfl, (opcC6 _ _ _ rfl).trans (congrArg some (show (.wqWait (mkEnc 0xC6 0 p 0 (encS d) (encS a) (encS b) 0 0 (.w32 (disp ++ encAttr at')) .none).f.pred (decAttr (((disp ++ encAttr at') : BitVec 32).extractLsb' 0 8)) (decS ((encS d) : BitVec 6)) (decS ((encS a) : BitVec 6)) (decS ((encS b) : BitVec 6)) (((disp ++ encAttr at') : BitVec 32).extractLsb' 8 24) : Instr) = (.wqWait p at' d a b disp) by simp <;> (repeat' apply And.intro) <;> first | with_reducible exact decAttr_low _ _ | with_reducible exact extract_low _ _ | with_reducible exact extract_high _ _ | with_reducible exact extract_mid _ _ _))⟩
theorem wqWake (p : Pred) (at' : Attr) (d a b : SReg) (c : Option SReg) (disp : BitVec 24) : Statement (.wqWake p at' d a b c disp) := by
  intro w h; cases h
  exact ⟨rfl, (opcC6 _ _ _ rfl).trans (congrArg some (show (.wqWake (mkEnc 0xC6 1 p (encHasS c) (encS d) (encS a) (encS b) (encOptS c) 0 (.w32 (disp ++ encAttr at')) .none).f.pred (decAttr (((disp ++ encAttr at') : BitVec 32).extractLsb' 0 8)) (decS ((encS d) : BitVec 6)) (decS ((encS a) : BitVec 6)) (decS ((encS b) : BitVec 6)) (decOptS ((encOptS c) : BitVec 6) (((encHasS c) : BitVec 4).getLsbD 0)) (((disp ++ encAttr at') : BitVec 32).extractLsb' 8 24) : Instr) = (.wqWake p at' d a b c disp) by simp <;> (repeat' apply And.intro) <;> first | with_reducible exact decAttr_low _ _ | with_reducible exact extract_low _ _ | with_reducible exact extract_high _ _ | with_reducible exact extract_mid _ _ _))⟩
theorem sigSend (p : Pred) (a b : SReg) : Statement (.sigSend p a b) := by
  intro w h; cases h
  exact ⟨rfl, (opcC7 _ _ _ rfl).trans (congrArg some (show (.sigSend (mkEnc 0xC7 0 p 0 0 (encS a) (encS b) 0 0 .none .none).f.pred (decS ((encS a) : BitVec 6)) (decS ((encS b) : BitVec 6)) : Instr) = (.sigSend p a b) by simp))⟩
theorem sigTake (p : Pred) (poll : Bool) (d : SReg) : Statement (.sigTake p poll d) := by
  intro w h; cases h
  exact ⟨rfl, (opcC7 _ _ _ rfl).trans (congrArg some (show (.sigTake (mkEnc 0xC7 1 p (encBit poll) (encS d) 0 0 0 0 .none .none).f.pred (((encBit poll) : BitVec 4).getLsbD 0) (decS ((encS d) : BitVec 6)) : Instr) = (.sigTake p poll d) by simp))⟩
theorem signalDelivery (vt slot : Nat) : Statement (.signalDelivery vt slot) := fun _ h => nomatch h
theorem allAsleepTrap (part : Nat) : Statement (.allAsleepTrap part) := fun _ h => nomatch h
theorem permitAudit (link found : Nat) (tileA tileB : Nat) (parts : List Nat) : Statement (.permitAudit link found tileA tileB parts) := fun _ h => nomatch h
theorem cont (yield : Bool) (lives : BitVec 32) (livev : BitVec 16) (r0 r1 r2 r3 : LiveRange) : Statement (.cont yield lives livev r0 r1 r2 r3) := by
  intro w h; cases h
  exact ⟨rfl, (opcD8 _ _ _ rfl).trans (congrArg some (show (.cont (((encBit yield) : BitVec 4).getLsbD 0) (((lives ++ (0 : BitVec 8) ++ encRng r1 ++ encRng r0) : BitVec 64).extractLsb' 32 32) (livev : BitVec 16) (decRng (((lives ++ (0 : BitVec 8) ++ encRng r1 ++ encRng r0) : BitVec 64).extractLsb' 0 12)) (decRng (((lives ++ (0 : BitVec 8) ++ encRng r1 ++ encRng r0) : BitVec 64).extractLsb' 12 12)) (decRng ((((encRng r2).extractLsb' 6 6) : BitVec 6) ++ (((encRng r2).extractLsb' 0 6) : BitVec 6))) (decRng ((((encRng r3).extractLsb' 6 6) : BitVec 6) ++ (((encRng r3).extractLsb' 0 6) : BitVec 6))) : Instr) = (.cont yield lives livev r0 r1 r2 r3) by simp <;> (repeat' apply And.intro) <;> first | with_reducible exact decRng_low _ _ | with_reducible exact decRng_mid _ _ _ | with_reducible exact decRng_halves _ | exact cont_lives _ _ _))⟩
theorem saveComplete (gang : Nat) : Statement (.saveComplete gang) := fun _ h => nomatch h
theorem spawn (p : Pred) (d a b : SReg) (disp : BitVec 32) : Statement (.spawn p d a b disp) := by
  intro w h; cases h
  exact ⟨rfl, (opcD9 _ _ _ rfl).trans (congrArg some (show (.spawn (mkEnc 0xD9 0 p 0 (encS d) (encS a) (encS b) 0 0 (.w32 disp) .none).f.pred (decS ((encS d) : BitVec 6)) (decS ((encS a) : BitVec 6)) (decS ((encS b) : BitVec 6)) (disp : BitVec 32) : Instr) = (.spawn p d a b disp) by simp))⟩
theorem budAdd (p : Pred) (mem : Bool) (d a : SReg) : Statement (.budAdd p mem d a) := by
  intro w h; cases h
  exact ⟨rfl, (opcDA _ _ _ rfl).trans (congrArg some (show (.budAdd (mkEnc 0xDA 0 p (encBit mem) (encS d) (encS a) 0 0 0 .none .none).f.pred (((encBit mem) : BitVec 4).getLsbD 0) (decS ((encS d) : BitVec 6)) (decS ((encS a) : BitVec 6)) : Instr) = (.budAdd p mem d a) by simp))⟩
theorem budGive (p : Pred) (mem : Bool) (d a b : SReg) : Statement (.budGive p mem d a b) := by
  intro w h; cases h
  exact ⟨rfl, (opcDA _ _ _ rfl).trans (congrArg some (show (.budGive (mkEnc 0xDA 1 p (encBit mem) (encS d) (encS a) (encS b) 0 0 .none .none).f.pred (((encBit mem) : BitVec 4).getLsbD 0) (decS ((encS d) : BitVec 6)) (decS ((encS a) : BitVec 6)) (decS ((encS b) : BitVec 6)) : Instr) = (.budGive p mem d a b) by simp))⟩
theorem budgetFault (vt slot : Nat) : Statement (.budgetFault vt slot) := fun _ h => nomatch h
theorem graceDecay (vt slot : Nat) : Statement (.graceDecay vt slot) := fun _ h => nomatch h
theorem leaseReq (p : Pred) (l : LeaseArgs) (a : SReg) : Statement (.leaseReq p l a) := by
  intro w h; cases h
  exact ⟨rfl, (opcDB _ _ _ rfl).trans (congrArg some (show (.leaseReq (mkEnc 0xDB 0 p (encLease l) 0 (encS a) 0 0 0 .none .none).f.pred (decLease ((encLease l) : BitVec 4)) (decS ((encS a) : BitVec 6)) : Instr) = (.leaseReq p l a) by simp))⟩
theorem leaseReqImm (p : Pred) (l : LeaseArgs) (dur : BitVec 16) : Statement (.leaseReqImm p l dur) := by
  intro w h; cases h
  exact ⟨rfl, (opcDB _ _ _ rfl).trans (congrArg some (show (.leaseReqImm (mkEnc 0xDB 0 p (encLease l) 0 0 0 0 0 (.w32 ((0 : BitVec 16) ++ dur)) .none).f.pred (decLease ((encLease l) : BitVec 4)) ((((0 : BitVec 16) ++ dur) : BitVec 32).extractLsb' 0 16) : Instr) = (.leaseReqImm p l dur) by simp <;> (repeat' apply And.intro) <;> first | with_reducible exact extract_low _ _ | with_reducible exact extract_high _ _ | with_reducible exact extract_mid _ _ _))⟩
theorem leaseEnd (p : Pred) : Statement (.leaseEnd p) := by
  intro w h; cases h
  exact ⟨rfl, (opcDB _ _ _ rfl).trans (congrArg some (show (.leaseEnd (mkEnc 0xDB 1 p 0 0 0 0 0 0 .none .none).f.pred : Instr) = (.leaseEnd p) by simp))⟩
theorem leaseTest (p : Pred) (d : SReg) : Statement (.leaseTest p d) := by
  intro w h; cases h
  exact ⟨rfl, (opcDB _ _ _ rfl).trans (congrArg some (show (.leaseTest (mkEnc 0xDB 2 p 0 (encS d) 0 0 0 0 .none .none).f.pred (decS ((encS d) : BitVec 6)) : Instr) = (.leaseTest p d) by simp))⟩
theorem leasePeriodEnd (gang : Nat) : Statement (.leasePeriodEnd gang) := fun _ h => nomatch h
theorem zoneHardLimit (zone melt : Nat) : Statement (.zoneHardLimit zone melt) := fun _ h => nomatch h
theorem zoneRefreezeChange (zone melt : Nat) : Statement (.zoneRefreezeChange zone melt) := fun _ h => nomatch h
theorem trap (p : Pred) (a : SReg) (code : BitVec 16) : Statement (.trap p a code) := by
  intro w h; cases h
  exact ⟨rfl, (opcDC _ _ _ rfl).trans (congrArg some (show (.trap (mkEnc 0xDC 0 p 0 0 (encS a) 0 0 code .none .none).f.pred (decS ((encS a) : BitVec 6)) (code : BitVec 16) : Instr) = (.trap p a code) by simp))⟩
theorem supResume (p : Pred) (d a b : SReg) : Statement (.supResume p d a b) := by
  intro w h; cases h
  exact ⟨rfl, (opcDD _ _ _ rfl).trans (congrArg some (show (.supResume (mkEnc 0xDD 0 p 0 (encS d) (encS a) (encS b) 0 0 .none .none).f.pred (decS ((encS d) : BitVec 6)) (decS ((encS a) : BitVec 6)) (decS ((encS b) : BitVec 6)) : Instr) = (.supResume p d a b) by simp))⟩
theorem supRestart (p : Pred) (alt : Bool) (d a b : SReg) : Statement (.supRestart p alt d a b) := by
  intro w h; cases h
  exact ⟨rfl, (opcDD _ _ _ rfl).trans (congrArg some (show (.supRestart (mkEnc 0xDD 1 p (encBit alt) (encS d) (encS a) (encS b) 0 0 .none .none).f.pred (((encBit alt) : BitVec 4).getLsbD 0) (decS ((encS d) : BitVec 6)) (decS ((encS a) : BitVec 6)) (decS ((encS b) : BitVec 6)) : Instr) = (.supRestart p alt d a b) by simp))⟩
theorem supAbort (p : Pred) (gang : Bool) (d a b : SReg) (detail : BitVec 8) : Statement (.supAbort p gang d a b detail) := by
  intro w h; cases h
  exact ⟨rfl, (opcDD _ _ _ rfl).trans (congrArg some (show (.supAbort (mkEnc 0xDD 2 p (encBit gang) (encS d) (encS a) (encS b) 0 ((0 : BitVec 8) ++ detail) .none .none).f.pred (((encBit gang) : BitVec 4).getLsbD 0) (decS ((encS d) : BitVec 6)) (decS ((encS a) : BitVec 6)) (decS ((encS b) : BitVec 6)) ((((0 : BitVec 8) ++ detail) : BitVec 16).extractLsb' 0 8) : Instr) = (.supAbort p gang d a b detail) by simp <;> (repeat' apply And.intro) <;> first | with_reducible exact extract_low _ _ | with_reducible exact extract_high _ _ | with_reducible exact extract_mid _ _ _))⟩
theorem heldPacketWrite (vt slot : Nat) : Statement (.heldPacketWrite vt slot) := fun _ h => nomatch h
theorem watchdogTick (gang : Nat) : Statement (.watchdogTick gang) := fun _ h => nomatch h
theorem watchdogExpiry (gang : Nat) : Statement (.watchdogExpiry gang) := fun _ h => nomatch h
theorem scrRun (p : Pred) (full : Bool) (d : HReg) (a b : SReg) : Statement (.scrRun p full d a b) := by
  intro w h; cases h
  exact ⟨rfl, (opcDE _ _ _ rfl).trans (congrArg some (show (.scrRun (mkEnc 0xDE 0 p (encBit full) (encH d) (encS a) (encS b) 0 0 .none .none).f.pred (((encBit full) : BitVec 4).getLsbD 0) (decH ((encH d) : BitVec 6)) (decS ((encS a) : BitVec 6)) (decS ((encS b) : BitVec 6)) : Instr) = (.scrRun p full d a b) by simp))⟩
theorem scrStat (p : Pred) (d a : SReg) : Statement (.scrStat p d a) := by
  intro w h; cases h
  exact ⟨rfl, (opcDE _ _ _ rfl).trans (congrArg some (show (.scrStat (mkEnc 0xDE 1 p 0 (encS d) (encS a) 0 0 0 .none .none).f.pred (decS ((encS d) : BitVec 6)) (decS ((encS a) : BitVec 6)) : Instr) = (.scrStat p d a) by simp))⟩
theorem scrTestComplete (id : Nat) (failMask margMask : BitVec 16) : Statement (.scrTestComplete id failMask margMask) := fun _ h => nomatch h
theorem testLeaveComplete (vt : Nat) : Statement (.testLeaveComplete vt) := fun _ h => nomatch h
theorem infieldTestComplete (ptile : Nat) (failCores : BitVec 16) (marg : Nat) (logicFail : Bool) : Statement (.infieldTestComplete ptile failCores marg logicFail) := fun _ h => nomatch h
theorem routineRotation : Statement .routineRotation := fun _ h => nomatch h
theorem forcedRotation (vt : Nat) : Statement (.forcedRotation vt) := fun _ h => nomatch h
theorem rotationQuiescent (vt : Nat) : Statement (.rotationQuiescent vt) := fun _ h => nomatch h
theorem drainTimeout (vt : Nat) : Statement (.drainTimeout vt) := fun _ h => nomatch h
theorem stateCopyComplete (vt : Nat) : Statement (.stateCopyComplete vt) := fun _ h => nomatch h
theorem stateCopyError (vt : Nat) (atTarget : Bool) : Statement (.stateCopyError vt atTarget) := fun _ h => nomatch h
theorem tableUpdateCommit (vt : Nat) : Statement (.tableUpdateCommit vt) := fun _ h => nomatch h
theorem tableUpdateReject (vt ptile : Nat) : Statement (.tableUpdateReject vt ptile) := fun _ h => nomatch h
theorem replay (vt : Nat) (counter : Nat) : Statement (.replay vt counter) := fun _ h => nomatch h
theorem journalFold (vt slot : Nat) : Statement (.journalFold vt slot) := fun _ h => nomatch h
theorem retentionEntry (ptile : Nat) : Statement (.retentionEntry ptile) := fun _ h => nomatch h
theorem ageingDecay : Statement .ageingDecay := fun _ h => nomatch h
theorem ageingSnapshot : Statement .ageingSnapshot := fun _ h => nomatch h
theorem doorbell (qid : Nat) (val : BitVec 32) : Statement (.doorbell qid val) := fun _ h => nomatch h
theorem queueCreate (src : Source) (q0 arg1 : Word) : Statement (.queueCreate src q0 arg1) := fun _ h => nomatch h
theorem queueDestroy (src : Source) (qid : Nat) : Statement (.queueDestroy src qid) := fun _ h => nomatch h
theorem queueRestart (src : Source) (qid : Nat) : Statement (.queueRestart src qid) := fun _ h => nomatch h
theorem queueCredit (src : Source) (qid : Nat) (arg1 arg2 : Word) : Statement (.queueCredit src qid arg1 arg2) := fun _ h => nomatch h
theorem queueClose (qid : Nat) : Statement (.queueClose qid) := fun _ h => nomatch h
theorem recordRead (qid : Nat) : Statement (.recordRead qid) := fun _ h => nomatch h
theorem seqRetry (qid : Nat) : Statement (.seqRetry qid) := fun _ h => nomatch h
theorem dependenceReread (qid : Nat) : Statement (.dependenceReread qid) := fun _ h => nomatch h
theorem selectionRound : Statement .selectionRound := fun _ h => nomatch h
theorem recordReserving (qid : Nat) : Statement (.recordReserving qid) := fun _ h => nomatch h
theorem bind (vt : Nat) (rec : List Word) (bindRec : List Word) : Statement (.bind vt rec bindRec) := fun _ h => nomatch h
theorem release (vt : Nat) (bindRec : List Word) : Statement (.release vt bindRec) := fun _ h => nomatch h
theorem preempt (vt : Nat) (bindRec : List Word) : Statement (.preempt vt bindRec) := fun _ h => nomatch h
theorem scrubComplete (vt slot : Nat) : Statement (.scrubComplete vt slot) := fun _ h => nomatch h
theorem gangRetire (gang : Nat) : Statement (.gangRetire gang) := fun _ h => nomatch h
theorem translationInvalidate : Statement .translationInvalidate := fun _ h => nomatch h
theorem partitionDescriptorWrite (part : Nat) (val : Word) : Statement (.partitionDescriptorWrite part val) := fun _ h => nomatch h
theorem savePoolWrite (part : Nat) (size : Bool) (val : Word) : Statement (.savePoolWrite part size val) := fun _ h => nomatch h
theorem faultRingWrite (part : Nat) (size : Bool) (val : Word) : Statement (.faultRingWrite part size val) := fun _ h => nomatch h
theorem frheadWrite (part : Nat) (val : BitVec 32) : Statement (.frheadWrite part val) := fun _ h => nomatch h
theorem drain (part : Nat) : Statement (.drain part) := fun _ h => nomatch h
theorem reset (part : Nat) : Statement (.reset part) := fun _ h => nomatch h
theorem undrain (part : Nat) : Statement (.undrain part) := fun _ h => nomatch h
theorem debugWindowWrite (src : Source) (off width : Nat) (val : Word) : Statement (.debugWindowWrite src off width val) := fun _ h => nomatch h
theorem sepiaClr (vt slot : Nat) : Statement (.sepiaClr vt slot) := fun _ h => nomatch h
theorem eventStreamWrite (part which : Nat) (val : Word) : Statement (.eventStreamWrite part which val) := fun _ h => nomatch h
theorem evheadWrite (part : Nat) (val : BitVec 32) : Statement (.evheadWrite part val) := fun _ h => nomatch h
theorem pcSample (vt slot : Nat) : Statement (.pcSample vt slot) := fun _ h => nomatch h
theorem registerWrite (src : Source) (off width : Nat) (val : Word) : Statement (.registerWrite src off width val) := fun _ h => nomatch h
theorem bar2Read (addr width : Nat) : Statement (.bar2Read addr width) := fun _ h => nomatch h
theorem bar2Write (addr : Nat) (data : List Byte) : Statement (.bar2Write addr data) := fun _ h => nomatch h
theorem portLinkUp (port : Nat) (peer : BitVec 24) : Statement (.portLinkUp port peer) := fun _ h => nomatch h
theorem portRingEnable (port ring : Nat) (val : Word) : Statement (.portRingEnable port ring val) := fun _ h => nomatch h
theorem portDoorbell (port ring : Nat) (val : BitVec 32) : Statement (.portDoorbell port ring val) := fun _ h => nomatch h
theorem descriptorStart (port ring : Nat) : Statement (.descriptorStart port ring) := fun _ h => nomatch h
theorem descriptorComplete (port ring : Nat) (ok : Bool) : Statement (.descriptorComplete port ring ok) := fun _ h => nomatch h
theorem inboundWrite (port : Nat) (spart rpart : Nat) (dst : Word) (data : List Byte) (rdone : Word) : Statement (.inboundWrite port spart rpart dst data rdone) := fun _ h => nomatch h
theorem firmwareChunkWrite : Statement .firmwareChunkWrite := fun _ h => nomatch h
theorem firmwareCommit (storeOk : Bool) : Statement (.firmwareCommit storeOk) := fun _ h => nomatch h
theorem attestation : Statement .attestation := fun _ h => nomatch h
theorem attestationReportReady : Statement .attestationReportReady := fun _ h => nomatch h
theorem hbmTempRead (stack : Nat) (temp : Option Nat) : Statement (.hbmTempRead stack temp) := fun _ h => nomatch h
theorem sliceFailure (edge pc : Nat) : Statement (.sliceFailure edge pc) := fun _ h => nomatch h
theorem copyCommandStart (vt : Nat) : Statement (.copyCommandStart vt) := fun _ h => nomatch h
theorem patrolScrub (vt slot : Nat) : Statement (.patrolScrub vt slot) := fun _ h => nomatch h
theorem softError (t : SoftTarget) : Statement (.softError t) := fun _ h => nomatch h
theorem portLinkDown (port : Nat) : Statement (.portLinkDown port) := fun _ h => nomatch h

end Sys2Proof.Laws.Encoding
end

