-- ==== Sys2Proof/Tests/Slice0.lean ====
section
/-! SUPPORT. Tests: ill-formed terms that the checks refuse, words of the spec's encodings, concrete states that meet the hypotheses of the statements, and single steps against the spec's tables and examples. -/

open Sys2Proof Sys2Proof.Machine
set_option Elab.async false

namespace Sys2Proof.Tests

/-! Ill-formed terms, one for each check, and the well-formed one beside it. -/

theorem test_wf_predicate : (Instr.halt { reg := 0, neg := true }).wf = false ∧ (Instr.halt Pred.always).wf = true := by decide
theorem test_wf_predicate_negated : (Instr.halt { reg := 1, neg := true }).wf = true := by decide
theorem test_wf_scope : (Instr.gldD Pred.always { ord := 0, scope := 7, evict := 0 } 4 1 0).wf = false ∧
    (Instr.gldD Pred.always { ord := 0, scope := 6, evict := 0 } 4 1 0).wf = true := by decide
theorem test_wf_fence_order : (Instr.fence Pred.always { ord := 0, scope := 3, evict := 0 }).wf = false := by decide
theorem test_wf_fence_evict : (Instr.fence Pred.always { ord := 3, scope := 3, evict := 1 }).wf = false ∧
    (Instr.fence Pred.always { ord := 3, scope := 3, evict := 0 }).wf = true := by decide
theorem test_wf_prefix_scope :
    (Instr.ldW Pred.always (some { dhi := none, evict := none, scope := some 7, ord := none }) 7 5 0).wf = false := by decide
theorem test_wf_prefix_extension :
    (Instr.ldW Pred.always (some { dhi := some 9, evict := none, scope := some 1, ord := none }) 7 5 0).wf = true ∧
    (Instr.vLdLong Pred.always (some { dhi := some 9, evict := none, scope := some 1, ord := none }) 7 5 0).wf = false := by decide
theorem test_wf_mode_ss : (Instr.vMulh Pred.always .e32 .ss 1 2 3).wf = false ∧ (Instr.vMulh Pred.always .e32 .us 1 2 3).wf = true := by decide
theorem test_wf_mode_us : (Instr.vAbs Pred.always .e32 .us 1 2).wf = false ∧ (Instr.vAbs Pred.always .e32 .ss 1 2).wf = true := by decide
theorem test_wf_element_shift : (Instr.vShlImm Pred.always .e8 1 2 8).wf = false ∧ (Instr.vShlImm Pred.always .e8 1 2 7).wf = true := by decide
theorem test_wf_narrow_shift : (Instr.shlImm Pred.always true 1 2 32).wf = false ∧ (Instr.shlImm Pred.always false 1 2 32).wf = true := by decide
theorem test_wf_bit_field : (Instr.bfX Pred.always false 1 2 60 4).wf = false ∧ (Instr.bfX Pred.always false 1 2 60 3).wf = true := by decide
theorem test_wf_csr : (Instr.csrRd Pred.always 1 0x006).wf = false ∧ (Instr.csrRd Pred.always 1 0x005).wf = true := by decide
theorem test_wf_loop : (Instr.loop Pred.always 4 1).wf = false ∧ (Instr.loop Pred.always 4 2).wf = true := by decide
theorem test_wf_loop_immediate : (Instr.loopImm Pred.always 2 9).wf = false ∧ (Instr.loopImm Pred.always 3 9).wf = true := by decide
theorem test_wf_rep_window :
    (Instr.rep Pred.always 5 { stream := none, lenm1 := 0, wbase := 30, wsize := 3 }).wf = false ∧
    (Instr.rep Pred.always 5 { stream := none, lenm1 := 0, wbase := 29, wsize := 3 }).wf = true := by decide
theorem test_wf_rep_base :
    (Instr.rep Pred.always 5 { stream := none, lenm1 := 0, wbase := 1, wsize := 0 }).wf = false := by decide
theorem test_wf_convert_format : (Instr.vCvtN Pred.always .rne .fl 1 2 9 0).wf = false := by decide
theorem test_wf_convert_slice : (Instr.vCvtN Pred.always .rne .fl 1 2 4 4).wf = false ∧ (Instr.vCvtN Pred.always .rne .fl 1 2 4 3).wf = true := by decide
theorem test_wf_shuffle : (Instr.vShuf Pred.always .rev 1 2 3).wf = false ∧ (Instr.vShuf Pred.always .zlo 1 2 3).wf = true := by decide
theorem test_wf_copy_length : (Instr.cpGet Pred.always { ord := 0, scope := 5, evict := 3 } 6 7 0 none).wf = false ∧
    (Instr.cpGet Pred.always { ord := 0, scope := 5, evict := 3 } 6 7 458756 none).wf = false ∧
    (Instr.cpGet Pred.always { ord := 0, scope := 5, evict := 3 } 6 7 458752 none).wf = true := by decide
theorem test_wf_copy_cores : (Instr.cpGetMc Pred.always { ord := 0, scope := 5, evict := 3 } 6 7 4 0 none).wf = false := by decide
theorem test_wf_convert_window : (Instr.cpCvt Pred.always { ord := 0, scope := 5, evict := 3 } .rne 1 2 3 0 1 none).wf = false ∧
    (Instr.cpCvt Pred.always { ord := 0, scope := 5, evict := 3 } .rne 1 2 3 1 1 none).wf = true := by decide

/-! Words written out from the encodings and the listings of the spec. -/

-- 07 and 10, the listings: `nop`, `pad`, `halt`.
theorem test_decode_nop : decodeTableWord 64 0x0000000000000000 = some .nop := by decide +kernel
theorem test_decode_pad : decodeTableWord 64 0x0000000000000400 = some .pad := by decide +kernel
theorem test_decode_halt : decodeTableWord 64 0x0000000000000010 = some (.halt Pred.always) := by decide +kernel
-- 07, the listing `walk`.
theorem test_decode_loop : decodeTableWord 64 0x000A000001000018 = some (.loop Pred.always 4 10) := by decide +kernel
theorem test_decode_q_push : decodeTableWord 64 0x0000000001810020 = some (.qPush Pred.always 1 6) := by decide +kernel
theorem test_decode_br_c : decodeTableWord 64 0x0006000071800008 = some (.brC Pred.always .eq 6 7 6) := by decide +kernel
theorem test_decode_loop_end : decodeTableWord 64 0x0000000000000818 = some (.loopEnd Pred.always) := by decide +kernel
theorem test_decode_q_test : decodeTableWord 64 0x0000000000481020 = some (.qTest Pred.always 8 1) := by decide +kernel
-- 07, the streamed body.
theorem test_decode_rep : decodeTableWord 64 0x0D03A0000140001C =
    some (.rep Pred.always 5 { stream := some 2, lenm1 := 3, wbase := 8, wsize := 3 }) := by decide +kernel
-- 08, the listing `home`.
theorem test_decode_csr_rd : decodeTableWord 64 0x00120000000A00AC = some (.csrRd Pred.always 10 0x012) := by decide +kernel
theorem test_decode_bf_x : decodeTableWord 64 0x008D0000028B00A0 = some (.bfX Pred.always false 11 10 13 2) := by decide +kernel
theorem test_decode_cmp : decodeTableWord 64 0x0004500003010498 = some (.cmpPImm Pred.always .geu 1 12 4) := by decide +kernel
theorem test_decode_add : decodeTableWord 64 0x0006000002CE0880 = some (.addImm Pred.always .wrap 14 11 6) := by decide +kernel
theorem test_decode_shl : decodeTableWord 64 0x0004100003500094 = some (.shlImm Pred.always false 16 13 4) := by decide +kernel
theorem test_decode_lea : decodeTableWord 64 0x00007000C15000A4 = some (.lea Pred.always 7 16 5 12 0) := by decide +kernel
theorem test_decode_li : decodeTableWord 96 0x0000000000000000000900B1 = some (.li Pred.always 9 0) := by decide +kernel
-- 09.
theorem test_decode_v_fadd_scalar : decodeTableWord 64 0x000000006209015C = some (.vFaddScalar Pred.always .rne 9 8 6) := by decide +kernel
theorem test_decode_v_fadd : decodeTableWord 64 0x0000000092490158 = some (.vFadd Pred.always .rne 9 9 9) := by decide +kernel
-- 10, the listing `mmdemo`.
theorem test_decode_mx_mask : decodeTableWord 96 0xFFFFFFFF7FFF000000000659 = some (.mxMaskImm Pred.always 0xFFFF 0xFFFF 0x7FFF) := by decide +kernel
theorem test_decode_mx_mma : decodeTableWord 64 0x4401202430800240 = some (.mxMma Pred.always false true 0 2 3 9 1 (some 1)) := by decide +kernel
theorem test_decode_mx_st : decodeTableWord 64 0x480000244000024C = some (.mxSt Pred.always .rne false 0 4 9 (some 2)) := by decide +kernel
-- 11, the listing `take`; 13; 15; 16; 17.
theorem test_decode_wd_ask : decodeTableWord 64 0x00010000010302BC = some (.wdAsk Pred.always 3 4 1) := by decide +kernel
theorem test_decode_cp_get : decodeTableWord 96 0x0001002B00001000718402B5 =
    some (.cpGet Pred.always { ord := 0, scope := 5, evict := 3 } 6 7 256 (some 4)) := by decide +kernel
theorem test_decode_fut_wait : decodeTableWord 64 0x0000000000CA02B8 = some (.futWait Pred.always 10 3) := by decide +kernel
theorem test_decode_gld : decodeTableWord 96 0x0000002B0000000000440EA9 =
    some (.gldD Pred.always { ord := 0, scope := 5, evict := 3 } 4 1 0) := by decide +kernel
theorem test_decode_wq_wake : decodeTableWord 96 0x000000AB0000101491080719 =
    some (.wqWake Pred.always { ord := 2, scope := 5, evict := 3 } 8 4 9 (some 5) 0) := by decide +kernel
theorem test_decode_wq_wait : decodeTableWord 96 0x0000006B00000000010A0319 =
    some (.wqWait Pred.always { ord := 1, scope := 5, evict := 3 } 10 4 0 0) := by decide +kernel
theorem test_decode_fence : decodeTableWord 64 0x00D800000000030C = some (.fence Pred.always { ord := 3, scope := 3, evict := 0 }) := by decide +kernel
theorem test_decode_lease : decodeTableWord 64 0x0000E0000140036C =
    some (.leaseReq Pred.always { s2 := true, dom := true, trap := true } 5) := by decide +kernel
theorem test_decode_trap : decodeTableWord 64 0x002A000001C00370 = some (.trap Pred.always 7 42) := by decide +kernel
theorem test_decode_scr_run : decodeTableWord 64 0x0000100061050378 = some (.scrRun Pred.always true 5 4 6) := by decide +kernel
-- 15, the listing `slice`: its `cont`, whose 16 bytes the spec gives.
theorem test_decode_cont : (match decodeAt [0x62, 3, 0, 0, 0, 0, 0x10, 0, 0x82, 0, 0, 0, 4, 0, 0, 0] 0 with
    | .ok i n => i == .cont false 4 0x10 { base := 2, pages := 1 } { base := 0, pages := 0 } { base := 0, pages := 0 } { base := 0, pages := 0 } && n == 16
    | _ => false) = true := by decide +kernel
-- 06 R112, R121: `ld.w.acq.tile s7, [s5+0x40]` behind its prefix.
theorem test_decode_prefixed : decodeTableWord 128 0x0040000001470AA000000000000C2407 =
    some (.ldW Pred.always (some { dhi := none, evict := none, scope := some 2, ord := some 1 }) 7 5 0x40) := by decide +kernel
-- 06 R106, R109, R114: LEN 11 in no row, PR = 0 with PN = 1, and an opcode that no row has.
theorem test_decode_no_opcode : decodeTableWord 64 0x00000000000003FC = none := by decide +kernel
theorem test_decode_bad_predicate : decodeTableWord 64 0x0000000000002010 = none := by decide +kernel

/-! What the hypotheses of the statements ask, met by concrete states: the placed thread of log entry 13, changed by hand. -/


/-- The device with the placed thread at VTILE 0, slot 0. -/
def here : State := State.reset.prepared 0 0

/-- That device with its thread changed. -/
def thr (f : Thread → Thread) : State := here.modThread 0 0 f

/-- That device with its thread's core changed. -/
def cor (f : Core → Core) : State := here.modCore 0 0 f

/-- The thread at VTILE 0, slot 0. -/
def me (s : State) : Thread := s.thread 0 0

/-- `Issues`, computed. -/
def ready (s : State) (f : Form) : Bool :=
  decide (s.curThread? = some (me s)) && decide ((me s).st = .run) && (!(me s).pend || f.wins) && decide ((me s).asyncF = none) &&
    (s.cur.body || !(me s).rep.isSome || f.free) && (match f.cap with | none => true | some c => s.hasCap (me s) c) &&
    (f.lane || ((me s).predMask f.pred).getLsbD 0)

/-- What is computed holds. -/
theorem issues_of_ready {s : State} {f : Form} (h : ready s f = true) : s.Issues (me s) f := by
  simp only [ready, Bool.and_eq_true, decide_eq_true_eq, Bool.or_eq_true, Bool.not_eq_true'] at h
  obtain ⟨⟨⟨⟨⟨⟨here, run⟩, calm⟩, quiet⟩, free⟩, able⟩, pred⟩ := h
  refine ⟨here, run, fun h => ?_, quiet, fun h1 h2 => ?_, fun c hc => ?_, fun h => ?_⟩
  · rcases calm with c | c
    · rw [c] at h; cases h
    · exact c
  · rcases free with (c | c) | c
    · rw [c] at h1; cases h1
    · rw [c] at h2; cases h2
    · exact c
  · rw [hc] at able; exact able
  · rcases pred with c | c
    · rw [c] at h; cases h
    · exact c

/-- `LsReach`, computed. -/
def lsReachB (s : State) (t : Thread) (x : LsAccess) : Bool :=
  (x.width == 0 || x.addr % x.width == 0) && s.reaches t.gang t.vt t.cslot x.addr x.bytes &&
    (s.core t.vt t.cslot).stash.all fun e => !e.meets x.addr x.bytes || (decide (e.st = .ready) && (!x.write || decide (e.readOnlyPage x.addr x.bytes = none)))

/-- What is computed holds. -/
theorem lsReach_of {s : State} {t : Thread} {x : LsAccess} (h : lsReachB s t x = true) : s.LsReach t x := by
  simp only [lsReachB, Bool.and_eq_true, Bool.or_eq_true, beq_iff_eq, decide_eq_true_eq, List.all_eq_true, Bool.not_eq_true'] at h
  obtain ⟨⟨a, b⟩, c⟩ := h
  refine ⟨a, b, fun e he m => ?_, fun w e he m => ?_⟩ <;> rcases c e he with n | n
  · rw [m] at n; cases n
  · exact n.1
  · rw [m] at n; cases n
  · rcases n.2 with r | r
    · rw [w] at r; cases r
    · exact r

/-- `LsFree`, computed. -/
def lsFreeB (s : State) (t : Thread) (x : LsAccess) : Bool := lsReachB s t x && decide ((s.core t.vt t.cslot).bad = [])

/-- What is computed holds. -/
theorem lsFree_of {s : State} {t : Thread} {x : LsAccess} (h : lsFreeB s t x = true) : s.LsFree t x := by
  simp only [lsFreeB, Bool.and_eq_true, decide_eq_true_eq] at h
  exact ⟨lsReach_of h.1, fun _ w hw => (by rw [h.2] at hw; cases hw)⟩

/-- No handle is named. -/
theorem handleFree_none (t : Thread) : t.HandleFree none := fun _ h => by cases h

/-- A handle that is EMPTY. -/
theorem handleFree_empty {t : Thread} {k : HReg} (h : t.h[k] = .empty) : t.HandleFree (some k) := by
  intro j hj; cases hj; rw [h]; exact ⟨fun _ _ h => (by cases h), fun _ _ _ h => (by cases h)⟩

abbrev al : Pred := Pred.always

/-- A matrix command of the thread: `mx.zero a0`. -/
def mxZero0 : MxCmd :=
  { id := 1, op := .zero 0 1, slot := 0, gang := 1, hasH := false, mrow := 0, mcol := 0, mdep := 0, mode := 0, satc := false, seed := 0,
    inj := none, issued := 0, units := 1, done := none }

theorem witness_ScalarArithmetic :
    here.Issues (me here) (Form.scalar 8 al []) ∧ here.Issues (me here) (Form.scalar 12 al []) ∧
    (me here).sreg false 5 = 0 ∧ (me (thr fun t => t.setS 5 1)).sreg false 5 ≠ 0 ∧
    (thr fun t => t.setS 5 1).Issues (me (thr fun t => t.setS 5 1)) (Form.scalar 8 al []) ∧
    ((me (thr fun t => t.setS 5 0x100000000)).sreg false 5).setWidth 32 = (0 : BitVec 32) := by
  refine ⟨issues_of_ready ?_, issues_of_ready ?_, ?_, ?_, issues_of_ready ?_, ?_⟩ <;> decide +kernel

theorem witness_ScalarMinMaxLogic : here.Issues (me here) (Form.scalar 8 al []) ∧ here.Issues (me here) (Form.scalar 12 al []) :=
  ⟨issues_of_ready (by decide +kernel), issues_of_ready (by decide +kernel)⟩

theorem witness_ScalarShiftFieldCount : here.Issues (me here) (Form.scalar 8 al []) ∧ (31 : BitVec 6).toNat < 32 ∧
    (0 : BitVec 6).toNat + (63 : BitVec 6).toNat < 64 := ⟨issues_of_ready (by decide +kernel), by decide, by decide⟩

theorem witness_ScalarCompareSelectMove :
    here.Issues (me here) (Form.scalar 8 al [1]) ∧ here.Issues (me here) (Form.scalar 12 al [1]) ∧ here.Issues (me here) (Form.scalar 8 al []) ∧
    here.Issues (me here) (Form.scalar 12 al []) ∧ here.Issues (me here) (Form.scalar 16 al []) ∧ here.Issues (me here) (Form.scalar 8 al [1, 2]) ∧
    here.Issues (me here) (Form.scalar 8 al [1, 2, 3]) := by
  refine ⟨issues_of_ready ?_, issues_of_ready ?_, issues_of_ready ?_, issues_of_ready ?_, issues_of_ready ?_, issues_of_ready ?_,
    issues_of_ready ?_⟩ <;> decide +kernel

theorem witness_RegistersCsrs :
    here.Issues (me here) (Form.scalar 8 al []) ∧ here.Issues (me here) (Form.blocked 8 al) ∧
    csrRejects 0x021 5 = true ∧ csrRejects 0x021 4 = false ∧ csrRejects 0x020 0x38 = true ∧ csrRejects 0x020 0x30 = false ∧
    here.isSupervisor (me here) = false ∧ here.curThread? = some (me here) := by
  refine ⟨issues_of_ready ?_, issues_of_ready ?_, ?_, ?_, ?_, ?_, ?_, ?_⟩ <;> decide +kernel

theorem witness_ControlTransfers :
    here.Issues (me here) (Form.beside 8 al) ∧ here.Issues (me here) (Form.beside 12 al) :=
  ⟨issues_of_ready (by decide +kernel), issues_of_ready (by decide +kernel)⟩

theorem witness_HaltRealign :
    let f : Form := { Form.blocked 8 al with wins := true }
    let bad := thr fun t => t.setH (some 2) (.complete .fault 0 .copy)
    let full := cor fun c => { c with mxq := [mxZero0] }
    let asleep := thr fun t => { t with wait := .realign [0] }
    (here.Issues (me here) f ∧ here.engineBusy (me here) = false ∧ (me here).handleFault? = none) ∧
    (bad.Issues (me bad) f ∧ bad.engineBusy (me bad) = false ∧ (me bad).handleFault? ≠ none) ∧
    (full.Issues (me full) f ∧ full.engineBusy (me full) = true) ∧
    (here.Issues (me here) (Form.beside 8 al) ∧ (me here).wait = .none ∧ here.realignSet (me here) 1 = []) ∧
    (asleep.Issues (me asleep) (Form.beside 8 al) ∧ asleep.realigned (me asleep) = true ∧ asleep.thread? 0 0 = some (me asleep)) := by
  refine ⟨⟨issues_of_ready ?_, ?_, ?_⟩, ⟨issues_of_ready ?_, ?_, ?_⟩, ⟨issues_of_ready ?_, ?_⟩, ⟨issues_of_ready ?_, ?_, ?_⟩, issues_of_ready ?_, ?_, ?_⟩ <;>
    decide +kernel

theorem witness_HardwareLoops :
    let one : LoopEntry := { start := 0x10008, fin := 0x10000, count := 0 }
    let last := thr fun t => { t with loops := [one] }
    let again := thr fun t => { t with loops := [{ one with count := 1 }] }
    let other := thr fun t => { t with loops := [{ one with fin := 0x10020 }] }
    here.Issues (me here) (Form.beside 8 al) ∧ here.Issues (me here) (Form.beside 12 al) ∧ (me here).loops = [] ∧
    (last.Issues (me last) (Form.beside 8 al) ∧ (me last).loops = [one] ∧ one.fin = (me last).pc) ∧
    (again.Issues (me again) (Form.beside 8 al) ∧ ((me again).loops.map (·.count)) = [1]) ∧
    (other.Issues (me other) (Form.beside 8 al) ∧ ((me other).loops.map (·.fin)) ≠ [(me other).pc]) := by
  refine ⟨issues_of_ready ?_, issues_of_ready ?_, ?_, ⟨issues_of_ready ?_, ?_, ?_⟩, ⟨issues_of_ready ?_, ?_⟩, issues_of_ready ?_, ?_⟩ <;> decide +kernel

theorem witness_Repetition :
    let coded := thr fun t => { t with pc := 0x10000, fbuf := [{ addr := 0x10000, bytes := List.replicate 8 0 ++ [0x58, 1, 0x49, 0x92] ++ List.replicate 20 0, fault := none, ahead := false }] }
    let sh : RepShape := { stream := none, lenm1 := 0, wbase := 0, wsize := 0 }
    coded.Issues (me coded) (Form.blocked 8 al) ∧ here.Issues (me here) (Form.blocked 12 al) ∧
    (match coded.capture (me coded) coded.illegal captureFuel (sh.lenm1.val + 1) (nextPc (me coded).pc 8) [] with | .ok b a => b.length == 1 && a == 0x10010 | .fault _ => false) = true ∧
    (match here.capture (me here) here.illegal captureFuel (sh.lenm1.val + 1) (nextPc 0x8000000000 8) [] with | .ok _ _ => false | .fault _ => true) = true ∧
    ((me (thr fun t => t.setS 4 0x100000000)).sreg false 4).toNat = 2 ^ 32 ∧
    rotateName 8 3 1 8 = 10 ∧ rotateName 8 3 1 10 = 9 ∧ rotateName 8 3 1 11 = 11 ∧ rotateName 29 3 0 31 = 31 := by
  refine ⟨issues_of_ready ?_, issues_of_ready ?_, ?_, ?_, ?_, ?_, ?_, ?_, ?_⟩ <;> decide +kernel

theorem witness_QueueRegisters :
    let held (l : List QEntry) := thr fun t => { t with q := t.q.set 1 l }
    let asked := thr fun t => { t with freq := some { addr := 0x10000, age := 0 } }
    (∀ l ∈ [[], [.val 7], [.eos], List.replicate 7 .eos, List.replicate 8 .eos], ready (held l) (Form.beside 8 al) = true ∧ (me (held l)).q[(1 : QReg)] = l ∧ (me (held l)).rep = none) ∧
    (asked.nextServed 0 = some (me asked) ∧ (me asked).freq = some { addr := 0x10000, age := 0 }) := by
  decide +kernel

-- VectorInteger, VectorFloat, VectorFloatCompare, VectorPermute, VectorReduce and VectorScan.
theorem witness_Vector :
    here.Issues (me here) (Form.lanes 8 al) ∧ here.Issues (me here) (Form.lanes 12 al) ∧ here.Issues (me here) (Form.lanes 8 { reg := 1, neg := false }) ∧
    (∀ i < 32, ((me here).predMask al).getLsbD i = true) ∧ (∀ i < 32, ((me here).predMask { reg := 1, neg := false }).getLsbD i = false) ∧
    (7 : BitVec 5).toNat < VWidth.bits .e8 := by
  refine ⟨issues_of_ready ?_, issues_of_ready ?_, issues_of_ready ?_, ?_, ?_, ?_⟩ <;> decide +kernel

theorem witness_FloatSpecialCases : (1 : Nat) < 2 ^ 24 ∧ 2 ^ 24 - 1 < 2 ^ 24 ∧ decodeF fp32 0xC0400000 = .fin true 0xC00000 (-22) false ∧ 0xC0400000 < 2 ^ 32 := by decide +kernel

theorem witness_EncodeNumbers : (decodeF fp32 0x7F7FFFFF).isNan = false ∧ (decodeF e4m3 0x7E).isNan = false ∧ 0x7F7FFFFF < 2 ^ (fp32.ebits + fp32.fbits + 1) ∧
    -- 5 × 2^0 lies from code 6 (4) up to code 7 (6) of E2M1, midway; 100 lies in the interval behind its largest code.
    (let at' (f : FFmt) (K c : Nat) : Nat :=
       if c < 2 ^ f.fbits then c * 2 ^ (K + 1 - f.bias - f.fbits) else (2 ^ f.fbits + c % 2 ^ f.fbits) * 2 ^ (c / 2 ^ f.fbits + K - f.bias - f.fbits)
     e2m1.bias + e2m1.fbits ≤ 4 ∧ at' e2m1 4 6 ≤ 5 * 2 ^ 4 ∧ 5 * 2 ^ 4 < at' e2m1 4 7 ∧ at' e2m1 4 6 + at' e2m1 4 7 = 2 * (5 * 2 ^ 4) ∧
     at' e2m1 4 7 ≤ 7 * 2 ^ 4 ∧ 7 * 2 ^ 4 < at' e2m1 4 8 ∧ e2m1.top = 7 ∧
     2 ^ (fp32.fbits + 17) ≤ 2 ^ 63 ∧ at' fp32 150 0 ≤ 2 ^ 63 * 2 ^ 0) := by
  decide +kernel

theorem witness_VectorConvert : here.Issues (me here) (Form.lanes 8 al) ∧ (8 : BitVec 5).toNat ≤ 8 ∧ 21 ≤ (29 : BitVec 5).toNat ∧ (29 : BitVec 5).toNat ≤ 29 ∧
    (7 : BitVec 5).toNat < 32 / elemWidth 8 ∧ (15 : BitVec 5).toNat < 32 / elemWidth 29 ∧ floatFmt 3 = some fp19 ∧ 2 ^ 32 - 1 < 2 ^ elemWidth 3 ∧ floatFmt 21 = none := by
  refine ⟨issues_of_ready ?_, ?_⟩ <;> decide +kernel

theorem witness_LocalLoadStore :
    let x (n : Nat) (w : Bool) : LsAccess := { addr := 0x40, width := n, bytes := n, write := w }
    let e : Stash := { num := 1, owner := 0, st := .empty, lbase := 0, gbase := 0, size := 256, z := 0, keep := false, evict := 0, dirty := [], ro := [], cmd := none, fillBy := none }
    let mapped := cor fun c => { c with stash := [e] }
    let broken := cor fun c => { c with bad := [16] }
    here.Issues (me here) (Form.beside (plen none 8) al) ∧
    (∀ n ∈ [1, 2, 4, 8], ∀ w ∈ [false, true], lsFreeB here (me here) (x n w) = true) ∧
    here.reaches 1 0 0 0x6FFFC 4 = true ∧ here.reaches 1 0 0 0x70000 4 = false ∧
    (mapped.Issues (me mapped) (Form.beside (plen none 8) al) ∧ mapped.reaches 1 0 0 0x40 4 = true ∧
      (mapped.core 0 0).stash.find? (fun e => e.meets 0x40 4 && e.st != .ready) = some e) ∧
    (broken.Issues (me broken) (Form.beside (plen none 8) al) ∧ lsReachB broken (me broken) (x 4 false) = true ∧ 0x40 / 4 ∈ (broken.core 0 0).bad) := by
  refine ⟨issues_of_ready ?_, ?_, ?_, ?_, ⟨issues_of_ready ?_, ?_, ?_⟩, issues_of_ready ?_, ?_, ?_⟩ <;> decide +kernel

theorem witness_MemoryBytes : (here.core 0 0).ls.wf = true ∧ here.hbm.wf = true := by decide +kernel

theorem witness_VectorMemory :
    let q := thr fun t => { t with q := t.q.set 2 [.val 0x100] }
    here.Issues (me here) (Form.lanes (plen none 8) al) ∧ here.Issues (me here) (Form.lanes (plen none 12) al) ∧ (me here).q[(2 : QReg)] = [] ∧
    q.Issues (me q) (Form.lanes (plen none 8) al) ∧ (me q).q[(2 : QReg)] = [.val 0x100] ∧
    ∀ i < 32, lsFreeB here (me here) { addr := 4 * i, width := 4, bytes := 4, write := true } = true := by
  refine ⟨issues_of_ready ?_, issues_of_ready ?_, ?_, issues_of_ready ?_, ?_, ?_⟩ <;> decide +kernel

/-- The bytes of an entry of the tensor table (03 R54): the fields a test sets. -/
def tidBytes (fmt : Nat) (planes : Bool) (base d0 d1 s1 s2 s3 : Nat) : List Byte :=
  natBytes 64 (fmt + (if planes then 32 else 0) + 2 ^ 15 + d0 * 2 ^ 16 + d1 * 2 ^ 32 + 2 ^ 48 + base * 2 ^ 64 + s1 * 2 ^ 128 + 2 ^ 168 + s2 * 2 ^ 192 + s3 * 2 ^ 256)

/-- A core whose table, at local-store address 0, holds the three tensors of the example `mmdemo` (chapter 10) as entries 2, 3 and 4, and two of one element: 6 in planes, 7 linear. -/
def demo : State := cor fun c =>
  ((((c.putLs 128 (tidBytes 2 true 0x40000 32 16 1088 1088 1088)).putLs 192 (tidBytes 4 true 0x40800 16 32 288 576 576)).putLs 256
    (tidBytes 0 false 0x41000 16 16 64 1024 1024)).putLs 384 (tidBytes 2 true 0x42000 1 1 1088 1088 1088)).putLs 448 (tidBytes 0 false 0x43000 1 1 64 64 64)

/-- An entry of that table. -/
def demoEnt (n : Nat) : TidEntry := TidEntry.parse n ((demo.core 0 0).ls.bytes (64 * n) 64)

theorem witness_TensorAccess :
    demo.Issues (me demo) (Form.lanes (plen none 8) al) ∧ demo.Issues (me demo) (Form.lanes (plen none 12) al) ∧
    lsFreeB demo (me demo) { addr := 256, width := 4, bytes := 64, write := false } = true ∧
    (demoEnt 4).ok false = true ∧ (demoEnt 4).ok true = true ∧ (demoEnt 4).global = false ∧ (demoEnt 5).ok false = false ∧
    (let idx : List Idx := (List.range 16).map fun i => { i0 := i, i1 := 0, i2 := 0, i3 := 0 }
     (demoEnt 4).covers idx = true ∧ (∀ i ∈ idx, (demoEnt 4).has i = true ∧
      (∀ y ∈ (demoEnt 4).spans (demo.core 0 0).rd i, lsFreeB demo (me demo) { addr := y.1, width := 0, bytes := y.2, write := false } = true) ∧
      (match (demoEnt 4).value (demo.core 0 0).rd i with | .format _ => false | .val _ _ => true) = true)) := by
  refine ⟨issues_of_ready ?_, issues_of_ready ?_, ?_, ?_, ?_, ?_, ?_, ?_⟩ <;> decide +kernel

/-- A matrix command of that core: `op` under the masks of its thread. -/
def demoCmd (op : MxOp) : MxCmd := { mxZero0 with op := op, mrow := (me demo).mrow, mcol := (me demo).mcol, mdep := (me demo).mdep }

/-- The example's `mx.mma`, of one slice. -/
def demoMul : MxCmd := demoCmd (.mma false true 0 (demoEnt 2) (demoEnt 3) 0 0 0 1 0 0)

/-- The example's `mx.st`. -/
def demoSt : MxCmd := demoCmd (.st false 0 (demoEnt 4) 0 0 0 0)

/-- `mx.unplane` of entry 6 into entry 7, or `mx.plane` the other way. -/
def demoPlane (un : Bool) : MxCmd := demoCmd (if un then .plane un (demoEnt 6) (demoEnt 7) 0 0 0 1 1 0 0 else .plane un (demoEnt 7) (demoEnt 6) 0 0 0 1 1 0 0)

theorem witness_MatrixIssue :
    let c := demo.core 0 0
    let reach (w : Bool) (l : List (Nat × Nat)) : Bool := l.all fun y => lsReachB demo (me demo) { addr := y.1, width := 0, bytes := y.2, write := w }
    demo.Issues (me demo) (Form.blocked 8 al) ∧ demo.Issues (me demo) (Form.blocked 12 al) ∧ (me demo).HandleFree (some 1) ∧ (me demo).HandleFree none ∧
    c.mxWaiting.length < 16 ∧ demo.physAcc (me demo) 0 = some 0 ∧ demo.physAcc (me demo) 7 = some 7 ∧ c.accBusy 0 0 = false ∧ c.mxStop = false ∧
    (c.accum 0).poison = [] ∧ (c.accum 0).broken = [] ∧
    ((demoEnt 2).ok false = true ∧ (demoEnt 3).ok false = true ∧ (demoEnt 2).planes = true ∧ (demoEnt 3).planes = true ∧ (demoEnt 2).global = false ∧
      0 < (demoEnt 2).d2 ∧ 0 < (demoEnt 3).d2 ∧ planesFig 2 * 1 * 2 ≤ 1024 ∧ reach false (demoMul.spans c.rd).1 = true) ∧
    ((demoEnt 4).covers ((stPairs (demoEnt 4) (me demo).mrow (me demo).mcol 0 0 0 0).map (·.2)) = true ∧ 0 < (demoEnt 4).d3 ∧ reach true (demoSt.spans c.rd).2 = true) ∧
    ((demoEnt 6).ok true = true ∧ (demoEnt 7).ok true = true ∧ (demoEnt 6).planes = true ∧ (demoEnt 7).planes = false ∧
      (∀ n ∈ [6, 7], (demoEnt n).covers (((planePairs 0 0 0 1 1 0 0).map (·.2)).filter (demoEnt n).has) = true) ∧
      ∀ un ∈ [false, true], reach false ((demoPlane un).spans c.rd).1 = true ∧ reach true ((demoPlane un).spans c.rd).2 = true) ∧
    reach false ((maskRows 0xFFFF).map fun i => (64 * i, 64)) = true := by
  refine ⟨issues_of_ready ?_, issues_of_ready ?_, handleFree_empty ?_, handleFree_none _, ?_, ?_, ?_, ?_, ?_, ?_, ?_, ?_, ?_, ?_, ?_⟩ <;> decide +kernel

theorem witness_MatrixStops :
    let full := cor fun c => { c with mxq := List.replicate 16 mxZero0 }
    let pend := thr fun t => t.setH (some 1) (.pending 1 false)
    let bad := thr fun t => t.setH (some 1) (.complete .fault 0 .copy)
    let q (l : List QEntry) := thr fun t => { t with q := t.q.set 2 l }
    let far := thr fun t => { t with tidbase := 0x70000 }
    let ill := demo.modCore 0 0 fun c => c.modAcc 0 fun a => { a with poison := [3] }
    let edge := thr fun t => t.setS 5 0x6FFC0
    let busy := cor fun c => { c with mxq := [mxZero0] }
    (full.Issues (me full) (Form.blocked 8 al) ∧ 16 ≤ (full.core 0 0).mxWaiting.length) ∧
    (pend.Issues (me pend) (Form.blocked 8 al) ∧ (me pend).h[(1 : HReg)] = .pending 1 false ∧ (pend.core 0 0).mxWaiting.length < 16) ∧
    (bad.Issues (me bad) (Form.blocked 8 al) ∧ (me bad).h[(1 : HReg)] = .complete .fault 0 .copy) ∧
    (thr fun t => { t with gang := 2 }).physAcc (me (thr fun t => { t with gang := 2 })) 0 = none ∧
    ((∀ l ∈ [[], [.eos], [.val 5]], ready (q l) (Form.blocked 8 al) = true ∧ ready (q l) (Form.blocked 12 al) = true ∧ (me (q l)).q[(2 : QReg)] = l)) ∧
    (ready far (Form.blocked 8 al) = true ∧ ((me far).tidbase + 64 * 2) % 2 ^ 64 % 4 = 0 ∧ far.reaches 1 0 0 ((me far).tidbase + 64 * 2) 64 = false) ∧
    (lsFreeB here (me here) { addr := 320, width := 4, bytes := 64, write := false } = true ∧ (demoEnt 5).ok false = false ∧ (demoEnt 5).ok true = false) ∧
    (ready ill (Form.blocked 8 al) = true ∧ ((ill.core 0 0).accum 0).poison = [3] ∧ 3 ∈ (activeRC (me ill).mrow (me ill).mcol 0 (demoEnt 2).d1 0 (demoEnt 3).d0).1 ∧
      3 ∈ (activeRC (me ill).mrow (me ill).mcol 0 (demoEnt 4).d1 0 (demoEnt 4).d0).1 ∧ 3 ∈ [2 * 1, 2 * 1 + 1]) ∧
    (((me edge).sreg false 5).toNat % 64 = 0 ∧ lsReachB edge (me edge) { addr := 0x6FFC0, width := 0, bytes := 64, write := false } = true ∧
      edge.reaches 1 0 0 (0x6FFC0 + 64 * 1) 64 = false ∧ maskRows 3 = [0, 1]) ∧
    ((busy.core 0 0).accBusy 0 0 = true ∧ (here.core 0 0).accBusy 0 0 = false) := by
  refine ⟨⟨issues_of_ready ?_, ?_⟩, ⟨issues_of_ready ?_, ?_, ?_⟩, ⟨issues_of_ready ?_, ?_⟩, ?_⟩ <;> decide +kernel

theorem witness_MatrixMaskScreen :
    let fs : Form := { Form.blocked 8 al with cap := some 3 }
    here.Issues (me here) (Form.blocked 8 al) ∧ here.Issues (me here) (Form.blocked 12 al) ∧ here.Issues (me here) fs ∧ (here.ptile? (here.ptileOf 0)).isSome = true ∧ here.pcoreOf 0 0 = some 0 ∧
    (31 : Word).toNat < 32 ∧ 32 ≤ (32 : Word).toNat := by
  refine ⟨issues_of_ready ?_, issues_of_ready ?_, issues_of_ready ?_, ?_⟩ <;> decide +kernel

/-- The device whose core has this matrix command in front. -/
def mxFront (m : MxCmd) : State := cor fun c => { c with mxq := [m] }

theorem witness_MatrixRun :
    let done (st : HStatus) (h : Bool) : MxCmd := { mxZero0 with hasH := h, done := some { st := st, flags := 0, val := 0, info := { cause := .illegal } } }
    let c := demo.core 0 0
    let ends (c : Core) (m : MxCmd) (st : HStatus) : Bool := match runMx c m 0 with | .ok _ r => r.st == st | .mismatch => false
    let ill := c.modAcc 0 fun a => { a with poison := [3] }
    let worn := c.modAcc 0 fun a => { a with words := a.words.set 0 1 }
    let gone := { mxFront (done .ok false) with threads := [] }
    (∀ m ∈ [mxZero0, { mxZero0 with inj := some 4 }], ((mxFront m).core 0 0).mxq = [m] ∧ ((mxFront m).core 0 0).mxStop = false ∧ ends ((mxFront m).core 0 0) m .ok = true) ∧
    (match runMx worn demoSt 0 with | .mismatch => true | .ok _ _ => false) = true ∧
    (∀ x ∈ [(HStatus.ok, false), (.fault, true), (.fault, false)], (((mxFront (done x.1 x.2)).core 0 0).mxq.map (·.done.isSome)) = [true] ∧
      ((mxFront (done x.1 x.2)).thread 0 0).gang = mxZero0.gang ∧ ((mxFront (done x.1 x.2)).thread 0 0).st = .run) ∧
    (gone.thread 0 0).st = .free ∧
    ((c.accum 0).words.length = 256 ∧ c.ls.wf = true ∧ 65535 < 2 ^ 16) ∧
    (∀ op ∈ [MxOp.movA 7 7 (List.replicate 32 1), .ld 0 0 0xFFFF, .ld 7 0x6FC00 0x8001], ends c { mxZero0 with op := op } .ok = true) ∧
    ends { c with bad := [16] } { mxZero0 with op := .ld 0 0 0xFFFF } .poison = true ∧
    (ends c demoSt .ok = true ∧ ends ill demoSt .poison = true) ∧
    (∀ un ∈ [false, true], ends c (demoPlane un) .ok = true) ∧
    (ends { c with bad := [0x42000 / 4] } (demoPlane true) .poison = true ∧
      ends c (demoCmd (.plane true { demoEnt 6 with fmt := 18, srow := 2 } (demoEnt 7) 0 0 0 1 1 0 0)) .fault = true) ∧
    (let one : MxCmd := demoCmd (.mma false false 0 (demoEnt 6) (demoEnt 6) 0 0 0 1 0 0)
     ends c one .ok = true ∧ ends ill one .ok = true ∧ ends (c.modAcc 0 fun a => { a with poison := [0] }) one .poison = true ∧
      ends { c with bad := [0x42000 / 4] } one .poison = true ∧
      ends c (demoCmd (.mma false false 0 { demoEnt 6 with fmt := 18, srow := 2 } (demoEnt 6) 0 0 0 1 0 0)) .fault = true) := by
  decide +kernel

theorem witness_MatrixSlice :
    (fmul (.inf false) (.fin false 1 0 false)).1 = .inf false ∧ (fmul (.inf true) (.fin false 1 0 false)).1 = .inf true ∧
    (fmul (.nan false false) (.fin false 1 0 false)).1.isNan = true ∧ (decodeF fp32 0).isNan = false ∧ decodeF fp32 0 ≠ .inf true ∧ decodeF fp32 0 ≠ .inf false ∧
    -- The products 6 and 5 × 2^-50: E is 2, and the second is cut.
    ((fmul (.fin false 2 0 false) (.fin false 3 0 false)).1 = .fin false 6 0 false ∧ (fmul (.fin false 1 0 false) (.fin false 5 (-50) false)).1 = .fin false 5 (-50) false ∧
      (0 : Int) + (6 : Nat).log2 = 2 ∧ (-50 : Int) + (5 : Nat).log2 ≤ 2) ∧
    (fmul (.fin true 0 0 false) (.fin false 3 0 false)).1 = .fin true 0 0 false := by decide +kernel

/-- A stash entry of the thread over local store 0x100. -/
def ent0 : Stash :=
  { num := 3, owner := 0, st := .ready, lbase := 0x100, gbase := 0x20000, size := 256, z := 0, keep := false, evict := 0, dirty := [0], ro := [], cmd := none, fillBy := none }

/-- The device with that entry, changed. -/
def stashed (f : Stash → Stash) : State := cor fun c => { c with stash := [f ent0] }

/-- The placed gang's task without its capabilities. -/
def plainTask : List Word := placedTask.set 10 (w64 (1 + 2 ^ 16 + 2 ^ 21 + 2 ^ 32 * 4096))

theorem witness_GlobalLoadStore :
    let need (s : State) (a : Nat) := s.translate (s.spaceOf (me s)) a (needDirect true 8)
    let mapped := stashed id
    let window : State := { here with hbm := (here.hbm.write 0x2008 8 (0x1F000000000 + 0xA3)).write 0x2010 8 (2 ^ 31 + 0x67) }
    let held := window.modVTile 0 fun v => { v with amber := true }
    let broken : State := { here with hbmBad := [0x20000 / 32] }
    let user := here.modGang 1 fun g => { g with task := plainTask }
    here.Issues (me here) (Form.blocked 12 al) ∧ need here 0x20000 = .ok { pa := 0x20000, ms := false, io := false, w := true, x := true } ∧
    need here 0x40000000 = .err 1 ∧ (0x20004 : Word).toNat % 8 ≠ 0 ∧ (here.core 0 0).stash = [] ∧ here.badGran 0x20000 8 = none ∧
    broken.badGran 0x20000 8 = some (0x20000 / 32) ∧
    ((mapped.core 0 0).stash.find? (fun e => e.owner == 0 && e.meetsGlobal 0x20000 8) = some ent0 ∧
      ∀ w ∈ [false, true], lsFreeB mapped (me mapped) { addr := 0x100, width := 8, bytes := 8, write := w } = true) ∧
    need window 0x40000000 = .ok { pa := 0x1F000000000, ms := false, io := true, w := true, x := false } ∧
    need window 0x80000000 = .ok { pa := 2 ^ 31, ms := true, io := false, w := true, x := true } ∧
    here.hasCap (me here) 2 = true ∧ user.hasCap (me user) 2 = false ∧ inDebugWindow 0 = true ∧ here.trafficHeld 0 = false ∧ held.trafficHeld 0 = true ∧ 0 < blockBase := by
  refine ⟨issues_of_ready ?_, ?_⟩ <;> decide +kernel

theorem witness_Translation :
    let at' (l3 l2 l1 l0 : Nat) : State :=
      { here with hbm := ((((Memory.write [] 0x1000 8 l3).write 0x2000 8 l2).write 0x3000 8 l1).write 0x4000 8 l0) }
    let go (s : State) := s.translate (.onTile 0 0) 0 (needDirect false 8)
    (here.root 0).getLsbD 0 = true ∧ (State.reset.root 0).getLsbD 0 = false ∧
    go (at' 0 0 0 0) = .err 1 ∧ go (at' 0x2021 0 0 0) = .err 2 ∧ go (at' 0x2001 0x3001 0x4001 0x5021) = .ok { pa := 0x5000, ms := false, io := false, w := false, x := false } ∧
    go (at' 0x2001 0x3001 0x4001 0x5001) = .err 2 ∧ go (at' 0x2001 0x3001 0x200021 0) = .ok { pa := 0x200000, ms := false, io := false, w := false, x := false } ∧
    go (at' 0x2001 0x21 0 0) = .ok { pa := 0, ms := false, io := false, w := false, x := false } ∧ go (at' 0x2001 0 0 0) = .err 1 ∧
    go (at' 0x2009 0 0 0) = .err 2 ∧ go (at' 0x2001 0x3009 0 0) = .err 2 ∧ go (at' 0x2001 0x1021 0 0) = .err 2 ∧ go (at' 0x2001 0x3001 0x1021 0) = .err 2 ∧
    go (at' 0x2001 0x3001 0x4001 0x5029) = .err 2 ∧ go (at' 0x2001 0x3001 0 0) = .err 1 ∧ go (at' 0x2001 0x3001 0x4001 0) = .err 1 ∧ State.reset.translate (.panel 0) (2 ^ 48) (needDirect false 8) = .err 0 := by
  decide +kernel

theorem witness_TranslationCached :
    let e : TlbEntry := { asid := 0, level := 4, key := 0, word := 0x2021 }
    let s := here.modVTile 0 fun v => { v with tlb := [e] }
    (s.held (.onTile 0 0) 4 0) = some 0x2021 ∧ s.held (.onTile 0 0) 3 0 = none := by decide +kernel

theorem witness_StashFills :
    let s1 := stashed id
    let s2 := stashed fun e => { e with st := .empty, dirty := [] }
    let f3 (e : Stash) : Stash := { e with st := .filling, dirty := [], cmd := some 1, fillBy := none }
    let s3 := stashed f3
    let f4 (e : Stash) : Stash := { e with st := .draining, gbase := 0x20000 }
    let s4 := stashed f4
    let f5 (e : Stash) : Stash := { e with st := .filling, gbase := 0x40000000 }
    let s5 := stashed f5
    (∀ s ∈ [here, s1, s2], ready s (Form.blocked (plen none 8) al) = true ∧ ready s (Form.blocked (plen none 12) al) = true) ∧
    here.ownAlloc (me here) = (0, 458752) ∧ (here.core 0 0).entry? 3 = none ∧ (s1.core 0 0).entry? 3 = some ent0 ∧ (s1.core 0 0).stashInUse ent0 = false ∧
    ((s2.core 0 0).entry? 3).map (·.st) = some .empty ∧ ((stashed fun e => { e with owner := 1 }).core 0 0).entry? 3 ≠ some ent0 ∧
    ((s3.core 0 0).entry? 3 = some (f3 ent0) ∧ (match s3.fillBytes (s3.spaceOf (s3.thread 0 0)) (f3 ent0) with | .ok l => l.length == 256 | .error _ => false) = true) ∧
    ((s5.core 0 0).entry? 3 = some (f5 ent0) ∧ (match s5.fillBytes (s5.spaceOf (s5.thread 0 0)) (f5 ent0) with | .ok _ => false | .error _ => true) = true ∧ (f5 ent0).fillBy = none) ∧
    ((s4.core 0 0).entry? 3 = some (f4 ent0) ∧ s4.drainFault (s4.spaceOf (s4.thread 0 0)) 0 0 (f4 ent0) = none) := by
  decide +kernel

/-- A remote store of the thread to its own core. -/
def far0 : RemoteStore := { slot := 0, gang := 1, srank := 0, trank := 0, addr := 0x100, width := 4, val := 7 }

theorem witness_RemoteStores :
    let full := cor fun c => { c with remoteQ := List.replicate 256 far0 }
    let away := here.modPart 0 fun p => { p with pvtcnt := 0 }
    let again (n : Nat) := cor fun c => { c with wrote := [0x40], sepia := List.replicate n { srank := 1, sthr := 0, width := 4, addr := 0, clk := 0 } }
    let due := cor fun c => { c with remoteQ := [far0, { far0 with trank := 15, gang := 9 }, { far0 with addr := 0x200 }] }
    here.Issues (me here) (Form.blocked 12 al) ∧ (here.core 0 0).remoteQ.length < 256 ∧ full.Issues (me full) (Form.blocked 12 al) ∧
    256 ≤ (full.core 0 0).remoteQ.length ∧ here.rankPlace 15 = some (0, 15) ∧ 15 < here.nrank ∧ here.nrank ≤ 16 ∧ here.rankPlace 16 = none ∧
    (here.part (here.partNum (me here))).holds 0 = true ∧ (away.part (away.partNum (me away))).holds 0 = false ∧ away.rankPlace 15 = some (0, 15) ∧
    here.reaches 1 0 0 0x6FFF8 8 = true ∧ here.reaches 1 0 0 0x70000 8 = false ∧
    (here.core 0 0).stash = [] ∧ (here.core 0 0).wrote = [] ∧ here.rankPlace 0 = some (0, 0) ∧
    (∀ n ∈ [0, 255, 256], (again n).reaches 1 0 0 0x100 4 = true ∧ ((again n).core 0 0).wrote = [0x40] ∧ 4 * 0x40 < 0x100 + 4 ∧ ((again n).core 0 0).sepia.length = n) ∧
    (due.thread 0 0).gang = 1 ∧ ((due.core 0 0).remoteQ.map fun x => x.slot == 0 && x.gang == 1) = [true, false, true] := by
  refine ⟨issues_of_ready ?_, ?_, issues_of_ready ?_, ?_⟩ <;> decide +kernel

/-- A copy command of the thread. -/
def copy0 : CopyCmd :=
  { id := 1, op := .get [0], slot := 0, gang := 1, asid := 0, part := 0, localA := 0, globalA := 0x20000, len := 64, hasH := false, running := false,
    issued := 0, bytes := 64 }

/-- The device whose tile has these copies. -/
def copying (l : List CopyCmd) : State := here.modVTile 0 fun v => { v with copies := l }

theorem witness_CopyIssue :
    let many := copying (List.replicate 64 copy0)
    let win := (windowOf 0 0 0 0 4 4).filter (demoEnt 4).has
    here.Issues (me here) (Form.blocked 12 al) ∧ here.Issues (me here) (Form.blocked 16 al) ∧ here.copyWaiting 0 < 64 ∧
    ¬ (many.copyWaiting 0 < 64) ∧ many.Issues (me many) (Form.blocked 12 al) ∧
    (me here).HandleFree (some 4) ∧ here.reaches 1 0 0 0 458752 = true ∧ here.reaches 1 0 0 4 458752 = false ∧ (here.core 0 0).stash = [] ∧
    ((here.tileOf (me here)).map (·.cmask)) = some [0] ∧
    ((demoEnt 4).ok false = true ∧ (demoEnt 4).ok true = true ∧ (demoEnt 4).covers win = true ∧
      demo.cvtSpans (me demo) (demoEnt 4) ((demoEnt 4).copyReach win) = none ∧ demo.cvtSpans (me demo) (demoEnt 4) ((demoEnt 4).copyWrites win) = none ∧
      lsFreeB demo (me demo) { addr := 256, width := 4, bytes := 64, write := false } = true ∧ (demoEnt 5).ok false = false) := by
  refine ⟨issues_of_ready ?_, issues_of_ready ?_, ?_, ?_, issues_of_ready ?_, handleFree_empty ?_, ?_, ?_, ?_, ?_, ?_⟩ <;> decide +kernel

theorem witness_CopyRun :
    let s := copying [{ copy0 with running := true }]
    let gone : State := { s with threads := [] }
    let broken : State := { here with hbmBad := [0x20000 / 32] }
    let sp : Space := .onTile 0 0
    let edge := 0x3FFFFFC0
    let hurt := cor fun c => { c with bad := [0] }
    let cut (a b : TidEntry) : CopyCmd := { copy0 with op := .cvt a b 0 0 0 0 1 1 0 false 0 }
    let e6 := demoEnt 6
    let e7 := demoEnt 7
    (s.vtile? 0).isSome = true ∧ ((s.vtile? 0).map fun v => (v.copies.find? fun c => c.id == 1 && c.running).isSome) = some true ∧
    ((here.vtile? 0).map fun v => (v.copies.find? fun c => c.id == 1 && c.running)) = some none ∧
    (s.runCopy 0 copy0).2.st = .ok ∧ (s.thread 0 0).gang = copy0.gang ∧ (s.thread 0 0).st = .run ∧ (gone.thread 0 0).st = .free ∧
    (s.runCopy 0 { copy0 with globalA := edge, len := 128 }).2.st = .fault ∧
    -- `cp.get` and `cp.put`: every granule, or all before the second, which does not translate; with an error in the source.
    (granules 0 64 = [(0, 64)] ∧ granules 0 128 = [(0, 64), (64, 64)] ∧ granules edge 128 = [(0, 64), (64, 64)] ∧ (here.core 0 0).ls.wf = true ∧
      (∀ w ∈ [false, true], here.checkVirt sp (needPlain w) 0x20000 64 = none ∧ here.checkVirt sp (needPlain w) edge 64 = none ∧
        here.checkVirt sp (needPlain w) (edge + 64) 64 ≠ none) ∧
      here.badGlobal sp (needPlain false) 0x20000 64 = none ∧ broken.badGlobal sp (needPlain false) 0x20000 64 ≠ none ∧
      (here.core 0 0).badWord 0 64 = none ∧ (hurt.core 0 0).badWord 0 64 ≠ none) ∧
    -- `cp.cvt` of one element.
    (let spans (e : TidEntry) (s : State) := e.spans (s.tensorRd sp 0 0 e) { i0 := 0, i1 := 0, i2 := 0, i3 := 0 }
     let none' := { e7 with global := true, base := 0x40000000 }
     demo.tensorMiss sp false e7 (spans e7 demo) = none ∧ demo.tensorMiss sp false none' (spans none' demo) ≠ none ∧ demo.tensorMiss sp true none' (spans none' demo) ≠ none ∧
     (demo.runCopy 0 (cut e6 e7)).2.st = .ok ∧ (demo.runCopy 0 (cut none' e7)).2.st = .fault ∧ (demo.runCopy 0 (cut e6 none')).2.st = .fault ∧
     (demo.runCopy 0 (cut { e6 with fmt := 18, srow := 2 } e7)).2.st = .fault ∧
     ((demo.modCore 0 0 fun c => { c with bad := [0x43000 / 4] }).runCopy 0 (cut e7 e6)).2.st = .poison) := by
  decide +kernel

theorem witness_Futures :
    let is (h : Handle) := thr fun t => t.setH (some 3) h
    let sib := (is (.complete .ok 7 .copy)).putThread { placedThread 0 1 with st := .run }
    let cmd := (is (.pending 1 false)).modVTile 0 fun v => { v with copies := [copy0] }
    (∀ h ∈ [Handle.empty, .complete .ok 7 .copy, .complete .fault 7 .copy, .pending 1 false, .pending 1 true],
      ready (is h) (Form.blocked 8 al) = true ∧ (me (is h)).h[(3 : HReg)] = h) ∧
    ((sib.thread 0 1).st ≠ .free ∧ (sib.thread 0 1).gang = (me sib).gang ∧ (me sib).h[(3 : HReg)] ≠ .empty ∧ (sib.thread 0 1).h[(3 : HReg)] = .empty) ∧
    (cmd.removeCmd 0 0 1).isSome = true ∧ (here.removeCmd 0 0 1) = none ∧
    (let s := thr fun t => { t with asyncF := some { cause := .memErr } }
     (s.thread 0 0).asyncF = some { cause := .memErr } ∧ (s.thread 0 0).st = .run) := by
  decide +kernel

theorem witness_Atomics :
    let ms : State := { here with hbm := here.hbm.write 0x2008 8 0x40000067 }
    let bad : State := { ms with hbmBad := [0x40000000 / 32] }
    ms.Issues (me ms) (Form.blocked 12 al) ∧ ms.translate (ms.spaceOf (me ms)) 0x40000000 (needSide true) = .ok { pa := 0x40000000, ms := true, io := false, w := true, x := true } ∧
    ms.translate (ms.spaceOf (me ms)) 0x20000 (needSide true) = .err 5 ∧ (0x40000004 : Word).toNat % 8 ≠ 0 ∧ (ms.flushWords (me ms) 0x40000000 8).badGran 0x40000000 8 = none ∧
    (bad.flushWords (me bad) 0x40000000 8).badGran 0x40000000 8 = some (0x40000000 / 32) := by
  refine ⟨issues_of_ready ?_, ?_⟩ <;> decide +kernel

/-- A reduction that waits at the base logic. -/
def red0 : MemOp := { id := 1, vt := 0, slot := 0, gang := 1, part := 0, asid := 0, va := 0x40000000, pa := 0x40000000, op := 2, wide := false, val := 5, k := 0 }

theorem witness_Reductions :
    let w : State := { here with memOps := [red0] }
    let q0 : MemOp := { red0 with op := 32, wide := true, k := 4 }
    let q : State := { here with memOps := [q0] }
    let two : State := { here with memOps := [q0, { red0 with id := 2 }] }
    let bad : State := { here with hbmBad := [0x40000000 / 32] }
    let full : State := { here with hbm := here.hbm.write 0x40000000 8 (5 * 2 ^ 32 + 5) }
    let some' : State := { here with hbm := here.hbm.write 0x40000000 8 (9 * 2 ^ 32 + 7) }
    here.Issues (me here) (Form.blocked 12 al) ∧ here.Issues (me here) (Form.blocked 8 al) ∧ (me here).HandleFree (some 3) ∧
    (w.memOps.find? (fun x => x.id == 1 && x.op != 32) = some red0 ∧ w.memOps.find? (fun x => x.id == 1 && x.op == 32) = none) ∧
    (q.memOps.find? (fun x => x.id == 1 && x.op == 32) = some q0 ∧ q.memOps.find? (fun x => x.id == 1 && x.op != 32) = none) ∧
    ((two.memOps.filter fun x => x.id ≤ 2 && x.vt == 0 && x.slot == 0 && x.gang == 1 && x.pa / 8 == red0.pa / 8) = two.memOps ∧ two.memOps.all (·.isOf (me two)) = true) ∧
    (here.badGran red0.pa 4 = none ∧ here.badGran q0.pa 8 = none ∧ bad.badGran red0.pa 4 = some (0x40000000 / 32) ∧ bad.badGran q0.pa 8 = some (0x40000000 / 32) ∧
      red0.op ≠ 32 ∧ q0.op = 32) ∧
    (full.hbm.read 0x40000000 8 / 2 ^ 32 ≤ full.hbm.read 0x40000000 8 % 2 ^ 32 ∧ some'.hbm.read 0x40000000 8 % 2 ^ 32 < some'.hbm.read 0x40000000 8 / 2 ^ 32) := by
  refine ⟨issues_of_ready ?_, issues_of_ready ?_, handleFree_empty ?_, ?_⟩ <;> decide +kernel

theorem witness_TagsBarriersFences :
    let x (w : Bool) : LsAccess := { addr := 0x40, width := 4, bytes := 4, write := w }
    let full := cor fun c => c.setTag 16 true
    let tagged := thr fun t => { t with wait := .tag 0x40 false }
    let arr := here.modBar 0 0 fun y => { y with arr := [0] }
    let waiting := (thr fun t => { t with barGen := some 0 }).modBar 0 0 fun y => { y with arr := [0] }
    let passed := (thr fun t => { t with barGen := some 0 }).modBar 0 0 fun y => { y with gen := 1 }
    here.Issues (me here) (Form.blocked 8 al) ∧ full.Issues (me full) (Form.blocked 8 al) ∧ lsFreeB here (me here) (x true) = true ∧ lsFreeB full (me full) (x false) = true ∧
    16 ∉ (here.core 0 0).full ∧ 16 ∈ (full.core 0 0).full ∧
    ((tagged.thread 0 0).st = .run ∧ (tagged.thread 0 0).wait = .tag 0x40 false ∧ 16 ∉ (tagged.core 0 0).full) ∧
    (here.gangOf (me here)).isSome = true ∧ (here.tileOf (me here)).isSome = true ∧ (here.vtile? 0).isSome = true ∧
    ((here.bar 0 0).arr = [] ∧ (arr.bar 0 0).arr = [0] ∧ ready arr (Form.blocked 8 al) = true) ∧
    (ready waiting (Form.blocked 8 al) = true ∧ (me waiting).barGen = some 0 ∧ (waiting.bar 0 0).gen = 0) ∧
    (ready passed (Form.blocked 8 al) = true ∧ (me passed).barGen = some 0 ∧ (passed.bar 0 0).gen = 1) ∧
    (here.gangs.length = 1 ∧ ((here.gangs.map fun g => (g.tile? 0).map (·.barid))) = [some 0]) := by
  refine ⟨issues_of_ready ?_, issues_of_ready ?_, ?_⟩ <;> decide +kernel

theorem witness_WaitersSignals :
    let ms : State := { here with hbm := here.hbm.write 0x2008 8 0x40000067 }
    let q := ms.flushWords (me ms) 0x40000000 16
    let torn : State := { ms with hbm := ms.hbm.write 0x40000008 8 1 }
    let bad : State := { ms with hbmBad := [0x40000000 / 32] }
    let asleep := thr fun t => { t with wait := .wq 0x40000000 }
    let woken := thr fun t => { t with wait := .wq 0x40000000, woken := some 2 }
    let sending := cor fun c => { c with sendQ := [{ sig := { srank := 0, sthr := 0, data := 9 }, spart := 0, sgang := 1, vt := 0, slot := 0 }] }
    let full := cor fun c => { c with sendQ := List.replicate 16 { sig := { srank := 0, sthr := 0, data := 9 }, spart := 0, sgang := 1, vt := 0, slot := 0 } }
    let lost := cor fun c => { c with sendQ := [{ sig := { srank := 0, sthr := 0, data := 9 }, spart := 0, sgang := 1, vt := 0, slot := 5 }] }
    let mail := thr fun t => { t with mailbox := [{ srank := 1, sthr := 2, data := 9 }] }
    let told := thr fun t => { t with wait := .sig, woken := some 0 }
    (∀ s ∈ [here, ms, torn, bad, asleep, woken, full, mail, told], ready s (Form.blocked 12 al) = true ∧ ready s (Form.blocked 8 al) = true) ∧
    (∀ s ∈ [ms, torn, bad], s.translate (s.spaceOf (me s)) 0x40000000 (needSide true) = .ok { pa := 0x40000000, ms := true, io := false, w := true, x := true }) ∧
    q.badGran 0x40000000 16 = none ∧ q.waiters 0x40000000 = some [] ∧ q.hbm.read 0x40000000 8 = 0 ∧ (me ms).wait = .none ∧
    (torn.flushWords (me torn) 0x40000000 16).waiters 0x40000000 = none ∧ (torn.flushWords (me torn) 0x40000000 16).badGran 0x40000000 16 = none ∧
    (bad.flushWords (me bad) 0x40000000 16).badGran 0x40000000 16 = some (0x40000000 / 32) ∧
    ms.translate (ms.spaceOf (me ms)) 0x20000 (needSide true) = .err 5 ∧ (0x40000008 : Word).toNat % 16 ≠ 0 ∧
    here.rankPlace 0 = some (0, 0) ∧ 0 < here.nrank ∧ here.rankPlace 16 = none ∧ (here.part (here.partNum (me here))).holds 0 = true ∧ 16 ≤ (full.core 0 0).sendQ.length ∧
    (me mail).mailbox ≠ [] ∧ (me mail).woken = none ∧ (me here).mailbox = [] ∧ (me told).woken = some 0 ∧
    (let f (s : State) := (s.core 0 0).sendQ.findIdx? fun o => !s.trafficHeld o.vt && !s.mute 0 && (!s.signalLands o || (s.thread o.vt o.slot).mailbox.length < 8)
     f sending = some 0 ∧ f lost = some 0 ∧ (sending.core 0 0).sendQ.map sending.signalLands = [true] ∧ (lost.core 0 0).sendQ.map lost.signalLands = [false]) := by
  decide +kernel

/-- The device whose thread has arrived at a `step` of a level. -/
def stepped (l : StepLevel) : State := thr fun t => { t with stepArr := some l, wait := .step }

/-- The device with a boundary of that thread. -/
def bounded (ck : List Nat) : State := { stepped .dom with bounds := [{ lvl := .dom, gang := 1, vt := 0, parts := [(0, 0)], ckpt := ck }] }

theorem witness_StepsPhases :
    let f := Form.blocked 8 Pred.always
    let busy := cor fun c => { c with mxq := [mxZero0] }
    let bad := thr fun t => t.setH (some 1) (.complete .fault 0 .copy)
    let gone := thr fun t => { t with stepArr := some .dom, stepRel := true }
    let first := (thr fun t => { t with st := .bound }).modGang 1 fun g => { g with released := false }
    let firstC := first.commitTile 0 [1]
    let hurt := (bounded [0]).modCore 0 0 fun c => { c with gran := [0], bad := [5] }
    let worn := (bounded [0]).modCore 0 0 fun c => c.modAcc 0 fun a => { a with words := a.words.set 0 1 }
    (∀ s ∈ [here, busy, bad, stepped .dom, gone], ready s f = true) ∧
    (busy.mxBusy (me busy) = true ∧ here.mxBusy (me here) = false ∧ (me here).pendingHandle = false ∧ (me here).handleFault? = none ∧ (me bad).handleFault? ≠ none) ∧
    (let s := stepped .dom
     ∀ g ∈ s.gangs, g.released = true ∧ s.participants .dom g 0 = [me s] ∧ (me s).arrived .dom = true ∧ s.inBoundary (me s) = false ∧ s.holdsUp (me s) = false ∧
       (me s).standsAt .dom = true) ∧
    (∀ s ∈ [bounded [0], hurt, worn],
      s.bounds.find? (fun b => b.ckpt.contains 0) ≠ none ∧ (s.bounds.map fun b => s.gangsAt b 0) = [[1]] ∧ s.trafficHeld 0 = false ∧
        s.trafficHeld (partnerOf 0) = false ∧ s.unbacking 0 = false ∧ s.ckptFits 0 [1] = true) ∧
    ((bounded [0]).ckptBroken 0 [1] = [] ∧ (bounded [0]).ckptBadWord 0 [1] = false ∧ hurt.ckptBroken 0 [1] = [] ∧ hurt.ckptBadWord 0 [1] = true ∧
      worn.ckptBroken 0 [1] = [0]) ∧
    (let s := bounded []
     s.bounds.find? (fun b => b.lvl == .dom && b.gang == 1 && b.ckpt.isEmpty) ≠ none ∧ s.mayRelease [0] = true ∧ s.retentionLost 0 = false ∧ s.isClosing 0 = false) ∧
    (first.bounds = [] ∧ ∀ g ∈ firstC.gangs, firstC.fullyBound g = true ∧ (firstC.ckpt 0).has 1 = true ∧ firstC.retentionLost 0 = false ∧ firstC.mayRelease [0] = true) ∧
    ((Thread.fresh 0 0).halts = false ∧ (me (stepped .dom)).st = .run ∧ (me (stepped .dom)).stepRel = false) := by
  decide +kernel

/-- The device with a second tile behind VTILE 1, like the first. -/
def paired : State := { here with nvtile := 2, vtiles := here.vtiles ++ here.vtiles.map fun v => { v with vt := 1, ptile := 1 } }

theorem witness_CheckpointRecords :
    let full := { bounded [0] with ckpts := [{ Ckpt.fresh 0 with gangs := [(1, 0)], cores := [{ CkptCore.fresh 0 0 with journal := 928 * 1024 }] }] }
    let arrived := { me (stepped .dom) with pc := 0x1014 }
    let holds (k : CkptCore) : State := { here with ckpts := [{ Ckpt.fresh 0 with gangs := [(1, 0)], cores := [k] }] }
    let rec0 : CkptRec := { hbm := true, off := 0, len := 64, gen := 1 }
    let gap := holds { CkptCore.fresh 0 0 with gen := 2, recs := [{ rec0 with gen := 2 }] }
    let junk := holds { CkptCore.fresh 0 0 with gen := 1, recs := [rec0] }
    let lost : State := { junk with hbmBad := [(0x145A0BC0000 + 2 * 560 * 1024) / 32] }
    let r := here.recordBytes 0 0 1 []
    (here.covered 0 0 [1] = [me here] ∧ here.newGranules 0 0 [me here] = [] ∧ here.hasBars 0 0 = true ∧ here.hasBars 0 1 = false) ∧
    (here.covered 0 0 [] = [] ∧ (here.newGranules 0 0 []).length < 2 ^ 16 ∧ r.length = 320) ∧
    (arrived.stepArr.isSome = true ∧ arrived.stepRel = false ∧ nextPc arrived.pc 8 = 0x1020 ∧ (me here).stepArr = none) ∧
    (paired.partnerTakes 0 0 = true ∧ here.partnerTakes 0 0 = false ∧ (CkptCore.fresh 0 0).used + 6144 ≤ 65536 - 64) ∧
    (full.bounds.find? (fun b => b.ckpt.contains 0) ≠ none ∧ (full.bounds.find? fun b => b.ckpt.contains 0).map (full.gangsAt · 0) = some [1] ∧
      full.ckptFits 0 [1] = false) ∧
    (384 * 1024 < ((full.ckpt 0).core 0).journal ∧ ((here.ckpt 0).core 0).journal ≤ 384 * 1024) ∧
    (((gap.ckpt 0).cores.map fun y => (y.recs.map (·.gen), y.gen - y.baseGen)) = [([2], 2)] ∧
      (lost.ckpt 0).cores.map (fun y => y.recs.map (lost.recRead 0 y.slot)) = [[none]] ∧
      (junk.ckpt 0).cores.map (fun y => y.recs.map (junk.recRead 0 y.slot)) = [[some (List.replicate 64 0)]] ∧ bytesNat ((List.replicate 64 (0 : Byte)).take 1) ≠ 1) ∧
    (here.hbm.wf = true ∧ (Core.fresh 0 0).ls.wf = true) := by
  decide +kernel

/-- A record of 17 R355's example: two entries of 2,624 bytes and three granules are 6,128 bytes, 6,144 in the reserve. -/
theorem test_record_length :
    ckptThreadBytes { Thread.fresh 0 0 with conted := true, lives := 0x4, livev := 0x10 } 1 = 2624 ∧ roundUp 64 (64 + 2 * 2624 + 3 * 272) = 6144 := by
  decide +kernel

/-- The entry of such a thread has that length, with its header first (17 R352, R354). -/
theorem test_entry_length : (here.ckptEntry { me here with conted := true, lives := 0x4, livev := 0x10 }).length = 256 + 1024 + 64 + 256 + 1024 * (here.accNames (me here)).length := by
  decide +kernel

theorem witness_ContSaveRetire :
    let f : Form := { Form.blocked 16 Pred.always with wins := true }
    let busy := cor fun c => { c with mxq := [mxZero0] }
    let bad := thr fun t => t.setH (some 1) (.complete .fault 0 .copy)
    let grace := thr fun t => { t with ingrace := true }
    let fails := (stashed fun e => { e with gbase := 0x40000000 }).modThread 0 0 fun t => { t with ingrace := true }
    let closing := here.modQueue 0 fun q => { q with state := .closing }
    let yielding := here.modGang 1 fun g => { g with yielding := true }
    let saving := thr fun t => { t with st := .saving }
    let whole := ({ here with threads := [] } : State).modGang 1 fun g =>
      { g with yielding := true, src := { g.src with resv := some (0, 16) }, saved := [{ vt := 0, slot := 0, bic := 5, bmc := 6, bytes := [] }] }
    let halted := thr fun t => { t with st := .halted }
    let aborted := (here.modGang 1 fun g => { g with released := false, abortSt := some (7, 0) }).modThread 0 0 fun t => { t with st := .halted }
    (∀ s ∈ [here, busy, bad, grace, fails, closing], ready s f = true) ∧ (here.mxBusy (me here) = false ∧ busy.mxBusy (me busy) = true ∧ (me bad).handleFault? ≠ none) ∧
    (∀ g ∈ here.gangs, badRange (recUnits g.task) [] [(0, 1)] = none ∧ badRange (recUnits g.task) [] [(127, 31)] ≠ none ∧ here.isClosing g.qid = false) ∧
    closing.isClosing 0 = true ∧ (me grace).ingrace = true ∧ (grace.writeBacks 0 0).2 = none ∧ (fails.writeBacks 0 0).2 ≠ none ∧
    (∀ s ∈ [here, grace, fails], let s1 := (s.modCur fun u => { u with conted := true }).chargeCont (me s)
      (s1.thread 0 0).ingrace = (me s).ingrace ∧ (s1.thread 0 0).pend = false ∧ (((s1.beginYield 1 0 0 1).settle (me s)).writeBacks 0 0).2 = (s.writeBacks 0 0).2) ∧
    (yielding.thread? 0 0 = some (me yielding) ∧ yielding.gangs.map (·.yielding) = [true] ∧ (me yielding).ioHeld = [] ∧ yielding.spawns = [] ∧
      (me yielding).deferred = [] ∧ (yielding.core 0 0).remoteQ = [] ∧ here.gangs.map (·.yielding) = [false]) ∧
    (saving.thread? 0 0 = some (me saving) ∧ (saving.gangOf (me saving)).isSome = true ∧ (saving.core 0 0).mxStop = false ∧
      (∀ a ∈ saving.accNames (me saving), ((saving.core 0 0).accum a).broken = [])) ∧
    (let e := Config.freeEnergy whole.fresh
     let s2 (g : Gang) := ((({ whole with fresh := whole.fresh + 1 } : State).saveEnergy g e).runStages [] false).meter 1
     ∀ g ∈ whole.gangs, whole.savedWhole g = true ∧ g.src.resv = some (0, 16) ∧ whole.isClosing g.qid = false ∧
      ∀ g1 ∈ (s2 g).gangs, g1.src.resv = some (0, 16) ∧ (s2 g).isClosing g1.qid = false ∧
        (s2 g).checkVirt (.panel g1.asid) (needPlain true) 0 ((s2 g).saveBlock g1 e).length = none) ∧
    (∀ s ∈ [halted, aborted], ∀ g ∈ s.gangs, (g.released = true ∨ g.abortSt ≠ none) ∧ g.saved = [] ∧ (∀ t ∈ s.gangThreads g.id, t.st = .halted) ∧
      (((s.retireWork 1).meter 1).gang? 1).isSome = true) ∧
    (∀ g ∈ here.gangs, here.retires g = false) := by
  decide +kernel

theorem witness_Budgets :
    let fc : Form := { Form.blocked 8 al with cap := some 0 }
    let x : LsAccess := { addr := 0, width := 8, bytes := 128, write := false }
    let open' := here.modQueue 7 fun q => { q with state := .opened }
    let recWith (t : List Word) := (cor fun c => c.putLs 0 (wordsBytes t)).modQueue 7 fun q => { q with state := .opened }
    let rec' := recWith placedTask
    let user := (recWith placedTask).modGang 1 fun g => { g with task := plainTask }
    let many : State := { open' with spawns := List.replicate 256 { vt := 0, slot := 0, gang := 1, qid := 7, task := [] } }
    let sib := here.putThread { placedThread 0 1 with st := .run }
    let pend := thr fun t => { t with pend := true, wait := .sig }
    let grace (n : Nat) := ({ (thr fun t => { t with ingrace := true, grace := n, wait := .sig }) with clk := 1024 } : State)
    ready here (Form.blocked 12 al) = true ∧ ready here (Form.blocked 8 al) = true ∧ ready here fc = true ∧ lsFreeB here (me here) x = true ∧
    (here.gangOf (me here)).isSome = true ∧ (here.queue 7).state ≠ .opened ∧ (open'.queue 7).state = .opened ∧ (open'.queue 7).part = open'.partNum (me open') ∧
    (let r := bytesWords 16 ((rec'.core 0 0).ls.bytes 0 128)
     recThreads r = 1 ∧ recBic r = 2 ^ 40 ∧ (me rec').bic < recThreads r * recBic r + 1) ∧
    (let r := bytesWords 16 ((user.core 0 0).ls.bytes 0 128)
     recCaps r &&& (15 - wordsField plainTask 696 4) ≠ 0 ∧ user.gangs.map (fun g => wordsField g.task 696 4) = [0]) ∧
    (let r := bytesWords 16 ((open'.core 0 0).ls.bytes 0 128)
     recCaps r &&& (15 - wordsField placedTask 696 4) = 0 ∧ ¬ ((me open').bic < recThreads r * recBic r + 1) ∧ (me open').ingrace = false ∧ open'.spawns.length < 65536 ∧
       many.spawns.length = 256) ∧
    ((sib.thread 0 1).gang = (me sib).gang ∧ (sib.thread 0 1).st = .run ∧ ((here.charge 0 0 1 0).thread 0 1).gang ≠ 1) ∧
    ((pend.thread 0 0).pend = true ∧ (pend.thread 0 0).wait ≠ .none ∧ (pend.thread 0 0).atContHalt = false ∧ (pend.thread 0 0).st = .run) ∧
    (∀ n ∈ [0, 1, 2], ((grace n).thread 0 0).ingrace = true ∧ ((grace n).thread 0 0).spanClk + 1024 ≤ (grace n).clk ∧ (grace n).isAmber 0 = false ∧
      (grace n).asleep ((grace n).thread 0 0) = true) ∧ (here.thread 0 0).ingrace = false ∧
    ((placedThread 0 0).debit 2 0).ingrace = false ∧ ({ placedThread 0 0 with bic := 1 }.debit 2 0).ingrace = true ∧
    ({ placedThread 0 0 with bic := 1, grace := 0 }.debit 2 0).pend = true := by decide +kernel

-- The spawn list's limit of 65,536 (15 R304): a list of that length.
theorem witness_SpawnList (x : Spawned) : 65536 ≤ (List.replicate 65536 x).length := Nat.le_of_eq List.length_replicate.symm

theorem witness_Leases :
    let fs : Form := { Form.blocked 8 al with cap := some 1 }
    let is (st : LeaseState) (n : Nat) := here.modGang 1 fun g => { g with lease := { g.lease with st := st, level := 1, remain := n } }
    let late (n : Nat) : State := { is .active n with clk := 2 ^ 22 }
    let zoned (melt : Nat) (refreeze : Bool) : State := { is .pending 5 with zones := [{ num := 0, melt := melt, refreeze := refreeze }] }
    let wide : State := ({ here with tiles := [{ placedPTile with cores := List.replicate 1000 0 }] } : State).modGang 1 fun g =>
      { g with tiles := (List.range 46).map fun v => placedTile v 0, lease := { g.lease with st := .pending, level := 2, dom := true, remain := 1 } }
    ready here fs = true ∧ ready here { Form.blocked 12 al with cap := some 1 } = true ∧ ready here (Form.blocked 8 al) = true ∧
    (∀ st ∈ [LeaseState.none, .pending, .active, .ending, .refused], (is st 1).gangs.map (·.lease.st) = [st] ∧ ready (is st 1) fs = true ∧ (is st 1).gangOf (me here) ≠ none) ∧
    (∀ g ∈ (late 2).gangs, g.lease.clk + 2 ^ 22 ≤ (late 2).clk ∧ 1 < g.lease.remain) ∧ (∀ g ∈ (late 1).gangs, g.lease.remain ≤ 1) ∧
    here.gangs.length = 1 ∧
    -- REFREEZE; CAPACITY from 3,584 on with one period; CEILING; none.
    (∀ g ∈ (zoned 0 true).gangs, (zoned 0 true).leaseCheck g 5 = some 1 ∧ ∃ z ∈ (zoned 0 true).leaseZones g, ((zoned 0 true).zone z).refreeze = true) ∧
    (∀ g ∈ (zoned 3584 false).gangs, (zoned 3584 false).leaseCheck g 5 = some 2 ∧ ∃ z ∈ (zoned 3584 false).leaseZones g, 3584 < ((zoned 3584 false).zone z).melt + leaseMelt 1 16 5) ∧
    (∀ g ∈ wide.gangs, wide.leaseCheck g 1 = some 3 ∧ 3600000 < 2000000 + 12 * wide.levelCores 1 g + 35 * wide.levelCores 2 g) ∧
    (∀ g ∈ (zoned 3583 false).gangs, (zoned 3583 false).leaseCheck g 5 = none ∧ g.lease.remain = 5) := by decide +kernel

/-- A second gang, of one thread at core slot 1, beside the placed one. -/
def pair' : State :=
  { here.putThread { placedThread 0 4 with gang := 2, st := .run } with
    gangs := here.gangs ++ [{ placedGang 0 4 with id := 2, tiles := [{ placedTile 0 4 with gslot := 1 }], task := placedTask.set 10 (w64 (1 + 2 ^ 16 + 2 ^ 21 + 2 ^ 32 * 4096)) }] }

theorem witness_TrapsSupervisor :
    let fs : Form := { Form.blocked 8 al with cap := some 2 }
    let froz := pair'.modThread 0 4 fun t => { t with st := .frozen }
    let good : State := { froz with ckpts := [{ Ckpt.fresh 0 with gangs := [(2, 0)] }] }
    let amber := pair'.modVTile 0 fun v => { v with amber := true }
    let moving : State := { amber with rotations := [{ vt := 0, source := 0, target := 1, st := .copy, forced := false, isReplay := false, preempted := false, since := 0, noVote := [], counter := 0, events := 0 }] }
    let held := thr fun t => { t with st := .frozen, pktHeld := some [0, 0, 0, 0, 0, 0, 0, 0] }
    let heldFull := held.modPart 0 fun p => { p with frsize := 16, frtail := 16 }
    let dog (n : Nat) : State := { (here.modGang 1 fun g => { g with task := g.task.set 11 (w64 (448 + 8 * 2 ^ 10 + 2 ^ 32)), wdtLeft := n }) with clk := 1024 }
    let bitten := (dog 0).modThread 0 0 fun t => { t with st := .frozen, cause := some .watchdog }
    let live (s : State) (g : Gang) := (g.inOrder (s.gangThreads g.id)).filter fun t => t.st != .halted && t.st != .saving
    let asleep := (thr fun t => { t with wait := .sig }).modGang 1 fun g => { g with task := plainTask }
    let audited : State := { here with clk := 2 ^ 20, audits := [(5, 1)] }
    ready here (Form.blocked 8 al) = true ∧ ready pair' fs = true ∧
    (pair'.rankPlace 1 = some (0, 1) ∧ 1 < pair'.nrank ∧ (pair'.part (pair'.partNum (me pair'))).holds 0 = true ∧ pair'.isAmber 0 = false ∧ pair'.rankPlace 16 = none) ∧
    ((pair'.thread 0 4).st = .run ∧ (pair'.thread 0 4).gang = 2 ∧ (me pair').gang = 1 ∧ (pair'.thread 0 8).st = .free ∧ (froz.thread 0 4).st = .frozen ∧
      (froz.gangOf (froz.thread 0 4)).isSome = true) ∧
    (amber.isAmber 0 = true ∧ ready amber fs = true ∧ (amber.rotation? 0).isSome = false ∧ (moving.rotation? 0).isSome = true ∧ ready moving fs = true) ∧
    ((froz.gang? 2).map froz.gangGood = some false ∧ (good.gang? 2).map good.gangGood = some true ∧ (good.takeSpare 0).isNone = true ∧
      (({ good with tiles := good.tiles ++ [{ placedPTile with num := 1 }] } : State).takeSpare 0).map (·.2) = some 1) ∧
    ((held.thread 0 0).pktHeld ≠ none ∧ (held.part 0).ringOn = false ∧ (heldFull.part 0).ringOn = true ∧ (heldFull.part 0).ringFull = true) ∧
    (∀ g ∈ (dog 0).gangs, g.released = true ∧ recWdt g.task ≠ 0 ∧ g.wdtStop = false ∧ g.wdtClk + 1024 ≤ (dog 0).clk ∧ g.wdtLeft = 0 ∧
      (∃ t ∈ live (dog 0) g, t.st = .run) ∧ ∀ t ∈ g.inOrder ((dog 0).gangThreads g.id), t.st ≠ .frozen) ∧
    (∀ g ∈ bitten.gangs, g.wdtLeft = 0 ∧ live bitten g ≠ [] ∧ ∃ t ∈ g.inOrder (bitten.gangThreads g.id), t.st = .frozen ∧ t.cause = some .watchdog) ∧
    (∀ g ∈ (dog 1).gangs, g.wdtLeft ≠ 0) ∧
    (here.stuck 0 = false ∧ asleep.stuck 0 = true ∧ (asleep.watched 0).map (·.id) = [1] ∧ (asleep.sleepers 1).length = 1) ∧
    (audited.clk / 2 ^ 20 = 1 ∧ ((audited.audits.find? fun a => a.1 == 5).map (·.2)).getD 0 = 1 ∧ ((audited.audits.find? fun a => a.1 == 6).map (·.2)).getD 0 = 0) := by decide +kernel

/-- The device with spare tiles 1 and 2. -/
def spares : State := { here with tiles := [placedPTile, { placedPTile with num := 1 }, { placedPTile with num := 2 }] }

/-- That device with a rotation of VTILE 0 onto tile 2. -/
def rotating (st : RotState) (forced : Bool) (clk : Nat) : State :=
  { spares with
    clk := clk, threads := [], rotations := [{ vt := 0, source := 0, target := 2, st := st, forced := forced, isReplay := false, preempted := false, since := 0, noVote := [], counter := 5, events := 0 }] }

theorem witness_CoreTests :
    let fs : Form := { Form.blocked 8 al with cap := some 3 }
    let test : CoreTest := { id := 1, vt := 0, mask := [2], full := false, cmd := 1, byVt := 0, byCs := 0 }
    let testing : State := { here with tests := [test] }
    let leaves : State := { testing with heldBinds := [(0, placedTask, ({ op := 1, gslot := 1, barid := 1, tmask := [0], cmask := [2], lsb := [0, 0, 0, 0], amask := [[], [], [], []], qid := 0, vtbase := 0, vtidx := 0, domid := 0, gangid := 2 } : BindRec).words)] }
    let grey (m : Bool) : State := { spares with tiles := [{ placedPTile with service := .grey, ageing := { Ageing.zero with cse := if m then 64 else 0 } }] }
    let amber := here.modVTile 0 fun v => { v with amber := true }
    let goes : State := { grey false with updates := [{ change := .black 0, noVote := [] }] }
    ready here fs = true ∧ (4096 : Word).toNat = 2 ^ 12 ∧ (65536 : Word).toNat = 2 ^ 16 ∧ here.vtile? 1 = none ∧
    ((here.vtile? 0).map (·.backed) = some true ∧ 0 < here.nvtile ∧ (here.part (here.partNum (me here))).holds 0 = true ∧ here.isAmber 0 = false) ∧
    (amber.isAmber 0 = true ∧ ready amber fs = true ∧ (here.ptile? (here.ptileOf 0)).isSome = true) ∧
    (me here).h[(5 : HReg)] = .empty ∧ here.holders 0 [0] ≠ [] ∧ here.holders 0 [2] = [] ∧ here.pcoreOf 0 2 ≠ none ∧
    (testing.tests.find? (fun y => y.id == 1) = some test ∧ testing.testLeaving test = false ∧ leaves.testLeaving test = true ∧ leaves.isAmber 0 = false ∧
      (leaves.tests.filter fun y => y.vt == 0 && leaves.testLeaving y) = [test] ∧ (testing.tests.filter fun y => y.vt == 0 && testing.testLeaving y) = []) ∧
    ((∀ m ∈ [false, true], ((grey m).ptile? 0).map (fun p => (p.service == .grey, p.cores.length, p.ageing.grey, p.ageing.black)) = some (true, 16, m, false) ∧
      (grey m).staged? (.black 0) = false) ∧ goes.staged? (.black 0) = true ∧ (here.ptile? 0).map (·.service) = some .white) ∧
    ((Ageing.zero.decay 0 0) = Ageing.zero ∧ (0 + 2 ^ 42 - 1) / 2 ^ 42 = 0 ∧ (0 + 32) * 2 ^ 42 ≤ 2 ^ 47) ∧
    (here.snapClk = 0 ∧ here.clk < 2 ^ 42) ∧
    ((here.pcoreOf 0 15).isSome = true ∧ here.pcoreOf 1 0 = none ∧ 131071 < 131072 ∧ 0x165A0BBFFFF < 0x165A0BC0000) ∧
    (({ here with tiles := [{ placedPTile with service := .amber }] } : State).ptile? 0).map (·.service) = some .amber := by
  refine ⟨?_, ?_, ?_, ?_, ?_, ?_, ?_, ?_, ?_, ?_, ?_, ?_, ?_⟩ <;> decide +kernel

/-- That rotation as a replay's. -/
def replaying (st : RotState) : State := { rotating st true 0 with rotations := (rotating st true 0).rotations.map fun r => { r with isReplay := true } }

theorem witness_Rotations :
    let bad : State := { spares with cores := [{ Core.fresh 0 0 with bad := [5] }] }
    let good : State := { bad with ckpts := [{ Ckpt.fresh 0 with gangs := [(1, 0)] }] }
    let miss : State := { good with cores := [{ Core.fresh 0 0 with mismatch := 2 }] }
    let twice := good.modGang 1 fun g => { g with replayed := true }
    let alone : State := { good with tiles := [placedPTile] }
    let worn : State := { spares with tiles := [{ placedPTile with ageing := { Ageing.zero with cse := 64 } }, { placedPTile with num := 1 }] }
    let idle : State := { (thr fun t => { t with wait := .step }) with clk := 65536 }
    let eight : State := { worn with rotations := List.replicate 8 { vt := 7, source := 9, target := 9, st := .drain, forced := false, isReplay := false, preempted := false, since := 0, noVote := [], counter := 0, events := 0 } }
    let grey : State := { spares with tiles := List.replicate 32 { placedPTile with service := .grey } }
    let amberV := spares.modVTile 0 fun v => { v with amber := true }
    let upd (c : TableChange) : State := { spares with updates := [{ change := c, noVote := [] }] }
    let mute : State := (upd (.black 2)).modPTile 0 fun t => { t with votes := false }
    (here.tiles.filter here.isSpare).length < 2 ∧ ¬ ((spares.tiles.filter spares.isSpare).length < 2) ∧
    32 ≤ (grey.tiles.filter fun t => t.service == .grey).length ∧ 8 ≤ (eight.rotations.filter fun r => r.st != .resume && !r.isReplay).length ∧
    (spares.oldestTested.map (·.num) = some 0 ∧ spares.carried 0 = some 0 ∧ spares.spareFor 0 = some 2 ∧ amberV.isAmber 0 = true ∧ amberV.carried 0 = some 0 ∧
      ({ spares with tiles := [{ placedPTile with num := 1 }, { placedPTile with num := 2 }, { placedPTile with lastTest := 1 }] } : State).carried 1 = none) ∧
    (∀ t ∈ worn.tiles, t.num = 0 → t.service = .white ∧ t.ageing.grey = true) ∧ (worn.takeSpare 0).map (·.2) = some 1 ∧ (here.takeSpare 0).isNone = true ∧
    (worn.unbacking 0 = false ∧ (worn.rotation? 0).isNone = true ∧ (worn.vtile? 0).map (fun v => (v.backed, v.amber)) = some (true, false)) ∧
    (∀ r ∈ (replaying .remap).rotations, r.isReplay = true ∧ (replaying .remap).mayCommit r = true) ∧
    ((upd (.black 0)).update? 4096).isSome = true ∧ ((upd (.unbacked 0)).update? 0).isSome = true ∧ (upd (.black 0)).rotation? 4096 = none ∧
    ((upd (.black 0)).votesIn 0 [] = true ∧ (upd (.black 0)).replayFirst = false ∧ mute.votesIn 2 [] = false ∧ (mute.update? (4096 + 2)).isSome = true) ∧
    ((miss.cores.map (·.mismatch)) = [2] ∧ good.ckptGood 0 1 = true ∧ miss.ckptGood 0 1 = true ∧ bad.ckptGood 0 1 = false ∧ (twice.gangs.map (·.replayed)) = [true] ∧
      alone.ckptGood 0 1 = true ∧ alone.takeSpare 0 = none ∧ good.takeSpare 0 ≠ none ∧ (bad.gangs.map (·.replayed)) = [false] ∧
      (good.vtile? 0).map (fun v => (v.backed, v.amber)) = some (true, false) ∧ good.unbacking 0 = false ∧ good.rotation? 0 = none ∧ (good.gangs.map (·.released)) = [true]) ∧
    ((bad.core 0 0).bad ≠ [] ∧ (here.core 0 0).bad = [] ∧ (bad.gangs.map fun g => (g.tile? 0).isSome) = [true]) ∧
    ((∀ t ∈ idle.threads, t.st = .run ∧ t.wait = .step ∧ t.stepRel = false ∧ t.since + 65536 ≤ idle.clk) ∧ idle.carried 0 = some 0 ∧
      (idle.ptile? 0).map (·.service) = some .white ∧ here.clk < 65536 ∧ here.retentionLost 0 = false) := by
  refine ⟨?_, ?_, ?_, ?_, ?_, ?_, ?_, ?_, ?_, ?_, ?_, ?_, ?_, ?_, ?_, ?_, ?_⟩ <;> decide +kernel

theorem witness_RotationStates :
    let r (s : State) := s.rotation? 0
    let hurt : State := { rotating .copy false 0 with cores := [{ Core.fresh 0 0 with bad := [5] }] }
    let torn : State := { rotating .copy false 0 with
      cores := [(Core.fresh 0 0).modAcc 0 fun a => { a with words := a.words.set 0 1 }] }
    let late (forced pre : Bool) : State := { rotating .drain forced (2 ^ 24) with rotations := (rotating .drain forced 0).rotations.map fun r => { r with preempted := pre } }
    let busyT : State := { late true true with threads := here.threads, ckpts := [{ Ckpt.fresh 0 with gangs := [(1, 0)] }] }
    let bound : State := { rotating .remap false 0 with threads := here.threads.map fun t => { t with st := .bound } }
    let silent : State := { rotating .remap false 0 with tiles := (rotating .remap false 0).tiles.map fun t => { t with votes := false } }
    let hit (s : State) (pt : Nat) := s.rotations.find? fun x => x.target == pt && x.st != .resume
    ((r (rotating .drain false 0)).map (·.st) = some .drain ∧ (rotating .drain false 0).quiescent 0 = true ∧ spares.quiescent 0 = false) ∧
    ((rotating .copy false 0).copyMeetsError 0 = false ∧ hurt.copyMeetsError 0 = true ∧ hurt.brokenOn 0 = []) ∧
    (∀ f ∈ [false, true], ∀ p ∈ [false, true], (r (late f p)).map (fun x => (x.forced, x.preempted, decide (x.since + 2 ^ 24 ≤ (late f p).clk))) = some (f, p, true)) ∧
    ((busyT.gangs.filter fun g => busyT.restless 0 g).map (·.id) = [1] ∧ busyT.ckptGood 0 1 = true) ∧
    ((r (rotating .remap false 0)).map (rotating .remap false 0).mayCommit = some true ∧ (r (rotating .copy false 0)).map (rotating .copy false 0).mayCommit = some false ∧
      (∃ u ∈ bound.threads, u.vt = 0 ∧ u.st = .bound) ∧ (rotating .remap false 0).threads = [] ∧ (r bound).map bound.mayCommit = some true) ∧
    ((silent.ptile? 0).map (·.votes) = some false ∧ (here.ptile? 0).map (·.votes) = some true) ∧
    ((hit (rotating .remap false 0) 2).isSome = true ∧ (hit (rotating .remap false 0) 1).isNone = true ∧ (rotating .remap false 0).carries 1 = false ∧ (rotating .remap false 0).carries 0 = true ∧
      ((rotating .remap false 0).ptile? 1).map (·.service) = some .white) ∧ (torn.copyMeetsError 0 = true ∧ torn.brokenOn 0 = [0]) := by
  refine ⟨?_, ?_, ?_, ?_, ?_, ?_, ?_, ?_⟩ <;> decide +kernel

theorem witness_Queues :
    let st (x : QState) := here.modQueue 9 fun q => { q with state := x, ringlog2 := 4 }
    let src0 : TaskSrc := { task := placedTask, parent := none, bics := [], bmcs := [], debitI := 0, debitM := 0, resv := none, leftI := 0, leftM := 0 }
    let stage (t : List Word) (x : StageState) := here.modQueue 9 fun q =>
      { q with state := .opened, ringlog2 := 4, staged := some { src := { src0 with task := t }, st := x, reserving := false, gang := none } }
    let resumes := here.modQueue 9 fun q => { q with state := .stalled, resume := [src0] }
    let ringed (i n : Nat) := here.modQueue i fun q => { q with state := .opened, ringlog2 := 4, ringbase := 0x20000, tail := BitVec.ofNat 32 n }
    let both : State := { (ringed 9 1) with queues := (ringed 9 1).queues ++ (ringed 4 1).queues, lastStaged := 7 }
    let mapped (s : State) : State := { s with hbm := s.hbm.write 0x2008 8 0x40000067 }
    let inv (t0 t1 t2 : Word) (b : Bool) : State := { here with tinv := { here.tinv with t0 := t0, t1 := t1, t2 := t2, busy := b } }
    let held := (inv 0 0 0 true).modThread 0 0 fun t => { t with ioHeld := [{ va := 0x1000, off := 0, width := 4, val := 0 }] }
    (here.queue 9).state = .disabled ∧ (here.part 0).valid = true ∧ (here.part 1).valid = false ∧
    (∀ x ∈ [QState.opened, .closing, .stalled], ((st x).queue 9).state = x ∧ ((st x).queue 9).staged = none ∧ ((st x).queue 9).resume = [] ∧ ((st x).queue 9).inflight = 0) ∧
    ((resumes.queue 9).resume = [src0] ∧ (resumes.queue 9).staged = none ∧ (resumes.queue 9).state = .stalled) ∧
    (here.hasCap (here.thread 0 0) 2 = true ∧ here.hasCap (here.thread 0 1) 2 = false) ∧
    -- The doorbell of a ring of 16 with TAIL 1 and HEAD 0: again, ahead, behind, beyond.
    ((1 - (1 : BitVec 32)).toNat = 0 ∧ (16 - (1 : BitVec 32)).toNat < 2 ^ 31 ∧ (16 - (0 : BitVec 32)).toNat ≤ 2 ^ 4 ∧ 2 ^ 31 ≤ (0 - (1 : BitVec 32)).toNat ∧ 2 ^ 4 < (17 - (0 : BitVec 32)).toNat) ∧
    ((ringed 9 1).stageCount < 8192 ∧ ((ringed 9 1).queue 9).head ≠ ((ringed 9 1).queue 9).tail ∧ ((ringed 9 1).queue 9).staged = none ∧ (ringed 9 1).nextToStage = some 9 ∧
      here.nextToStage = none ∧ both.nextToStage = some 9 ∧ ({ both with lastStaged := 9 } : State).nextToStage = some 4) ∧
    (∀ x ∈ [StageState.seqWait 3, .depWait false, .depWait true, .ready 0], ((stage placedTask x).queue 9).staged.map (·.st) = some x) ∧
    (here.translate (.panel 0) 0x20000 (needSide false) = .err 5 ∧ (mapped here).translate (.panel 0) 0x40000000 (needSide false) = .ok { pa := 0x40000000, ms := true, io := false, w := true, x := true }) ∧
    (match (ringed 9 1).readPage (.panel 0) (needPlain false) 0x20000 128 with | .ok l => recSeq (bytesWords 16 l) == 0 && recVersion (bytesWords 16 l) != 1 | .error _ => false) = true ∧
    (recVersion placedTask = 1 ∧ recClean placedTask = true) ∧ here.phase = 4 ∧ State.reset.phase ≠ 4 ∧
    -- An invalidate of everything, of one page, with a length of 0, under way, and with a store before it.
    ((inv 0 0 0 false).tinv.busy = false ∧ (inv 0x10000 0x1000 0x1000 false).tinv.t0.toNat / 2 ^ 16 % 2 = 1 ∧ (inv 0x10000 0x1000 0 false).tinv.t2.toNat = 0 ∧
      (inv 0 0 0 true).tinv.busy = true ∧ (inv 0 0 0 true).memOps = [] ∧ (∀ t ∈ (inv 0 0 0 true).threads, t.ioHeld = []) ∧
      (∃ t ∈ held.threads, held.asidOf t = 0 ∧ ∃ y ∈ t.ioHeld, y.va / 2 ^ 30 * 2 ^ 30 < 2 ^ 48)) := by
  decide +kernel

/-- A bind record for a second gang at core slot 1. -/
def bind0 : List Word :=
  ({ op := 1, gslot := 1, barid := 1, tmask := [0], cmask := [1], lsb := [0, 0, 0, 0], amask := [[0, 1, 2, 3, 4, 5, 6, 7], [], [], []], qid := 9, vtbase := 0, vtidx := 0,
     domid := 5, gangid := 2 } : BindRec).words

/-- The device with that gang's record ready. -/
def binding : State := here.modQueue 9 fun q =>
  { q with
    state := .opened, capmask := 15, priomax := 7
    staged := some { src := { task := placedTask, parent := none, bics := [], bmcs := [], debitI := 0, debitM := 0, resv := none, leftI := 0, leftM := 0 },
                     st := .ready 0, reserving := false, gang := none } }

/-- A record that waits on the word at 0x40000000, its re-read due, with that word in HBM. -/
def waitingOn (w : Nat) : State :=
  let s := here.modQueue 9 fun q =>
    { q with
      state := .opened
      staged := some { src := { task := placedTask.set 5 0x40000000, parent := none, bics := [], bmcs := [], debitI := 0, debitM := 0, resv := none, leftI := 0, leftM := 0 },
                       st := .depWait true, reserving := false, gang := none } }
  { s with hbm := (s.hbm.write 0x2008 8 0x40000067).write 0x40000000 4 w }

theorem witness_QueueDependence :
    recWaitaddr (placedTask.set 5 0x40000000) = 0x40000000 ∧ ((waitingOn 0).queue 9).state = .opened ∧
    (waitingOn 0).hbm.read 0x40000000 4 = 0 ∧ (waitingOn 5).hbm.read 0x40000000 4 = 5 ∧ (waitingOn (2 ^ 31)).hbm.read 0x40000000 4 = 2 ^ 31 ∧
    (match (waitingOn 5).translate (.panel 0) 0x40000000 (needSide false) with | .ok m => m.pa == 0x40000000 | .err _ => false) = true := by
  decide +kernel

theorem witness_BindSelect :
    let b := BindRec.of bind0
    let alter (f : BindRec → BindRec) : List Word := (f b).words
    let amber := binding.modVTile 0 fun v => { v with amber := true }
    let unbacked := binding.modVTile 0 fun v => { v with backed := false }
    let fewer := binding.modVTile 0 fun v => { v with slots := v.slots.set 1 none }
    let scrub := thr fun t => { t with st := .scrub }
    let rel (op : Nat) := alter fun b => { b with op := op, gslot := 0, gangid := 1 }
    let fresh (s : State) := s.modGang 1 fun g => { g with released := false }
    let old : State := { binding with queues := [binding.queue 9], gangs := [], threads := [], clk := 8 * 2 ^ 22 }
    let big : State := binding.modQueue 9 fun q => { q with staged := q.staged.map fun r => { r with src := { r.src with task := r.src.task.set 10 (w64 (2 + 2 ^ 16 + 2 ^ 21 + 2 ^ 32 * 4096 + 2 ^ 56 * 0xF)) } } }
    let small (t : List Word) : List Word := t.set 11 (w64 (4 + 8 * 2 ^ 10))
    let roomy := binding.modGang 1 fun g => { g with task := small g.task }
    let src (s : State) := ((s.queue 9).staged.map (·.src)).getD { task := [], parent := none, bics := [], bmcs := [], debitI := 0, debitM := 0, resv := none, leftI := 0, leftM := 0 }
    (b.vtbase + b.vtidx = 0 ∧ b.vtidx < recNvt placedTask ∧ (binding.vtile? 0).isSome = true ∧ here.vtile? 1 = none) ∧
    (binding.holdsBind 0 b = false ∧ amber.holdsBind 0 b = true ∧ (binding.bindGang b placedTask).isSome = true ∧ (amber.bindGang b placedTask).isSome = true ∧
      (binding.gangs.map fun g => (g.tile? 0).map (·.barid)) = [some 0]) ∧
    binding.bindResult 0 placedTask bind0 = 0 ∧ binding.bindResult 0 placedTask (rel 2) = 1 ∧ unbacked.bindResult 0 placedTask bind0 = 2 ∧
    fewer.bindResult 0 placedTask bind0 = 3 ∧ binding.bindResult 0 placedTask (alter fun b => { b with cmask := [0] }) = 4 ∧
    binding.bindResult 0 placedTask (alter fun b => { b with gslot := 0 }) = 5 ∧
    binding.bindResult 0 placedTask (alter fun b => { b with cmask := [0], tmask := [1], amask := [[], [0, 1, 2, 3, 4, 5, 6, 7], [], []] }) = 6 ∧
    roomy.bindResult 0 (small placedTask) (alter fun b => { b with cmask := [0], tmask := [1], lsb := [0, 8, 0, 0], amask := [[], [0, 1, 2, 3, 4, 5, 6, 7], [], []] }) = 7 ∧
    (bindClean (rel 2) = true ∧ (BindRec.of (rel 2)).op = 2 ∧ (BindRec.of (rel 3)).op = 3 ∧ binding.tileReady 0 = true ∧ (binding.gslotGang 0 0).map (·.id) = some 1 ∧
      (binding.gang? 1).map (·.released) = some true ∧ ((fresh binding).gang? 1).map (·.released) = some false ∧ (binding.gslotGang 0 1).isNone = true) ∧
    ((scrub.thread 0 0).st = .scrub ∧ (scrub.gangOf (scrub.thread 0 0)).isSome = true ∧ (scrub.tileOf (scrub.thread 0 0)).isSome = true ∧ recTidimg placedTask = 0 ∧
      recResume placedTask = false) ∧
    (Core.fresh 0 0).ls.wf = true ∧ (∀ q ∈ here.queues, here.effLevel q = none) ∧ binding.effLevel (binding.queue 9) = some 0 ∧
    (match binding.place 9 with | .placed _ => true | _ => false) = true ∧ (match amber.place 9 with | .waits => true | _ => false) = true ∧
    (match big.place 9 with | .ended _ => true | _ => false) = true ∧
    (binding.couldFit 0 (src binding) = true ∧ big.couldFit 0 (src big) = false ∧ (binding.reserve 0 (src binding)).isSome = true ∧ (binding.planTile 0 placedTask).isSome = true ∧
      amber.planTile 0 placedTask = none ∧ lowestFree 65536 (binding.gangs.map (·.domid)) = some 1 ∧ recHint placedTask = 0 ∧
      (∀ r, (binding.queue 9).staged = some r → binding.mateAt (binding.queue 9) placedTask 0 1 = none)) ∧
    (binding.part (binding.queue 9).part).drained = false ∧ binding.clk < 0 + (7 - min (recPrio placedTask) 7) * 2 ^ 22 + 2 ^ 22 ∧
    (old.gangs = [] ∧ old.queues.length = 1 ∧ 0 + (7 - min (recPrio placedTask) 7) * 2 ^ 22 + 2 ^ 22 ≤ old.clk) := by
  decide +kernel

theorem witness_PartitionRegisters :
    let ringed := here.modPart 0 fun p => { p with frtail := 2, evtail := 2 }
    let drained := here.modPart 0 fun p => { p with drained := true }
    let sampled : State := { here.modPart 0 fun p => { p with sampctl := 1 } with clk := 2 ^ 24 }
    let froz := thr fun t => { t with st := .frozen }
    let asleep := thr fun t => { t with wait := .step }
    let stalled := thr fun t => { t with wait := .stall 5 }
    let sig := thr fun t => { t with wait := .sig }
    let bar := thr fun t => { t with wait := .bar, barGen := some 0 }
    let w0 : WindowWrite := { off := 0xC00008, width := 8, val := 1 }
    let moving := froz.modVTile 0 fun v => { v with amber := true }
    let waiting : State := { moving with windowHeld := [w0] }
    let passed : State := { froz with windowHeld := [w0] }
    let empty : State := { here with gangs := [], queues := [] }
    (here.phase = 4 ∧ (here.part 0).valid = true ∧ (here.part 255).valid = false ∧ 0 + 1 ≤ here.nvtile ∧ (∃ g ∈ here.gangs, g.part = 0) ∧ (∀ g ∈ here.gangs, g.part ≠ 255) ∧
      (here.part 255).ringoff = false ∧ empty.gangs = []) ∧
    ((2 - (ringed.part 0).frhead).toNat ≤ ((ringed.part 0).frtail - (ringed.part 0).frhead).toNat ∧
      ((ringed.part 0).frtail - (ringed.part 0).frhead).toNat < (3 - (ringed.part 0).frhead).toNat) ∧
    ((here.part 0).drained = false ∧ (drained.part 0).drained = true) ∧
    (inDebugWindow 0xC00000 = true ∧ inDebugWindow 0xC00000000 = false ∧ (here.thread 0 0).st ≠ .frozen ∧ (froz.thread 0 0).st = .frozen) ∧
    (froz.trafficHeld 0 = false ∧ froz.windowHeld = [] ∧ moving.trafficHeld 0 = true ∧ waiting.windowHeld = [w0] ∧ waiting.trafficHeld (w0.off / 0x1000000) = true ∧
      passed.windowHeld = [w0] ∧ passed.trafficHeld (w0.off / 0x1000000) = false) ∧
    ((here.part 0).sampctl = 0 ∧ (sampled.part (sampled.partNum (sampled.thread 0 0))).sampctl = 1 ∧ (sampled.core 0 0).sampleClk + 2 ^ 24 ≤ sampled.clk ∧
      (sampled.thread 0 0).st = .run ∧ (sampled.thread 0 1).st = .free ∧ (sampled.thread 0 2).st = .free ∧ (sampled.thread 0 3).st = .free) ∧
    (froz.stallCode (me froz) = 0 ∧ asleep.stallCode (me asleep) = 2 ∧ sig.stallCode (me sig) = 4 ∧ bar.stallCode (me bar) = 3 ∧ stalled.asleep (me stalled) = false ∧
      (me stalled).wait = .stall 5) := by
  decide +kernel

theorem witness_PortsOutside :
    let ring (f : PortRing → PortRing) := (here.modPort 3 fun p => { p with up := true }).modPort 3 fun p => p.modRing 1 f
    let cfg : Word := 0x8000000000000004
    let on := ring fun r => { r with cfg := cfg, tail := 1, base := 0x20000 }
    let far := ring fun r => { r with cfg := cfg, tail := 1, base := 0x100000000000 }
    let desc : List Word := [0x20000, 0, 4, 0, 0, 0, 0, 0]
    let good : State := { on with hbm := on.hbm.write 0x20000 24 (0x20000 + 4 * 2 ^ 128) }
    let run := ring fun r => { r with cfg := cfg, tail := 1, base := 0x20000, desc := some (List.replicate 8 0) }
    let down (n : Nat) : State := { (run.modPort 3 fun p => { p with up := false }) with clk := n }
    let paired := here.modPort 3 fun p => { p with up := true, pairings := [(0, 0x8000000000000000)] }
    let fw (n : Nat) (bad : Bool) : State := { here with fw := { here.fw with busy := n, storeBad := bad, window := [(0, 7)] } }
    let att : State := { here with att := { here.att with busy := true } }
    let hot (n : Nat) := here.modStack 5 fun x => { x with step := n }
    here.phase = 4 ∧ here.hbmBad = [] ∧ (here.port 3).up = false ∧ (on.port 3).up = true ∧
    (cfg.toNat % 16 = 4 ∧ (here.part 0).valid = true ∧ cfg.getLsbD 63 = true ∧ (((on.port 3).ring 1).cfg).getLsbD 63 = true ∧ ((here.port 3).ring 1).cfg.getLsbD 63 = false) ∧
    -- The ring's doorbell with TAIL 1, HEAD 0 and 16 slots: again, ahead, beyond.
    ((1 - (1 : BitVec 32)).toNat = 0 ∧ (16 - (1 : BitVec 32)).toNat < 2 ^ 31 ∧ (16 - (0 : BitVec 32)).toNat ≤ 2 ^ 4 ∧ 2 ^ 4 < (17 - (0 : BitVec 32)).toNat) ∧
    (((on.port 3).ring 1).head ≠ ((on.port 3).ring 1).tail ∧ ((on.port 3).ring 1).desc = none ∧ ((run.port 3).ring 1).desc ≠ none ∧ ((down 0).port 3).up = false ∧
      (down 0).clk < ((down 0).port 3).downClk + 1750000000 ∧ ((down 1750000000).port 3).downClk + 1750000000 ≤ (down 1750000000).clk) ∧
    (match far.readPage (.panel 0) (needPlain false) 0x100000000000 64 with | .ok _ => false | .error _ => true) = true ∧
    (match on.readPage (.panel 0) (needPlain false) 0x20000 64 with | .ok l => bytesWords 8 l == List.replicate 8 0 | .error _ => false) = true ∧
    (match good.readPage (.panel 0) (needPlain false) 0x20000 64 with | .ok l => bytesWords 8 l == desc | .error _ => false) = true ∧
    descriptorOk desc = true ∧ descriptorOk [0x20000, 0, 3, 0, 0, 0, 0, 0] = false ∧ good.checkVirt (.panel 0) (needPlain false) 0x20000 4 = none ∧
    good.checkVirt (.panel 0) (needPlain false) 0x100000000000 4 ≠ none ∧
    ((paired.port 3).pairings ≠ [] ∧ (paired.port 3).peer.toNat = 0 ∧ paired.checkVirt (.panel (paired.part 0).asid) (needPlain true) 0x20000 16 = none ∧ (here.port 3).pairings = []) ∧
    (here.fw.busy = 0 ∧ here.att.busy = false ∧ att.att.busy = true ∧ here.fwMeasure.length = 6) ∧
    (∀ n ∈ [1, 2], ∀ b ∈ [false, true], (fw n b).fw.busy = n ∧ (fw n b).fw.storeBad = b ∧ (fw n b).fw.window.find? (fun y => y.1 == 0) = some (0, 7)) ∧
    (∀ n ∈ [0, 1, 2, 3, 4], ((hot n).stack 5).step = n) := by
  decide +kernel

theorem witness_DeviceReset :
    let slots (a b : Option Nat) (n : Nat) : State := { here with fwRollback := BitVec.ofNat 32 n, fw := { here.fw with slots := [{ version := a, length := 0, chunks := [] }, { version := b, length := 0, chunks := [] }] } }
    let aged (n : Nat) : Ageing := { Ageing.zero with scrm := n }
    let snaps : State := { here with snapshots := [{ valid := true, words := [(3, aged 7)] }, { valid := false, words := [(3, aged 9)] }] }
    here.kept.bootSlot [] = some 0 ∧ (slots (some 4) (some 5) 0).kept.bootSlot [] = some 1 ∧ (slots (some 4) (some 5) 0).kept.bootSlot [1] = some 0 ∧
    (slots (some 4) none 0).kept.bootSlot [] = some 0 ∧ (slots (some 4) (some 5) 6).kept.bootSlot [] = none ∧ (slots (some 4) (some 5) 0).kept.bootSlot [0, 1] = none ∧
    BootReport.good.code = 0 ∧ (snaps.ageingOf 3).scrm = 7 ∧
    snaps.snapshots = [] ++ { valid := true, words := [(3, aged 7)] } :: [{ valid := false, words := [(3, aged 9)] }] := by
  decide +kernel

/-- The bundle of `nop`s at the placed thread's PC. -/
def nops : Bundle := { addr := 0x10000, bytes := List.replicate 32 0, fault := none, ahead := false }

/-- The device with two threads of a core, each with a `nop` at hand. -/
def twoHeads : State :=
  (here.putThread { placedThread 0 1 with st := .run, fbuf := [nops], headClk := 5 }).modThread 0 0 fun t => { t with fbuf := [nops] }

/-- A sequencer whose body is one `nop`, run once. -/
def bodyState (q : Option QReg) (tested : Bool) : RepState :=
  { body := [{ ins := .nop, addr := 0x10000, len := 8, words := (0, 0) }], count := 1, iter := 0, idx := 0, tested := tested, wbase := 0, wsize := 0, rot := 0, stream := q,
    sregs := .replicate 64 0 }

theorem witness_IssueOrder :
    let pend := thr fun t => { t with pend := true }
    let hurt := thr fun t => { t with asyncF := some { cause := .poison } }
    let rep := thr fun t => { t with rep := some (bodyState none false) }
    let poor := here.modGang 1 fun g => { g with task := plainTask }
    let off := thr fun t => { t with p := t.p.set 1 0 }
    let froz := thr fun t => { t with st := .frozen }
    (here.curThread? = some (me here) ∧ (Instr.halt al).enc.isSome = true ∧ (me here).st = .run ∧ (me here).pend = false ∧ (me here).asyncF = none ∧ here.cur.body = false) ∧
    ((me froz).st = .frozen ∧ froz.curThread? = some (me froz)) ∧
    ((me pend).pend = true ∧ (formOf .nop).wins = false ∧ (formOf (.halt al)).wins = true ∧ pend.curThread? = some (me pend)) ∧
    ((me hurt).asyncF ≠ none ∧ hurt.curThread? = some (me hurt)) ∧
    ((me rep).rep.isSome = true ∧ (formOf (.trap al 7 42)).free = false ∧ rep.curThread? = some (me rep)) ∧
    ((formOf (.trap al 7 42)).cap = none ∧ (formOf (.scrRun al true 5 4 6)).cap = some 3 ∧ poor.hasCap (me poor) 3 = false ∧ here.hasCap (me here) 3 = true) ∧
    ((formOf (.addImm { reg := 1, neg := false } .wrap 14 11 6)).lane = false ∧ ((me off).predMask { reg := 1, neg := false }).getLsbD 0 = false) ∧
    ((here.heads 0 0 false).length ≤ 1 ∧ 1 < (twoHeads.heads 0 0 false).length ∧ (me twoHeads, false) ∈ twoHeads.heads 0 0 false ∧
      (twoHeads.thread 0 1, false) ∈ twoHeads.heads 0 0 false ∧ twoHeads.headReady (me twoHeads, false) = true) := by
  decide +kernel

/-- A bundle of one instruction and `nop`s. -/
noncomputable def bundleWith (i : Instr) : Bundle :=
  { nops with bytes := (((encode i).flatMap fun w => natBytes 4 (BitVec.toNat w)) ++ List.replicate 32 0).take 32 }

/-- A head that only waits, beside a `nop` that can issue (08 R151, 13 R277). -/
noncomputable def waitingHead : State := twoHeads.modThread 0 0 fun t => { t with fbuf := [bundleWith (.sigTake al false 5)] }

theorem witness_PortOfWaitingHead :
    1 < (waitingHead.heads 0 0 false).length ∧ (me waitingHead, false) ∈ waitingHead.heads 0 0 false ∧
    waitingHead.headReady (me waitingHead, false) = false ∧ waitingHead.headReady (waitingHead.thread 0 1, false) = true ∧
    waitingHead.portPick 0 0 false = (0, false) ∧ waitingHead.portPick 0 1 false = (1, false) := by
  decide +kernel

/-- Two lanes of a vector store on their way. -/
def storing : State := thr fun t => { t with lanes := [.store 0 7, .store 4 9] }

theorem witness_LandingLanes :
    (me storing).lanes = .store 0 7 :: [.store 4 9] ∧ ((thr fun t => { t with lanes := [.load 8 3 5] }).thread 0 0).lanes = ([5] : List (Fin 32)).map (fun i => .load 8 3 i) ∧ (∀ u ∈ here.threads, u.lanes = []) ∧ ((0 : Nat), (1 : Nat)) ≠ (0, 0) ∧
    ({ storing with agenda := [.lane 0 0] } : State).agenda = .lane 0 0 :: [] := by
  decide +kernel

-- 09 R188, 12 R246: a lane of a load reads at its own place in the core's order, here after another thread's store.
theorem test_lane_reads :
    let s := (cor fun c => c.store 8 [1, 2, 3, 4]).modThread 0 0 fun t => { t with lanes := [.load 8 3 5] }
    let u := (s.landLane 0 0).thread 0 0
    ((u.v[(3 : VReg)])[(5 : Fin 32)], u.lanes) = (0x04030201, []) := by
  decide +kernel

-- 09 R188: lanes store in ascending order, and another thread can find part of them.
theorem test_lane_lands :
    let one := storing.landLane 0 0
    ((one.core 0 0).ls.byte 0, (one.core 0 0).ls.byte 4, (storing.landAll.core 0 0).ls.byte 4) = (7, (here.core 0 0).ls.byte 4, 9) := by
  decide +kernel

theorem witness_QueueCommandBusy :
    let busy (q0 : Word) : State := { here with qcmd := { here.qcmd with q0 := q0, busy := true } }
    here.phase = 4 ∧ here.qcmd.busy = false ∧ (busy 0).qcmd.busy = true ∧ (1 : Word).getLsbD 0 = true ∧ (2 : Word).getLsbD 0 = false ∧
    (∀ n ∈ [1, 2, 3, 4, 5], (busy (w64 (n * 2 ^ 16))).qcmd.q0.toNat / 2 ^ 16 % 16 = n) ∧ (busy 0).qcmd.src = .host := by
  decide +kernel

theorem witness_PreemptOn :
    let amber := here.modVTile 0 fun v => { v with amber := true }
    let fresh (s : State) := s.modGang 1 fun g => { g with released := false }
    (∀ s ∈ [here, amber, fresh here, fresh amber], (s.gang? 1).map (fun g => (g.tile? 0).isSome) = some true) ∧
    ((here.gang? 1).map (·.released) = some true ∧ here.isAmber 0 = false ∧ (here.vtile? 0).any (·.backed) = true ∧ amber.isAmber 0 = true) ∧
    (((fresh here).gang? 1).map (fun g => (g.released, (g.tiles.map (·.vt)).filter (fresh here).isAmber)) = some (false, []) ∧
      ((fresh amber).gang? 1).map (fun g => (g.released, (g.tiles.map (·.vt)).filter (fresh amber).isAmber)) = some (false, [0])) ∧
    ({ here with heldPre := [(1, 0)] } : State).heldPre = [(1, 0)] := by
  decide +kernel

theorem witness_ReservingDisplaces :
    let src : TaskSrc := { task := placedTask, parent := none, bics := [], bmcs := [], debitI := 0, debitM := 0, resv := none, leftI := 0, leftM := 0 }
    let r : Staged := { src := src, st := .ready 0, reserving := true, gang := none }
    let s := here.modQueue 3 fun q => { q with state := .opened, part := 0, staged := some r }
    (s.queue 3).staged = some r ∧ r.reserving = true ∧ s.toDisplace (s.queue 3) r = [(1, 0)] := by
  decide +kernel

theorem witness_RecoveryRuns :
    let run := here.modPart 0 fun p => { p with drained := true, resetting := true }
    here.phase = 4 ∧ (here.part 0).resetting = false ∧ (here.part 0).drained = false ∧ (run.part 0).resetting = true ∧ (∃ g ∈ run.gangs, g.part = 0) ∧
    ({ run with gangs := [] } : State).gangs = [] := by
  refine ⟨?_, ?_, ?_, ?_, ?_, ?_⟩ <;> decide +kernel

theorem witness_BootPhases :
    let at' (n c : Nat) (bad : List Nat) : State := { here with phase := n, agenda := [], bootReport := { BootReport.good with code := c, sigBad := bad } }
    let slots : FwSlot := { version := some 4, length := 0, chunks := [] }
    let none' : State := { at' 1 0 [0, 1] with fw := { here.fw with slots := [slots, slots] } }
    (∀ n ∈ [0, 1, 2, 3], (at' n 0 []).phase = n ∧ (at' n 0 []).phase < 4) ∧ (at' 1 5 []).bootReport.code = 5 ∧ (at' 2 3 []).bootReport.code = 3 ∧
    (at' 2 4 []).bootReport.code = 4 ∧ none'.bootSlot none'.bootReport.sigBad = none ∧ (at' 3 0 []).bootSlot [] = some 0 ∧ 4 ≤ here.phase ∧
    (∀ x ∈ here.snapshots, x.valid = false) := by
  decide +kernel

theorem witness_JoinsNext :
    let waits : Thread := { placedThread 0 1 with st := .run, wait := .step, stepArr := some .part, stepSeq := 0 }
    let gang (n : Nat) (r : Nat) : Gang := { placedGang 0 0 with id := n, relSeq := r, task := plainTask }
    let s (r : Nat) : State := { here.putThread { waits with gang := 2 } with gangs := [gang 1 r, gang 2 0] }
    (∀ r ∈ [0, 1], (s r).hasCap (me (s r)) 2 = false ∧ ((s r).gangOf (me (s r))).map (·.relSeq) = some r) ∧ (s 1).joinsNext (me (s 1)) .part = true ∧
    (s 0).joinsNext (me (s 0)) .part = false ∧ (s 1).firstArrival 0 = some 0 ∧ here.firstArrival 0 = none ∧ here.hasCap (me here) 2 = true := by
  decide +kernel

theorem witness_HeldTraffic :
    let s := here.modVTile 0 fun v => { v with amber := true }
    s.trafficHeld 0 = true ∧ here.trafficHeld 0 = false ∧ here.trafficHeld (partnerOf 0) = false := by
  decide +kernel

theorem witness_VacantSlots :
    let test : CoreTest := { id := 1, vt := 0, mask := [2], full := false, cmd := 1, byVt := 0, byCs := 0, decided := some 2, fails := [2] }
    let s : State := { here with tests := [test], updates := [{ change := .vacant 0 [2], noVote := [] }] }
    (s.vacating 0 = [2] ∧ here.vacating 0 = []) ∧ (s.tests.filter fun y => y.decided.isSome && s.ptileOf y.vt == 0) = [test] ∧ test.decided = some 2 ∧
    ((s.vtile? 0).map fun v => (v.backed, v.ptile)) = some (true, 0) ∧ (s.update? 8192).isSome = true ∧ s.rotation? 8192 = none ∧
    (s.votesIn 0 [] = true ∧ s.replayFirst = false) ∧ (s.tests.find? fun y => y.id == 1 && y.decided.isNone) = none := by
  decide +kernel

-- 17 R344, 01 R23: the slot of a failed core is vacant at the commit, not before.
theorem test_vacant_slot :
    let test : CoreTest := { id := 1, vt := 0, mask := [2], full := false, cmd := 1, byVt := 0, byCs := 0 }
    let s1 : State := match exec (.scrTestComplete 1 4 0) { here with tests := [test] } with | .next s => s | _ => here
    let s2 : State := match exec (.tableUpdateCommit 8192) s1 with | .next s => s | _ => here
    ((s1.vtile? 0).map (fun v => nth v.slots 2 none), (s1.ptile? 0).map (fun p => p.cores.contains 2), (s2.vtile? 0).map (fun v => nth v.slots 2 none)) =
      (some (some 2), some false, some none) := by
  decide +kernel

theorem witness_RotationAgain :
    let again : State := { rotating .remap false 0 with rotations := (rotating .remap false 0).rotations.map fun r => { r with again := true } }
    let drains : List Rotation := List.replicate 8 { vt := 7, source := 9, target := 9, st := .drain, forced := false, isReplay := false, preempted := false, since := 0, noVote := [], counter := 0, events := 0 }
    let full : State := { again with rotations := again.rotations ++ drains }
    ((again.rotation? 0).map fun r => (r.st, r.again)) = some (.remap, true) ∧ again.copying < 8 ∧ 8 ≤ full.copying ∧
    ((full.rotation? 0).map (·.again)) = some true := by
  decide +kernel

theorem witness_RetireFrame :
    let grace := thr fun t => { t with ingrace := true }
    (here.curThread? = some (me here) ∧ (me here).inWaiter = false ∧ here.cur.body = false ∧ (me here).ingrace = false ∧ 1 ≤ (me here).bic ∧ 64 ≤ (me here).bmc) ∧
    (grace.curThread? = some (me grace) ∧ (me grace).ingrace = true ∧ 1 + (64 + 63) / 64 ≤ (me grace).grace) ∧
    ({ here with cur := { here.cur with body := true } } : State).curThread? = some (me here) ∧
    ((me here).st = .run ∧ (me here).node = none ∧ (here.part (here.partNum (me here))).supv = none) := by
  decide +kernel

theorem witness_FreezePacket :
    let quiet := here.modGang 1 fun g => { g with task := g.task.set 10 (w64 (1 + 2 ^ 16 + 2 ^ 21)) }
    let ring := quiet.modPart 0 fun p => { p with frsize := 16 }
    let full := ring.modPart 0 fun p => { p with frtail := 16 }
    let halted := thr fun t => { t with st := .halted }
    ((me here).st = .run ∧ (me here).node = none ∧ here.thread? 0 0 = some (me here) ∧ (here.gangOf (me here)).isSome = true ∧ (me halted).st ≠ .run) ∧
    (here.hasCap (me here) 2 = true ∧ quiet.hasCap (me quiet) 2 = false ∧ (quiet.part 0).frsize = 0) ∧
    ((ring.part 0).frsize ≠ 0 ∧ (ring.part 0).ringoff = false ∧ (ring.part 0).lostMark = false ∧ ((ring.part 0).frtail - (ring.part 0).frhead).toNat ≠ 16 ∧
      ((full.part 0).frtail - (full.part 0).frhead).toNat = (full.part 0).frsize) ∧
    (match ring.writePage (.panel 0) (needPlain true) 0 (wordsBytes (List.replicate 8 0)) with | .ok _ => true | .error _ => false) = true ∧ (me here).pktHeld = none := by
  decide +kernel

theorem witness_StepRunsDecoded :
    let s := State.reset.withFetchWord 64 0x10
    let s0 : State := { s with agenda := [] }
    let split : Bundle := { addr := 0x10000, bytes := List.replicate 28 0 ++ [0x10, 0, 0, 0], fault := none, ahead := false }
    let seq (q : Option QReg) (tested : Bool) (l : List QEntry) := thr fun t => { t with rep := some (bodyState q tested), q := t.q.set 2 l }
    let test (s : State) : Nat := match (me s).seqTest with | .ready => 0 | .wait => 1 | .ended _ => 2 | .passed _ => 3
    let asked := thr fun t => { t with freq := some { addr := 0x10000, age := 0 } }
    s.agenda = [.issue 0 0] ∧ s0.portPick 0 0 false = (0, false) ∧ s0.issues 0 0 = true ∧ ((s.thread 0 0).buffered 0x10000).map (·.fault) = some none ∧
    (((s.thread 0 0).buffered 0x10000).map fun b => decide (decodeAt b.bytes 0 = .ok (.halt al) 8)) = some true ∧ here.issues 0 1 = false ∧
    (me here).buffered 0x10000 = none ∧ decodeAt split.bytes 28 = .fetchSplit ∧
    (match decodeAt (natBytes 32 0x3FC) 0 with | .illegal _ _ => true | _ => false) = true ∧
    (∀ l ∈ [[QEntry.val 1], [], [.eos]], (seq (some 2) false l).portPick 0 0 true = (0, true) ∧ (seq (some 2) false l).issues 0 0 = true) ∧
    (test (seq none true []) = 0 ∧ ((me (seq none true [])).bodyInstr.map (·.len)) = some 8 ∧ test (seq (some 2) false []) = 1 ∧ test (seq (some 2) false [.eos]) = 2 ∧
      test (seq (some 2) false [.val 1]) = 3) ∧
    (asked.nextServed 0 = some (me asked) ∧ (me asked).freq = some { addr := 0x10000, age := 0 }) ∧
    here.translate (.panel 0) 0x10000 needFetch = .ok { pa := 0x10000, ms := false, io := false, w := true, x := true } ∧
    (∀ k ∈ here.hbmStacks, k.step < 2) := by
  decide +kernel

theorem witness_CopyIssueStops :
    let many := copying (List.replicate 64 copy0)
    let handle (h : Handle) := thr fun t => t.setH (some 4) h
    let mapped := stashed fun e => { e with lbase := 0, gbase := 0x20000 }
    let out : TidEntry := { demoEnt 4 with base := 0x70000 }
    let glob : TidEntry := { demoEnt 4 with global := true, base := 0x20000 }
    let win := (windowOf 0 0 0 0 1 1).filter (demoEnt 4).has
    let i (k : Nat) : Nat × Nat := ((demoEnt k).base, 4)
    (∀ n ∈ [12, 16], ready many (Form.blocked n al) = true) ∧ ¬ (many.copyWaiting 0 < 64) ∧
    (∀ h ∈ [Handle.pending 1 false, .complete .fault 7 .copy 3], ready (handle h) (Form.blocked 12 al) = true ∧ ready (handle h) (Form.blocked 16 al) = true ∧
      (me (handle h)).h[(4 : HReg)] = h) ∧
    ((2 : Word).toNat % 4 ≠ 0 ∧ here.reaches 1 0 0 0x6FFFC 4 = true ∧ here.reaches 1 0 0 0x70000 4 = false ∧ (here.tileOf (me here)).map (·.cmask) = some [0] ∧
      ((List.range 16).filter fun i => (3 : BitVec 16).getLsbD i) = [0, 1]) ∧
    -- The slot and the global range that an entry meets, and those it leaves.
    (ready mapped (Form.blocked 12 al) = true ∧ ((mapped.core 0 0).stash.find? fun e => e.meets 0xFC 4).map (·.num) = some 3 ∧
      ((mapped.core 0 0).stash.find? fun e => e.owner == 0 && e.meetsGlobal 0x200FC 4).map (·.num) = some 3 ∧
      (∀ e ∈ (mapped.core 0 0).stash, e.meets 0x100 4 = false ∧ e.meetsGlobal 0x20100 4 = false)) ∧
    -- `cp.cvt`: spans of a local and of a global tensor.
    ((out.copyReach win).map (fun r => demo.reaches 1 0 0 r.1 r.2) = [false] ∧ (glob.copyReach win).length = 1 ∧ (demoEnt 4).copyReach win = [i 4] ∧
      (demoEnt 4).copyWrites win = [i 4] ∧ demo.reaches 1 0 0 (i 4).1 (i 4).2 = true ∧ (demo.core 0 0).stash = []) := by
  refine ⟨?_, ?_, ?_, ?_, ?_, ?_⟩ <;> decide +kernel

theorem witness_CvtPlaces :
    let sp : Space := .onTile 0 0
    let e4 := demoEnt 4
    let e7 := demoEnt 7
    let glob (a : Nat) : TidEntry := { e7 with global := true, base := a }
    let far (a b : TidEntry) : Bool := (demo.tensorPlaces sp false a [(a.base, 4)]).all fun y => (demo.tensorPlaces sp true b [(b.base, 4)]).all fun z =>
      !(y.1 < z.1 + z.2 && z.1 < y.1 + y.2)
    far e4 e7 = true ∧ far (glob 0x20000) (glob 0x21000) = true ∧ far (glob 0x20000) (glob 0x20002) = false ∧ far e4 e4 = false := by decide +kernel

/-- The device whose thread holds a store into a debug region, and one whose core has queued a remote store, both for a tile that is AMBER. -/
def outbound : State := { paired with vtiles := paired.vtiles.map fun v => if v.vt == 1 then { v with amber := true } else v, rotations :=
  [{ vt := 1, source := 1, target := 2, st := .copy, forced := false, isReplay := false, preempted := false, since := 0, noVote := [], counter := 0, events := 0 }] }

theorem witness_TrafficHeld :
    let f : Form := { Form.blocked 16 Pred.always with wins := true }
    let io := outbound.modThread 0 0 fun t => { t with ioHeld := [{ va := 0x1000, off := 0x1C00008, width := 8, val := 0 }], stepArr := some .dom, wait := .step }
    let far := (outbound.modVTile 1 fun v => { v with ranks := (List.range 16).map fun i => some (16 + i) }).modCore 0 0 fun c =>
      { c with remoteQ := [{ slot := 0, gang := 1, srank := 0, trank := 16, addr := 0, width := 4, val := 0 }] }
    let grace := outbound.modThread 0 0 fun t => { t with ingrace := true, ioHeld := [{ va := 0x1000, off := 0x1C00008, width := 8, val := 0 }] }
    let halted := io.modThread 0 0 fun t => { t with st := .halted }
    let copies := (copying [{ copy0 with running := true }]).modThread 0 0 fun t => { t with ingrace := true }
    let filling := (stashed fun e => { e with st := .draining }).modThread 0 0 fun t => { t with ingrace := true }
    (io.heldFrom 1 (0x1C00008 / 0x1000000) = true ∧ 0x1C00008 < blockBase ∧ (me io).ioHeld ≠ [] ∧ io.holdsUp (me io) = true ∧
      (∀ g ∈ io.gangs, io.participants .dom g 0 = [me io]) ∧ here.outHeld (me here) = false) ∧
    (far.rankPlace 16 = some (1, 0) ∧ far.heldFrom 1 1 = true ∧ (far.core 0 0).remoteQ ≠ [] ∧ far.outHeld (me far) = true) ∧
    (ready grace f = true ∧ (me grace).ingrace = true ∧ grace.outHeld (me grace) = true ∧ ready copies f = true ∧ copies.copyBusy (me copies) = true ∧
      ready filling f = true ∧ filling.stashBusy (me filling) = true) ∧
    ((halted.gangThreads 1).map (fun t => halted.outHeld t) = [true] ∧ (halted.gangs.map halted.retires) = [true]) := by
  decide +kernel

theorem witness_BudgetsLoaded :
    let saved (n : Nat) : SavedThread := { head := n * 2 ^ 64 + n * 2 ^ 128, at' := 0 }
    let lands := here.modQueue 7 fun q => { q with state := .opened }
    let x : Spawned := { vt := 0, slot := 0, gang := 1, qid := 7, task := placedTask }
    (recBic placedTask < 2 ^ 48 ∧ recBmc placedTask < 2 ^ 48 ∧ (saved 5).head / 2 ^ 64 % 2 ^ 64 = 5 ∧ (saved (2 ^ 48)).head / 2 ^ 128 % 2 ^ 64 = 2 ^ 48) ∧
    ((lands.queue x.qid).state = .opened ∧ ((lands.modQueue x.qid fun q => { q with inflight := q.inflight + 1 }).queue x.qid).state = .opened) := by
  decide +kernel

theorem witness_LeaseMoved :
    let active (m : List Nat) (refreeze : Bool) : State := { here.modGang 1 fun g => { g with lease := { g.lease with st := .active, level := 1, remain := 5 }, moved := m } with
      zones := [{ num := 0, melt := 0, refreeze := refreeze }] }
    let zs (s : State) (g : Gang) : List Nat := ((g.leaseTiles.filter fun v => g.moved.contains v).map s.zoneOf).eraseDups
    (∀ g ∈ (active [] false).gangs, zs (active [] false) g = []) ∧
    (∀ g ∈ (active [0] false).gangs, zs (active [0] false) g = [0] ∧ (active [0] false).leaseZones g = [0] ∧ (active [0] false).leaseCheck g g.lease.remain = none ∧ g.lease.st = .active) ∧
    (∀ g ∈ (active [0] true).gangs, zs (active [0] true) g = [0] ∧ ((active [0] true).zone 0).refreeze = true) := by decide +kernel

theorem witness_RestartSpare :
    let froz := pair'.modThread 0 4 fun t => { t with st := .frozen }
    let good : State := { froz with ckpts := [{ Ckpt.fresh 0 with gangs := [(2, 0)] }], tiles := froz.tiles ++ [{ placedPTile with num := 1 }] }
    let fs : Form := { Form.blocked 8 al with cap := some 2 }
    (good.vtile? 0).any (fun v => v.backed) = true ∧ good.unbacking 0 = false ∧ (good.takeSpare 0).isSome = true ∧ ready good fs = true ∧
    ((good.finish fs ((me good).issuePc false) (.done (good.modCur fun v => v.setS 4 0) 1 0)).takeSpare 0).map (·.2) = some 1 := by decide +kernel

theorem witness_Residues :
    let a := Acc.fresh
    a.words.length = 256 ∧ a.res.length = 256 ∧ a.broken = [] ∧ ({ a with words := a.words.set 7 2 } : Acc).broken = [7] ∧ ({ a with words := a.words.set 7 3 } : Acc).broken = [] ∧
    ({ a with words := a.words.set 7 2 }.put [(7, 5)]).broken = [] := by decide +kernel

theorem witness_PlacesTaken :
    let muteT : State := { spares with tiles := ({ placedPTile with votes := false } : PTile) :: spares.tiles.tail }
    let eight (st : RotState) : State := { muteT with rotations := List.replicate 8 { vt := 7, source := 9, target := 9, st := st, forced := false, isReplay := false, preempted := false, since := 0, noVote := [], counter := 0, events := 0 } }
    (muteT.ptile? 0).map (·.votes) = some false ∧ (eight .remap).placesTaken 0 = false ∧ (eight .copy).placesTaken 0 = true ∧ (eight .remap).moving = 8 := by decide +kernel

theorem witness_Mate :
    let mated : State := { (binding.modQueue 9 fun q => { q with cls := 12 }) with queues :=
      (binding.modQueue 9 fun q => { q with cls := 12 }).queues ++ [{ binding.queue 9 with qid := 4, cls := 3 }] }
    mated.mateAt (mated.queue 9) placedTask 0 1 = some 4 := by decide +kernel

theorem witness_BlockFormats :
    let w (n : Nat) (v : FVal) : ElemWrite := { idx := { i0 := n, i1 := 0, i2 := 0, i3 := 0 }, val := v, draw := 0 }
    let l := [w 0 (.fin false 3 0 false), w 1 (.fin true 5 (-2) false)]
    let pos (y : ElemWrite) : Nat := y.idx.i0
    let e (fmt : Nat) : TidEntry := { demoEnt 4 with fmt := fmt, sbase := 0x50000, srow := 32 }
    let rd (a : Nat) : Nat := a % 256
    -- M is 1; the exact shapes of an E2M1 block and of a QX4 block.
    ((w 0 (.fin false 3 0 false)).val.log2? = some 1 ∧ (w 1 (.fin true 5 (-2) false)).val.log2? = some 0 ∧ (w 0 (.inf true)).val.isInf = true ∧ (w 0 (.fin true 0 0 false)).val.log2? = none) ∧
    ((decodeF e2m1 7).shift (127 - 127) = .fin false 3 1 false ∧ (decodeF e2m1 7).isNan = false ∧ (decodeF e2m1 7).isInf = false ∧ floatFmt (13 - 5) = some e2m1) ∧
    ((12 : Nat) < 2 ^ qxK 16 ∧ ((128 : Int) - 127 - 0 - (qxK 16 - 1 : Nat)) = -2 ∧ (encodeQx 16 .rne pos l).scale = 128 ∧
      (0 : Int) + 127 + nth (encodeQx 16 .rne pos l).sh 0 0 + (qxK 16 - 1 : Nat) - 128 = 2 ∧ (-5 : Int) + 127 + 0 + (qxK 16 - 1 : Nat) - 128 = -((3 : Nat) : Int)) ∧
    ((encodeF fp16 .rne false 0 (fdiv (maxMag l).abs (.ofInt 7)).1).1 ≠ 0 ∧ (encodeF fp16 .rne false 0 (fdiv (maxMag [w 0 (.fin true 0 0 false)]).abs (.ofInt 7)).1).1 = 0) ∧
    -- The bytes of a stream.
    ((nibbleBytes (streamNibbles none [128, 130])).length = 2 ∧ nibbleBytes (streamNibbles none [128, 130]) = [0x08, 0x28]) ∧
    -- Packed blocks: their scales, of every class, and the places of a block that is written.
    ((∀ f ∈ [9, 14, 30, 15, 18], (e f).planes = false ∧ (e f).saxis = false) ∧ rd (0x50000 + 32 * 255) = 224 ∧ (∀ a, rd a < 256) ∧
      decodeF fp16 0x3C00 = .fin false 1024 (-10) false ∧ decodeF fp16 0x7C00 = .inf false ∧ (decodeF fp16 0x7E00).isNan = true ∧
      (match (e 18).stream (fun a => if a = 0x50000 then 8 else if a = 0x50001 then 8 else 0) 0 0 with | .ok E _ => E == 128 | .bad _ => false) = true ∧
      (match (e 18).stream rd 0 0 with | .ok _ _ => false | .bad _ => true) = true) ∧
    ((l.map fun y => y.idx.i0) = [0, 1] ∧ (∀ y ∈ l, y.kept = none ∧ y.idx.i0 / 32 = 0 ∧ y.idx.i0 < (e 9).d0) ∧
      (∀ f ∈ [9, 30, 15], (e f).row { i0 := 0, i1 := 0, i2 := 0, i3 := 0 } + (e f).rowBytes ≤ (e f).scaleAt 0 0) ∧ isMx 9 = true ∧ isGs 30 = true ∧ isQxPlain 15 = true) := by
  refine ⟨?_, ?_, ?_, ?_, ?_, ⟨?_, ?_, ?_, ?_, ?_, ?_, ?_, ?_⟩, ?_⟩
  rotate_left 7
  · intro a; exact Nat.mod_lt a (by decide)
  all_goals decide +kernel

theorem witness_BootTurns :
    let at' (n : Nat) : State := { here with phase := n, agenda := [] }
    (at' 1).phase = 1 ∧ (at' 2).phase = 2 ∧ State.reset.phase = 0 ∧ (at' 3).phase = 3 ∧ State.reset.agenda = [] ∧ (State.reset.withFetchWord 64 0x10).phase = 4 := by decide +kernel

theorem witness_FetchAsked :
    let asked := thr fun t => { t with freq := some { addr := 0x10000, age := 0 } }
    let a : State := { asked with threads := asked.threads.map fun x => if x.vt == 0 && asked.issues x.vt x.slot then x.request asked.clk else x }
    (a.nextServed 0).map (·.slot) = some 0 ∧ (a.nextServed 0).map (·.freq) = some (some { addr := 0x10000, age := 0 }) ∧ (me here).buffered (bundleOf (me here).pc) = none := by
  decide +kernel

theorem witness_StashUsed :
    let e : Stash := { num := 1, owner := 0, st := .ready, lbase := 0, gbase := 0, size := 0x70000, z := 0, keep := false, evict := 0, dirty := [], ro := [], cmd := none, fillBy := none }
    let used (l : List MxCmd) := demo.modCore 0 0 fun c => { c with stash := [e], mxq := l }
    (used [demoMul]).stashUsed (me (used [demoMul])) = true ∧ (used []).stashUsed (me (used [])) = false ∧ ((used []).core 0 0).stash = [e] ∧ e.owner = (me (used [])).slot := by
  decide +kernel

theorem witness_Injection :
    let armed : MxCmd := { demoMul with inj := some 4 }
    let s := demo.modThread 0 0 fun t => { t with injarm := true }
    (armed.begins (s.core 0 0) = true ∧ (s.thread 0 armed.slot).gang = armed.gang ∧ (s.thread 0 armed.slot).injarm = true) ∧
    (mxZero0.inj = none ∧ { mxZero0 with inj := some 4 }.begins (here.core 0 0) = false) := by decide +kernel

theorem witness_RoundTrip : (Instr.halt al).wf = true ∧ (Instr.halt al).enc.isSome = true := by decide +kernel

theorem witness_MemoryFormKept :
    State.reset.memoryWf = true ∧ (match step { State.reset with agenda := [.elapse 5] } with | .next _ => true | _ => false) = true := by decide +kernel

/-! One step, against the tables and examples of the spec. -/

/-- The placed thread after an instruction. -/
def after (i : Instr) (s : State) : Option Thread :=
  match exec i s with
  | .next s => some (s.thread 0 0)
  | _ => none

/-- `s6` and FFLAGS after an instruction that reads `s4` and `s5`. -/
def scalar (i : Instr) (a b : Word) : Option (Word × BitVec 6) :=
  (after i (thr fun t => (t.setS 4 a).setS 5 b)).map fun t => (t.s[6], t.fflags)

-- The table "Borderline results" of chapter 08; SATURATE is bit 5, INVALID bit 4, DIVZERO bit 3 of FFLAGS (02 R48).
theorem test_borderline_add :
    scalar (.add al .wrap 6 4 5) 0x7FFFFFFFFFFFFFFF 1 = some (0x8000000000000000, 0) ∧
    scalar (.add al .ss 6 4 5) 0x7FFFFFFFFFFFFFFF 1 = some (0x7FFFFFFFFFFFFFFF, 0x20) ∧
    scalar (.add al .w 6 4 5) 0x7FFFFFFF 1 = some (0xFFFFFFFF80000000, 0) ∧
    scalar (.add al .wus 6 4 5) 0xFFFFFFFFFFFFFFFF 1 = some (0xFFFFFFFF, 0x20) := by decide +kernel
theorem test_borderline_sub_mul :
    scalar (.sub al .us 6 4 5) 3 5 = some (0, 0x20) ∧
    scalar (.mul al .ss 6 4 5) 0x4000000000000000 2 = some (0x7FFFFFFFFFFFFFFF, 0x20) ∧
    scalar (.mulh al .uu 6 4 5) 0xFFFFFFFFFFFFFFFF 0xFFFFFFFFFFFFFFFF = some (0xFFFFFFFFFFFFFFFE, 0) ∧
    scalar (.mulh al .ss 6 4 5) 0xFFFFFFFFFFFFFFFF 0xFFFFFFFFFFFFFFFF = some (0, 0) := by decide +kernel
theorem test_borderline_div :
    scalar (.div al false 6 4 5) 7 (-2) = some (-3, 0) ∧ scalar (.rem al false 6 4 5) (-7) 2 = some (-1, 0) ∧
    scalar (.div al false 6 4 5) 5 0 = some (-1, 8) ∧ scalar (.rem al false 6 4 5) 0 0 = some (0, 0x10) ∧
    scalar (.divU al true 6 4 5) 0x12345678FFFFFFFF 0 = some (0xFFFFFFFF, 8) ∧
    scalar (.div al false 6 4 5) 0x8000000000000000 (-1) = some (0x8000000000000000, 0) := by decide +kernel
theorem test_borderline_shift :
    scalar (.abs al true 6 4) 0x8000000000000000 0 = some (0x7FFFFFFFFFFFFFFF, 0x20) ∧ scalar (.shl al false 6 4 5) 1 65 = some (2, 0) ∧
    scalar (.sarImm al true 6 4 4) 0x80000000 0 = some (0xFFFFFFFFF8000000, 0) ∧ scalar (.rotImm al false 6 4 1) 1 0 = some (0x8000000000000000, 0) ∧
    scalar (.clz al true 6 4) 0x100000000 0 = some (0x20, 0) ∧ scalar (.ctz al false 6 4) 0 0 = some (0x40, 0) := by decide +kernel

-- 06 R108: `s0` takes no write; 06 R109: a false predicate only advances the PC by the length, for one unit.
theorem test_s0 : (after (.li al 0 5) here).map (fun t => (t.s[0], t.pc)) = some (0, 0x1000C) := by decide +kernel
theorem test_false_predicate :
    (after (.li { reg := 1, neg := false } 6 5) here).map (fun t => (t.s[6], t.pc, t.bic)) = some (0, 0x1000C, 2 ^ 40 - 1) := by decide +kernel

-- The listing `walk` of chapter 07: `loop s4` with s4 = 3 at offset 0 opens a loop whose `loop.end` stands 40 bytes on.
theorem test_loop_opens :
    (after (.loop al 4 10) (thr fun t => t.setS 4 3)).map (fun t => (t.loops, t.pc)) =
      some ([{ start := 0x10008, fin := 0x10028, count := 2 }], 0x10008) := by decide +kernel

-- 07 R143, R142: an end-of-stream mark pops as 0; a pop of an empty queue faults QUEUE and leaves the PC.
theorem test_q_pop_empty : (after (.qPop al 6 1) here).map (fun t => (t.st, t.cause, t.pc)) = some (.frozen, some .queue, 0x10000) := by decide +kernel

/-- The lanes of the example of chapter 09: 2^24 in lane 0, 1.0 in the others. -/
def oneBig : State := thr fun t => { t with v := t.v.set 2 (Vector.ofFn fun i => if i.val = 0 then 0x4B800000 else 0x3F800000) }

-- Chapter 09, "one sum, two orders": INEXACT is bit 0; each is charged 2 units.
theorem test_red_fadd :
    (after (.vRedFadd al .rne 3 2) oneBig).map (fun t => (t.v[3].toList.all (· == 0x4B80000F), t.fflags, t.bic)) = some (true, 1, 2 ^ 40 - 2) := by decide +kernel
theorem test_scan_fadd :
    (after (.vScanFadd al .rne 4 2) oneBig).map (fun t => (t.v[4].toList.all (· == 0x4B800000), t.fflags, t.bic)) = some (true, 1, 2 ^ 40 - 2) := by decide +kernel

/-- A conversion of an FP32 pattern under RNE with SATC = 0. -/
def cvt (fmt x : Nat) : Nat × BitVec 6 := encodeElem fmt .rne false 0 (decodeF fp32 x)

-- The table under 02 R44: E4M3, E5M2, FP6 E3M2, FP4 E2M1 and INT8 are codes 4, 5, 6, 8 and 21 (02 R29).
theorem test_cvt_500 : [4, 5, 6, 8, 21].map (cvt · 0x43FA0000) = [(0x7E, 5), (0x60, 1), (0x1F, 5), (0x7, 5), (0x7F, 5)] := by decide +kernel
theorem test_cvt_460 : [4, 5, 6, 8, 21].map (cvt · 0x43E60000) = [(0x7E, 1), (0x5F, 1), (0x1F, 5), (0x7, 5), (0x7F, 5)] := by decide +kernel
theorem test_cvt_470 : [4, 5, 6, 8, 21].map (cvt · 0x43EB0000) = [(0x7E, 5), (0x5F, 1), (0x1F, 5), (0x7, 5), (0x7F, 5)] := by decide +kernel
theorem test_cvt_small : [4, 5, 6, 8, 21].map (cvt · 0x3B800000) = [(0x02, 0), (0x1C, 0), (0x00, 3), (0x0, 3), (0x00, 1)] := by decide +kernel
theorem test_cvt_one_half : [4, 5, 6, 8, 21].map (cvt · 0x3FC00000) = [(0x3C, 0), (0x3E, 0), (0x0E, 0), (0x3, 0), (0x02, 1)] := by decide +kernel
theorem test_cvt_infinite : [4, 5, 6, 8, 21].map (cvt · 0xFF800000) = [(0xFE, 5), (0xFC, 0), (0x3F, 5), (0xF, 5), (0x80, 5)] := by decide +kernel
theorem test_cvt_nan : [4, 5, 6, 8, 21].map (cvt · 0xFFC00000) = [(0x7F, 0), (0x7E, 0), (0x3F, 0x10), (0xF, 0x10), (0x80, 0x10)] := by decide +kernel

-- Chapter 09, R186: lane 5 holds 500.0; byte 69 of v6 becomes 0x7E, with OVERFLOW and INEXACT.
theorem test_v_cvt_n :
    (after (.vCvtN al .rne .fl 6 1 4 2) (thr fun t => { t with v := t.v.set 1 (Vector.ofFn fun i => if i.val = 5 then 0x43FA0000 else 0) })).map
      (fun t => (t.v[6][17].extractLsb' 8 8, t.fflags)) = some (0x7E, 5) := by decide +kernel

-- 11 R217, R219: a store makes its words FULL, least significant byte lowest; 11 R218: a misaligned access faults ALIGN.
theorem test_st_ld :
    (match exec (.stW al none 4 5 0x40) (thr fun t => (t.setS 4 0x1000).setS 5 0x11223344) with
      | .next s => (s.core 0 0).ls.byte 0x1040 == 0x44 && (s.core 0 0).ls.byte 0x1043 == 0x11 && (s.core 0 0).full == [0x410] &&
          decide ((after (.ldHs al none 6 4 0x42) s).map (fun t => t.s[6]) = some 0x1122)
      | _ => false) = true := by decide +kernel
-- Chapter 16, "correcting a misaligned load": `ld.w s7, [s5+0x40]` with s5 = 0x1_0002.
theorem test_align :
    (match exec (.ldW al none 7 5 0x40) (thr fun t => t.setS 5 0x10002) with
      | .next s => decide ((s.thread 0 0).st = .frozen) && decide ((s.thread 0 0).cause = some .align) &&
          decide ((s.hklog.head?.map fun e => (e.data.getD 5 0, (e.data.getD 0 0).extractLsb' 8 8)) = some (0x10042, 0x06))
      | _ => false) = true := by decide +kernel

-- 11 R228: `gst.d` then `gld.w` through one leaf; 13 R270: an `at.add` at an address that is not memory-side faults TRANSLATION with subcode 5.
theorem test_gst_gld :
    (match exec (.gstD al { ord := 0, scope := 5, evict := 3 } 4 5 8) (thr fun t => (t.setS 4 0x20000).setS 5 0x1122334455667788) with
      | .next s => decide ((after (.gldW al { ord := 0, scope := 5, evict := 3 } 6 4 8) s).map (fun t => t.s[6]) = some 0x55667788)
      | _ => false) = true := by decide +kernel
theorem test_at_add_plain :
    (after (.atAdd al { ord := 0, scope := 5, evict := 3 } false 6 4 5 0) (thr fun t => t.setS 4 0x20000)).map (fun t => (t.st, t.cause)) =
      some (.frozen, some .translation) := by decide +kernel

-- Chapter 15, "a slice that runs out": with BIC = 1 and GRACE = 1 the first `v.fadd` ends the slice; a second sets PEND.
theorem test_grace :
    (after (.vFadd al .rne 8 8 9) (thr fun t => { t with bic := 1, grace := 1 })).map (fun t => (t.bic, t.grace, t.ingrace, t.gcause, t.pend)) =
      some (0, 0, true, 1, false) ∧
    (after (.vFadd al .rne 8 8 9) (thr fun t => { t with bic := 0, grace := 0, ingrace := true })).map (fun t => (t.bic, t.pend)) = some (0, true) := by decide +kernel

-- 16 R328: a `trap` freezes its thread behind itself, with its code and operand in the packet.
theorem test_trap : (after (.trap al 7 42) here).map (fun t => (t.st, t.cause, t.pc)) = some (.frozen, some .trap, 0x10008) := by decide +kernel
-- 13 R264: the only member of a barrier arrives and goes on.
theorem test_bar_wait : (after (.barWait al) here).map (fun t => (t.pc, t.barGen, t.wait)) = some (0x10008, none, .none) := by decide +kernel
-- 10 R205: the three masks.
theorem test_mx_mask : (after (.mxMaskImm al 1 3 0xFFFF) here).map (fun t => (t.mrow, t.mcol, t.mdep)) = some (1, 3, 0xFFFF) := by decide +kernel
-- 02 R42: the generator's first draw from the written zero state, by its three steps.
theorem test_draw : draws 1 0 =
    (let x : BitVec 64 := 0x9E3779B97F4A7C15
     let x := x ^^^ x <<< 13
     let x := x ^^^ x >>> 7
     let x := x ^^^ x <<< 17
     ([x.toNat / 2 ^ 48], x)) := by decide +kernel

-- The first step after reset runs the instruction that `withFetchWord` places: `li s9, 7` (08 R169).
theorem test_first_step :
    (match step (State.reset.withFetchWord 96 0x0000000700000000000900B1) with | .next s => decide ((s.thread 0 0).s[9] = 7) | _ => false) = true := by decide +kernel
theorem test_first_step_bad :
    (match step (State.reset.withFetchWord 64 0x00000000000003FC) with | .next s => decide ((s.thread 0 0).cause = some .illegal) | _ => false) = true := by decide +kernel

-- The example "one QX4 block" of chapter 02: the 23 bytes of the block and its flags.
theorem test_qx4_block :
    let e := TidEntry.parse 0 (tidBytes 16 false 0x1000 32 1 23 23 23)
    let x (i : Nat) : Nat := [0x40400000, 0xBFA00000, 0x3E800000, 0x3E400000, 0x3F000000].getD i 0
    let w := e.write (fun _ => 0) .rne false false ((List.range 32).map fun i => { idx := { i0 := i, i1 := 0, i2 := 0, i3 := 0 }, val := decodeF fp32 (x i), draw := 0 })
    e.ok true = true ∧ w.flags = 1 ∧ (∀ i < 23, (w.laid.find? fun c => c.1 == 0x1000 + i).map (·.2) =
      some (([0x80, 0xF8, 0xFF, 0xAC, 0x86, 0x80] : List Nat).getD i 0)) := by decide +kernel

/-- The elements of the example `mmdemo` (chapter 10), written through the layouts of chapter 03. -/
def demoCore : Core :=
  let put (c : Core) (n : Nat) (l : List (Nat × Nat × Nat)) : Core :=
    let e := demoEnt n
    let w := e.write c.rd .rne false false (l.map fun y => { idx := { i0 := y.1, i1 := y.2.1, i2 := 0, i3 := 0 }, val := decodeF fp32 y.2.2, draw := 0 })
    (overRuns w.laid).foldl (fun c y => c.store y.1 y.2) c
  put (put (demo.core 0 0) 2 [(0, 0, 0x4E800000), (1, 0, 0x35800000), (16, 0, 0x3F800000), (15, 0, 0x7FC00000), (31, 0, 0x7FC00000)]) 3
    [(0, 0, 0x3F800000), (0, 16, 0x3F800000), (0, 1, 0x3B000000)]

/-- The `mx.mma.z` of that example, as it is captured. -/
def demoMma : MxCmd :=
  { mxZero0 with op := .mma false true 0 (demoEnt 2) (demoEnt 3) 0 0 0 2 0 0, mrow := 1, mcol := 3, mdep := 0x7FFF }

-- Its steps 1 to 4: with rows and columns cut to those the example stores: word (0, 0) is 2^30, word (0, 1) is +0, INEXACT alone is raised.
theorem test_mmdemo :
    (match runMx demoCore demoMma 0 with
      | .ok c r => decide ((c.accum 0).words.take 2 = [0x4E800000, 0]) && decide (r.flags = 1) && decide (r.st = .ok)
      | _ => false) = true := by decide +kernel

end Sys2Proof.Tests
end

section
/-! PROOFS. Bytes outside a write, of a memory in any form: a write never reaches above itself, and one that begins with a byte that stays listed never reaches below itself. (In a memory that is not in canonical form, writing `unwritten` could uncover an entry further down the list, so the first byte matters.) -/

namespace Sys2Proof.Machine

/-- Writing a byte changes no byte above it. -/
theorem byte_put_above {a x : Nat} (h : a < x) (b : Byte) : ∀ m : Memory, (m.put a b).byte x = m.byte x
  | [] => by
    have hx : a ≠ x := by omega
    have hl : ¬ x < a := by omega
    unfold Memory.put
    split <;> simp [Memory.byte, hx, hl]
  | (k, v) :: r => by
    have hx : a ≠ x := by omega
    have hl : ¬ x < a := by omega
    unfold Memory.put
    split
    · split <;> simp [Memory.byte, hx, hl]
    · split
      · subst k
        split <;> simp [Memory.byte, hx, hl]
      · simp only [Memory.byte, byte_put_above h b r]

/-- A written byte that has to be listed is read back. -/
theorem byte_put_listed (a : Nat) {b : Byte} (h : b ≠ unwritten) : ∀ m : Memory, (m.put a b).byte a = b
  | [] => by simp [Memory.put, h, Memory.byte]
  | (k, v) :: r => by
    unfold Memory.put
    by_cases ha : a < k
    · simp [ha, h, Memory.byte]
    · by_cases hk : k = a
      · simp [hk, h, Memory.byte]
      · simp [ha, hk, Memory.byte, byte_put_listed a h r]

/-- Writing a byte that has to be listed changes no byte below it. -/
theorem byte_put_below {a x : Nat} (h : x < a) {b : Byte} (hb : b ≠ unwritten) : ∀ m : Memory, (m.put a b).byte x = m.byte x
  | [] => by
    have hx : a ≠ x := by omega
    simp [Memory.put, hb, Memory.byte, hx]
  | (k, v) :: r => by
    have hx : a ≠ x := by omega
    unfold Memory.put
    by_cases ha : a < k
    · have hk : k ≠ x := by omega
      have hl : x < k := by omega
      simp [ha, hb, Memory.byte, hx, h, hk, hl]
    · by_cases hk : k = a
      · simp [hk, hb, Memory.byte, hx, h]
      · simp only [ha, hk, if_false, Memory.byte, byte_put_below h hb r]

/-- Writing a byte changes none up to a listed byte below it. -/
theorem byte_put_upTo {p a x : Nat} (hp : p < a) (hx : x ≤ p) (b : Byte) :
    ∀ m : Memory, m.byte p ≠ unwritten → (m.put a b).byte x = m.byte x
  | [], h => absurd rfl h
  | (k, v) :: r, h => by
    have hk : k ≤ p := Nat.le_of_not_lt fun h2 => by
      have h1 : k ≠ p := by omega
      exact h (by simp [Memory.byte, h1, h2])
    have h1 : ¬ a < k := by omega
    have h2 : k ≠ a := by omega
    simp only [Memory.put, h1, h2, if_false, Memory.byte]
    by_cases hkx : k = x
    · simp [hkx]
    · by_cases hxk : x < k
      · simp [hkx, hxk]
      · have h3 : k ≠ p := by omega
        have h4 : ¬ p < k := by omega
        simp only [Memory.byte, h3, h4, if_false] at h
        simp [hkx, hxk, byte_put_upTo hp hx b r h]

/-- Writing bytes changes none above them. -/
theorem byte_putBytes_above : ∀ (l : List Byte) (m : Memory) {a x : Nat}, a + l.length ≤ x → (m.putBytes a l).byte x = m.byte x
  | [], _, _, _, _ => rfl
  | b :: l, m, a, x, h => by
    rw [List.length_cons] at h
    rw [Memory.putBytes, byte_putBytes_above l _ (by omega), byte_put_above (by omega)]

/-- Writing bytes changes none up to a listed byte below them. -/
theorem byte_putBytes_upTo {p x : Nat} (hx : x ≤ p) : ∀ (l : List Byte) (m : Memory) {a : Nat}, p < a → m.byte p ≠ unwritten →
    (m.putBytes a l).byte x = m.byte x
  | [], _, _, _, _ => rfl
  | b :: l, m, a, ha, h => by
    have hp : (m.put a b).byte p ≠ unwritten := by rwa [byte_put_upTo ha (Nat.le_refl p) b m h]
    rw [Memory.putBytes, byte_putBytes_upTo hx l _ (by omega) hp, byte_put_upTo ha hx b m h]

/-- Writing bytes of which the first has to be listed changes no other byte. -/
theorem byte_putBytes_outside (m : Memory) {a x : Nat} {b : Byte} {l : List Byte} (hb : b ≠ unwritten)
    (hx : x < a ∨ a + (b :: l).length ≤ x) : (m.putBytes a (b :: l)).byte x = m.byte x := by
  rcases hx with hx | hx
  · have h : (m.put a b).byte a ≠ unwritten := by rwa [byte_put_listed a hb m]
    rw [Memory.putBytes, byte_putBytes_upTo (by omega) l _ (Nat.lt_succ_self a) h, byte_put_below hx hb]
  · exact byte_putBytes_above _ m hx

/-! The bytes of a packet (16 R321). -/

/-- `natBytes` gives as many bytes as it is asked for. -/
theorem length_natBytes : ∀ n x : Nat, (natBytes n x).length = n
  | 0, _ => rfl
  | n + 1, x => by rw [natBytes, List.length_cons, length_natBytes n]

/-- A word has eight bytes. -/
theorem length_wordsBytes : ∀ l : List Word, (wordsBytes l).length = 8 * l.length
  | [] => rfl
  | w :: l => by rw [wordsBytes, List.length_append, length_natBytes, length_wordsBytes l, List.length_cons]; omega

/-- A packet fills a slot of the fault ring: it has eight words, and its first byte is VERSION, which is 1 (16 R321). -/
def Packet.Fills (p : Packet) : Prop := ∃ w l, p = w :: l ∧ l.length = 7 ∧ w.toNat % 256 = 1

/-- The packet that a fault forms fills a slot. -/
theorem fills_packetWords (f : FaultInfo) (flags iter : Nat) (seq : BitVec 32) (who : Word × Word) (pc : Word) (clk : Nat) :
    Packet.Fills (packetWords f flags iter seq who pc clk) := by
  refine ⟨_, _, rfl, rfl, ?_⟩
  simp only [w64, BitVec.toNat_ofNat]
  omega

/-- A packet marked LOST fills a slot. -/
theorem fills_markLost {p : Packet} (h : p.Fills) : Packet.Fills (markLost p) := by
  obtain ⟨w, l, rfl, hl, hw⟩ := h
  refine ⟨_, _, rfl, hl, ?_⟩
  have low : ∀ n : Nat, n % 256 = n % 2 ^ 8 := fun _ => rfl
  rw [BitVec.toNat_or, low, Nat.or_mod_two_pow, ← low, hw]
  rfl

/-- The bytes of a packet that fills a slot: 1 and 63 others. -/
theorem wordsBytes_of_fills {p : Packet} (h : p.Fills) : ∃ l, wordsBytes p = 1 :: l ∧ l.length = 63 := by
  obtain ⟨w, l, rfl, hl, hw⟩ := h
  have h1 : BitVec.ofNat 8 w.toNat = 1 := BitVec.eq_of_toNat_eq (by simpa using hw)
  refine ⟨natBytes 7 (w.toNat / 256) ++ wordsBytes l, ?_, ?_⟩
  · rw [wordsBytes, natBytes, h1, List.cons_append]
  · rw [List.length_append, length_natBytes, length_wordsBytes, hl]

end Sys2Proof.Machine
end

section
/-! PROOFS. The frame of a retirement, a transfer and a wait (07 R128, 15 R288): what becomes of the thread's own record, and that nothing else of the state changes but its partition's counters. -/

namespace Sys2Proof.Machine

/-! The thread's own record. -/

/-- `v` has the registers and the gang's fields of `t`. -/
def Thread.SameRegs (t v : Thread) : Prop :=
  v.s = t.s ∧ v.v = t.v ∧ v.p = t.p ∧ v.h = t.h ∧ v.q = t.q ∧ v.loops = t.loops ∧ v.fflags = t.fflags ∧
    v.rmode = t.rmode ∧ v.memctl = t.memctl ∧ v.seed = t.seed ∧ v.tidbase = t.tidbase ∧ v.mrow = t.mrow ∧ v.mcol = t.mcol ∧ v.mdep = t.mdep ∧
    v.gang = t.gang ∧ v.heldBic = t.heldBic ∧ v.heldBmc = t.heldBmc

/-- `v` differs from `t` at most in what an instruction's retirement or wait changes: it has the place, the registers, the mailbox and the state of `t`. -/
structure Thread.Kept (t v : Thread) : Prop where
  vt      : v.vt = t.vt
  slot    : v.slot = t.slot
  regs    : t.SameRegs v
  mailbox : v.mailbox = t.mailbox
  st      : v.st = t.st

/-- A record has its own registers. -/
theorem Thread.SameRegs.refl (t : Thread) : t.SameRegs t :=
  ⟨rfl, rfl, rfl, rfl, rfl, rfl, rfl, rfl, rfl, rfl, rfl, rfl, rfl, rfl, rfl, rfl, rfl⟩

/-- Two changes that leave the registers leave them together. -/
theorem Thread.SameRegs.trans {t u v : Thread} (h : t.SameRegs u) (k : u.SameRegs v) : t.SameRegs v := by
  unfold Thread.SameRegs at *
  simpa only [h] using k

/-- Two changes that keep a record keep it together. -/
theorem Thread.Kept.trans {t u v : Thread} (h : t.Kept u) (k : u.Kept v) : t.Kept v :=
  ⟨k.vt.trans h.vt, k.slot.trans h.slot, h.regs.trans k.regs, k.mailbox.trans h.mailbox, k.st.trans h.st⟩

/-- What a debit leaves of a record: it changes budgets alone. -/
theorem debit_eq (t : Thread) (u b : Nat) :
    ∃ bic bmc grace gcause ingrace pend,
      t.debit u b = { t with bic := bic, bmc := bmc, grace := grace, gcause := gcause, ingrace := ingrace, pend := pend } := by
  unfold Thread.debit Thread.takeGrace
  dsimp only
  split
  · split <;> exact ⟨_, _, _, _, _, _, rfl⟩
  · split
    · exact ⟨_, _, _, _, _, _, rfl⟩
    · split <;> exact ⟨_, _, _, _, _, _, rfl⟩

/-- A charge keeps the record. -/
theorem kept_charge (t : Thread) (u b : Nat) : t.Kept (t.charge u b) := by
  obtain ⟨_, _, _, _, _, _, h⟩ := debit_eq t u b
  constructor <;> simp [Thread.charge, h, Thread.SameRegs]

/-- A charge leaves the PC and the wait. -/
theorem charge_pc_wait (t : Thread) (u b : Nat) : (t.charge u b).pc = t.pc ∧ (t.charge u b).wait = t.wait := by
  obtain ⟨_, _, _, _, _, _, h⟩ := debit_eq t u b
  simp [Thread.charge, h]

/-- The sequencer's advance changes the repetition alone. -/
theorem advanceBody_eq (t : Thread) : ∃ r, t.advanceBody = { t with rep := r } := by
  unfold Thread.advanceBody
  split
  · exact ⟨t.rep, rfl⟩
  · split
    · exact ⟨_, rfl⟩
    · split <;> exact ⟨_, rfl⟩

/-- What a retirement leaves of a record: it changes the repetition, the PC and the wait alone. -/
theorem retire_eq (t : Thread) (body : Bool) (a : Word) :
    ∃ r w k, t.retire body a = { t with rep := r, pc := if body then t.pc else a, wait := w, woken := k } ∧ (body = false → w = .none) := by
  cases body with
  | true =>
    obtain ⟨r, h⟩ := advanceBody_eq t
    exact ⟨r, t.wait, t.woken, h, fun e => nomatch e⟩
  | false => exact ⟨t.rep, .none, none, rfl, fun _ => rfl⟩

/-- A retirement keeps the record. -/
theorem kept_retire (t : Thread) (body : Bool) (a : Word) : t.Kept (t.retire body a) := by
  obtain ⟨_, _, _, h, -⟩ := retire_eq t body a
  rw [h]
  exact ⟨rfl, rfl, .refl t, rfl, rfl⟩

/-- The scalar stream's retirement moves the PC and ends the wait, the sequencer's leaves the PC (07 R128, R149). -/
theorem retire_pc_wait (t : Thread) (body : Bool) (a : Word) :
    (t.retire body a).pc = (if body then t.pc else a) ∧ (body = false → (t.retire body a).wait = .none) := by
  obtain ⟨_, _, _, h, hw⟩ := retire_eq t body a
  rw [h]
  exact ⟨rfl, hw⟩

/-- A retirement leaves the budgets. -/
theorem retire_budgets (t : Thread) (body : Bool) (a : Word) :
    (t.retire body a).bic = t.bic ∧ (t.retire body a).bmc = t.bmc ∧ (t.retire body a).ingrace = t.ingrace ∧
      (t.retire body a).grace = t.grace ∧ (t.retire body a).pend = t.pend := by
  obtain ⟨_, _, _, h, -⟩ := retire_eq t body a
  rw [h]
  exact ⟨rfl, rfl, rfl, rfl, rfl⟩

/-- A wait keeps the record. -/
theorem kept_setWait (t : Thread) (w : WaitKind) (c : Nat) : t.Kept (t.setWait w c) := by
  constructor <;> simp [Thread.SameRegs]

/-! Where the thread stands in the state. -/

/-- A thread that is there is found, changed, at its slot. -/
theorem thread_modThread_of_some {s : State} {vt slot : Nat} {t : Thread} (h : s.thread? vt slot = some t) {f : Thread → Thread}
    (hf : ∀ u, (f u).vt = u.vt ∧ (f u).slot = u.slot) : (s.modThread vt slot f).thread vt slot = f t := by
  unfold State.thread
  rw [thread?_modThread hf, h]
  rfl

/-- What a change of partitions leaves of each partition is as it was in every partition. -/
theorem part_modPart_keeps {α : Type} (g : Partition → α) {s : State} {p : Nat} {f : Partition → Partition} (hn : ∀ q, (f q).num = q.num)
    (hg : ∀ q, g (f q) = g q) (i : Nat) : g ((s.modPart p f).part i) = g (s.part i) := by
  by_cases hi : i = p
  · rw [hi, part_modPart hn, hg]
  · rw [part_modPart_ne hn hi]

/-- A partition without its counters. -/
def Partition.uncounted (q : Partition) : Partition := { q with counters := [] }

/-- A count changes the counters of a partition alone. -/
theorem uncounted_count (s : State) (p k n i : Nat) : ((s.count p k n).part i).uncounted = (s.part i).uncounted :=
  part_modPart_keeps Partition.uncounted (fun _ => by rfl) (fun _ => by rfl) i

/-- Nothing changed. -/
theorem onlyThread_refl (s : State) (vt slot : Nat) : s.OnlyThread s vt slot :=
  ⟨rfl, fun _ _ _ => rfl, fun _ => rfl, fun _ => rfl, fun _ _ _ => rfl⟩

/-- Two changes within the frame stay within it together. -/
theorem State.OnlyThread.trans {s s1 s2 : State} {vt slot : Nat} (h : s.OnlyThread s1 vt slot) (k : s1.OnlyThread s2 vt slot) :
    s.OnlyThread s2 vt slot := by
  refine ⟨?_, fun v i hi => (k.others v i hi).trans (h.others v i hi), fun n => (k.parts n).trans (h.parts n),
    fun a => (k.hbm a).trans (h.hbm a), fun v c a => (k.local' v c a).trans (h.local' v c a)⟩
  rw [k.rest, h.rest]

/-- A change of the thread's record that leaves its place stays within the frame. -/
theorem onlyThread_modThread (s : State) {vt slot : Nat} {f : Thread → Thread} (hf : ∀ u, (f u).vt = u.vt ∧ (f u).slot = u.slot) :
    s.OnlyThread (s.modThread vt slot f) vt slot :=
  ⟨rfl, fun _ _ hne => thread_modThread_ne hf hne, fun _ => rfl, fun _ => rfl, fun _ _ _ => rfl⟩

/-- A count stays within the frame of any thread. -/
theorem onlyThread_count (s : State) (p k n vt slot : Nat) : s.OnlyThread (s.count p k n) vt slot :=
  ⟨rfl, fun _ _ _ => rfl, uncounted_count s p k n, fun _ => rfl, fun _ _ _ => rfl⟩

/-- A thread that does not sleep in a waiter is not woken. -/
theorem interrupt_of_awake {s : State} {vt slot : Nat} (h : (s.thread vt slot).inWaiter = false) : s.interrupt vt slot = s := by
  unfold State.interrupt
  dsimp only
  split
  next asleep _ => simp [Thread.inWaiter, asleep] at h
  next asleep _ _ => simp [Thread.inWaiter, asleep] at h
  next => rfl

/-- What a charge makes of the record of a thread: nothing where nothing is charged. -/
def Thread.charged (t : Thread) (u b clk : Nat) : Thread :=
  if u = 0 ∧ b = 0 then t else { t.charge u b with spanClk := clk }

/-- What a charge makes of a thread that does not sleep in a waiter keeps the record. -/
theorem kept_charged (t : Thread) (u b clk : Nat) : t.Kept (t.charged u b clk) := by
  unfold Thread.charged
  split
  · exact ⟨rfl, rfl, .refl t, rfl, rfl⟩
  · obtain ⟨hv, hs, hr, hm, hst⟩ := kept_charge t u b
    exact ⟨hv, hs, hr, hm, hst⟩

/-- A charge leaves the PC. -/
@[simp] theorem charged_pc (t : Thread) (u b clk : Nat) : (t.charged u b clk).pc = t.pc := by
  unfold Thread.charged
  split
  · rfl
  · exact (charge_pc_wait t u b).1

/-- A charge outside grace that the budgets cover is taken from them (15 R288). -/
theorem charged_covered {t : Thread} {u b : Nat} (g : t.ingrace = false) (hu : u ≤ t.bic) (hb : b ≤ t.bmc) (clk : Nat) :
    (t.charged u b clk).bic = t.bic - u ∧ (t.charged u b clk).bmc = t.bmc - b ∧ (t.charged u b clk).ingrace = false ∧
      (t.charged u b clk).grace = t.grace := by
  unfold Thread.charged
  split
  next h => simp [h, g]
  next => simp [Thread.charge, debit_covered g hu hb, g]

/-- A charge in grace that GRACE covers is taken from it (15 R288). -/
theorem charged_grace {t : Thread} {u b : Nat} (g : t.ingrace = true) (h : u + (b + 63) / 64 ≤ t.grace) (clk : Nat) :
    (t.charged u b clk).bic = t.bic ∧ (t.charged u b clk).bmc = t.bmc ∧
      (t.charged u b clk).grace = t.grace - (u + (b + 63) / 64) ∧ (t.charged u b clk).pend = t.pend := by
  unfold Thread.charged
  split
  next h => simp [h]
  next => simp [Thread.charge, debit_grace g h]

/-- A charge of a thread that does not sleep in a waiter stays within the thread's frame, and its record becomes `Thread.charged`. -/
theorem charge_of_awake {s : State} {vt slot : Nat} {t : Thread} (h : s.thread? vt slot = some t) (awake : t.inWaiter = false) (u b : Nat) :
    s.OnlyThread (s.charge vt slot u b) vt slot ∧ (s.charge vt slot u b).thread? vt slot = some (t.charged u b s.clk) := by
  unfold State.charge Thread.charged
  split
  · exact ⟨onlyThread_refl s vt slot, h⟩
  · have place : ∀ x : Thread, ({ x.charge u b with spanClk := s.clk } : Thread).vt = x.vt ∧
        ({ x.charge u b with spanClk := s.clk } : Thread).slot = x.slot :=
      fun x => ⟨(kept_charge x u b).vt, (kept_charge x u b).slot⟩
    have found : (s.modThread vt slot fun x => { x.charge u b with spanClk := s.clk }).thread? vt slot =
        some { t.charge u b with spanClk := s.clk } := by
      rw [thread?_modThread place, h]
      rfl
    dsimp only
    generalize hs1 : (State.count (State.count _ _ _ _) _ _ _) = s1
    have only : s.OnlyThread s1 vt slot :=
      hs1 ▸ ((onlyThread_modThread s place).trans (onlyThread_count _ _ _ _ _ _)).trans (onlyThread_count _ _ _ _ _ _)
    have found1 : s1.thread? vt slot = some { t.charge u b with spanClk := s.clk } := hs1 ▸ found
    have awake1 : (s1.thread vt slot).inWaiter = false := by
      rw [thread_of_thread? found1]
      simpa [Thread.inWaiter, (charge_pc_wait t u b).2] using awake
    rw [interrupt_of_awake awake1, ite_self]
    exact ⟨only, found1⟩

/-! What an instruction's answer makes of the state. -/

section
variable {s s' : State} {t : Thread} (hcur : s'.cur = s.cur) (here : s'.curThread? = some t)
include hcur here

/-- The thread behind `cur` is at the place that both states name. -/
theorem thread?_of_cur_eq : s'.thread? s.cur.vt s.cur.slot = some t := hcur ▸ here

/-- A charge and a retirement to `a` stay within the thread's frame, and what they make of its record. -/
theorem charge_retire_frame (awake : t.inWaiter = false) (a : Word) (u b : Nat) :
    let s2 := (s'.charge s.cur.vt s.cur.slot u b).modCur fun x => x.retire s.cur.body a
    s'.OnlyThread s2 s.cur.vt s.cur.slot ∧ s2.thread s.cur.vt s.cur.slot = (t.charged u b s'.clk).retire s.cur.body a := by
  obtain ⟨only, found⟩ := charge_of_awake (thread?_of_cur_eq hcur here) awake u b
  have place (x : Thread) : (x.retire s.cur.body a).vt = x.vt ∧ (x.retire s.cur.body a).slot = x.slot :=
    ⟨(kept_retire x _ a).vt, (kept_retire x _ a).slot⟩
  have cur2 : (s'.charge s.cur.vt s.cur.slot u b).cur = s.cur := by rw [only.rest]; exact hcur
  dsimp only
  rw [State.modCur, cur2]
  exact ⟨only.trans (onlyThread_modThread _ place), thread_modThread_of_some found place⟩

/-- A wait of the scalar stream that can be no deadlock sets the wait alone (07 R144). -/
theorem scalarWait_frame {w : WaitKind} (h11 : w ≠ .stall 11) (hpush : ∀ q, w ≠ .push q) :
    s'.OnlyThread (s'.scalarWait w) s.cur.vt s.cur.slot ∧ (s'.scalarWait w).thread s.cur.vt s.cur.slot = t.setWait w s'.clk := by
  have eq : s'.scalarWait w = s'.modThread s.cur.vt s.cur.slot fun x => x.setWait w s'.clk := by
    unfold State.scalarWait State.modCur
    rw [hcur]
    dsimp only
    split
    next n hn =>
      split at hn
      · exact absurd rfl h11
      · exact absurd rfl (hpush _)
      · cases hn
    next => rfl
  have place (x : Thread) : (x.setWait w s'.clk).vt = x.vt ∧ (x.setWait w s'.clk).slot = x.slot :=
    ⟨(kept_setWait x w _).vt, (kept_setWait x w _).slot⟩
  rw [eq]
  exact ⟨onlyThread_modThread s' place, thread_modThread_of_some (thread?_of_cur_eq hcur here) place⟩

end

end Sys2Proof.Machine
end

section
/-! PROOFS. The frame of a fault (16 R319, R321, R324, R325): what the freeze makes of the thread, and what the delivery of its packet reaches. -/

namespace Sys2Proof.Machine

/-! The thread freezes. -/

/-- A thread with no waiter node is in no waiter queue. -/
theorem unlinkWq_of_no_node {s : State} {vt slot : Nat} (h : (s.thread vt slot).node = none) : s.unlinkWq vt slot = s := by
  simp [State.unlinkWq, h]

/-- The record of a thread that a fault freezes with packet number `n` (16 R319). -/
def Thread.frozenBy (f : FaultInfo) (body : Bool) (n : Nat) (t : Thread) : Thread :=
  { t with st := .frozen, cause := some f.cause, wait := .none, woken := none, bodyF := body, pktSeq := n }

/-- The state as a fault's packet is delivered: the packet is numbered and the thread frozen. -/
def State.frozen (s : State) (vt slot part : Nat) (f : FaultInfo) (body : Bool) : State :=
  (s.nextPacket part).1.modThread vt slot (Thread.frozenBy f body (s.part part).pktSeq.toNat)

/-- A fault of a running thread in no waiter queue freezes it and delivers one packet. -/
theorem freeze_of_run {s : State} {vt slot : Nat} {t : Thread} (h : s.thread vt slot = t) (run : t.st = .run) (free : t.node = none)
    (f : FaultInfo) (pc : Word) (body : Bool) :
    ∃ p : Packet, p.Fills ∧ s.freeze vt slot f pc body =
      (s.frozen vt slot (s.partNum t) f body).deliverPacket (s.partNum t) (some (vt, slot)) (s.hasCap t 2) p := by
  have words : ∃ flags iter seq who clk, s.freeze vt slot f pc body =
      (s.frozen vt slot (s.partNum t) f body).deliverPacket (s.partNum t) (some (vt, slot)) (s.hasCap t 2)
        (packetWords f flags iter seq who pc clk) := by
    unfold State.freeze
    rw [unlinkWq_of_no_node (by rw [h]; exact free), h]
    simp only [run, ne_eq, not_true_eq_false, if_false]
    exact ⟨_, _, _, _, _, rfl⟩
  obtain ⟨_, _, _, _, _, eq⟩ := words
  exact ⟨_, fills_packetWords .., eq⟩

/-! What a packet's delivery reaches. -/

/-- What a packet's delivery leaves: it changes no more of a thread's record than the mailbox of the thread at `mail` and the held packet of the thread at `hold`, and no local store. -/
structure State.PacketFrame (s s2 : State) (hold mail : Option (Nat × Nat)) : Prop where
  clk     : s2.clk = s.clk
  cur     : s2.cur = s.cur
  gangs   : s2.gangs = s.gangs
  queues  : s2.queues = s.queues
  vtiles  : s2.vtiles = s.vtiles
  memOps  : s2.memOps = s.memOps
  spawns  : s2.spawns = s.spawns
  roots   : s2.roots = s.roots
  ls      : ∀ w c x, (s2.core w c).ls.byte x = (s.core w c).ls.byte x
  threads : ∀ w k, ∃ m p, s2.thread w k = { s.thread w k with mailbox := m, pktHeld := p } ∧
    (mail ≠ some (w, k) → m = (s.thread w k).mailbox) ∧ (hold ≠ some (w, k) → p = (s.thread w k).pktHeld)

/-- A change of one thread's record at `v`, `i` leaves each record, or is made of it. -/
theorem thread_modThread_cases {s : State} {v i w k : Nat} {f : Thread → Thread} (hf : ∀ t, (f t).vt = t.vt ∧ (f t).slot = t.slot) :
    (s.modThread v i f).thread w k = s.thread w k ∨
      (w, k) = (v, i) ∧ (s.modThread v i f).thread w k = f (s.thread w k) := by
  by_cases hk : (w, k) = (v, i)
  · obtain ⟨rfl, rfl⟩ := Prod.mk.inj hk
    cases hs : s.thread? w k with
    | none =>
      left
      unfold State.thread
      rw [thread?_modThread hf, hs]
      rfl
    | some t =>
      right
      rw [thread_modThread_of_some hs hf, thread_of_thread? hs]
      exact ⟨rfl, rfl⟩
  · exact .inl (thread_modThread_ne hf hk)

/-- Two deliveries to one place stay within the frame together. -/
theorem State.PacketFrame.trans {s s1 s2 : State} {hold mail : Option (Nat × Nat)} (h : s.PacketFrame s1 hold mail)
    (k : s1.PacketFrame s2 hold mail) : s.PacketFrame s2 hold mail where
  clk := k.clk.trans h.clk
  cur := k.cur.trans h.cur
  gangs := k.gangs.trans h.gangs
  queues := k.queues.trans h.queues
  vtiles := k.vtiles.trans h.vtiles
  memOps := k.memOps.trans h.memOps
  spawns := k.spawns.trans h.spawns
  roots := k.roots.trans h.roots
  ls w c x := (k.ls w c x).trans (h.ls w c x)
  threads w i := by
    obtain ⟨m1, p1, e1, hm1, hp1⟩ := h.threads w i
    obtain ⟨m2, p2, e2, hm2, hp2⟩ := k.threads w i
    rw [e1] at e2 hm2 hp2
    exact ⟨m2, p2, e2, fun hne => (hm2 hne).trans (hm1 hne), fun hne => (hp2 hne).trans (hp1 hne)⟩

/-- A packet that goes to the log or is lost reaches no thread (16 R325). -/
theorem packetFrame_of_same {s s2 : State} (hold mail : Option (Nat × Nat))
    (h : s2 = { s with hbm := s2.hbm, hbmBad := s2.hbmBad, parts := s2.parts, hklog := s2.hklog, hktail := s2.hktail, hklost := s2.hklost,
                       msix := s2.msix }) :
    s.PacketFrame s2 hold mail := by
  rw [h]
  exact ⟨rfl, rfl, rfl, rfl, rfl, rfl, rfl, rfl, fun _ _ _ => rfl, fun _ _ => ⟨_, _, rfl, fun _ => rfl, fun _ => rfl⟩⟩

/-- A packet held back stays in the record of its thread (16 R325). -/
theorem packetFrame_hold (s : State) (vt slot : Nat) (p : Option Packet) (mail : Option (Nat × Nat)) :
    s.PacketFrame (s.modThread vt slot fun t => { t with pktHeld := p }) (some (vt, slot)) mail := by
  refine ⟨rfl, rfl, rfl, rfl, rfl, rfl, rfl, rfl, fun _ _ _ => rfl, fun w k => ?_⟩
  rcases thread_modThread_cases (s := s) (v := vt) (i := slot) (w := w) (k := k) (f := fun t => { t with pktHeld := p })
    (fun _ => ⟨rfl, rfl⟩) with h | ⟨hk, h⟩
  · exact ⟨_, _, h, fun _ => rfl, fun _ => rfl⟩
  · exact ⟨_, _, h, fun _ => rfl, fun hne => absurd (congrArg some hk.symm) hne⟩

/-- A change of a core that is none of its local store leaves every local store. -/
theorem ls_modCore {s : State} {v c : Nat} {f : Core → Core} (hf : ∀ x, (f x).vt = x.vt ∧ (f x).slot = x.slot) (hls : ∀ x, (f x).ls = x.ls)
    (w d : Nat) : ((s.modCore v c f).core w d).ls = (s.core w d).ls := by
  by_cases hc : (w, d) = (v, c)
  · obtain ⟨rfl, rfl⟩ := Prod.mk.inj hc
    rw [core_modCore hf, hls]
  · rw [core_modCore_ne hf hc]

/-- A signal of the device reaches the mailbox of its target, or waits in a send queue (13 R276). -/
theorem packetFrame_deliverDevice (s : State) (part v i : Nat) (x : Signal) (hold : Option (Nat × Nat)) :
    s.PacketFrame (s.deliverDevice part v i x) hold (some (v, i)) := by
  unfold State.deliverDevice
  split
  · refine ⟨rfl, rfl, rfl, rfl, rfl, rfl, rfl, rfl, fun _ _ _ => rfl, fun w k => ?_⟩
    rcases thread_modThread_cases (s := s) (v := v) (i := i) (w := w) (k := k) (f := fun t => { t with mailbox := t.mailbox ++ [x] })
      (fun _ => ⟨rfl, rfl⟩) with h | ⟨hk, h⟩
    · exact ⟨_, _, h, fun _ => rfl, fun _ => rfl⟩
    · exact ⟨_, _, h, fun hne => absurd (congrArg some hk.symm) hne, fun _ => rfl⟩
  · exact ⟨rfl, rfl, rfl, rfl, rfl, rfl, rfl, rfl,
      fun w c a => congrArg (Memory.byte · a) (ls_modCore (fun _ => ⟨by rfl, by rfl⟩) (fun _ => by rfl) w c),
      fun _ _ => ⟨_, _, rfl, fun _ => rfl, fun _ => rfl⟩⟩

/-- The supervisor's signal reaches its mailbox alone (16 R324). -/
theorem packetFrame_notifySupervisor (s : State) (part : Nat) (hold : Option (Nat × Nat)) :
    s.PacketFrame (s.notifySupervisor part) hold (s.part part).supv := by
  unfold State.notifySupervisor
  dsimp only
  split
  next => exact packetFrame_of_same hold _ rfl
  next v i h => rw [h]; exact packetFrame_deliverDevice s part v i _ hold

/-- A packet written into the fault ring reaches no thread but the supervisor (16 R324). -/
theorem packetFrame_writeRing (s : State) (part : Nat) (p : Packet) (hold : Option (Nat × Nat)) :
    s.PacketFrame (s.writeRing part p) hold (s.part part).supv := by
  unfold State.writeRing State.writePage
  dsimp only
  generalize (if (s.part part).lostMark then markLost p else p) = p'
  cases s.translate _ _ _ with
  | err e => exact packetFrame_of_same hold _ rfl
  | ok m =>
    dsimp only
    generalize hs1 : State.modPart _ _ _ = s1
    have written : s.PacketFrame s1 hold (s.part part).supv := packetFrame_of_same hold _ (hs1 ▸ rfl)
    have supv : (s1.part part).supv = (s.part part).supv :=
      hs1 ▸ part_modPart_keeps Partition.supv (s := s.putHbm m.pa (wordsBytes p')) (fun _ => by rfl) (fun _ => by rfl) part
    exact written.trans (supv ▸ packetFrame_notifySupervisor s1 part hold)

/-- A delivered packet reaches no thread but its own and the supervisor (16 R324, R325). -/
theorem packetFrame_deliverPacket (s : State) (part vt slot : Nat) (supv : Bool) (p : Packet) :
    s.PacketFrame (s.deliverPacket part (some (vt, slot)) supv p) (some (vt, slot)) (s.part part).supv := by
  unfold State.deliverPacket
  dsimp only
  split
  · exact packetFrame_of_same _ _ rfl
  · split
    · exact packetFrame_hold s vt slot (some p) _
    · exact packetFrame_writeRing s part p _

/-! The bytes of HBM that a packet's delivery writes. -/

/-- The supervisor's signal writes no byte of HBM. -/
@[simp] theorem hbm_notifySupervisor (s : State) (part : Nat) : (s.notifySupervisor part).hbm = s.hbm := by
  unfold State.notifySupervisor State.deliverDevice
  dsimp only
  split
  · rfl
  · split <;> rfl

/-- The address lies outside the slot of the fault ring of a partition `q` that takes a packet, where one does: that of a gang which does not supervise, in a ring that is on and not full (16 R324, R325). -/
def State.OutsideSlot (s : State) (supv : Bool) (x : Nat) (q : Partition) : Prop :=
  ∀ m, supv = false → q.frsize ≠ 0 → q.ringoff = false → (q.frtail - q.frhead).toNat ≠ q.frsize →
    s.translate (.panel q.asid) (q.frbase * 4096 + 64 * (q.frtail.toNat % q.frsize)) (needPlain true) = .ok m →
    x < m.pa ∨ m.pa + 64 ≤ x

/-- A packet written into the ring changes no byte outside the 64 of its slot. -/
theorem byte_writeRing {s : State} {part x : Nat} {p : Packet} (fills : p.Fills)
    (hx : ∀ m, s.translate (s.part part).space ((s.part part).frbase * 4096 + 64 * ((s.part part).frtail.toNat % (s.part part).frsize))
      (needPlain true) = .ok m → x < m.pa ∨ m.pa + 64 ≤ x) :
    (s.writeRing part p).hbm.byte x = s.hbm.byte x := by
  have fills' : Packet.Fills (if (s.part part).lostMark then markLost p else p) := by
    split
    · exact fills_markLost fills
    · exact fills
  obtain ⟨l, hl, hlen⟩ := wordsBytes_of_fills fills'
  unfold State.writeRing State.writePage
  dsimp only
  rw [hl]
  cases ht : s.translate _ _ _ with
  | err e => rfl
  | ok m =>
    dsimp only
    rw [hbm_notifySupervisor]
    exact byte_putBytes_outside s.hbm (by decide) (by rw [List.length_cons, hlen]; exact hx m ht)

/-- A delivered packet changes no byte outside the slot of the fault ring that takes it. -/
theorem byte_deliverPacket {s : State} {part x : Nat} {supv : Bool} {p : Packet} (fills : p.Fills) (hold : Option (Nat × Nat))
    (hx : s.OutsideSlot supv x (s.part part)) : (s.deliverPacket part hold supv p).hbm.byte x = s.hbm.byte x := by
  unfold State.deliverPacket
  dsimp only
  split
  next => rfl
  next on =>
    split
    next => split <;> rfl
    next room =>
      obtain ⟨hs, hsize, hoff⟩ : supv = false ∧ (s.part part).frsize ≠ 0 ∧ (s.part part).ringoff = false := by
        simpa [Partition.ringOn] using on
      have hroom : ((s.part part).frtail - (s.part part).frhead).toNat ≠ (s.part part).frsize := by
        simpa [Partition.ringFull] using room
      exact byte_writeRing fills fun m => hx m hs hsize hoff hroom

/-! The state as the packet is delivered. -/

/-- Numbering a packet leaves what its number and the counters are no part of. -/
theorem part_frozen_keeps {α : Type} (g : Partition → α) (hg : ∀ q n l, g { q with pktSeq := n, counters := l } = g q)
    (s : State) (vt slot part : Nat) (f : FaultInfo) (body : Bool) (i : Nat) : g ((s.frozen vt slot part f body).part i) = g (s.part i) := by
  have numbered : g ((s.modPart part fun q => { q with pktSeq := q.pktSeq + 1 }).part i) = g (s.part i) :=
    part_modPart_keeps g (fun _ => by rfl) (fun q => hg q _ q.counters) i
  exact (part_modPart_keeps g (fun _ => by rfl) (fun q => hg q q.pktSeq _) i).trans numbered

/-- A translation by the panel's controllers depends on the root table and on HBM alone (11 R222). -/
theorem translate_panel_congr {s s1 : State} (hr : s1.roots = s.roots) (hm : s1.hbm = s.hbm) (asid va : Nat) (n : Need) :
    s1.translate (.panel asid) va n = s.translate (.panel asid) va n := by
  have held : s1.held (.panel asid) = s.held (.panel asid) := rfl
  unfold State.translate State.root
  rw [hr, hm, held]

/-- A byte outside the slot before the packet is numbered is outside it then. -/
theorem outsideSlot_frozen {s : State} {supv : Bool} {x part : Nat} (h : s.OutsideSlot supv x (s.part part)) (vt slot : Nat)
    (f : FaultInfo) (body : Bool) :
    (s.frozen vt slot part f body).OutsideSlot supv x ((s.frozen vt slot part f body).part part) := by
  have moved : ∀ q, (s.frozen vt slot part f body).OutsideSlot supv x q ↔ s.OutsideSlot supv x q := fun q => by
    have panel := translate_panel_congr (s := s) (s1 := s.frozen vt slot part f body) rfl rfl
    simp only [State.OutsideSlot, panel]
  rw [moved, part_frozen_keeps (fun q => s.OutsideSlot supv x q) fun _ _ _ => rfl]
  exact h

end Sys2Proof.Machine
end

section
/-! PROOFS. RetireFrame (O53): each clause from the frame lemmas of the shared operations. -/

namespace Sys2Proof.Machine

/-- The frame of a fault of a running thread in no waiter queue: what its packet's delivery makes of the state in which the thread is frozen, and which bytes of HBM stay (16 R319, R324, R325). -/
theorem freeze_frame {s : State} {vt slot : Nat} {t : Thread} (here : s.thread? vt slot = some t) (run : t.st = .run) (free : t.node = none)
    (f : FaultInfo) (pc : Word) (body : Bool) :
    (s.frozen vt slot (s.partNum t) f body).PacketFrame (s.freeze vt slot f pc body) (some (vt, slot)) (s.part (s.partNum t)).supv ∧
      ∀ x, s.OutsideSlot (s.hasCap t 2) x (s.part (s.partNum t)) → (s.freeze vt slot f pc body).hbm.byte x = s.hbm.byte x := by
  obtain ⟨p, fills, eq⟩ := freeze_of_run (thread_of_thread? here) run free f pc body
  rw [eq]
  constructor
  · rw [← part_frozen_keeps Partition.supv (fun _ _ _ => rfl) s vt slot (s.partNum t) f body]
    exact packetFrame_deliverPacket _ _ vt slot _ p
  · exact fun x hx => byte_deliverPacket fills _ (outsideSlot_frozen hx vt slot f body)

/-- The frozen thread's record. -/
theorem thread_frozen_self {s : State} {vt slot : Nat} {t : Thread} (here : s.thread? vt slot = some t) (part : Nat) (f : FaultInfo) (body : Bool) :
    ∃ n, (s.frozen vt slot part f body).thread vt slot = t.frozenBy f body n :=
  ⟨_, thread_modThread_of_some (s := (s.nextPacket part).1) here fun _ => ⟨rfl, rfl⟩⟩

/-- Every other thread's record. -/
theorem thread_frozen_ne (s : State) {vt slot w k : Nat} (hne : (w, k) ≠ (vt, slot)) (part : Nat) (f : FaultInfo) (body : Bool) :
    (s.frozen vt slot part f body).thread w k = s.thread w k :=
  thread_modThread_ne (s := (s.nextPacket part).1) (fun _ => ⟨rfl, rfl⟩) hne

/-- Settles O53: a retirement and a transfer are a charge and a retirement of the thread's record, a wait sets its wait, and a fault freezes the record and delivers one packet. The bytes of HBM outside the ring's slot stay in a memory of any form, because a packet's first byte, VERSION, is not 0. -/
theorem retireFrame : Obligations.RetireFrame := by
  intro s s' t f u b a hcur here awake vt slot _ _
  refine ⟨?done, ?jump, ?wait, ?fault⟩
  case done =>
    have pc_scalar (h : s.cur.body = false) : nextPc (t.issuePc s.cur.body) f.len = nextPc t.pc f.len := by rw [h]; rfl
    refine ⟨_, rfl, ?_⟩
    dsimp only [State.finish]
    generalize nextPc (t.issuePc s.cur.body) f.len = next at pc_scalar ⊢
    obtain ⟨only, record⟩ := charge_retire_frame hcur here awake next u b
    obtain ⟨-, -, hregs, hmail, hst⟩ := (kept_charged t u b s'.clk).trans (kept_retire _ s.cur.body next)
    obtain ⟨hpc, hwait⟩ := retire_pc_wait (t.charged u b s'.clk) s.cur.body next
    obtain ⟨hbic, hbmc, hin, hgrace, hpend⟩ := retire_budgets (t.charged u b s'.clk) s.cur.body next
    rw [record]
    refine ⟨only, ⟨hregs, hmail, hst⟩, fun h => ⟨?_, hwait h⟩, fun h => ?_, fun g hu hb => ?_, fun g hg => ?_⟩
    · rw [hpc, h, ← pc_scalar h]; rfl
    · rw [hpc, h, if_pos rfl, charged_pc]
    · rw [hbic, hbmc, hin, hgrace]; exact charged_covered g hu hb s'.clk
    · rw [hbic, hbmc, hgrace, hpend]; exact charged_grace g hg s'.clk
  case jump =>
    intro h
    obtain ⟨only, record⟩ := charge_retire_frame hcur here awake a u 0
    refine ⟨_, rfl, only, ?_⟩
    dsimp only [State.finish]
    rw [record]
    obtain ⟨-, -, hregs, hmail, hst⟩ := (kept_charged t u 0 s'.clk).trans (kept_retire _ s.cur.body a)
    refine ⟨⟨hregs, hmail, hst⟩, ?_⟩
    rw [(retire_pc_wait _ _ _).1, h]; rfl
  case wait =>
    intro h w h11 hpush
    obtain ⟨only, record⟩ := scalarWait_frame hcur here h11 hpush
    refine ⟨s'.scalarWait w, by rw [State.waits, State.finish, h]; rfl, only, ?_⟩
    rw [record]
    obtain ⟨-, -, hregs, hmail, hst⟩ := kept_setWait t w s'.clk
    exact ⟨⟨hregs, hmail, hst⟩, by simp⟩
  case fault =>
    intro run free i
    have found : s'.thread? vt slot = some t := thread?_of_cur_eq hcur here
    obtain ⟨frame, bytes⟩ := freeze_frame found run free i (t.issuePc s.cur.body) s.cur.body
    refine ⟨_, by rw [State.faults, State.finish, hcur],
      ⟨frame.clk, frame.cur, frame.gangs, frame.queues, frame.vtiles, frame.memOps, frame.spawns, frame.roots⟩, ?_, ?_, frame.ls, bytes⟩
    · obtain ⟨n, frozen⟩ := thread_frozen_self found (s'.partNum t) i s.cur.body
      obtain ⟨m, p, eq, hm, -⟩ := frame.threads vt slot
      rw [frozen] at eq hm
      rw [eq]
      exact ⟨Thread.SameRegs.refl t, rfl, rfl, rfl, rfl, rfl, rfl, rfl, rfl, hm⟩
    · intro w k hne
      obtain ⟨m, p, eq, hm, hp⟩ := frame.threads w k
      rw [thread_frozen_ne s' hne] at eq hm hp
      rw [eq, hp fun e => hne (Option.some.inj e).symm]
      exact ⟨⟨m, rfl⟩, fun hs => by rw [hm hs]⟩

end Sys2Proof.Machine
end

section
/-! PROOFS. The queue command block and its commands (04 R69, R70, R80): what a write of a word of the block does, and each result of CREATE, DESTROY, RESTART and CREDIT. -/

namespace Sys2Proof.Machine

/-- A write of a whole word replaces it. -/
theorem mergeWord_allOnes (old val : Word) : mergeWord old (BitVec.allOnes 64) val = val := by
  simp only [mergeWord, BitVec.not_allOnes, BitVec.and_zero, BitVec.zero_or, BitVec.and_allOnes]

/-- The queue command block as it reads. -/
theorem regWord_qcmd {s : State} (up : s.phase = 4) {o : Nat} (ho : o < 0x1000) : s.regWord (0xC00001000 + o) = s.qcmdWord o := by
  have upper : ¬ 0xC00001000 + o < blockBase := by unfold blockBase; omega
  have block : 0xC00001000 + o - blockBase = 0x1000 + o := by unfold blockBase; omega
  have ident : ¬ 0x1000 + o < 0x1000 := by omega
  have inside : 0x1000 + o < 0x2000 := by omega
  simp [State.regWord, State.answers, State.blockWord, up, upper, block, ident, inside]

/-- An aligned write of eight bytes to the queue command block, by the host or by a thread. -/
theorem registerWrite_qcmd {s : State} (up : s.phase = 4) {o : Nat} (ho : o < 0x1000) (aligned : o % 8 = 0) (src : Source) (val : Word) :
    exec (.registerWrite src (0xC00001000 + o) 8 val) s = .next (s.qcmdWrite src o (BitVec.allOnes 64) val) := by
  have upper : ¬ 0xC00001000 + o < blockBase := by unfold blockBase; omega
  have lane_zero : (0xC00001000 + o) % 8 = 0 := by omega
  have whole : (0xC00001000 + o) / 8 * 8 = 0xC00001000 + o := by omega
  have block : 0xC00001000 + o - blockBase = 0x1000 + o := by unfold blockBase; omega
  have inside : (decide (0x1000 ≤ 0x1000 + o) && decide (0x1000 + o < 0x2000)) = true := by simpa using (by omega : 0x1000 + o < 0x2000)
  have offset : 0x1000 + o - 0x1000 = o := by omega
  have mask_eq : w64 ((2 ^ (8 * 8) - 1) * 2 ^ (8 * 0)) = BitVec.allOnes 64 := by decide
  have val_eq : w64 (val.toNat % 2 ^ (8 * 8) * 2 ^ (8 * 0)) = val := by
    rw [Nat.mod_eq_of_lt val.isLt, Nat.mul_zero, Nat.pow_zero, Nat.mul_one, w64, BitVec.ofNat_toNat, BitVec.setWidth_eq]
  rw [exec_registerWrite, execRegisterWrite, State.hostWrite, if_neg (by simp [upper]), State.writeReg,
    if_neg (by simp [lane_zero, State.answers, up])]
  simp only [lane_zero, whole, mask_eq, val_eq, if_neg upper, block, State.blockWrite, if_pos inside, offset]

/-- QCMD3 shows BUSY and RESULT. -/
theorem qcmdWord_status (s : State) : s.qcmdWord 0x18 = BitVec.ofNat 64 ((if s.qcmd.busy = true then 2 else 0) + s.qcmd.result * 256) := by
  cases h : s.qcmd.busy <;> simp [State.qcmdWord, b2n, w64, h]

/-- While a command runs, the block keeps its words. -/
theorem qcmdWrite_of_busy {s : State} (h : s.qcmd.busy = true) (src : Source) (o : Nat) (mask val : Word) : s.qcmdWrite src o mask val = s := by
  simp [State.qcmdWrite, h]

section Idle
variable {s : State} (idle : s.qcmd.busy = false) {src : Source} {val : Word}
include idle

/-- A whole word written to QCMD0, QCMD1 or QCMD2 while no command runs. -/
theorem qcmdWrite_q0 : s.qcmdWrite src 0 (BitVec.allOnes 64) val = { s with qcmd := { s.qcmd with q0 := val &&& 0xFFFFF0FFFFF } } := by
  simp only [State.qcmdWrite, idle, mergeWord_allOnes, if_true, Bool.false_eq_true, if_false]

theorem qcmdWrite_q1 : s.qcmdWrite src 8 (BitVec.allOnes 64) val = { s with qcmd := { s.qcmd with q1 := val } } := by
  simp only [State.qcmdWrite, idle, mergeWord_allOnes, Nat.reduceEqDiff, if_true, Bool.false_eq_true, if_false]

theorem qcmdWrite_q2 : s.qcmdWrite src 0x10 (BitVec.allOnes 64) val = { s with qcmd := { s.qcmd with q2 := val } } := by
  simp only [State.qcmdWrite, idle, mergeWord_allOnes, Nat.reduceEqDiff, if_true, Bool.false_eq_true, if_false]

/-- A GO starts a command. -/
theorem qcmdWrite_go (go : val.getLsbD 0 = true) :
    s.qcmdWrite src 0x18 (BitVec.allOnes 64) val = { s with qcmd := { s.qcmd with busy := true, src := src } } := by
  simp only [State.qcmdWrite, idle, Nat.reduceEqDiff, Bool.false_eq_true, if_false]
  rw [if_pos (by simpa only [Word.bit, BitVec.and_allOnes, decide_true, Bool.true_and] using go)]

/-- QCMD3 without GO takes nothing. -/
theorem qcmdWrite_noGo (go : val.getLsbD 0 = false) : s.qcmdWrite src 0x18 (BitVec.allOnes 64) val = s := by
  simp only [State.qcmdWrite, idle, Nat.reduceEqDiff, Bool.false_eq_true, if_false]
  rw [if_neg (by simp only [Word.bit, BitVec.and_allOnes, go, Bool.and_false, Bool.false_eq_true, not_false_eq_true])]

end Idle

/-- A field as a quotient and a remainder. -/
theorem field_eq (x : Word) (lo n : Nat) : x.field lo n = x.toNat / 2 ^ lo % 2 ^ n := by
  rw [Word.field, Nat.shiftRight_eq_div_pow]

/-- The low bits of a word. -/
theorem field_low (x : Word) (n : Nat) : x.field 0 n = x.toNat % 2 ^ n := by rw [field_eq, Nat.pow_zero, Nat.div_one]

/-- Sixteen of them name a queue. -/
theorem low16_lt (x : Word) : x.toNat % 2 ^ 16 < 2 ^ 16 := Nat.mod_lt _ (by decide)

section Number
variable {q : Nat} (hq : q < 65536) (s : State) (src : Source)
include hq

/-- A queue number has 16 bits. -/
theorem exec_queueDestroy_of_lt : exec (.queueDestroy src q) s = .next (s.queueDestroy src q) := by
  rw [exec_queueDestroy, execQueueDestroy, Nat.mod_eq_of_lt hq]

theorem exec_queueRestart_of_lt : exec (.queueRestart src q) s = .next (s.queueRestart src q) := by
  rw [exec_queueRestart, execQueueRestart, Nat.mod_eq_of_lt hq]

theorem exec_queueCredit_of_lt (a1 a2 : Word) : exec (.queueCredit src q a1 a2) s = .next (s.queueCredit src q a1 a2) := by
  rw [exec_queueCredit, execQueueCredit, Nat.mod_eq_of_lt hq]

theorem exec_doorbell_of_lt (val : BitVec 32) : exec (.doorbell q val) s = .next (s.ringDoorbell q val) := by
  rw [exec_doorbell, execDoorbell, Nat.mod_eq_of_lt hq]

end Number

/-! The event that bits 19:16 of QCMD0 name (04 R69), for the queue of its bits 15:0. -/

section Command
variable {s : State} (src : Source)

theorem queueCommand_create (h : s.qcmd.q0.toNat / 2 ^ 16 % 16 = 1) :
    exec (.queueCreate src s.qcmd.q0 s.qcmd.q1) s = .next (s.queueCommand src) := by
  have op : s.qcmd.q0.field 16 4 = 1 := (field_eq ..).trans h
  simp only [exec_queueCreate, execQueueCreate, State.queueCommand, op]

theorem queueCommand_destroy (h : s.qcmd.q0.toNat / 2 ^ 16 % 16 = 2) :
    exec (.queueDestroy src (s.qcmd.q0.toNat % 2 ^ 16)) s = .next (s.queueCommand src) := by
  have op : s.qcmd.q0.field 16 4 = 2 := (field_eq ..).trans h
  simp only [exec_queueDestroy_of_lt (low16_lt _), State.queueCommand, op, field_low]

theorem queueCommand_restart (h : s.qcmd.q0.toNat / 2 ^ 16 % 16 = 3) :
    exec (.queueRestart src (s.qcmd.q0.toNat % 2 ^ 16)) s = .next (s.queueCommand src) := by
  have op : s.qcmd.q0.field 16 4 = 3 := (field_eq ..).trans h
  simp only [exec_queueRestart_of_lt (low16_lt _), State.queueCommand, op, field_low]

theorem queueCommand_credit (h : s.qcmd.q0.toNat / 2 ^ 16 % 16 = 4) :
    exec (.queueCredit src (s.qcmd.q0.toNat % 2 ^ 16) s.qcmd.q1 s.qcmd.q2) s = .next (s.queueCommand src) := by
  have op : s.qcmd.q0.field 16 4 = 4 := (field_eq ..).trans h
  simp only [exec_queueCredit_of_lt (low16_lt _), State.queueCommand, op, field_low]

end Command

/-- An operation that R70 does not list is a bad one, of the host. -/
theorem queueCommand_host_other {s : State} (h : ¬ (1 ≤ s.qcmd.q0.toNat / 2 ^ 16 % 16 ∧ s.qcmd.q0.toNat / 2 ^ 16 % 16 ≤ 4))
    (host : s.qcmd.src = .host) : s.queueCommand s.qcmd.src = s.qresult 2 := by
  have op : s.qcmd.q0.field 16 4 = s.qcmd.q0.toNat / 2 ^ 16 % 16 := field_eq ..
  simp only [State.queueCommand, op, host]
  split
  case h_5 => rfl
  all_goals omega

/-- Nothing happens to the block between commands. -/
theorem commandTurn_of_idle {s : State} (h : s.qcmd.busy = false) : s.commandTurn = s := by simp [State.commandTurn, h]

/-- A running command takes effect and BUSY clears. -/
theorem commandTurn_of_busy {s : State} (h : s.qcmd.busy = true) :
    s.commandTurn = { s.queueCommand s.qcmd.src with qcmd := { (s.queueCommand s.qcmd.src).qcmd with busy := false } } := by
  rw [State.commandTurn, if_pos h]

/-- A running command makes of the state what its event makes of it. -/
theorem commandTurn_of_exec {s t : State} {i : Instr} (h : s.qcmd.busy = true) (run : exec i s = .next (s.queueCommand s.qcmd.src))
    (ends : exec i s = .next t) : s.commandTurn = { t with qcmd := { t.qcmd with busy := false } } := by
  rw [commandTurn_of_busy h, Host.Outcome.next.inj (run.symm.trans ends)]

/-- The host may issue every operation (04 R69). -/
@[simp] theorem mayCommand_host (s : State) (op q : Nat) : s.mayCommand .host op q = true := rfl

/-- A thread issues no CREATE and no DESTROY (04 R69). -/
theorem mayCommand_thread_of_ne (s : State) (vt slot q : Nat) {op : Nat} (h : op ≠ 3 ∧ op ≠ 4) : s.mayCommand (.thread vt slot) op q = false := by
  simp [State.mayCommand, h]

/-- A thread issues nothing without SUPERVISE, nor for a queue that is not its partition's (04 R69, log entry 66). -/
theorem mayCommand_thread_of_foreign {s : State} {vt slot q : Nat}
    (h : s.hasCap (s.thread vt slot) 2 = false ∨ (s.queue q).part ≠ s.partNum (s.thread vt slot) ∨ (s.queue q).state = .disabled) (op : Nat) :
    s.mayCommand (.thread vt slot) op q = false := by
  rcases h with h | h | h <;> simp [State.mayCommand, h]

/-- What the source may not issue changes only RESULT. -/
theorem queueCreate_denied {s : State} {src : Source} {q0 : Word} (h : s.mayCommand src 1 (q0.field 0 16) = false) (a : Word) :
    s.queueCreate src q0 a = s.qresult 3 := by simp [State.queueCreate, h]

theorem queueDestroy_denied {s : State} {src : Source} {q : Nat} (h : s.mayCommand src 2 q = false) : s.queueDestroy src q = s.qresult 3 := by
  simp [State.queueDestroy, h]

theorem queueRestart_denied {s : State} {src : Source} {q : Nat} (h : s.mayCommand src 3 q = false) : s.queueRestart src q = s.qresult 3 := by
  simp [State.queueRestart, h]

theorem queueCredit_denied {s : State} {src : Source} {q : Nat} (h : s.mayCommand src 4 q = false) (a1 a2 : Word) :
    s.queueCredit src q a1 a2 = s.qresult 3 := by simp [State.queueCredit, h]

/-- The arguments of a CREATE that R70 answers with result 2. -/
def State.badCreate (s : State) (q0 a : Word) : Prop :=
  q0.field 39 5 < 4 ∨ 16 < q0.field 39 5 ∨ a.toNat % 4096 ≠ 0 ∨ 2 ^ 48 ≤ a.toNat ∨ (s.part (q0.field 24 8)).valid = false

/-- CREATE of a queue in use. -/
theorem queueCreate_used {s : State} {q0 : Word} (h : (s.queue (q0.field 0 16)).state ≠ .disabled) (a : Word) :
    s.queueCreate .host q0 a = s.qresult 1 := by simp [State.queueCreate, h]

/-- CREATE with bad arguments. -/
theorem queueCreate_bad {s : State} {q0 a : Word} (free : (s.queue (q0.field 0 16)).state = .disabled) (h : s.badCreate q0 a) :
    s.queueCreate .host q0 a = s.qresult 2 := by
  rw [State.queueCreate, if_neg (by simp), if_neg (by simp [free]), if_pos (by simpa [State.badCreate, or_assoc] using h)]

/-- CREATE opens a DISABLED queue, its block fresh but for its classifier. -/
theorem queueCreate_opens {s : State} {q0 a : Word} (free : (s.queue (q0.field 0 16)).state = .disabled) (h : ¬ s.badCreate q0 a) :
    s.queueCreate .host q0 a = (s.modQueue (q0.field 0 16) fun _ =>
      { Queue.fresh (q0.field 0 16) with
        state := .opened, ringbase := a, ringlog2 := q0.field 39 5, part := q0.field 24 8,
        capmask := q0.field 32 4, priomax := q0.field 36 3,
        cls := (s.queue (q0.field 0 16)).cls, clst := (s.queue (q0.field 0 16)).clst, clsm := (s.queue (q0.field 0 16)).clsm }).qresult 0 := by
  rw [State.queueCreate, if_neg (by simp), if_neg (by simp [free]), if_neg (by simpa [State.badCreate, or_assoc] using h)]

/-- DESTROY and CREDIT want a queue that is OPEN or STALLED. -/
theorem queueDestroy_refused {s : State} {q : Nat} (h : (s.queue q).state ≠ .opened ∧ (s.queue q).state ≠ .stalled) :
    s.queueDestroy .host q = s.qresult 1 := by simp [State.queueDestroy, h]

theorem queueCredit_refused {s : State} {q : Nat} (h : (s.queue q).state ≠ .opened ∧ (s.queue q).state ≠ .stalled) (a1 a2 : Word) :
    s.queueCredit .host q a1 a2 = s.qresult 1 := by simp [State.queueCredit, h]

/-- DESTROY of a queue with no staged record: its unread records are discarded, and each record of its resume list ends QUEUE-GONE (04 R80). -/
theorem queueDestroy_unstaged {s : State} {q : Nat} (live : (s.queue q).state = .opened ∨ (s.queue q).state = .stalled) (none' : (s.queue q).staged = none) :
    s.queueDestroy .host q = ((s.queue q).resume.foldl (fun s r => s.endRecord q r 4 0 false) (s.modQueue q fun x =>
      { x with state := .closing, discards := x.discards + (x.tail - x.head), head := x.tail, resume := [], staged := none })).qresult 0 := by
  rcases live with live | live <;> simp [State.queueDestroy, live, none']

/-- CREDIT of more than an account field holds. -/
theorem queueCredit_bad {s : State} {q : Nat} (live : (s.queue q).state = .opened ∨ (s.queue q).state = .stalled) {a1 a2 : Word}
    (h : 2 ^ 48 ≤ a1.toNat ∨ 2 ^ 48 ≤ a2.toNat) : s.queueCredit .host q a1 a2 = s.qresult 2 := by
  rw [State.queueCredit, if_neg (by simp), if_neg (by rcases live with live | live <;> simp [live]), if_pos (by simpa using h)]

/-- CREDIT adds to the queue's account. -/
theorem queueCredit_adds {s : State} {q : Nat} (live : (s.queue q).state = .opened ∨ (s.queue q).state = .stalled) {a1 a2 : Word}
    (h1 : a1.toNat < 2 ^ 48) (h2 : a2.toNat < 2 ^ 48) : s.queueCredit .host q a1 a2 = (s.addAccount q a1.toNat a2.toNat).qresult 0 := by
  rw [State.queueCredit, if_neg (by simp), if_neg (by rcases live with live | live <;> simp [live]), if_neg (by simpa using ⟨h1, h2⟩)]

/-- RESTART wants a STALLED queue, and opens it. -/
theorem queueRestart_refused {s : State} {q : Nat} (h : (s.queue q).state ≠ .stalled) : s.queueRestart .host q = s.qresult 1 := by
  simp [State.queueRestart, h]

theorem queueRestart_opens {s : State} {q : Nat} (h : (s.queue q).state = .stalled) :
    s.queueRestart .host q = (s.modQueue q fun x => { x with state := .opened }).qresult 0 := by
  simp [State.queueRestart, h]

end Sys2Proof.Machine
end

section
/-! PROOFS. The doorbell, the staging of records and their dependences, the close of a queue (04 R71-R76, R79, 05 R85). -/

namespace Sys2Proof.Machine

/-- A queue takes doorbell values while it is OPEN or STALLED. -/
def Queue.live (x : Queue) : Prop := x.state = .opened ∨ x.state = .stalled

/-- A doorbell of a queue that is DISABLED or CLOSING. -/
theorem ringDoorbell_of_not_live {s : State} {q : Nat} (h : ¬ (s.queue q).live) (val : BitVec 32) : s.ringDoorbell q val = s := by
  rw [Queue.live, not_or] at h
  simp [State.ringDoorbell, h]

section Doorbell
variable {s : State} {q : Nat} {val : BitVec 32} (live : (s.queue q).live)
include live

/-- A live queue's doorbell, its branches by how far ahead of TAIL the value is. -/
theorem ringDoorbell_of_live : s.ringDoorbell q val =
    if (val - (s.queue q).tail).toNat = 0 then s.modQueue q Queue.rereadDue
    else if (val - (s.queue q).tail).toNat < 2 ^ 31 && (val - (s.queue q).head).toNat ≤ 2 ^ (s.queue q).ringlog2 &&
        ((s.queue q).tail - (s.queue q).head).toNat ≤ (val - (s.queue q).head).toNat then s.modQueue q fun x => { x with tail := val }
    else if 2 ^ (s.queue q).ringlog2 < (val - (s.queue q).head).toNat && (val - (s.queue q).tail).toNat < 2 ^ 31 then
      s.hkEvent 3 (s.queue q).part (w64 q) (val.setWidth 64)
    else s := by
  rcases live with live | live <;> simp only [State.ringDoorbell, live] <;> rfl

/-- The value of TAIL again makes a re-read due. -/
theorem ringDoorbell_again (h : (val - (s.queue q).tail).toNat = 0) : s.ringDoorbell q val = s.modQueue q Queue.rereadDue := by
  rw [ringDoorbell_of_live live, if_pos h]

/-- A value behind TAIL is ignored. -/
theorem ringDoorbell_behind (h : 2 ^ 31 ≤ (val - (s.queue q).tail).toNat) : s.ringDoorbell q val = s := by
  have far : ¬ (val - (s.queue q).tail).toNat < 2 ^ 31 := by omega
  rw [ringDoorbell_of_live live, if_neg (by omega)]
  simp only [far, decide_false, Bool.false_and, Bool.and_false, Bool.false_eq_true, if_false]

/-- A value ahead of TAIL and within the ring is the new TAIL. -/
theorem ringDoorbell_moves (ne : (val - (s.queue q).tail).toNat ≠ 0) (ahead : (val - (s.queue q).tail).toNat < 2 ^ 31)
    (fits : (val - (s.queue q).head).toNat ≤ 2 ^ (s.queue q).ringlog2)
    (order : ((s.queue q).tail - (s.queue q).head).toNat ≤ (val - (s.queue q).head).toNat) :
    s.ringDoorbell q val = s.modQueue q fun x => { x with tail := val } := by
  rw [ringDoorbell_of_live live, if_neg ne, if_pos]
  simp only [ahead, fits, order, decide_true, Bool.and_self]

/-- A value ahead of TAIL and beyond the ring is reported. -/
theorem ringDoorbell_beyond (ne : (val - (s.queue q).tail).toNat ≠ 0) (ahead : (val - (s.queue q).tail).toNat < 2 ^ 31)
    (beyond : 2 ^ (s.queue q).ringlog2 < (val - (s.queue q).head).toNat) :
    s.ringDoorbell q val = s.hkEvent 3 (s.queue q).part (w64 q) (val.setWidth 64) := by
  have out : ¬ (val - (s.queue q).head).toNat ≤ 2 ^ (s.queue q).ringlog2 := by omega
  rw [ringDoorbell_of_live live, if_neg ne, if_neg (by simp only [out, decide_false, Bool.and_false, Bool.false_and, Bool.false_eq_true, not_false_eq_true]), if_pos]
  simp only [beyond, ahead, decide_true, Bool.and_self]

end Doorbell

/-- A staged record that waits has its re-read due. -/
def Staged.rereadDue (r : Staged) : Staged :=
  match r.st with
  | .depWait _ => { r with st := .depWait true }
  | _ => r

/-- A queue's re-read is its staged record's. -/
theorem rereadDue_eq (x : Queue) : x.rereadDue = { x with staged := x.staged.map Staged.rereadDue } := by
  obtain ⟨⟩ := x
  rename_i staged _ _ _
  cases staged with
  | none => rfl
  | some r =>
    obtain ⟨src, st, res, gang, mate, dis⟩ := r
    cases st <;> rfl

/-- No write makes the block of a queue nobody created due. -/
theorem waitsOn_fresh (s : State) (q pa n : Nat) : s.waitsOn (Queue.fresh q) pa n = false := rfl

theorem rereadDue_qid (x : Queue) : x.rereadDue.qid = x.qid := by rw [rereadDue_eq]

/-- A write of the word that a queue's staged record waits on makes its re-read due (04 R76). -/
theorem queue_noteWrite {s : State} {q pa n : Nat} (h : s.waitsOn (s.queue q) pa n = true) : (s.noteWrite pa n).queue q = (s.queue q).rereadDue := by
  have keeps : ((fun x : Queue => x.qid == q) ∘ fun x => if s.waitsOn x pa n then x.rereadDue else x) = fun x => x.qid == q := by
    funext x
    simp only [Function.comp]
    split
    · rw [rereadDue_qid]
    · rfl
  unfold State.queue at h ⊢
  rw [State.noteWrite, List.find?_map, keeps]
  cases found : s.queues.find? fun x => x.qid == q with
  | none => rw [found, Option.getD_none, waitsOn_fresh] at h; cases h
  | some x => rw [found, Option.getD_some] at h; simp [h]

/-- An empty resume list gives no record. -/
theorem stageResume_nil (s : State) (q : Nat) (seen : List TaskSrc) : s.stageResume q seen [] = none := rfl

/-- Nothing is read for a queue that is not OPEN, has a staged record, or has nothing to stage. -/
theorem execRecordRead_idle {s : State} {q : Nat}
    (h : (s.queue q).state ≠ .opened ∨ (s.queue q).staged ≠ none ∨ ((s.queue q).resume = [] ∧ (s.queue q).head = (s.queue q).tail)) :
    execRecordRead q s = .next s := by
  unfold execRecordRead
  rcases h with h | h | ⟨hr, ht⟩
  · simp [h]
  · simp [h]
  · simp only [hr, ht, stageResume_nil, ne_eq, not_true_eq_false, if_false, ite_self]

/-- Nothing is read for a queue whose turn it is not (05 R85). -/
theorem execRecordRead_other {s : State} {q : Nat} (h : s.nextToStage ≠ some q) : execRecordRead q s = .next s := by
  simp [execRecordRead, h]

/-- The queue whose turn it is reads its ring where its resume list is empty (04 R72, 05 R85). -/
theorem execRecordRead_ring {s : State} {q : Nat} (opened : (s.queue q).state = .opened) (free : (s.queue q).staged = none) (room : s.stageCount < 8192)
    (fresh : (s.queue q).resume = []) (more : (s.queue q).head ≠ (s.queue q).tail) (turn : s.nextToStage = some q) :
    execRecordRead q s = .next { s.readRing q 0 with lastStaged := q } := by
  rw [execRecordRead]
  simp only [fresh, stageResume_nil]
  rw [if_pos (by simp [opened, free, room, turn]), if_pos more]

/-- Nothing is read again where nothing is staged. -/
theorem execSeqRetry_empty {s : State} {q : Nat} (h : (s.queue q).staged = none) : execSeqRetry q s = .next s := by simp [execSeqRetry, h]

theorem execDependenceReread_empty {s : State} {q : Nat} (h : (s.queue q).staged = none) : execDependenceReread q s = .next s := by
  simp [execDependenceReread, h]

/-- A record whose SEQ did not match is read again, the tries counted (04 R73). -/
theorem execSeqRetry_reads {s : State} {q n : Nat} {r : Staged} (h : (s.queue q).staged = some r) (seq : r.st = .seqWait n)
    (opened : (s.queue q).state = .opened) : execSeqRetry q s = .next (s.readRing q (n + 1)) := by
  simp [execSeqRetry, h, seq, opened]

/-- A word is not read again before that is due. -/
theorem execDependenceReread_undue {s : State} {q : Nat} {r : Staged} (h : (s.queue q).staged = some r) (undue : r.st = .depWait false) :
    execDependenceReread q s = .next s := by
  simp [execDependenceReread, h, undue]

section Dependence
variable {s : State} {q : Nat} {r : Staged} (staged : (s.queue q).staged = some r) (due : r.st = .depWait true) (opened : (s.queue q).state = .opened)
include staged due opened

/-- A WAITADDR that does not translate stalls the queue (04 R79). -/
theorem execDependenceReread_stalls {e : Nat} (tr : s.translate (.panel (s.part (s.queue q).part).asid) (recWaitaddr r.src.task) (needSide false) = .err e) :
    execDependenceReread q s = .next (s.stall q (recWaitaddr r.src.task)) := by
  simp [execDependenceReread, staged, due, opened, Partition.space, tr]

variable {m : Mapped} (tr : s.translate (.panel (s.part (s.queue q).part).asid) (recWaitaddr r.src.task) (needSide false) = .ok m)
include tr

/-- The word 0 meets the dependence, a positive one leaves it waiting (04 R76). -/
theorem execDependenceReread_waits (small : s.hbm.read m.pa 4 < 2 ^ 31) :
    execDependenceReread q s = .next (s.modQueue q fun x =>
      { x with staged := some { r with st := if s.hbm.read m.pa 4 = 0 then .ready s.clk else .depWait false } }) := by
  have positive : ¬ 2 ^ 31 ≤ s.hbm.read m.pa 4 := by omega
  simp only [execDependenceReread, staged, Partition.space, tr]
  rw [if_pos (by simp [due, opened]), if_neg positive]

/-- A negative word fails the record (04 R76). -/
theorem execDependenceReread_fails (large : 2 ^ 31 ≤ s.hbm.read m.pa 4) :
    execDependenceReread q s = .next ((s.unstage q).endRecord q r.src 3 0 true) := by
  simp only [execDependenceReread, staged, Partition.space, tr]
  rw [if_pos (by simp [due, opened]), if_pos large]

end Dependence

/-- A CLOSING queue with nothing left is DISABLED (04 R79). -/
theorem execQueueClose_closes {s : State} {q : Nat} (closing : (s.queue q).state = .closing) (idle : (s.queue q).inflight = 0)
    (empty : (s.queue q).resume = []) : execQueueClose q s = .next
      { (s.modQueue q fun x => { x with state := .disabled, acbic := 0, acbmc := 0 }).hkEvent 5 (s.queue q).part (w64 q) 0 with
        hkUnits := s.hkUnits + (s.queue q).acbic, hkBytes := s.hkBytes + (s.queue q).acbmc } := by
  simp [execQueueClose, closing, idle, empty]

/-- Any other queue stays. -/
theorem execQueueClose_stays {s : State} {q : Nat} (h : (s.queue q).state ≠ .closing ∨ (s.queue q).inflight ≠ 0 ∨ (s.queue q).resume ≠ []) :
    execQueueClose q s = .next s := by
  rcases h with h | h | h <;> simp [execQueueClose, h]

/-- Check 1 comes first (04 R74). -/
theorem recCheck_malformed {r : List Word} (h : recVersion r ≠ 1 ∨ recClean r = false) (s : State) (part : Nat) (seqOk : Bool) :
    s.recCheck part r seqOk = some 1 := by
  unfold State.recCheck
  exact if_pos (by simpa using h)

/-- Check 2 is the SEQ (04 R74). -/
theorem recCheck_seq {r : List Word} (version : recVersion r = 1) (clean : recClean r = true) (s : State) (part : Nat) :
    s.recCheck part r false = some 2 := by
  simp [State.recCheck, version, clean]

/-- A record that fails a check ends REJECTED. -/
theorem stage_rejected {s : State} {q c : Nat} {r : TaskSrc} {seqOk : Bool} (h : s.recCheck (s.queue q).part r.task seqOk = some c) :
    s.stage q r seqOk = .taken (s.endRecord q r 1 c true) := by
  simp [State.stage, h]

section Ring
variable {s : State} {q n : Nat} {bs : List Byte}
  (page : s.readPage (s.part (s.queue q).part).space (needPlain false) ((s.queue q).slotAddr (s.queue q).head) 128 = .ok bs)
include page

/-- A record whose SEQ does not match waits to be read again (04 R73). -/
theorem readRing_waits (seq : recSeq (TaskSrc.of (bytesWords 16 bs) none).task ≠ (s.queue q).head.toNat) (few : n < 4) :
    s.readRing q n = s.modQueue q fun x =>
      { x with staged := some { src := TaskSrc.of (bytesWords 16 bs) none, st := .seqWait n, reserving := false, gang := none } } := by
  simp [State.readRing, page, seq, few]

/-- A record that is not read again and fails a check leaves the ring and ends REJECTED (04 R74). -/
theorem readRing_rejects {c : Nat} (final : recSeq (TaskSrc.of (bytesWords 16 bs) none).task = (s.queue q).head.toNat ∨ 4 ≤ n)
    (check : ∀ (s' : State) (part : Nat), s'.recCheck part (TaskSrc.of (bytesWords 16 bs) none).task
      (recSeq (TaskSrc.of (bytesWords 16 bs) none).task = (s.queue q).head.toNat) = some c) :
    s.readRing q n = (s.modQueue q fun x => { x with head := x.head + 1, inflight := x.inflight + 1, staged := none }).endRecord q
      (TaskSrc.of (bytesWords 16 bs) none) 1 c true := by
  simp only [State.readRing, page]
  rw [if_neg, stage_rejected (check _ _)]
  rcases final with h | h <;> simp [h]

end Ring

/-! Whose turn it is to be staged (05 R85). -/

/-- The queues that wait for a stage place, by QID. -/
def State.stageableIds (s : State) : List Nat := (s.queues.filter s.stageable).map (·.qid)

/-- A queue that waits for a place is OPEN, with none. -/
theorem mem_stageableIds {s : State} {r : Nat} (h : r ∈ s.stageableIds) : ∃ y ∈ s.queues, y.qid = r ∧ y.state = .opened ∧ y.staged = none := by
  obtain ⟨y, hy, rfl⟩ := List.mem_map.1 h
  obtain ⟨mem, can⟩ := List.mem_filter.1 hy
  simp only [State.stageable, Bool.and_eq_true, beq_iff_eq, Option.isNone_iff_eq_none] at can
  exact ⟨y, mem, rfl, can.1.1, can.1.2⟩

/-- An OPEN queue with no staged record and a record in its ring waits for a place. -/
theorem qid_mem_stageableIds {s : State} {z : Queue} (mem : z ∈ s.queues) (opened : z.state = .opened) (free : z.staged = none) (more : z.head ≠ z.tail) :
    z.qid ∈ s.stageableIds :=
  List.mem_map.2 ⟨z, List.mem_filter.2 ⟨mem, by simp [State.stageable, opened, free, more]⟩, rfl⟩

/-- The least waiting queue above the last, or else the least. -/
theorem nextToStage_eq (s : State) : s.nextToStage = (s.stageableIds.filter (s.lastStaged < ·)).min?.or s.stageableIds.min? := by
  unfold State.nextToStage
  dsimp only
  rw [← State.stageableIds]
  cases (s.stageableIds.filter (s.lastStaged < ·)).min? <;> rfl

/-- The queue whose turn it is waits for a place, and stands first of those after the last one served, in a circle. -/
theorem nextToStage_some {s : State} {r : Nat} (h : s.nextToStage = some r) : r ∈ s.stageableIds ∧
    ∀ z ∈ s.stageableIds, (s.lastStaged < z → s.lastStaged < r ∧ r ≤ z) ∧ (z ≤ s.lastStaged → s.lastStaged < r ∨ r ≤ z) := by
  rw [nextToStage_eq, Option.or_eq_some_iff] at h
  rcases h with above | ⟨none_above, least⟩
  · obtain ⟨mem, min⟩ := List.min?_eq_some_iff.1 above
    obtain ⟨mem, after⟩ := List.mem_filter.1 mem
    have after : s.lastStaged < r := by simpa using after
    exact ⟨mem, fun z hz => ⟨fun hlt => ⟨after, min z (List.mem_filter.2 ⟨hz, by simpa using hlt⟩)⟩, fun _ => .inl after⟩⟩
  · obtain ⟨mem, min⟩ := List.min?_eq_some_iff.1 least
    have below : ∀ z ∈ s.stageableIds, ¬ s.lastStaged < z := by simpa [List.min?_eq_none_iff] using none_above
    exact ⟨mem, fun z hz => ⟨fun hlt => absurd hlt (below z hz), fun _ => .inr (min z hz)⟩⟩

/-- No queue has its turn where none waits. -/
theorem nextToStage_none {s : State} (h : s.nextToStage = none) : s.stageableIds = [] := by
  rw [nextToStage_eq, Option.or_eq_none_iff] at h
  exact List.min?_eq_none_iff.1 h.2

end Sys2Proof.Machine
end

section
/-! PROOFS. The translation invalidate (11 R224, R225): its arguments, the accesses it waits for, and the entries it drops. -/

namespace Sys2Proof.Machine

/-- RANGED is bit 16 of TINV0. -/
theorem bit_ranged (c : TInv) : c.t0.bit 16 = true ↔ c.t0.toNat / 2 ^ 16 % 2 = 1 := by
  simp [Word.bit, BitVec.getLsbD, Nat.testBit_eq_decide_div_mod_eq]

/-- The arguments of a command that ends with result 2. -/
theorem bad_iff (c : TInv) : c.bad = true ↔ c.t0.toNat / 2 ^ 16 % 2 = 1 ∧ (c.t1.toNat % 4096 ≠ 0 ∨ 2 ^ 48 ≤ c.t1.toNat ∨ c.t2.toNat = 0 ∨
    c.t2.toNat % 4096 ≠ 0 ∨ 2 ^ 48 < c.t1.toNat + c.t2.toNat) := by
  rw [TInv.bad, Bool.and_eq_true, bit_ranged]
  simp [or_assoc]

/-- The first byte of the range. -/
theorem range_first (c : TInv) : c.range.1 = if c.t0.toNat / 2 ^ 16 % 2 = 1 then c.t1.toNat else 0 := by
  simp only [TInv.range, bit_ranged]
  split <;> rfl

/-- The end of the range. -/
theorem range_end (c : TInv) : c.range.1 + c.range.2 = if c.t0.toNat / 2 ^ 16 % 2 = 1 then c.t1.toNat + c.t2.toNat else 2 ^ 48 := by
  simp only [TInv.range, bit_ranged]
  split <;> rfl

/-- The largest page that may hold an address meets the bytes from `lo` below `hi`. -/
def nearRange (lo hi va : Nat) : Prop := va / 2 ^ 30 * 2 ^ 30 < hi ∧ lo < (va / 2 ^ 30 + 1) * 2 ^ 30

/-- An access of the address space that is outstanding and may have used an entry of a range (log entry 12). -/
theorem translatedEarlier_iff (s : State) (asid : Nat) (r : Nat × Nat) : s.translatedEarlier asid r = true ↔
    (∃ y ∈ s.memOps, y.asid = asid ∧ nearRange r.1 (r.1 + r.2) y.va) ∨
      ∃ t ∈ s.threads, s.asidOf t = asid ∧ ∃ y ∈ t.ioHeld, nearRange r.1 (r.1 + r.2) y.va := by
  simp [State.translatedEarlier, nearRange]

/-- A write of GO while a command runs changes nothing. -/
theorem invalidateGo_of_busy {s : State} (h : s.tinv.busy = true) : s.invalidateGo = s := if_pos h

theorem invalidateGo_bad {s : State} (idle : s.tinv.busy = false) (h : s.tinv.bad = true) :
    s.invalidateGo = { s with tinv := { s.tinv with result := 2 } } := by simp [State.invalidateGo, idle, h]

theorem invalidateGo_starts {s : State} (idle : s.tinv.busy = false) (h : ¬ s.tinv.bad = true) :
    s.invalidateGo = { s with tinv := { s.tinv with busy := true } } := by simp [State.invalidateGo, idle, h]

/-- No command runs, or one waits for an earlier access. -/
theorem invalidate_stays {s : State} (h : s.tinv.busy = false ∨ s.translatedEarlier (s.tinv.t0.toNat % 2 ^ 16) s.tinv.range = true) : s.invalidate = s := by
  rw [State.invalidate, if_pos (by rw [Bool.or_eq_true, Bool.not_eq_true']; exact h)]

/-- A running command that waits for nothing drops the entries and ends with result 0. -/
theorem invalidate_ends {s : State} (busy : s.tinv.busy = true) (h : ¬ s.translatedEarlier (s.tinv.t0.toNat % 2 ^ 16) s.tinv.range = true) :
    s.invalidate = { s.dropCached (s.tinv.t0.toNat % 2 ^ 16) s.tinv.range.1 s.tinv.range.2 with tinv := { s.tinv with busy := false, result := 0 } } := by
  rw [State.invalidate, if_neg (by simpa [busy] using h)]

/-- An entry of the address space that maps a byte from `lo` below `hi`. -/
def TlbEntry.inRange (asid lo hi : Nat) (e : TlbEntry) : Bool :=
  decide (e.asid = asid ∧ e.key * 2 ^ (3 + 9 * e.level) < hi ∧ lo < (e.key + 1) * 2 ^ (3 + 9 * e.level))

/-- Every tile keeps the entries that the range does not meet. -/
theorem dropCached_eq (s : State) (asid va n : Nat) : s.dropCached asid va n =
    { s with vtiles := s.vtiles.map fun v => { v with tlb := v.tlb.filter fun e => !TlbEntry.inRange asid va (va + n) e } } := by
  have same (e : TlbEntry) : (e.asid == asid && e.meets va n) = e.inRange asid va (va + n) := by
    rw [TlbEntry.inRange, Bool.decide_and, Bool.decide_and]
    rfl
  simp only [State.dropCached, same]

end Sys2Proof.Machine
end

section
/-! PROOFS. Queues (O47): each clause is a case of its operation, by the lemmas above. -/

namespace Sys2Proof.Machine

/-- Settles O47: a queue command answers by its checks in the order of 04 R70, and each event of a queue is one of the few cases of its operation, told apart by the queue's state, its staged record and its counters. -/
theorem queues : Obligations.Queues := by
  intro s q val q0 a1 a2 x src rsv n m e bs by' w t res ent log2 pt at' put
  have ent_eq : q0.field 0 16 = ent := field_low ..
  have log2_eq : q0.field 39 5 = log2 := field_eq ..
  have pt_eq : q0.field 24 8 = pt := field_eq ..
  have cap_eq : q0.field 32 4 = q0.toNat / 2 ^ 32 % 16 := field_eq ..
  have prio_eq : q0.field 36 3 = q0.toNat / 2 ^ 36 % 8 := field_eq ..
  refine ⟨fun up => ?block, ?turn, ?queue, fun r h => ?next, fun h z mem opened free => ?rest, ?invalidate⟩
  case block =>
    have written {o : Nat} (ho : o < 0x1000) (h8 : o % 8 = 0) : put o w = .next (s.qcmdWrite by' o (BitVec.allOnes 64) w) :=
      registerWrite_qcmd up ho h8 by' w
    refine ⟨(regWord_qcmd up (by decide)).trans (qcmdWord_status s), fun busy o ho => ?_, fun idle => ⟨?_, ?_, ?_, fun go => ?_, fun go => ?_⟩⟩
    · have place : o < 0x1000 ∧ o % 8 = 0 := by revert o; decide
      rw [written place.1 place.2, qcmdWrite_of_busy busy]
    · rw [written (by decide) rfl, qcmdWrite_q0 idle]
    · rw [written (by decide) rfl, qcmdWrite_q1 idle]
    · rw [written (by decide) rfl, qcmdWrite_q2 idle]
    · rw [written (by decide) rfl, qcmdWrite_go idle go]
    · rw [written (by decide) rfl, qcmdWrite_noGo idle go]
  case turn =>
    refine ⟨commandTurn_of_idle, fun busy => ⟨fun op => ?_, fun op => ?_, fun op => ?_, fun op => ?_, fun op host => ?_⟩⟩
    · exact commandTurn_of_exec busy (queueCommand_create _ op)
    · exact commandTurn_of_exec busy (queueCommand_destroy _ op)
    · exact commandTurn_of_exec busy (queueCommand_restart _ op)
    · exact commandTurn_of_exec busy (queueCommand_credit _ op)
    · rw [commandTurn_of_busy busy, queueCommand_host_other op host]; rfl
  case queue =>
    intro hq here
    subst here
    have answer (s' : State) (k : Nat) : res s' k = .next (s'.qresult k) := rfl
    have create (src : Source) : exec (.queueCreate src q0 a1) s = .next (s.queueCreate src q0 a1) := rfl
    have destroy (src : Source) := exec_queueDestroy_of_lt hq s src
    have restart (src : Source) := exec_queueRestart_of_lt hq s src
    have credit (src : Source) := exec_queueCredit_of_lt hq s src a1 a2
    have poor : s.badCreate q0 a1 ↔ log2 < 4 ∨ 16 < log2 ∨ a1.toNat % 4096 ≠ 0 ∨ 2 ^ 48 ≤ a1.toNat ∨ (s.part pt).valid = false := by
      rw [State.badCreate, log2_eq, pt_eq]
    rw [← poor, ← ent_eq]
    refine ⟨fun used => ?used, fun free bad => ?bad, fun free good => ?opens, fun h => ?refused, fun live => ?live, fun h => ?running, fun h => ?stalled,
      fun vt slot => ?thread, fun vt slot h => ?foreign, ?doorbell, execRecordRead_idle, execRecordRead_ring, execRecordRead_other,
      fun staged opened => execSeqRetry_reads staged rfl opened, fun h => ⟨execSeqRetry_empty h, execDependenceReread_empty h⟩,
      fun staged => ⟨execDependenceReread_undue staged rfl, fun k pa tr low high => ?written⟩, fun staged opened => ?due,
      execQueueClose_closes, execQueueClose_stays, fun page => ?ring⟩
    case used => rw [create, queueCreate_used used, answer]
    case bad => rw [create, queueCreate_bad free bad, answer]
    case opens => rw [create, queueCreate_opens free good, log2_eq, pt_eq, cap_eq, prio_eq, answer]
    case refused =>
      have refused : (s.queue q).state ≠ .opened ∧ (s.queue q).state ≠ .stalled := by rcases h with h | h <;> simp [h]
      rw [destroy, credit, queueDestroy_refused refused, queueCredit_refused refused, answer]
      exact ⟨rfl, rfl⟩
    case live =>
      refine ⟨fun unstaged none' => ?_, fun unstaged one => ?_, fun bad => ?_, fun h1 h2 => ?_⟩
      · rw [destroy, queueDestroy_unstaged live unstaged, none', answer, List.foldl_nil]
      · rw [destroy, queueDestroy_unstaged live unstaged, one, answer, List.foldl_cons, List.foldl_nil]
      · rw [credit, queueCredit_bad live bad, answer]
      · rw [credit, queueCredit_adds live h1 h2, answer]
    case running => rw [restart, queueRestart_refused h, answer]
    case stalled => rw [restart, queueRestart_opens h, answer]
    case thread =>
      rw [create, destroy, queueCreate_denied (mayCommand_thread_of_ne s vt slot _ (by decide)),
        queueDestroy_denied (mayCommand_thread_of_ne s vt slot _ (by decide)), answer]
      exact ⟨rfl, rfl⟩
    case foreign =>
      have denied := mayCommand_thread_of_foreign h
      rw [restart, credit, queueRestart_denied (denied 3), queueCredit_denied (denied 4), answer]
      exact ⟨rfl, rfl⟩
    case doorbell =>
      have ring := exec_doorbell_of_lt hq s val
      refine ⟨fun dead => ?_, fun live zero => ?_, fun live behind => ?_, fun live ne ⟨ahead, fits, order⟩ => ?_, fun live ne ahead beyond => ?_⟩
      · rw [ring, ringDoorbell_of_not_live dead]
      · rw [ring, ringDoorbell_again live zero, funext rereadDue_eq]; rfl
      · rw [ring, ringDoorbell_behind live behind]
      · rw [ring, ringDoorbell_moves live ne ahead fits order]
      · rw [ring, ringDoorbell_beyond live ne ahead beyond]; rfl
    case written =>
      have waits : s.waitsOn (s.queue q) pa k = true := by simp [State.waitsOn, staged, tr, low, high]
      rw [queue_noteWrite waits, rereadDue_eq, staged]; rfl
    case due =>
      refine ⟨execDependenceReread_stalls staged rfl opened, fun tr => ⟨fun zero => ?_, fun pos small => ?_, execDependenceReread_fails staged rfl opened tr⟩⟩
      · rw [exec_dependenceReread, execDependenceReread_waits staged rfl opened tr (by omega), if_pos zero]
      · rw [exec_dependenceReread, execDependenceReread_waits staged rfl opened tr small, if_neg (by omega)]
    case ring =>
      refine ⟨readRing_waits page, fun seq tries version clean => ?_, fun bad seq => ?_⟩
      · exact readRing_rejects page (.inr tries) fun s' part =>
          (congrArg (s'.recCheck part _) (decide_eq_false seq)).trans (recCheck_seq version clean s' part)
      · exact readRing_rejects page (.inl seq) fun s' part => recCheck_malformed bad s' part _
  case next =>
    obtain ⟨mem, nearest⟩ := nextToStage_some h
    exact ⟨mem_stageableIds mem, fun z hz opened free more => nearest z.qid (qid_mem_stageableIds hz opened free more)⟩
  case rest =>
    exact Decidable.byContradiction fun more => List.not_mem_nil (nextToStage_none h ▸ qid_mem_stageableIds mem opened free more)
  case invalidate =>
    have earlier := translatedEarlier_iff s (s.tinv.t0.toNat % 2 ^ 16) s.tinv.range
    rw [range_end, range_first] at earlier
    refine ⟨invalidateGo_of_busy, fun idle bad => invalidateGo_bad idle ((bad_iff _).2 bad),
      fun idle good => invalidateGo_starts idle (mt (bad_iff _).1 good), fun h => ?_, fun busy h => ?_⟩
    · exact congrArg Host.Outcome.next (invalidate_stays (h.imp_right earlier.2))
    · rw [exec_translationInvalidate, execTranslationInvalidate, invalidate_ends busy (mt earlier.1 h), dropCached_eq, range_end, range_first]
      rfl

end Sys2Proof.Machine
end

section
/-! PROOFS. Decode of encode, layer by layer: bytes as words, the `Prefix` word, the base word's fields, what follows it, and the instruction of the fields (06 R102, R103, R106, R107, R111-R113). -/

namespace Sys2Proof

/-- A field at or above the low part of an append lies in the high part. -/
theorem extract_above {m n lo k : Nat} (x : BitVec m) (y : BitVec n) (h : n ≤ lo) :
    (x ++ y).extractLsb' lo k = x.extractLsb' (lo - n) k := by
  ext i hi
  have hn : ¬ lo + i < n := by omega
  have hs : lo + i - n = lo - n + i := by omega
  simp [BitVec.getLsbD_append, hn, hs]

/-- A bit at or above the low part of an append lies in the high part. -/
theorem bit_above {m n lo : Nat} (x : BitVec m) (y : BitVec n) (h : n ≤ lo) : (x ++ y).getLsbD lo = x.getLsbD (lo - n) := by
  simp [BitVec.getLsbD_append, Nat.not_lt.2 h]

/-- A flag is the lowest bit of what it ends. -/
theorem bit_low_encB {m : Nat} (x : BitVec m) (b : Bool) : (x ++ encB b).getLsbD 0 = b := by
  rw [BitVec.getLsbD_append]; exact encB_bit b

/-- A base word reads back its fields (06 R106). -/
theorem Fields.unpack_pack (f : Fields) : Fields.unpack f.pack = f := by
  rcases f with ⟨imm, x, pn, pr, c, b, a, d, fn, opc, len⟩
  simp only [Fields.unpack, Fields.pack, Fields.mk.injEq]
  refine ⟨?imm, ?_, ?_, ?_, ?_, ?_, ?_, ?_, ?_, ?_, ?_⟩
  all_goals repeat refine (extract_above _ _ (by decide)).trans ?_
  case imm => exact BitVec.extractLsb'_eq_self
  all_goals exact extract_low _ _

/-- The flag and the field of an optional entry give it back. -/
theorem entry_back {n : Nat} (o : Option (BitVec n)) : (if o.isSome then some (o.getD 0) else none) = o := by
  cases o <;> rfl

/-- A `Prefix` word reads back its fields (06 R111). -/
theorem Prefix.dec_enc (q : Prefix) : Prefix.dec q.enc = some q := by
  have bits : q.enc.getLsbD 21 = q.dhi.isSome ∧ q.enc.getLsbD 20 = q.evict.isSome ∧
      q.enc.getLsbD 19 = q.scope.isSome ∧ q.enc.getLsbD 18 = q.ord.isSome := by
    refine ⟨?_, ?_, ?_, ?_⟩
    all_goals
      repeat refine (bit_above _ _ (by decide)).trans ?_
      exact bit_low_encB _ _
  have fields : q.enc.extractLsb' 32 16 = q.dhi.getD 0 ∧ q.enc.extractLsb' 15 3 = q.evict.getD 0 ∧
      q.enc.extractLsb' 12 3 = q.scope.getD 0 ∧ q.enc.extractLsb' 10 2 = q.ord.getD 0 := by
    refine ⟨?_, ?_, ?_, ?_⟩
    all_goals
      repeat refine (extract_above _ _ (by decide)).trans ?_
      exact extract_low _ _
  obtain ⟨b21, b20, b19, b18⟩ := bits
  obtain ⟨dhi, evict, scope, ord⟩ := fields
  simp only [Prefix.dec, b21, b20, b19, b18, dhi, evict, scope, ord, entry_back]
  exact if_true ..

/-- The lowest two bits of a `Prefix` word are 3 (06 R111). -/
theorem Prefix.enc_low (q : Prefix) : q.enc.extractLsb' 0 2 = 3 := extract_low _ _

/-- The lowest two bits of a base word are its LEN (06 R102). -/
theorem Fields.pack_low (f : Fields) : f.pack.extractLsb' 0 2 = f.len := extract_low _ _

/-- A 64-bit word is its two halves. -/
theorem halves_join (w : BitVec 64) : w.extractLsb' 32 32 ++ w.extractLsb' 0 32 = w := join_halves (m := 32) (n := 32) w

/-- The bytes of a word read back as it. -/
theorem bytesToWords_wordBytes (w : BitVec 32) (r : List Byte) : bytesToWords (wordBytes w ++ r) = w :: bytesToWords r := by
  have back : w.extractLsb' 24 8 ++ w.extractLsb' 16 8 ++ w.extractLsb' 8 8 ++ w.extractLsb' 0 8 = w := by
    iterate 3 rw [BitVec.extractLsb'_append_extractLsb'_eq_extractLsb' (by decide)]
    exact BitVec.extractLsb'_eq_self
  exact congrArg (· :: bytesToWords r) back

/-- The bytes of words read back as them. -/
theorem bytesToWords_flatMap (l : List (BitVec 32)) (r : List Byte) : bytesToWords (l.flatMap wordBytes ++ r) = l ++ bytesToWords r := by
  induction l with
  | nil => rfl
  | cons w l ih => rw [List.flatMap_cons, List.append_assoc, bytesToWords_wordBytes, ih]; rfl

/-- What stands before a word offset is dropped with the words before it. -/
theorem drop_bytesToWords : ∀ (pre r : List Byte), pre.length % 4 = 0 → (bytesToWords (pre ++ r)).drop (pre.length / 4) = bytesToWords r
  | [], _, _ => rfl
  | _ :: _ :: _ :: _ :: pre, r, h => by
    have whole : pre.length % 4 = 0 := by simp only [List.length_cons] at h; omega
    have more : (pre.length + 1 + 1 + 1 + 1) / 4 = pre.length / 4 + 1 := by omega
    simp only [List.length_cons, List.cons_append, bytesToWords, more, List.drop_succ_cons]
    exact drop_bytesToWords pre r whole
  | [_], _, h => absurd h (by simp)
  | [_, _], _, h => absurd h (by simp)
  | [_, _, _], _, h => absurd h (by simp)

/-- Base word and what follows it are read as the fields that were laid out (06 R102, R107). -/
theorem decodeBody_words (dec : Enc → Option Instr) {w : Enc} {i : Instr} (len : w.f.len = w.e.len) (h : dec w = some i)
    (pw : BitVec 64) (plen : Nat) (rest : List (BitVec 32)) :
    decodeBody dec w.px pw plen (words32 w.f.pack ++ w.e.words ++ rest) = .ok i (plen + 4 * (words32 w.f.pack ++ w.e.words).length) := by
  rcases w with ⟨f, e, px⟩
  replace len : f.len = e.len := len
  cases e <;> simp [Ext.words, words32, decodeBody, halves_join, Fields.unpack_pack, len, Ext.len, h]

/-- No form has LEN 3 (06 R102). -/
theorem len_ne_three (e : Ext) : e.len ≠ 3 := by cases e <;> simp [Ext.len]

/-- A word that does not end in 3 begins an instruction without a `Prefix` (06 R102). -/
theorem decodeWordsWith_base (dec : Enc → Option Instr) {b : BitVec 64} (h : b.extractLsb' 0 2 ≠ 3) (rest : List (BitVec 32)) :
    decodeWordsWith dec (words32 b ++ rest) = decodeBody dec none b 0 (words32 b ++ rest) := by
  simp only [words32, List.cons_append, List.nil_append, decodeWordsWith, halves_join, if_neg h]

/-- A `Prefix` word applies to the base word behind it (06 R111, R112). -/
theorem decodeWordsWith_prefix (dec : Enc → Option Instr) (q : Prefix) (b : BitVec 64) (rest : List (BitVec 32)) :
    decodeWordsWith dec (words32 q.enc ++ (words32 b ++ rest)) = decodeBody dec (some q) q.enc 8 (words32 b ++ rest) := by
  simp only [words32, List.cons_append, List.nil_append, decodeWordsWith, halves_join, if_pos (Prefix.enc_low q), Prefix.dec_enc]

/-- The words of an encoding whose LEN is right are read as what `dec` makes of it (06 R102, R107, R111, R112). -/
theorem decodeWordsWith_words (dec : Enc → Option Instr) {w : Enc} {i : Instr} (len : w.f.len = w.e.len) (h : dec w = some i)
    (rest : List (BitVec 32)) : decodeWordsWith dec (w.words ++ rest) = .ok i (4 * w.words.length) := by
  have read := decodeBody_words dec len h
  rcases w with ⟨f, e, px⟩
  cases px with
  | none =>
    have base : f.pack.extractLsb' 0 2 ≠ 3 := by rw [Fields.pack_low, len]; exact len_ne_three e
    specialize read f.pack 0 rest
    rw [List.append_assoc, ← decodeWordsWith_base dec base, ← List.append_assoc, Nat.zero_add] at read
    exact read
  | some q =>
    specialize read q.enc 8 rest
    rw [List.append_assoc, ← decodeWordsWith_prefix] at read
    simp only [Enc.words, List.append_assoc, List.length_append] at read ⊢
    rw [read]
    congr 1
    simp [words32]; omega

/-- What was laid out at a word offset is read there (06 R103). -/
theorem decodeAt_encode {i : Instr} {w : Enc} (enc : i.enc = some w) (len : w.f.len = w.e.len) (h : decodeEnc w = some i)
    {pre : List Byte} (aligned : pre.length % 4 = 0) (rest : List Byte) :
    decodeAt (pre ++ (encode i).flatMap wordBytes ++ rest) pre.length = .ok i (4 * (encode i).length) := by
  have laid : encode i = w.words := by rw [encode, enc]
  rw [decodeAt, decodeAtWith, if_neg (fun off => off aligned), List.append_assoc, drop_bytesToWords _ _ aligned, bytesToWords_flatMap, laid]
  exact decodeWordsWith_words decodeEnc len h _

/-- A candidate with this encoding and admitted fields is the instruction (06 R113). -/
theorem decodeEnc_of_candidate {i : Instr} {w : Enc} (enc : i.enc = some w) (wf : i.wf = true) (h : candidate w.f w.e w.px = some i) :
    decodeEnc w = some i := by
  rw [decodeEnc, h]; exact if_pos ⟨enc, wf⟩

end Sys2Proof
end

section
/-! PROOFS. The encoding law of every row, and decode of encode. -/

namespace Sys2Proof.Laws.Encoding

/-- The law of every row of the encoding tables, and of every event, which has no encoding. -/
theorem statement_holds : ∀ i : Instr, Statement i
  | .deviceReset .. => deviceReset _ _ | .nop => nop | .pad => pad | .br .. => br _ _ | .brLong .. => brLong _ _ | .brReg .. => brReg _ _
  | .brC .. => brC _ _ _ _ _ | .brCLong .. => brCLong _ _ _ _ _ | .brCImm .. => brCImm _ _ _ _ _ | .call .. => call _ _ _
  | .callLong .. => callLong _ _ _ | .callReg .. => callReg _ _ _ | .ret .. => ret _ _ | .halt .. => halt _ | .realign .. => realign _ _
  | .realignResume .. => realignResume _ _ | .loop .. => loop _ _ _ | .loopImm .. => loopImm _ _ _ | .loopEnd .. => loopEnd _ | .rep .. => rep _ _ _
  | .repImm .. => repImm _ _ _ | .qPush .. => qPush _ _ _ | .qEos .. => qEos _ _ | .qPop .. => qPop _ _ _ | .qPeek .. => qPeek _ _ _
  | .qTest .. => qTest _ _ _ | .fetchRequestServe .. => fetchRequestServe _ | .add .. => add _ _ _ _ _ | .sub .. => sub _ _ _ _ _
  | .addImm .. => addImm _ _ _ _ _ | .addImmLong .. => addImmLong _ _ _ _ _ | .subImm .. => subImm _ _ _ _ _ | .subImmLong .. => subImmLong _ _ _ _ _
  | .mul .. => mul _ _ _ _ _ | .mulh .. => mulh _ _ _ _ _ | .div .. => div _ _ _ _ _ | .divU .. => divU _ _ _ _ _ | .rem .. => rem _ _ _ _ _
  | .remU .. => remU _ _ _ _ _ | .min .. => min _ _ _ _ | .max .. => max _ _ _ _ | .minU .. => minU _ _ _ _ | .maxU .. => maxU _ _ _ _
  | .abs .. => abs _ _ _ _ | .neg .. => neg _ _ _ _ | .and .. => and _ _ _ _ | .or .. => or _ _ _ _ | .xor .. => xor _ _ _ _
  | .andn .. => andn _ _ _ _ | .not .. => not _ _ _ | .andImm .. => andImm _ _ _ _ | .andImmLong .. => andImmLong _ _ _ _ | .orImm .. => orImm _ _ _ _
  | .orImmLong .. => orImmLong _ _ _ _ | .xorImm .. => xorImm _ _ _ _ | .xorImmLong .. => xorImmLong _ _ _ _ | .shl .. => shl _ _ _ _ _
  | .shlImm .. => shlImm _ _ _ _ _ | .shr .. => shr _ _ _ _ _ | .shrImm .. => shrImm _ _ _ _ _ | .sar .. => sar _ _ _ _ _
  | .sarImm .. => sarImm _ _ _ _ _ | .rot .. => rot _ _ _ _ _ | .rotImm .. => rotImm _ _ _ _ _ | .cmpP .. => cmpP _ _ _ _ _
  | .cmpPImm .. => cmpPImm _ _ _ _ _ | .cmpPImmLong .. => cmpPImmLong _ _ _ _ _ | .cmpS .. => cmpS _ _ _ _ _ | .cmpSImm .. => cmpSImm _ _ _ _ _
  | .cmpSImmLong .. => cmpSImmLong _ _ _ _ _ | .selP .. => selP _ _ _ _ _ | .selS .. => selS _ _ _ _ _ | .bfX .. => bfX _ _ _ _ _ _
  | .bfI .. => bfI _ _ _ _ _ | .clz .. => clz _ _ _ _ | .ctz .. => ctz _ _ _ _ | .popc .. => popc _ _ _ _ | .lea .. => lea _ _ _ _ _ _
  | .leaLong .. => leaLong _ _ _ _ _ _ | .leaPc .. => leaPc _ _ _ | .li .. => li _ _ _ | .liLong .. => liLong _ _ _ | .pAnd .. => pAnd _ _ _ _
  | .pOr .. => pOr _ _ _ _ | .pXor .. => pXor _ _ _ _ | .pNot .. => pNot _ _ _ | .pMov .. => pMov _ _ _ | .pMovFromScalar .. => pMovFromScalar _ _ _
  | .pMovToScalar .. => pMovToScalar _ _ _ | .csrRd .. => csrRd _ _ _ | .csrWr .. => csrWr _ _ _ _ | .csrSet .. => csrSet _ _ _ _
  | .csrClr .. => csrClr _ _ _ _ | .vAdd .. => vAdd _ _ _ _ _ _ | .vSub .. => vSub _ _ _ _ _ _ | .vMul .. => vMul _ _ _ _ _ _
  | .vMulh .. => vMulh _ _ _ _ _ _ | .vMac .. => vMac _ _ _ _ _ _ | .vMin .. => vMin _ _ _ _ _ _ | .vMax .. => vMax _ _ _ _ _ _
  | .vAbs .. => vAbs _ _ _ _ _ | .vNeg .. => vNeg _ _ _ _ _ | .vAddScalar .. => vAddScalar _ _ _ _ _ _ | .vSubScalar .. => vSubScalar _ _ _ _ _ _
  | .vMulScalar .. => vMulScalar _ _ _ _ _ _ | .vMulhScalar .. => vMulhScalar _ _ _ _ _ _ | .vMacScalar .. => vMacScalar _ _ _ _ _ _
  | .vMinScalar .. => vMinScalar _ _ _ _ _ _ | .vMaxScalar .. => vMaxScalar _ _ _ _ _ _ | .vAddImm .. => vAddImm _ _ _ _ _ _
  | .vAddImmLong .. => vAddImmLong _ _ _ _ _ _ | .vSubImm .. => vSubImm _ _ _ _ _ _ | .vSubImmLong .. => vSubImmLong _ _ _ _ _ _
  | .vMulImm .. => vMulImm _ _ _ _ _ _ | .vMulImmLong .. => vMulImmLong _ _ _ _ _ _ | .vMinImm .. => vMinImm _ _ _ _ _ _
  | .vMinImmLong .. => vMinImmLong _ _ _ _ _ _ | .vMaxImm .. => vMaxImm _ _ _ _ _ _ | .vMaxImmLong .. => vMaxImmLong _ _ _ _ _ _
  | .vAnd .. => vAnd _ _ _ _ | .vOr .. => vOr _ _ _ _ | .vXor .. => vXor _ _ _ _ | .vAndn .. => vAndn _ _ _ _ | .vNot .. => vNot _ _ _
  | .vShl .. => vShl _ _ _ _ _ | .vShlImm .. => vShlImm _ _ _ _ _ | .vShr .. => vShr _ _ _ _ _ | .vShrImm .. => vShrImm _ _ _ _ _
  | .vSar .. => vSar _ _ _ _ _ | .vSarImm .. => vSarImm _ _ _ _ _ | .vRot .. => vRot _ _ _ _ _ | .vRotImm .. => vRotImm _ _ _ _ _
  | .vClz .. => vClz _ _ _ _ | .vPopc .. => vPopc _ _ _ _ | .vFadd .. => vFadd _ _ _ _ _ | .vFsub .. => vFsub _ _ _ _ _ | .vFmul .. => vFmul _ _ _ _ _
  | .vFmin .. => vFmin _ _ _ _ | .vFmax .. => vFmax _ _ _ _ | .vFaddScalar .. => vFaddScalar _ _ _ _ _ | .vFsubScalar .. => vFsubScalar _ _ _ _ _
  | .vFmulScalar .. => vFmulScalar _ _ _ _ _ | .vFminScalar .. => vFminScalar _ _ _ _ | .vFmaxScalar .. => vFmaxScalar _ _ _ _
  | .vFma .. => vFma _ _ _ _ _ _ | .vFms .. => vFms _ _ _ _ _ _ | .vFnma .. => vFnma _ _ _ _ _ _ | .vFdiv .. => vFdiv _ _ _ _ _
  | .vFsqrt .. => vFsqrt _ _ _ _ | .vFrcp .. => vFrcp _ _ _ _ | .vFrsq .. => vFrsq _ _ _ _ | .vFabs .. => vFabs _ _ _ | .vFneg .. => vFneg _ _ _
  | .vFcopysign .. => vFcopysign _ _ _ _ | .vFclass .. => vFclass _ _ _ | .vFscale .. => vFscale _ _ _ _ _ | .vFround .. => vFround _ _ _ _
  | .vCmp .. => vCmp _ _ _ _ _ | .vCmpScalar .. => vCmpScalar _ _ _ _ _ | .vFcmp .. => vFcmp _ _ _ _ _ | .vFcmpScalar .. => vFcmpScalar _ _ _ _ _
  | .vPerm .. => vPerm _ _ _ _ | .vPerm2 .. => vPerm2 _ _ _ _ _ | .vShuf .. => vShuf _ _ _ _ _ | .vBcast .. => vBcast _ _ _
  | .vBcastLane .. => vBcastLane _ _ _ _ | .vBcastImm .. => vBcastImm _ _ _ | .vBcastQ .. => vBcastQ _ _ _ | .vSlide .. => vSlide _ _ _ _ _
  | .vMov .. => vMov _ _ _ | .vSel .. => vSel _ _ _ _ _ | .vMovToLane .. => vMovToLane _ _ _ _ | .vMovFromLane .. => vMovFromLane _ _ _ _
  | .vRedAdd .. => vRedAdd _ _ _ _ | .vRedMin .. => vRedMin _ _ _ _ | .vRedMax .. => vRedMax _ _ _ _ | .vRedAnd .. => vRedAnd _ _ _
  | .vRedOr .. => vRedOr _ _ _ | .vRedXor .. => vRedXor _ _ _ | .vRedFadd .. => vRedFadd _ _ _ _ | .vRedFmin .. => vRedFmin _ _ _
  | .vRedFmax .. => vRedFmax _ _ _ | .vScanAdd .. => vScanAdd _ _ _ _ | .vScanMin .. => vScanMin _ _ _ _ | .vScanMax .. => vScanMax _ _ _ _
  | .vScanXadd .. => vScanXadd _ _ _ _ | .vScanFadd .. => vScanFadd _ _ _ _ | .vScanFmin .. => vScanFmin _ _ _ | .vScanFmax .. => vScanFmax _ _ _
  | .vCvtN .. => vCvtN _ _ _ _ _ _ _ | .vCvtW .. => vCvtW _ _ _ _ _ _ _ | .vLd .. => vLd _ _ _ _ _ | .vLdLong .. => vLdLong _ _ _ _ _
  | .vLdS .. => vLdS _ _ _ _ _ _ | .vLdSLong .. => vLdSLong _ _ _ _ _ _ | .vSt .. => vSt _ _ _ _ _ | .vStLong .. => vStLong _ _ _ _ _
  | .vStS .. => vStS _ _ _ _ _ _ | .vStSLong .. => vStSLong _ _ _ _ _ _ | .vLdQ .. => vLdQ _ _ _ _ _ | .vLdQLong .. => vLdQLong _ _ _ _ _
  | .vLdQS .. => vLdQS _ _ _ _ _ _ | .vLdQSLong .. => vLdQSLong _ _ _ _ _ _ | .vStQ .. => vStQ _ _ _ _ _ | .vStQLong .. => vStQLong _ _ _ _ _
  | .vStQS .. => vStQS _ _ _ _ _ _ | .vStQSLong .. => vStQSLong _ _ _ _ _ _ | .vGath .. => vGath _ _ _ _ _ _ _ | .vScat .. => vScat _ _ _ _ _ _ _
  | .vTdec .. => vTdec _ _ _ _ _ _ _ | .vTdecLong .. => vTdecLong _ _ _ _ _ _ _ _ _ | .vTdecQ .. => vTdecQ _ _ _ _ _ _ _
  | .vTdecQLong .. => vTdecQLong _ _ _ _ _ _ _ _ _ | .vTenc .. => vTenc _ _ _ _ _ _ _ | .vTencLong .. => vTencLong _ _ _ _ _ _ _ _ _
  | .vTencQ .. => vTencQ _ _ _ _ _ _ _ | .vTencQLong .. => vTencQLong _ _ _ _ _ _ _ _ _ | .mxMma .. => mxMma _ _ _ _ _ _ _ _ _
  | .mxMmaLong .. => mxMmaLong _ _ _ _ _ _ _ _ _ _ _ | .mxMmaQ .. => mxMmaQ _ _ _ _ _ _ _ _ _ | .mxMmaQLong .. => mxMmaQLong _ _ _ _ _ _ _ _ _ _ _
  | .mxPlane .. => mxPlane _ _ _ _ _ _ _ _ | .mxPlaneLong .. => mxPlaneLong _ _ _ _ _ _ _ _ _ _ | .mxPlaneQ .. => mxPlaneQ _ _ _ _ _ _ _ _
  | .mxPlaneQLong .. => mxPlaneQLong _ _ _ _ _ _ _ _ _ _ | .mxUnplane .. => mxUnplane _ _ _ _ _ _ _ _
  | .mxUnplaneLong .. => mxUnplaneLong _ _ _ _ _ _ _ _ _ _ | .mxUnplaneQ .. => mxUnplaneQ _ _ _ _ _ _ _ _
  | .mxUnplaneQLong .. => mxUnplaneQLong _ _ _ _ _ _ _ _ _ _ | .mxSt .. => mxSt _ _ _ _ _ _ _ | .mxStLong .. => mxStLong _ _ _ _ _ _ _ _ _
  | .mxStQ .. => mxStQ _ _ _ _ _ _ _ | .mxStQLong .. => mxStQLong _ _ _ _ _ _ _ _ _ | .mxLd .. => mxLd _ _ _ _ _ | .mxZero .. => mxZero _ _ _
  | .mxMask .. => mxMask _ _ | .mxMaskImm .. => mxMaskImm _ _ _ _ | .mxMovToVector .. => mxMovToVector _ _ _ _ | .mxMovToAcc .. => mxMovToAcc _ _ _ _
  | .mxScr .. => mxScr _ _ | .mxScrInj .. => mxScrInj _ _ | .mxCommandStart .. => mxCommandStart _ _ | .mxCommandComplete .. => mxCommandComplete _ _
  | .ldB .. => ldB _ _ _ _ _ | .ldH .. => ldH _ _ _ _ _ | .ldW .. => ldW _ _ _ _ _ | .ldD .. => ldD _ _ _ _ _ | .ldBs .. => ldBs _ _ _ _ _
  | .ldHs .. => ldHs _ _ _ _ _ | .ldWs .. => ldWs _ _ _ _ _ | .stB .. => stB _ _ _ _ _ | .stH .. => stH _ _ _ _ _ | .stW .. => stW _ _ _ _ _
  | .stD .. => stD _ _ _ _ _ | .gldB .. => gldB _ _ _ _ _ | .gldH .. => gldH _ _ _ _ _ | .gldW .. => gldW _ _ _ _ _ | .gldD .. => gldD _ _ _ _ _
  | .gldBs .. => gldBs _ _ _ _ _ | .gldHs .. => gldHs _ _ _ _ _ | .gldWs .. => gldWs _ _ _ _ _ | .gstB .. => gstB _ _ _ _ _
  | .gstH .. => gstH _ _ _ _ _ | .gstW .. => gstW _ _ _ _ _ | .gstD .. => gstD _ _ _ _ _ | .staMap .. => staMap _ _ _ _ _ _ _
  | .staMapLong .. => staMapLong _ _ _ _ _ _ _ _ | .staFill .. => staFill _ _ _ _ | .staDrop .. => staDrop _ _ _ _ | .staWb .. => staWb _ _ _ _
  | .staTest .. => staTest _ _ _ _ | .stashFillComplete .. => stashFillComplete _ _ _ | .stashWritebackComplete .. => stashWritebackComplete _ _ _
  | .stFarB .. => stFarB _ _ _ _ _ | .stFarH .. => stFarH _ _ _ _ _ | .stFarW .. => stFarW _ _ _ _ _ | .stFarD .. => stFarD _ _ _ _ _
  | .cpGet .. => cpGet _ _ _ _ _ _ | .cpGetMc .. => cpGetMc _ _ _ _ _ _ _ | .cpPut .. => cpPut _ _ _ _ _ _ | .cpDeferGet .. => cpDeferGet _ _ _ _ _ _
  | .cpDeferPut .. => cpDeferPut _ _ _ _ _ _ | .cpCvt .. => cpCvt _ _ _ _ _ _ _ _ _ | .copyComplete .. => copyComplete _ _
  | .futWait .. => futWait _ _ _ | .futTest .. => futTest _ _ _ | .futPass .. => futPass _ _ _ _ | .futCancel .. => futCancel _ _
  | .asyncFaultFreeze .. => asyncFaultFreeze _ _ | .wdAsk .. => wdAsk _ _ _ _ | .wdAskLong .. => wdAskLong _ _ _ _ _
  | .wdAskComplete .. => wdAskComplete _ | .tgLd .. => tgLd _ _ _ _ _ _ | .tgSt .. => tgSt _ _ _ _ _ | .tgSet .. => tgSet _ _ _ _ _
  | .tgClr .. => tgClr _ _ _ _ _ | .tagWaitRetest .. => tagWaitRetest _ _ | .barArr .. => barArr _ _ | .barWait .. => barWait _
  | .barWaitGen .. => barWaitGen _ _ | .barTest .. => barTest _ _ _ | .barrierPhaseComplete .. => barrierPhaseComplete _ _ | .step .. => step _
  | .dataMovementPhase .. => dataMovementPhase _ _ _ | .checkpointCommit .. => checkpointCommit _ | .phaseRelease .. => phaseRelease _ _ _
  | .fence .. => fence _ _ | .atSwap .. => atSwap _ _ _ _ _ _ _ | .atCas .. => atCas _ _ _ _ _ _ _ _ | .atAdd .. => atAdd _ _ _ _ _ _ _
  | .atAnd .. => atAnd _ _ _ _ _ _ _ | .atOr .. => atOr _ _ _ _ _ _ _ | .atXor .. => atXor _ _ _ _ _ _ _ | .atMin .. => atMin _ _ _ _ _ _ _
  | .atMax .. => atMax _ _ _ _ _ _ _ | .atMinu .. => atMinu _ _ _ _ _ _ _ | .atMaxu .. => atMaxu _ _ _ _ _ _ _ | .atFadd .. => atFadd _ _ _ _ _ _
  | .redAdd .. => redAdd _ _ _ _ _ _ | .redAnd .. => redAnd _ _ _ _ _ _ | .redOr .. => redOr _ _ _ _ _ _ | .redXor .. => redXor _ _ _ _ _ _
  | .redMin .. => redMin _ _ _ _ _ _ | .redMax .. => redMax _ _ _ _ _ _ | .redMinu .. => redMinu _ _ _ _ _ _ | .redMaxu .. => redMaxu _ _ _ _ _ _
  | .redFadd .. => redFadd _ _ _ _ _ | .reductionPerform .. => reductionPerform _ | .wqWait .. => wqWait _ _ _ _ _ _
  | .wqWake .. => wqWake _ _ _ _ _ _ _ | .sigSend .. => sigSend _ _ _ | .sigTake .. => sigTake _ _ _ | .signalDelivery .. => signalDelivery _ _
  | .allAsleepTrap .. => allAsleepTrap _ | .permitAudit .. => permitAudit _ _ _ _ _ | .cont .. => cont _ _ _ _ _ _ _
  | .saveComplete .. => saveComplete _ | .spawn .. => spawn _ _ _ _ _ | .budAdd .. => budAdd _ _ _ _ | .budGive .. => budGive _ _ _ _ _
  | .budgetFault .. => budgetFault _ _ | .graceDecay .. => graceDecay _ _ | .leaseReq .. => leaseReq _ _ _ | .leaseReqImm .. => leaseReqImm _ _ _
  | .leaseEnd .. => leaseEnd _ | .leaseTest .. => leaseTest _ _ | .leasePeriodEnd .. => leasePeriodEnd _ | .zoneHardLimit .. => zoneHardLimit _ _
  | .zoneRefreezeChange .. => zoneRefreezeChange _ _ | .trap .. => trap _ _ _ | .supResume .. => supResume _ _ _ _
  | .supRestart .. => supRestart _ _ _ _ _ | .supAbort .. => supAbort _ _ _ _ _ _ | .heldPacketWrite .. => heldPacketWrite _ _
  | .watchdogTick .. => watchdogTick _ | .watchdogExpiry .. => watchdogExpiry _ | .scrRun .. => scrRun _ _ _ _ _ | .scrStat .. => scrStat _ _ _
  | .scrTestComplete .. => scrTestComplete _ _ _ | .testLeaveComplete .. => testLeaveComplete _
  | .infieldTestComplete .. => infieldTestComplete _ _ _ _ | .routineRotation => routineRotation | .forcedRotation .. => forcedRotation _
  | .rotationQuiescent .. => rotationQuiescent _ | .drainTimeout .. => drainTimeout _ | .stateCopyComplete .. => stateCopyComplete _
  | .stateCopyError .. => stateCopyError _ _ | .tableUpdateCommit .. => tableUpdateCommit _ | .tableUpdateReject .. => tableUpdateReject _ _
  | .replay .. => replay _ _ | .journalFold .. => journalFold _ _ | .retentionEntry .. => retentionEntry _ | .ageingDecay => ageingDecay
  | .ageingSnapshot => ageingSnapshot | .doorbell .. => doorbell _ _ | .queueCreate .. => queueCreate _ _ _ | .queueDestroy .. => queueDestroy _ _
  | .queueRestart .. => queueRestart _ _ | .queueCredit .. => queueCredit _ _ _ _ | .queueClose .. => queueClose _ | .recordRead .. => recordRead _
  | .seqRetry .. => seqRetry _ | .dependenceReread .. => dependenceReread _ | .selectionRound => selectionRound
  | .recordReserving .. => recordReserving _ | .bind .. => bind _ _ _ | .release .. => release _ _ | .preempt .. => preempt _ _
  | .scrubComplete .. => scrubComplete _ _ | .gangRetire .. => gangRetire _ | .translationInvalidate => translationInvalidate
  | .partitionDescriptorWrite .. => partitionDescriptorWrite _ _ | .savePoolWrite .. => savePoolWrite _ _ _
  | .faultRingWrite .. => faultRingWrite _ _ _ | .frheadWrite .. => frheadWrite _ _ | .drain .. => drain _ | .reset .. => reset _
  | .undrain .. => undrain _ | .debugWindowWrite .. => debugWindowWrite _ _ _ _ | .sepiaClr .. => sepiaClr _ _
  | .eventStreamWrite .. => eventStreamWrite _ _ _ | .evheadWrite .. => evheadWrite _ _ | .pcSample .. => pcSample _ _
  | .registerWrite .. => registerWrite _ _ _ _ | .bar2Read .. => bar2Read _ _ | .bar2Write .. => bar2Write _ _ | .portLinkUp .. => portLinkUp _ _
  | .portRingEnable .. => portRingEnable _ _ _ | .portDoorbell .. => portDoorbell _ _ _ | .descriptorStart .. => descriptorStart _ _
  | .descriptorComplete .. => descriptorComplete _ _ _ | .inboundWrite .. => inboundWrite _ _ _ _ _ _ | .firmwareChunkWrite => firmwareChunkWrite
  | .firmwareCommit .. => firmwareCommit _ | .attestation => attestation | .attestationReportReady => attestationReportReady
  | .hbmTempRead .. => hbmTempRead _ _ | .sliceFailure .. => sliceFailure _ _ | .copyCommandStart .. => copyCommandStart _
  | .patrolScrub .. => patrolScrub _ _ | .softError .. => softError _ | .portLinkDown .. => portLinkDown _

end Sys2Proof.Laws.Encoding

namespace Sys2Proof

/-- Settles O57: an encoding's LEN names the words that follow and the decoder's candidate for its fields is the instruction (one law per row), and every layer of the layout reads back what was laid out: bytes as words, the `Prefix` word, the base word's fields. -/
theorem roundTrip : Obligations.RoundTrip := by
  unfold Obligations.RoundTrip
  intro i pre rest wf encoded aligned
  obtain ⟨w, enc⟩ := Option.isSome_iff_exists.1 encoded
  obtain ⟨len, back⟩ := Laws.Encoding.statement_holds i w enc
  exact decodeAt_encode enc len (decodeEnc_of_candidate enc wf back) aligned rest

end Sys2Proof
end

section
/-! PROOFS. Words written out from the encoding tables, decoded. -/

namespace Sys2Proof

/-- A table word whose bytes are those of an instruction's encoding, and zeros behind them, decodes to the instruction. -/
theorem decodeTableWord_of_bytes {nbits w : Nat} {i : Instr} (wf : i.wf = true) (encoded : i.enc.isSome = true) (pad : Nat)
    (bytes : tableBytes nbits w = (encode i).flatMap wordBytes ++ List.replicate pad 0) : decodeTableWord nbits w = some i := by
  have back := roundTrip i [] (List.replicate pad 0) wf encoded rfl
  rw [List.nil_append, List.length_nil, ← bytes] at back
  rw [decodeTableWord, back]

end Sys2Proof

namespace Sys2Proof.Laws.Encoding

/-- Settles O56: each word's bytes are those of the encoding of its instruction, which decodes to itself. -/
theorem decodeWords : Obligations.DecodeWords := by
  unfold Obligations.DecodeWords
  refine ⟨?halt, ?loop, ?shl, ?fadd, ?mma, ?get, ?wake, ?lease, ?trap, ?scr⟩
  case get => exact decodeTableWord_of_bytes rfl rfl 20 (by decide)
  case wake => exact decodeTableWord_of_bytes rfl rfl 20 (by decide)
  all_goals exact decodeTableWord_of_bytes rfl rfl 24 (by decide)

end Sys2Proof.Laws.Encoding
end

section
/-! PROOFS. Every instruction row's meaning is an issue under the form of its encoding (06 R102, R109, R113, 07 R148, 15 R292): the shared operations are issues under a form of their own, the rows are told apart by the operation that carries them out. -/

namespace Sys2Proof.Machine

/-- `o` is the issue of some body under the form `f`. -/
def State.IsIssue (s : State) (f : Form) (o : Out) : Prop := ∃ body, o = s.issue f body

/-! Each shared operation is an issue: of a body of its own, or of the operation that it is made of. -/

theorem isIssue_issue (s : State) (f : Form) (body : State → Thread → Res) : s.IsIssue f (s.issue f body) := ⟨body, rfl⟩
theorem isIssue_onThread (s : State) (f : Form) (u : Nat) (g : Thread → Thread) : s.IsIssue f (s.onThread f u g) := isIssue_issue ..
theorem isIssue_scalar (s : State) (f : Form) (d : SReg) (g : Thread → Word × FFlags) : s.IsIssue f (s.scalar f d g) := isIssue_onThread ..
theorem isIssue_vector (s : State) (f : Form) (g : State → Thread → Bool → BitVec 32 → Res) : s.IsIssue f (s.vector f g) := isIssue_issue ..
theorem isIssue_laneOp (s : State) (f : Form) (d : VReg) (g : Thread → Bool → Fin 32 → Lane × FFlags) : s.IsIssue f (s.laneOp f d g) :=
  isIssue_vector ..
theorem isIssue_vArith (s : State) (f : Form) (op : VArith) (e : VWidth) (m : VMode) (d a : VReg) (b : Thread → Bool → Fin 32 → Nat → Nat) :
    s.IsIssue f (s.vArith f op e m d a b) := isIssue_laneOp ..
theorem isIssue_vLogic (s : State) (p : Pred) (d a b : VReg) (f : Lane → Lane → Lane) : s.IsIssue (Form.lanes 8 p) (s.vLogic p d a b f) :=
  isIssue_laneOp ..
theorem isIssue_vShiftOp (s : State) (p : Pred) (op : VShift) (e : VWidth) (d a : VReg) (n : Thread → Bool → Fin 32 → Nat → Nat) :
    s.IsIssue (Form.lanes 8 p) (s.vShiftOp p op e d a n) := isIssue_laneOp ..
theorem isIssue_vPermute (s : State) (len : Nat) (p : Pred) (d : VReg) (g : Thread → Bool → Nat → Lane) :
    s.IsIssue (Form.lanes len p) (s.vPermute len p d g) := isIssue_laneOp ..
theorem isIssue_floatOp (s : State) (p : Pred) (rm : RM) (d : VReg) (g : Thread → Bool → RM → Fin 32 → FVal × FFlags) :
    s.IsIssue (Form.lanes 8 p) (s.floatOp p rm d g) := isIssue_vector ..
theorem isIssue_vCompare (s : State) (p : Pred) (d : PReg) (g : Thread → Bool → Fin 32 → Bool × FFlags) :
    s.IsIssue (Form.lanes 8 p) (s.vCompare p d g) := isIssue_vector ..
theorem isIssue_vReduce (s : State) (p : Pred) (d a : VReg) (g : Thread → List (Nat × Lane) → Lane × FFlags) :
    s.IsIssue (Form.lanes 8 p) (s.vReduce p d a g) := isIssue_vector ..
theorem isIssue_vScan (s : State) (p : Pred) (d a : VReg) (g : Thread → List (Nat × Lane) → Lane → Lane × FFlags) :
    s.IsIssue (Form.lanes 8 p) (s.vScan p d a g) := isIssue_vector ..
theorem isIssue_mxScalar (s : State) (len : Nat) (p : Pred) (c : SReg) (body : State → Thread → Word → Res) :
    s.IsIssue (Form.blocked len p) (s.mxScalar len p c body) := isIssue_issue ..
theorem isIssue_mxQueue (s : State) (len : Nat) (p : Pred) (c : QReg) (body : State → Thread → Word → Res) :
    s.IsIssue (Form.blocked len p) (s.mxQueue len p c body) := isIssue_issue ..
theorem isIssue_localLoad (s : State) (p : Pred) (px : Option Prefix) (n : Nat) (sgn : Bool) (d a : SReg) (disp : BitVec 16) :
    s.IsIssue (Form.beside (plen px 8) p) (s.localLoad p px n sgn d a disp) := isIssue_issue ..
theorem isIssue_localStore (s : State) (p : Pred) (px : Option Prefix) (n : Nat) (a b : SReg) (disp : BitVec 16) :
    s.IsIssue (Form.beside (plen px 8) p) (s.localStore p px n a b disp) := isIssue_issue ..
theorem isIssue_globalLoad (s : State) (p : Pred) (n : Nat) (sgn : Bool) (d a : SReg) (disp : BitVec 24) :
    s.IsIssue (Form.blocked 12 p) (globalLoad p n sgn d a disp s) := isIssue_issue ..
theorem isIssue_globalStore (s : State) (p : Pred) (att : Attr) (n : Nat) (a b : SReg) (disp : BitVec 24) :
    s.IsIssue (Form.blocked 12 p) (globalStore p att n a b disp s) := isIssue_issue ..
theorem isIssue_farStore (s : State) (p : Pred) (att : Attr) (n : Nat) (a b c : SReg) :
    s.IsIssue (Form.blocked 12 p) (farStore p att n a b c s) := isIssue_issue ..
theorem isIssue_tagOp (s : State) (p : Pred) (px : Option Prefix) (a : SReg) (disp : BitVec 16) (write : Bool)
    (body : State → Thread → Nat → Bool → Res) : s.IsIssue (Form.blocked (plen px 8) p) (s.tagOp p px a disp write body) := isIssue_issue ..
theorem isIssue_tagWrite (s : State) (p : Pred) (px : Option Prefix) (d a : SReg) (disp : BitVec 16) (v : Bool) :
    s.IsIssue (Form.blocked (plen px 8) p) (tagWrite p px d a disp v s) := isIssue_tagOp ..
theorem isIssue_atomic (s : State) (p : Pred) (att : Attr) (fn : Nat) (wide : Bool) (d a b : SReg) (c : Option SReg) (disp : BitVec 24) :
    s.IsIssue (Form.blocked 12 p) (atomic p att fn wide d a b c disp s) := isIssue_issue ..
theorem isIssue_reduce (s : State) (p : Pred) (att : Attr) (fn : Nat) (wide : Bool) (a b : SReg) (disp : BitVec 24) :
    s.IsIssue (Form.blocked 12 p) (reduce p att fn wide a b disp s) := isIssue_issue ..
theorem isIssue_supOp (s : State) (p : Pred) (d a b : SReg) (abort : Bool) (act : State → Thread → Nat × (State → State)) :
    s.IsIssue (Form.sup p) (s.supOp p d a b abort act) := isIssue_issue ..

/-! The form of a row. -/

/-- The bytes of an encoding: 8 of the base word, those that follow it, and 8 of a `Prefix` (06 R102, R107, R111). -/
theorem bytes_enc (w : Enc) : 4 * w.words.length = plen w.px (8 + 4 * w.e.words.length) := by
  rcases w with ⟨f, e, px⟩
  cases px <;> simp [Enc.words, words32, plen] <;> omega

/-- PR is 0 for `p0` alone (06 R109). -/
theorem pr_beq_zero (r : PReg) : (BitVec.ofNat 3 r.val == 0) = (r == 0) := by revert r; decide

/-- A predicate operand's field is 0 for `p0` alone (06 R108). -/
theorem encP_beq_zero (r : PReg) : (encP r == 0) = (r == 0) := by revert r; decide

/-- An FN of the tables is 0 where its field is. -/
theorem fn_bne_zero {fn : Nat} (h : fn < 64) : (BitVec.ofNat 6 fn != 0) = (fn != 0) := by
  have zero : BitVec.ofNat 6 fn = 0 ↔ fn = 0 := by
    rw [← BitVec.toNat_inj, BitVec.toNat_ofNat, Nat.mod_eq_of_lt h]; rfl
  rw [Bool.eq_iff_iff, bne_iff_ne, bne_iff_ne, ne_eq, zero]

/-- The form of a row by what its table says of it: OPC and FN, the predicate, the predicate registers among the operands, and the words beyond the base word (06 R102, R109, R113, 07 R148, 15 R292). -/
def rowForm (opc fn : Nat) (p : Pred) (named : List PReg) (e : Ext) (px : Option Prefix) : Form :=
  { len := plen px (8 + 4 * e.words.length)
    pred := p
    lane := 0x50 ≤ opc && opc ≤ 0x6F
    cap := needsCap opc fn
    free := [0, 1, 2, 3, 5, 6, 8, 0xA8, 0xA9].contains opc ||
      (0x20 ≤ opc && opc ≤ 0x2C && !(opc == 0x2B && fn != 0) && p.reg == 0 && named.all fun r => r == 0)
    wins := opc == 0x04 || opc == 0xD8 }

section Row
variable {i : Instr} {opc fn : Nat} {p : Pred} {x : BitVec 4} {d a b c : BitVec 6} {imm : BitVec 16} {e : Ext} {px : Option Prefix}

/-- The form read off an encoding is the form of its row. -/
theorem formOf_of_enc (enc : i.enc = some (mkEnc opc fn p x d a b c imm e px)) (named : List PReg)
    (ops : predOperands (mkEnc opc fn p x d a b c imm e px).f = named.map encP) (ho : opc < 256) (hf : fn < 64) :
    formOf i = rowForm opc fn p named e px := by
  have opcField : (BitVec.ofNat 8 opc).toNat = opc := Nat.mod_eq_of_lt ho
  have fnField : (BitVec.ofNat 6 fn).toNat = fn := Nat.mod_eq_of_lt hf
  have len : 4 * (encode i).length = plen px (8 + 4 * e.words.length) := by
    rw [encode, enc]; exact bytes_enc (mkEnc opc fn p x d a b c imm e px)
  have pred : (⟨⟨(BitVec.ofNat 3 p.reg.val).toNat, (BitVec.ofNat 3 p.reg.val).isLt⟩, encB p.neg == 1⟩ : Pred) = p := by
    have neg : (encB p.neg == 1) = p.neg := by cases p.neg <;> rfl
    rw [neg]; simp
  have operands : ((predOperands (mkEnc opc fn p x d a b c imm e px).f).all fun r => r == 0) = named.all fun r => r == 0 := by
    simp only [ops, List.all_map, Function.comp_def, encP_beq_zero]
  have free : issuesBeside (mkEnc opc fn p x d a b c imm e px).f = (rowForm opc fn p named e px).free := by
    rw [issuesBeside, operands]; simp only [mkEnc, opcField, fn_bne_zero hf, pr_beq_zero, rowForm]
  simp only [formOf, enc, len, free, rowForm]
  simp only [mkEnc, opcField, fnField, pred]

/-- An issue under the form of a row is an issue under the form of its encoding. -/
theorem isIssue_row (named : List PReg) {s : State} {o : Out} (enc : i.enc = some (mkEnc opc fn p x d a b c imm e px))
    (ops : predOperands (mkEnc opc fn p x d a b c imm e px).f = named.map encP) (run : s.IsIssue (rowForm opc fn p named e px) o)
    (ho : opc < 256 := by decide) (hf : fn < 64 := by decide) : s.IsIssue (formOf i) o :=
  formOf_of_enc enc named ops ho hf ▸ run

end Row

/-- Every row's meaning is an issue under the form of its encoding. The rows stand by the operation that carries them out and the predicate registers among their operands; an event has no encoding. -/
theorem isIssue_exec (i : Instr) (s : State) (encoded : i.enc.isSome = true) : s.IsIssue (formOf i) (exec i s) := by
  unfold exec
  cases i with
  | nop | qTest => exact isIssue_row [] rfl rfl (isIssue_onThread ..)
  | pad | br | brLong | brReg | brC | brCLong | brCImm | call | callLong | callReg | ret | halt | realign | loop | loopImm | loopEnd | rep
  | repImm | qPush | qEos | qPop | qPeek | csrRd | csrWr | csrSet | csrClr | mxLd | mxZero | mxMask | mxMaskImm | mxMovToVector | mxMovToAcc
  | mxScr | mxScrInj | staMap | staMapLong | staFill | staDrop | staWb | staTest | cpGet | cpGetMc | cpPut | cpDeferGet | cpDeferPut | cpCvt
  | futWait | futTest | futPass | futCancel | wdAsk | wdAskLong | barArr | barWait | barWaitGen | barTest | step | fence | wqWait | wqWake
  | sigSend | sigTake | cont | spawn | budAdd | budGive | leaseReq | leaseReqImm | leaseEnd | leaseTest | trap | scrRun | scrStat =>
    exact isIssue_row [] rfl rfl (isIssue_issue ..)
  | add | sub | addImm | addImmLong | subImm | subImmLong | mul | mulh | div | divU | rem | remU | min | max | minU | maxU | abs | neg | and
  | or | xor | andn | not | andImm | andImmLong | orImm | orImmLong | xorImm | xorImmLong | shl | shlImm | shr | shrImm | sar | sarImm | rot
  | rotImm | cmpS | cmpSImm | cmpSImmLong | selS | bfX | bfI | clz | ctz | popc | lea | leaLong | leaPc | li | liLong =>
    exact isIssue_row [] rfl rfl (isIssue_scalar ..)
  | cmpP _ _ d _ _ | cmpPImm _ _ d _ _ | cmpPImmLong _ _ d _ _ | pMovFromScalar _ d _ => exact isIssue_row [d] rfl rfl (isIssue_onThread ..)
  | selP _ _ _ _ c => exact isIssue_row [c] rfl rfl (isIssue_scalar ..)
  | pAnd _ d a b | pOr _ d a b | pXor _ d a b => exact isIssue_row [d, a, b] rfl rfl (isIssue_onThread ..)
  | pNot _ d a | pMov _ d a => exact isIssue_row [d, a] rfl rfl (isIssue_onThread ..)
  | pMovToScalar _ _ a => exact isIssue_row [a] rfl rfl (isIssue_scalar ..)
  | vAdd | vSub | vMul | vMulh | vMac | vMin | vMax | vAbs | vNeg | vAddScalar | vSubScalar | vMulScalar | vMulhScalar | vMacScalar
  | vMinScalar | vMaxScalar | vAddImm | vAddImmLong | vSubImm | vSubImmLong | vMulImm | vMulImmLong | vMinImm | vMinImmLong | vMaxImm
  | vMaxImmLong => exact isIssue_row [] rfl rfl (isIssue_vArith ..)
  | vAnd | vOr | vXor | vAndn | vNot | vFabs | vFneg | vFcopysign | vFclass => exact isIssue_row [] rfl rfl (isIssue_vLogic ..)
  | vShl | vShlImm | vShr | vShrImm | vSar | vSarImm | vRot | vRotImm => exact isIssue_row [] rfl rfl (isIssue_vShiftOp ..)
  | vClz | vPopc | vFmin | vFmax | vFminScalar | vFmaxScalar => exact isIssue_row [] rfl rfl (isIssue_laneOp ..)
  | vFadd | vFsub | vFmul | vFaddScalar | vFsubScalar | vFmulScalar | vFma | vFms | vFnma | vFdiv | vFsqrt | vFrcp | vFrsq | vFscale =>
    exact isIssue_row [] rfl rfl (isIssue_floatOp ..)
  | vFround | vBcastQ | vMovFromLane | vRedFadd | vScanFadd | vCvtN | vCvtW | vLd | vLdLong | vLdS | vLdSLong | vSt | vStLong | vStS
  | vStSLong | vLdQ | vLdQLong | vLdQS | vLdQSLong | vStQ | vStQLong | vStQS | vStQSLong | vGath | vScat | vTdec | vTdecLong | vTdecQ
  | vTdecQLong | vTenc | vTencLong | vTencQ | vTencQLong => exact isIssue_row [] rfl rfl (isIssue_vector ..)
  | vCmp | vCmpScalar | vFcmp | vFcmpScalar => exact isIssue_row [] rfl rfl (isIssue_vCompare ..)
  | vPerm | vPerm2 | vShuf | vBcast | vBcastLane | vBcastImm | vSlide | vMov | vSel | vMovToLane => exact isIssue_row [] rfl rfl (isIssue_vPermute ..)
  | vRedAdd | vRedMin | vRedMax | vRedAnd | vRedOr | vRedXor | vRedFmin | vRedFmax => exact isIssue_row [] rfl rfl (isIssue_vReduce ..)
  | vScanAdd | vScanMin | vScanMax | vScanXadd | vScanFmin | vScanFmax => exact isIssue_row [] rfl rfl (isIssue_vScan ..)
  | mxMma | mxMmaLong | mxPlane | mxPlaneLong | mxUnplane | mxUnplaneLong | mxSt | mxStLong => exact isIssue_row [] rfl rfl (isIssue_mxScalar ..)
  | mxMmaQ | mxMmaQLong | mxPlaneQ | mxPlaneQLong | mxUnplaneQ | mxUnplaneQLong | mxStQ | mxStQLong =>
    exact isIssue_row [] rfl rfl (isIssue_mxQueue ..)
  | ldB | ldH | ldW | ldD | ldBs | ldHs | ldWs => exact isIssue_row [] rfl rfl (isIssue_localLoad ..)
  | stB | stH | stW | stD => exact isIssue_row [] rfl rfl (isIssue_localStore ..)
  | gldB | gldH | gldW | gldD | gldBs | gldHs | gldWs => exact isIssue_row [] rfl rfl (isIssue_globalLoad ..)
  | gstB | gstH | gstW | gstD => exact isIssue_row [] rfl rfl (isIssue_globalStore ..)
  | stFarB | stFarH | stFarW | stFarD => exact isIssue_row [] rfl rfl (isIssue_farStore ..)
  | tgLd | tgSt => exact isIssue_row [] rfl rfl (isIssue_tagOp ..)
  | tgSet | tgClr => exact isIssue_row [] rfl rfl (isIssue_tagWrite ..)
  | atSwap | atCas | atAdd | atAnd | atOr | atXor | atMin | atMax | atMinu | atMaxu | atFadd => exact isIssue_row [] rfl rfl (isIssue_atomic ..)
  | redAdd | redAnd | redOr | redXor | redMin | redMax | redMinu | redMaxu | redFadd => exact isIssue_row [] rfl rfl (isIssue_reduce ..)
  | supResume | supRestart | supAbort => exact isIssue_row [] rfl rfl (isIssue_supOp ..)
  | _ => cases encoded

end Sys2Proof.Machine
end

section
/-! PROOFS. Which head a port issues (08 R151, R152), and the order of an instruction's checks. -/

namespace Sys2Proof.Machine

/-- The one of two elements with the smaller key, the earlier one of equals. -/
def keepSmaller {α : Type} (key : α → Nat) (best : Option α) (h : α) : Option α :=
  match best with
  | none => some h
  | some b => if key h < key b then some h else some b

/-- The first of the elements with the smallest key. -/
def smallest {α : Type} (key : α → Nat) (l : List α) : Option α := l.foldl (keepSmaller key) none

/-- Behind a first element, the fold ends in an element whose key is none's greater. -/
theorem foldl_keepSmaller {α : Type} (key : α → Nat) : ∀ (l : List α) (b : α),
    ∃ g ∈ b :: l, l.foldl (keepSmaller key) (some b) = some g ∧ ∀ x ∈ b :: l, key g ≤ key x
  | [], b => ⟨b, List.mem_singleton_self b, rfl, fun x hx => Nat.le_of_eq (congrArg key (List.mem_singleton.1 hx).symm)⟩
  | h :: r, b => by
    by_cases less : key h < key b
    · obtain ⟨g, mem, fold, least⟩ := foldl_keepSmaller key r h
      have step : keepSmaller key (some b) h = some h := if_pos less
      refine ⟨g, List.mem_cons_of_mem b mem, by rw [List.foldl_cons, step, fold], fun x hx => ?_⟩
      rcases List.mem_cons.1 hx with rfl | hx
      · exact Nat.le_trans (least h List.mem_cons_self) (Nat.le_of_lt less)
      · exact least x hx
    · obtain ⟨g, mem, fold, least⟩ := foldl_keepSmaller key r b
      have step : keepSmaller key (some b) h = some b := if_neg less
      have front : g ∈ b :: h :: r := (List.mem_cons.1 mem).elim (fun e => e ▸ List.mem_cons_self) fun m =>
        List.mem_cons_of_mem b (List.mem_cons_of_mem h m)
      refine ⟨g, front, by rw [List.foldl_cons, step, fold], fun x hx => ?_⟩
      rcases List.mem_cons.1 hx with rfl | hx
      · exact least x List.mem_cons_self
      · rcases List.mem_cons.1 hx with rfl | hx
        · exact Nat.le_trans (least b List.mem_cons_self) (Nat.le_of_not_lt less)
        · exact least x (List.mem_cons_of_mem b hx)

/-- A fold that keeps the element with the smaller key ends in the smallest. -/
theorem foldl_eq_smallest {α : Type} (key : α → Nat) (keep : Option α → α → Option α) (first : ∀ h, keep none h = some h)
    (next : ∀ b h, keep (some b) h = if key h < key b then some h else some b) (l : List α) : l.foldl keep none = smallest key l := by
  have same : keep = keepSmaller key := by
    funext best h
    cases best with
    | none => exact first h
    | some b => exact next b h
  rw [same, smallest]

/-- A list with an element has a smallest one. -/
theorem smallest_of_mem {α : Type} (key : α → Nat) {l : List α} {h : α} (mem : h ∈ l) :
    ∃ g ∈ l, smallest key l = some g ∧ key g ≤ key h := by
  cases l with
  | nil => cases mem
  | cons b r =>
    obtain ⟨g, hg, fold, least⟩ := foldl_keepSmaller key r b
    exact ⟨g, hg, fold, least h mem⟩

/-- The heads that want the port of the head at this place (08 R151). -/
def State.rivals (s : State) (vt slot : Nat) (body : Bool) : List Head :=
  s.heads vt (slot / 4) (Head.vector (s.thread vt slot, body))

/-- A head's turn in the rotating order of that port (08 R152). -/
def State.turnOf (s : State) (vt slot : Nat) (body : Bool) (h : Head) : Nat :=
  (h.1.thr + 3 - s.lastOn vt (slot / 4) (Head.vector (s.thread vt slot, body))) % 4

/-- What that port orders its ready heads by: the stamp, and the turn among equal stamps (08 R152). -/
def State.headKey (s : State) (vt slot : Nat) (body : Bool) (h : Head) : Nat := 4 * Head.stamp h + s.turnOf vt slot body h

section Port
variable {s : State} {vt slot : Nat} {body : Bool}

/-- A smaller or equal key is a smaller stamp, or the same stamp and no later a turn. -/
theorem stamp_turn_of_headKey_le {g h : Head} (le : s.headKey vt slot body g ≤ s.headKey vt slot body h) :
    Head.stamp g ≤ Head.stamp h ∧ (Head.stamp g = Head.stamp h → s.turnOf vt slot body g ≤ s.turnOf vt slot body h) := by
  have small (x : Head) : s.turnOf vt slot body x < 4 := Nat.mod_lt _ (by decide)
  have hg := small g
  have hh := small h
  unfold State.headKey at le
  omega

/-- A port with one head or none gives it its turn. -/
theorem portPick_of_few (few : (s.rivals vt slot body).length ≤ 1) : s.portPick vt slot body = (slot, body) := by
  rcases heads : s.rivals vt slot body with _ | ⟨a, _ | ⟨b, r⟩⟩
  case nil => unfold State.rivals at heads; simp only [State.portPick, heads]
  case cons.nil => unfold State.rivals at heads; simp only [State.portPick, heads]
  case cons.cons => simp [heads] at few

/-- Of several heads a port picks a ready one with the smallest key, if the head named is ready itself. -/
theorem portPick_of_many (many : 1 < (s.rivals vt slot body).length) :
    s.portPick vt slot body =
      if ((s.rivals vt slot body).filter s.headReady).any fun h => h.1.slot == slot && h.2 == body then
        ((smallest (s.headKey vt slot body) ((s.rivals vt slot body).filter s.headReady)).map fun h => (h.1.slot, h.2)).getD (slot, body)
      else (slot, body) := by
  rcases heads : s.rivals vt slot body with _ | ⟨a, _ | ⟨b, r⟩⟩
  case nil => simp [heads] at many
  case cons.nil => simp [heads] at many
  case cons.cons =>
    unfold State.rivals at heads
    simp only [State.portPick, heads]
    rw [foldl_eq_smallest (s.headKey vt slot body) _ (fun _ => rfl) (fun _ _ => rfl)]
    cases (List.filter s.headReady (a :: b :: r)).any fun h => h.1.slot == slot && h.2 == body
    case false => rfl
    case true => cases smallest (s.headKey vt slot body) (List.filter s.headReady (a :: b :: r)) <;> rfl

/-- A head named that is not ready keeps its turn. -/
theorem portPick_of_unready (unready : ∀ g ∈ s.rivals vt slot body, s.headReady g = true → (g.1.slot, g.2) ≠ (slot, body)) :
    s.portPick vt slot body = (slot, body) := by
  rcases Nat.lt_or_ge 1 (s.rivals vt slot body).length with many | few
  · have absent : (((s.rivals vt slot body).filter s.headReady).any fun h => h.1.slot == slot && h.2 == body) = false := by
      simp only [List.any_eq_false, List.mem_filter, Bool.and_eq_true, beq_iff_eq]
      exact fun g ⟨mem, ready⟩ ⟨hslot, hbody⟩ => unready g mem ready (Prod.ext hslot hbody)
    rw [portPick_of_many many, absent]; rfl
  · exact portPick_of_few few

/-- Among several heads, the one named ready, a port picks a ready head with the smallest key. -/
theorem portPick_smallest (many : 1 < (s.rivals vt slot body).length) {h : Head} (mem : h ∈ s.rivals vt slot body) (ready : s.headReady h = true)
    (named : ∃ g ∈ s.rivals vt slot body, s.headReady g = true ∧ g.1.slot = slot ∧ g.2 = body) :
    ∃ g ∈ s.rivals vt slot body, s.headReady g = true ∧ s.portPick vt slot body = (g.1.slot, g.2) ∧
      s.headKey vt slot body g ≤ s.headKey vt slot body h := by
  have present : (((s.rivals vt slot body).filter s.headReady).any fun h => h.1.slot == slot && h.2 == body) = true := by
    obtain ⟨g, hg, rg, place⟩ := named
    exact List.any_eq_true.2 ⟨g, List.mem_filter.2 ⟨hg, rg⟩, by simpa using place⟩
  have among : h ∈ (s.rivals vt slot body).filter s.headReady := List.mem_filter.2 ⟨mem, ready⟩
  obtain ⟨g, hg, least, le⟩ := smallest_of_mem (s.headKey vt slot body) among
  obtain ⟨hg, rg⟩ := List.mem_filter.1 hg
  refine ⟨g, hg, rg, ?_, le⟩
  rw [portPick_of_many many, if_pos present, least]; rfl

end Port

/-- Settles O52: every row's meaning is an issue under the form of its encoding, so the order of the checks is that of `State.issue`; a port picks a ready head with the smallest key. -/
theorem issueOrder : Obligations.IssueOrder := by
  unfold Obligations.IssueOrder
  refine ⟨fun i s t encoded here => ?row, fun s vt slot body h => ?port⟩
  case row =>
    obtain ⟨run, issue⟩ := isIssue_exec i s encoded
    simp only [issue]
    refine ⟨fun stopped => issue_notRun here stopped _ run, fun up pend loses => issue_pend here up pend loses run,
      fun ⟨up, calm⟩ _ async => issue_async here up calm async run, fun ⟨⟨up, calm⟩, quiet⟩ held => ?_,
      fun ⟨⟨up, calm⟩, quiet⟩ free _ needs lacks => issue_cap here up calm quiet free needs lacks run,
      fun ⟨⟨up, calm⟩, quiet⟩ free able whole off => issue_false here up calm quiet free able whole off run⟩
    simp only [Classical.not_imp, Bool.not_eq_true] at held
    obtain ⟨scalar, running, bound⟩ := held
    exact issue_seq here up calm quiet scalar running bound run
  case port =>
    refine ⟨portPick_of_few, portPick_of_unready, fun many mem ready named => ?_⟩
    obtain ⟨g, hg, rg, pick, le⟩ := portPick_smallest many mem ready named
    exact ⟨g, hg, rg, pick, stamp_turn_of_headKey_le le⟩

end Sys2Proof.Machine
end

section
/-! PROOFS. Register reads after writes, `s0` and `p0` (06 R108), and the `csr` instructions: what each writes and what a register reads back (06 R115, 08 R171, R172, 02 R40, 11 R221). -/

namespace Sys2Proof.Machine

/-- A scalar register reads as last written, `s0` as 0 (06 R108). -/
theorem sreg_setS (t : Thread) (d e : SReg) (x : Word) :
    (t.setS d x).sreg false e = if e = 0 then 0 else if e = d then x else t.sreg false e := by
  by_cases he : e = 0
  · simp [Thread.sreg, he]
  · by_cases hd : d = 0
    · have ne : e ≠ d := hd ▸ he
      simp [hd, he]
    · simp only [Thread.sreg, Thread.setS, if_neg he, if_neg hd, Bool.false_eq_true, if_false, Fin.getElem_fin, Vector.getElem_set, Fin.val_inj]
      simp only [eq_comm]

/-- A predicate register reads as last written, `p0` as all ones (06 R108). -/
theorem preg_setP (t : Thread) (q r : PReg) (y : BitVec 32) :
    (t.setP q y).preg r = if r = 0 then BitVec.allOnes 32 else if r = q then y else t.preg r := by
  by_cases hr : r = 0
  · simp [Thread.preg, hr]
  · by_cases hq : q = 0
    · simp [hq, hr]
    · simp only [Thread.preg, Thread.setP, if_neg hr, if_neg hq, Fin.getElem_fin, Vector.getElem_set, Fin.val_inj]
      simp only [eq_comm]

/-- Writing a scalar register changes nothing else. -/
theorem setS_frame (t : Thread) (d : SReg) (x : Word) : { t.setS d x with s := t.s } = t := by
  unfold Thread.setS; split <;> rfl

/-- Writing a predicate register changes nothing else. -/
theorem setP_frame (t : Thread) (q : PReg) (y : BitVec 32) : { t.setP q y with p := t.p } = t := by
  unfold Thread.setP; split <;> rfl

/-- A field of a word is its bits from `lo` on. -/
theorem field_toNat (v : Word) (lo n : Nat) : v.field lo n = (v.extractLsb' lo n).toNat := by
  rw [Word.field, BitVec.extractLsb'_toNat]

/-- The writes that 02 R40 and 11 R221 reject: an unused rounding code in RMODE, the unused code in MEMCTL. -/
theorem csrRejects_iff (n : BitVec 12) (v : Word) : csrRejects n.toNat v = true ↔
    (n = 0x021 ∧ 4 < (v.extractLsb' 0 3).toNat) ∨ (n = 0x020 ∧ v.extractLsb' 3 3 = 7) := by
  have number (k : BitVec 12) : n.toNat = k.toNat ↔ n = k := BitVec.toNat_inj
  have code (k : BitVec 3) : (v.extractLsb' 3 3).toNat = k.toNat ↔ v.extractLsb' 3 3 = k := BitVec.toNat_inj
  simp only [csrRejects, field_toNat, Bool.or_eq_true, Bool.and_eq_true, beq_iff_eq, decide_eq_true_eq, gt_iff_lt]
  rw [← number 0x021, ← number 0x020, ← code 7]; rfl

/-- What a `csr` instruction ends in whose new value is `new`: it faults ILLEGAL where that is rejected; else `sD` gets the register's old value and the register the new one (08 R171). -/
def State.csrEnds (s : State) (t : Thread) (f : Form) (d : SReg) (n : BitVec 12) (new : Word) : Out :=
  if csrRejects n.toNat new then s.faults t f s.illegal
  else s.completes t f ((s.csrWrite t n.toNat new).modCur fun u => u.setS d (s.csrRead t n.toNat)) 1 0

section Issued
variable {s : State} {t : Thread} {p : Pred} {d a : SReg} {n : BitVec 12}

/-- The issue of a body that is `csrOp` on its state and thread. -/
theorem issue_csrOp {f : Form} (h : s.Issues t f) (g : Word → Word) {body : State → Thread → Res} (op : body s t = csrOp s t d n g) :
    s.issue f body = s.csrEnds t f d n (g (s.csrRead t n.toNat)) := by
  rw [issue_of_issues h, op, csrOp, State.csrEnds]
  split <;> rfl

theorem exec_csrRd_issued (h : s.Issues t (Form.scalar 8 p [])) :
    exec (.csrRd p d n) s = s.completes t (Form.scalar 8 p []) (s.modCur fun u => u.setS d (s.csrRead t n.toNat)) 1 0 := by
  rw [exec_csrRd, execCsrRd, issue_of_issues h, State.completes]

variable (h : s.Issues t (Form.blocked 8 p))
include h

theorem exec_csrWr_issued : exec (.csrWr p d a n) s = s.csrEnds t (Form.blocked 8 p) d n (t.sreg s.cur.body a) := by
  rw [exec_csrWr, execCsrWr]
  exact issue_csrOp h (fun _ => t.sreg s.cur.body a) rfl

theorem exec_csrSet_issued : exec (.csrSet p d a n) s = s.csrEnds t (Form.blocked 8 p) d n (s.csrRead t n.toNat ||| t.sreg s.cur.body a) := by
  rw [exec_csrSet, execCsrSet]
  exact issue_csrOp h (fun o => o ||| t.sreg s.cur.body a) rfl

theorem exec_csrClr_issued : exec (.csrClr p d a n) s = s.csrEnds t (Form.blocked 8 p) d n (s.csrRead t n.toNat &&& ~~~ (t.sreg s.cur.body a)) := by
  rw [exec_csrClr, execCsrClr]
  exact issue_csrOp h (fun o => o &&& ~~~ (t.sreg s.cur.body a)) rfl

end Issued

/-- A register that is read-only takes no write (06 R115). -/
theorem csrWrite_readOnly (s : State) (t : Thread) {n : Nat}
    (h : n ∈ [0x003, 0x004, 0x005, 0x008, 0x009, 0x010, 0x011, 0x012, 0x013, 0x014, 0x015, 0x030]) (v : Word) : s.csrWrite t n v = s := by
  simp only [List.mem_cons, List.not_mem_nil, or_false] at h
  rcases h with rfl | rfl | rfl | rfl | rfl | rfl | rfl | rfl | rfl | rfl | rfl | rfl <;> rfl

/-- A supervisor's register takes no write from another thread (00 R8). -/
theorem csrWrite_supervisor {s : State} {t : Thread} (h : s.isSupervisor t = false) {n : Nat} (hn : n ∈ [0x000, 0x001, 0x002]) (v : Word) :
    s.csrWrite t n v = s := by
  simp only [List.mem_cons, List.not_mem_nil, or_false] at hn
  rcases hn with rfl | rfl | rfl <;> simp only [State.csrWrite, h, Bool.false_eq_true, if_false]

/-- The thread behind `cur` after a change of it that leaves its place. -/
theorem curThread?_modCur {s : State} {t : Thread} (here : s.curThread? = some t) {f : Thread → Thread}
    (place : ∀ u, (f u).vt = u.vt ∧ (f u).slot = u.slot) : (s.modCur f).curThread? = some (f t) := by
  have moved : (s.modCur f).curThread? = s.curThread?.map f := thread?_modThread place
  rw [moved, here]; rfl

/-- A register whose write changes only its thread reads back what its read gives in the changed thread. -/
theorem csr_readBack {s : State} {t : Thread} (here : s.curThread? = some t) {k : Nat} {v y : Word} {f : Thread → Thread}
    (write : s.csrWrite t k v = s.modCur f) (place : ∀ u, (f u).vt = u.vt ∧ (f u).slot = u.slot) (read : (s.modCur f).csrRead (f t) k = y) :
    ∀ u, (s.csrWrite t k v).curThread? = some u → (s.csrWrite t k v).csrRead u k = y := by
  intro u hu
  rw [write, curThread?_modCur here place, Option.some_inj] at hu
  rw [write, ← hu, read]

/-- The low bits of a word, by themselves and under a mask. -/
theorem low_bits (v : Word) {n : Nat} (h : n ≤ 64) : (v.extractLsb' 0 n).setWidth 64 = v &&& BitVec.ofNat 64 (2 ^ n - 1) := by
  have fits : 2 ^ n ≤ 2 ^ 64 := Nat.pow_le_pow_right (by decide) h
  apply BitVec.eq_of_toNat_eq
  rw [BitVec.toNat_setWidth, BitVec.extractLsb'_toNat, Nat.shiftRight_zero, BitVec.toNat_and, BitVec.toNat_ofNat,
    Nat.mod_eq_of_lt (a := 2 ^ n - 1) (by have := Nat.two_pow_pos n; omega), Nat.and_two_pow_sub_one_eq_mod,
    Nat.mod_eq_of_lt (Nat.lt_of_lt_of_le (Nat.mod_lt _ (Nat.two_pow_pos n)) fits)]

/-- ADDR of TIDBASE, by itself and under a mask (03 R55). -/
theorem tidbase_bits (v : Word) : w64 (v.field 12 7 * 4096 % 2 ^ 19) = v &&& 0x7F000 := by
  have mask : v.toNat &&& 0x7F000 = v.field 12 7 * 4096 := by
    rw [Word.field, ← Nat.and_two_pow_sub_one_eq_mod, show 4096 = 2 ^ 12 from rfl, ← Nat.shiftLeft_eq,
      show 0x7F000 = (2 ^ 7 - 1) <<< 12 from rfl]
    apply Nat.eq_of_testBit_eq
    intro i
    simp only [Nat.testBit_and, Nat.testBit_shiftLeft, Nat.testBit_shiftRight]
    by_cases hi : 12 ≤ i
    · simp [hi, Nat.add_sub_cancel' hi]
    · simp [hi]
  have small : v.field 12 7 < 2 ^ 7 := Nat.mod_lt _ (by decide)
  apply BitVec.eq_of_toNat_eq
  rw [BitVec.toNat_and, w64, BitVec.toNat_ofNat, show (0x7F000 : Word).toNat = 0x7F000 from rfl, mask]
  omega

/-- Settles O5: the registers' rules, the two ways a `csr` instruction ends, and each register's write and read. -/
theorem registersCsrs : Obligations.RegistersCsrs := by
  unfold Obligations.RegistersCsrs
  refine ⟨fun t d e q r x y => ⟨sreg_setS t d e x, preg_setP t q r y, ⟨setS_zero t x, setP_zero t y⟩, setS_frame t d x, setP_frame t q y⟩,
    fun s t p d a n => ⟨exec_csrRd_issued, fun h => ⟨exec_csrWr_issued h, exec_csrSet_issued h, exec_csrClr_issued h⟩, csrRejects_iff n,
      fun v hn => csrWrite_readOnly s t hn v, fun v hn h => csrWrite_supervisor h hn v, fun v here => ?_⟩⟩
  refine ⟨?memctl, ?rmode, ?fflags, ?seed, ?tidbase⟩
  case memctl => exact csr_readBack here rfl (fun _ => ⟨rfl, rfl⟩) (low_bits v (by decide))
  case rmode => exact csr_readBack here rfl (fun _ => ⟨rfl, rfl⟩) (low_bits v (by decide))
  case fflags => exact csr_readBack here rfl (fun _ => ⟨rfl, rfl⟩) (low_bits v (by decide))
  case seed => exact csr_readBack here rfl (fun _ => ⟨rfl, rfl⟩) rfl
  case tidbase => exact csr_readBack here rfl (fun _ => ⟨rfl, rfl⟩) (tidbase_bits v)

end Sys2Proof.Machine
end

section
/-! PROOFS. Control transfers, `halt` and `realign` (06 R104, R105, 07 R127-R132): each row under its form, from the two ways a transfer leaves its thread. -/

namespace Sys2Proof.Machine

/-- The outcome of a transfer to `a` that leaves the loops which do not hold it (07 R137). -/
def State.leaves (s : State) (t : Thread) (f : Form) (a : Word) : Out :=
  s.jumps t f (s.modCur fun w => { w with loops := loopLeave a w.loops }) a 1

/-- The outcome of a call of `a` that links in `d` to what follows its `n` bytes (07 R131). -/
def State.calls (s : State) (t : Thread) (f : Form) (d : SReg) (n : Nat) (a : Word) : Out :=
  s.jumps t f (s.modCur fun w => w.setS d (nextPc t.pc n)) a 1

/-- The target of a direct transfer, by the signed number of words that it names (07 R128). -/
theorem target_signExtend (pc : Word) {n : Nat} (i : BitVec n) : target pc (i.signExtend 64) = pc + BitVec.ofInt 64 (4 * i.toInt) := by
  rw [target, BitVec.ofInt_mul]; rfl

/-- The conditions of R130's table. -/
theorem condHolds_iff (v w : Word) :
    (condHolds .eq v w = true ↔ v = w) ∧ (condHolds .ne v w = true ↔ v ≠ w) ∧
    (condHolds .lt v w = true ↔ v.toInt < w.toInt) ∧ (condHolds .ge v w = true ↔ v.toInt ≥ w.toInt) ∧
    (condHolds .ltu v w = true ↔ v.toNat < w.toNat) ∧ (condHolds .geu v w = true ↔ v.toNat ≥ w.toNat) ∧
    (condHolds .tst v w = true ↔ v &&& w ≠ 0) ∧ (condHolds .tstn v w = true ↔ v &&& w = 0) :=
  ⟨beq_iff_eq, bne_iff_ne, decide_eq_true_iff, decide_eq_true_iff, decide_eq_true_iff, decide_eq_true_iff, bne_iff_ne, beq_iff_eq⟩

/-- A change that changes nothing. -/
theorem modCur_id (s : State) : s.modCur id = s := by
  have same (l : List Thread) : modFirst (fun t => t.isAt s.cur.vt s.cur.slot) id l = l := by
    induction l with
    | nil => rfl
    | cons t l ih => rw [modFirst, ih]; exact ite_self _
  rw [State.modCur, State.modThread, same]

section Issued
variable {s : State} {t : Thread} {f : Form} (h : s.Issues t f)
include h

/-- The issue of a transfer that leaves loops. -/
theorem issue_leaveTo (dest : State → Thread → Word) : s.issue f (fun s t => leaveTo s (dest s t)) = s.leaves t f (dest s t) :=
  issue_of_issues h _

/-- The issue of a compare and branch. -/
theorem issue_branchIf (taken : State → Thread → Bool) (dest : State → Thread → Word) :
    s.issue f (fun s t => branchIf s (taken s t) (dest s t)) = if taken s t then s.leaves t f (dest s t) else s.completes t f s 1 0 := by
  rw [issue_of_issues h]
  dsimp only [branchIf]
  split <;> rfl

/-- The issue of a call: its target is read before the link is written. -/
theorem issue_callTo (d : SReg) (n : Nat) (dest : State → Thread → Word) :
    s.issue f (fun s t => callTo s d (nextPc t.pc n) (dest s t)) = s.calls t f d n (dest s t) :=
  issue_of_issues h _

end Issued

/-- Settles O6: each row is a transfer that leaves loops, a compare and branch or a call, under its form; a direct target is the PC and four times the words named. -/
theorem controlTransfers : Obligations.ControlTransfers := by
  intro s t p cc d a b i j
  refine ⟨fun h => ⟨?nop, ?pad⟩, fun h => ⟨?br, ?brReg, ?ret, ?brC, ?call, ?callReg⟩, fun h => ⟨?brLong, ?brCLong, ?brCImm, ?callLong⟩, condHolds_iff⟩
  case nop => rw [exec_nop, execNop, onThread_of_issues h, modCur_id]
  case pad => rw [exec_pad, execPad, issue_of_issues h]; rfl
  case br => rw [exec_br, execBr, issue_leaveTo h, imm16, target_signExtend]; rfl
  case brReg => rw [exec_brReg, execBrReg, issue_leaveTo h]; rfl
  case ret => rw [exec_ret, execRet, issue_leaveTo h]; rfl
  case brC => rw [exec_brC, execBrC, issue_branchIf h, imm16, target_signExtend]; rfl
  case call => rw [exec_call, execCall, issue_callTo h, imm16, target_signExtend]; rfl
  case callReg => rw [exec_callReg, execCallReg, issue_callTo h]; rfl
  case brLong => rw [exec_brLong, execBrLong, issue_leaveTo h, imm32, target_signExtend]; rfl
  case brCLong => rw [exec_brCLong, execBrCLong, issue_branchIf h, imm32, target_signExtend]; rfl
  case brCImm => rw [exec_brCImm, execBrCImm, issue_branchIf h, imm16, target_signExtend]; rfl
  case callLong => rw [exec_callLong, execCallLong, issue_callTo h, imm32, target_signExtend]; rfl

/-! `halt` (07 R132). -/

section Halt
variable {s : State} {t : Thread} {p : Pred} (h : s.Issues t { Form.blocked 8 p with wins := true })
include h

/-- `halt` waits for the engine commands of its thread. -/
theorem exec_halt_busy (busy : s.engineBusy t = true) : exec (.halt p) s = s.waits t { Form.blocked 8 p with wins := true } s (.stall 5) := by
  rw [exec_halt, execHalt, issue_of_issues h, if_pos busy]; rfl

/-- `halt` takes the fault of a handle. -/
theorem exec_halt_fault (idle : s.engineBusy t = false) {i : FaultInfo} (bad : t.handleFault? = some i) :
    exec (.halt p) s = s.faults t { Form.blocked 8 p with wins := true } i := by
  rw [exec_halt, execHalt, issue_of_issues h, if_neg (by rw [idle]; decide), bad]; rfl

/-- `halt` of a thread without engine work ends it. -/
theorem exec_halt_done (idle : s.engineBusy t = false) (good : t.handleFault? = none) :
    exec (.halt p) s =
      s.completes t { Form.blocked 8 p with wins := true } (((s.settle t).endSupervisor t).modCur fun x => { x with st := .halted }) 1 0 := by
  rw [exec_halt, execHalt, issue_of_issues h, if_neg (by rw [idle]; decide), good]; rfl

end Halt

/-! `realign` (07 R127). -/

section Realign
variable {s : State} {t : Thread} {p : Pred} {a : SReg} (h : s.Issues t (Form.beside 8 p))
include h

/-- A `realign` with no other member completes. -/
theorem exec_realign_alone (first : ∀ m, t.wait ≠ .realign m) (alone : s.realignSet t (t.sreg s.cur.body a) = []) :
    exec (.realign p a) s = s.completes t (Form.beside 8 p) s 1 0 := by
  rw [exec_realign, execRealign, issue_of_issues h, alone]
  split
  next m waits => exact absurd waits (first m)
  next => rfl

/-- A waiting `realign` whose condition holds completes, and with it the others that are ready. -/
theorem exec_realign_ready {l : List Nat} (waits : t.wait = .realign l) (ready : s.realigned t = true) :
    exec (.realign p a) s =
      s.completes t (Form.beside 8 p) (s.retireRealign ((s.realignReady t.vt).filter fun u => u.slot != t.slot)) 1 0 := by
  rw [exec_realign, execRealign, issue_of_issues h, waits]
  dsimp only
  rw [if_pos ready]; rfl

end Realign

/-- REALIGN_RESUME retires every `realign` of the tile that is ready, where the named thread's is. -/
theorem exec_realignResume_ready {s : State} {vt slot : Nat} {t : Thread} (here : s.thread? vt slot = some t) (run : t.st = .run)
    (ready : s.realigned t = true) : exec (.realignResume vt slot) s = .next (s.retireRealign (s.realignReady vt)) := by
  rw [exec_realignResume, execRealignResume, thread_of_thread? here, run, ready]; rfl

/-- Settles O7, from the cases of `halt` and of `realign`. -/
theorem haltRealign : Obligations.HaltRealign := by
  intro s t p a vt slot l
  exact ⟨exec_halt_done, fun h idle i => exec_halt_fault h idle, exec_halt_busy, exec_realign_alone, fun h => exec_realign_ready h, exec_realignResume_ready⟩

end Sys2Proof.Machine
end

section
/-! PROOFS. Hardware loops, the repetition buffer and its rotating window (07 R133-R147). -/

namespace Sys2Proof.Machine

/-! Hardware loops. -/

/-- The entries that a transfer to `a` pops: the innermost ones up to the first that holds `a` (07 R137). -/
theorem loopLeave_pops (a : Word) (l : List LoopEntry) : ∃ gone, l = gone ++ loopLeave a l ∧
    (∀ e ∈ gone, ¬ (e.start.toNat ≤ a.toNat ∧ a.toNat ≤ e.fin.toNat)) ∧
    (∀ e, (loopLeave a l).head? = some e → e.start.toNat ≤ a.toNat ∧ a.toNat ≤ e.fin.toNat) := by
  induction l with
  | nil => exact ⟨[], rfl, nofun, nofun⟩
  | cons e r ih =>
    by_cases holds : e.start.toNat ≤ a.toNat ∧ a.toNat ≤ e.fin.toNat
    · rw [loopLeave, if_pos holds]
      exact ⟨[], rfl, nofun, fun x hx => Option.some.inj hx ▸ holds⟩
    · obtain ⟨gone, split, out, top⟩ := ih
      rw [loopLeave, if_neg holds]
      exact ⟨e :: gone, congrArg (e :: ·) split, List.forall_mem_cons.2 ⟨holds, out⟩, top⟩

/-- The outcome of a `loop` of `n` bytes with the count `c` and the end label `fin` (07 R134). -/
def State.opensLoop (s : State) (t : Thread) (f : Form) (fin : Word) (n c : Nat) : Out :=
  if 2 ^ 32 ≤ c then s.faults t f { cause := .loop, info := BitVec.ofNat 64 c }
  else if c = 0 then s.jumps t f s (nextPc fin 8) 1
  else if t.loops.length = 4 then s.faults t f { cause := .loop, info := BitVec.ofNat 64 c }
  else s.completes t f (s.modCur fun x =>
    { x with loops := { start := nextPc t.pc n, fin := fin, count := BitVec.ofNat 32 (c - 1) } :: x.loops }) 1 0

/-- The issue of a `loop`. -/
theorem issue_loopOpen {s : State} {t : Thread} {f : Form} (h : s.Issues t f) (c : State → Thread → Nat) (i : BitVec 16) (n : Nat) :
    s.issue f (fun s t => loopOpen s t (c s t) i n) = s.opensLoop t f (t.pc + BitVec.ofInt 64 (4 * i.toInt)) n (c s t) := by
  rw [issue_of_issues h, ← target_signExtend]
  dsimp only [loopOpen, State.opensLoop, imm16]
  split
  · rfl
  · split
    · rfl
    · split
      · rfl
      · exact congrArg (fun s' => s.completes t f s' 1 0) (modCur_congr h.here rfl)

section LoopEnd
variable {s : State} {t : Thread} {p : Pred} (h : s.Issues t (Form.beside 8 p)) {e : LoopEntry} {r : List LoopEntry}
include h

/-- A `loop.end` that no entry names falls through. -/
theorem exec_loopEnd_other (other : t.loops = [] ∨ (t.loops = e :: r ∧ e.fin ≠ t.pc)) :
    exec (.loopEnd p) s = s.completes t (Form.beside 8 p) s 1 0 := by
  rw [exec_loopEnd, execLoopEnd, issue_of_issues h]
  rcases other with empty | ⟨top, elsewhere⟩
  · rw [empty]; rfl
  · rw [top]; dsimp only; rw [if_neg elsewhere]; rfl

/-- The last iteration's `loop.end` leaves the loop. -/
theorem exec_loopEnd_last (top : t.loops = e :: r) (own : e.fin = t.pc) (last : e.count = 0) :
    exec (.loopEnd p) s = s.completes t (Form.beside 8 p) (s.modCur fun x => { x with loops := r }) 1 0 := by
  rw [exec_loopEnd, execLoopEnd, issue_of_issues h, top]
  dsimp only
  rw [if_pos own, if_pos last]; rfl

/-- Every other iteration's `loop.end` goes back. -/
theorem exec_loopEnd_again (top : t.loops = e :: r) (own : e.fin = t.pc) (more : e.count ≠ 0) :
    exec (.loopEnd p) s =
      s.jumps t (Form.beside 8 p) (s.modCur fun x => { x with loops := { e with count := e.count - 1 } :: r }) e.start 1 := by
  rw [exec_loopEnd, execLoopEnd, issue_of_issues h, top]
  dsimp only
  rw [if_pos own, if_neg more]; rfl

end LoopEnd

/-- Settles O8: the issue of a `loop`, the three ways out of a `loop.end`, and the entries that a transfer pops. -/
theorem hardwareLoops : Obligations.HardwareLoops := by
  refine ⟨fun s t p a i j e r => ⟨fun h => ?_, fun h => ?_, fun h => ⟨exec_loopEnd_other h, exec_loopEnd_last h, exec_loopEnd_again h⟩⟩,
    loopLeave_pops⟩
  · rw [exec_loop, execLoop, issue_loopOpen h]; rfl
  · rw [exec_loopImm, execLoopImm, issue_loopOpen h]; rfl

/-! The repetition buffer. -/

/-- The outcome of a `rep` that has captured the body `b` and goes on at `after` (07 R146). -/
def State.repeats (s : State) (t : Thread) (f : Form) (sh : RepShape) (c : Nat) (b : List BodyInstr) (after : Word) : Out :=
  if c = 0 then s.jumps t f s after 1
  else s.jumps t f (s.modCur fun x =>
    { x with rep := some { body := b, count := c, iter := 0, idx := 0, tested := false, wbase := sh.wbase.val,
                           wsize := sh.wsize.val, rot := 0, stream := sh.stream, sregs := t.s } }) after 1

/-- What a `rep` of `n` bytes captures. -/
def State.captured (s : State) (t : Thread) (sh : RepShape) (n : Nat) : Captured :=
  s.capture t s.illegal captureFuel (sh.lenm1.val + 1) (nextPc t.pc n) []

section Rep
variable {s : State} {t : Thread} {f : Form} (h : s.Issues t f) {c : State → Thread → Nat} {sh : RepShape} {n : Nat}
include h

/-- A count beyond 32 bits faults before anything is captured. -/
theorem issue_repStart_beyond (big : 2 ^ 32 ≤ c s t) :
    s.issue f (fun s t => repStart s t (c s t) sh n) = s.faults t f { cause := .loop, info := BitVec.ofNat 64 (c s t) } := by
  rw [issue_of_issues h, repStart, if_pos big]; rfl

/-- What capturing meets is the `rep`'s fault. -/
theorem issue_repStart_fault (small : c s t < 2 ^ 32) {i : FaultInfo} (met : s.captured t sh n = .fault i) :
    s.issue f (fun s t => repStart s t (c s t) sh n) = s.faults t f i := by
  unfold State.captured at met
  rw [issue_of_issues h, repStart, if_neg (Nat.not_le.2 small), met]; rfl

/-- A captured body is repeated, or skipped where the count is 0. -/
theorem issue_repStart_ok (small : c s t < 2 ^ 32) {b : List BodyInstr} {after : Word} (got : s.captured t sh n = .ok b after) :
    s.issue f (fun s t => repStart s t (c s t) sh n) = s.repeats t f sh (c s t) b after := by
  unfold State.captured at got
  rw [issue_of_issues h, repStart, if_neg (Nat.not_le.2 small), got, State.repeats]
  dsimp only
  split
  · rfl
  · exact congrArg (fun s' => s.jumps t f s' after 1) (modCur_congr h.here rfl)

end Rep

/-- The register that a name inside the window means in iteration `i` (07 R147). -/
theorem rotateName_inside {wbase wsize n : Nat} (i : Nat) (wide : 2 ≤ wsize) (low : wbase ≤ n) (high : n < wbase + wsize) :
    (rotateName wbase wsize i n : Int) = wbase + ((n : Int) - wbase - i) % wsize := by
  have inside : ¬ (wsize ≤ 1 ∨ n < wbase ∨ wbase + wsize ≤ n) := by omega
  have turn : i % wsize < wsize := Nat.mod_lt i (by omega)
  have whole : ((n - wbase + (wsize - i % wsize) : Nat) : Int) = (n : Int) - wbase - i + (wsize : Int) * (1 + ((i / wsize : Nat) : Int)) := by
    have parts : (i : Int) = wsize * ((i / wsize : Nat) : Int) + ((i % wsize : Nat) : Int) := by exact_mod_cast (Nat.div_add_mod i wsize).symm
    rw [Int.mul_add]
    omega
  rw [rotateName, if_neg inside, Int.natCast_add, Int.natCast_emod, whole, Int.add_mul_emod_self_left]

/-- A name outside the window means itself. -/
theorem rotateName_outside {wbase wsize n : Nat} (i : Nat) (out : ¬ (2 ≤ wsize ∧ wbase ≤ n ∧ n < wbase + wsize)) :
    rotateName wbase wsize i n = n := by
  have outside : wsize ≤ 1 ∨ n < wbase ∨ wbase + wsize ≤ n := by omega
  rw [rotateName, if_pos outside]

/-- Settles O9: the three outcomes of a `rep`, of which an immediate count leaves two, and the names of the window. -/
theorem repetition : Obligations.Repetition := by
  refine ⟨fun s t p a j sh => ⟨fun h => ?reg, fun h => ?imm⟩,
    fun wbase wsize i n _ _ => ⟨fun ⟨wide, low, high⟩ => rotateName_inside i wide low high, rotateName_outside i⟩⟩
  case reg =>
    rw [exec_rep, execRep]
    exact ⟨fun b after small got => issue_repStart_ok h small got, fun i small met => issue_repStart_fault h small met,
      fun big => issue_repStart_beyond h big⟩
  case imm =>
    rw [exec_repImm, execRepImm]
    exact ⟨fun b after got => issue_repStart_ok (c := fun _ _ => j.toNat) h j.isLt got,
      fun i met => issue_repStart_fault (c := fun _ _ => j.toNat) h j.isLt met⟩

end Sys2Proof.Machine
end

section
/-! PROOFS. Queue registers (07 R139-R143): what each instruction makes of a queue by its length and its head. -/

namespace Sys2Proof.Machine

section Issued
variable {s : State} {t : Thread} {f : Form} (h : s.Issues t f)
include h

/-- The issue of a push into a queue that has room (07 R141). -/
theorem issue_pushEntry_room {q : QReg} (room : t.q[q].length < 8) (e : State → Thread → QEntry) :
    s.issue f (fun s t => pushEntry s t q (e s t)) =
      s.completes t f (s.modCur fun x => { x with q := x.q.set q (t.q[q] ++ [e s t]) }) 1 0 := by
  rw [issue_of_issues h, pushEntry, if_pos room]
  exact congrArg (fun s' => s.completes t f s' 1 0) (modCur_congr h.here rfl)

/-- The issue of a push into a full queue that no sequencer drains (07 R141). -/
theorem issue_pushEntry_full {q : QReg} (full : 8 ≤ t.q[q].length) (alone : t.rep = none) (e : State → Thread → QEntry) :
    s.issue f (fun s t => pushEntry s t q (e s t)) = s.faults t f (queueFault q) := by
  rw [issue_of_issues h, pushEntry, if_neg (Nat.not_lt.2 full), alone]; rfl

end Issued

section Head
variable {s : State} {t : Thread} {p : Pred} (h : s.Issues t (Form.beside 8 p)) {d : SReg} {q : QReg}
include h

/-- `q.pop` and `q.peek` of an entry: the pop alone removes it (07 R142). -/
theorem exec_qPop_qPeek_head {e : QEntry} {r : List QEntry} (head : t.q[q] = e :: r) :
    exec (.qPop p d q) s = s.completes t (Form.beside 8 p) (s.modCur fun x => ({ x with q := x.q.set q r } : Thread).setS d e.word) 1 0 ∧
    exec (.qPeek p d q) s = s.completes t (Form.beside 8 p) (s.modCur fun x => x.setS d e.word) 1 0 := by
  rw [exec_qPop, exec_qPeek, execQPop, execQPeek, issue_of_issues h, issue_of_issues h, head]
  exact ⟨rfl, rfl⟩

/-- `q.pop` and `q.peek` of an empty queue fault (07 R142). -/
theorem exec_qPop_qPeek_empty (empty : t.q[q] = []) :
    exec (.qPop p d q) s = s.faults t (Form.beside 8 p) (queueFault q) ∧
    exec (.qPeek p d q) s = s.faults t (Form.beside 8 p) (queueFault q) := by
  rw [exec_qPop, exec_qPeek, execQPop, execQPeek, issue_of_issues h, issue_of_issues h, empty]
  exact ⟨rfl, rfl⟩

end Head

/-- An entry is EOS. -/
theorem isEos_eq (e : QEntry) : e.isEos = decide (e = .eos) := by
  cases e <;> rfl

/-- The word of `q.test`: COUNT, HEADEOS and ANYEOS (07 R143). -/
theorem queueWord_eq (l : List QEntry) :
    queueWord l = BitVec.ofNat 64
      (l.length + (if l.head? = some .eos then 16 else 0) + (if l.contains .eos then 32 else 0)) := by
  have head : (l.head?.map QEntry.isEos).getD false = decide (l.head? = some .eos) := by
    cases l with
    | nil => rfl
    | cons e r => simp [isEos_eq]
  have any : l.any QEntry.isEos = l.contains .eos := by
    rw [Bool.eq_iff_iff]
    simp [isEos_eq]
  have scaled (c : Bool) (n : Nat) : b2n c * n = if c then n else 0 := by
    cases c
    · exact Nat.zero_mul n
    · exact Nat.one_mul n
  rw [queueWord, head, any, w64, scaled, scaled]
  simp only [decide_eq_true_eq]

/-- Settles O10: pushes by the room of the queue, pops and peeks by its head, and the word of `q.test`. -/
theorem queueRegisters : Obligations.QueueRegisters := by
  intro s t p d q a w r f put bad b2
  refine fun h => ⟨fun room => ?room, fun full alone => ?full, fun head => ?value, fun head => ?eos, fun empty => ?empty, ?test⟩
  case room =>
    rw [exec_qPush, exec_qEos, execQPush, execQEos, issue_pushEntry_room h room, issue_pushEntry_room h room]
    exact ⟨rfl, rfl⟩
  case full =>
    rw [exec_qPush, exec_qEos, execQPush, execQEos, issue_pushEntry_full h full alone, issue_pushEntry_full h full alone]
    exact ⟨rfl, rfl⟩
  case value => exact exec_qPop_qPeek_head (e := .val w) h head
  case eos => exact exec_qPop_qPeek_head (e := .eos) h head
  case empty => exact exec_qPop_qPeek_empty h empty
  case test =>
    have word : s.modCur (fun x => x.setS d (queueWord x.q[q])) = s.modCur fun x => x.setS d (queueWord t.q[q]) := modCur_congr h.here rfl
    rw [exec_qTest, execQTest, onThread_of_issues h, word, queueWord_eq]
    simp only [b2, f, decide_eq_true_eq]

end Sys2Proof.Machine
end

section
/-! PROOFS. Lanes that land change threads and cores alone (09 R188), so what a turn finds behind them of the rest is what was there. -/

namespace Sys2Proof.Machine

/-- `s'` differs from `s` at most in its threads and cores. -/
def State.LaneFrame (s s' : State) : Prop := s' = { s with threads := s'.threads, cores := s'.cores }

/-- Nothing changed. -/
theorem State.LaneFrame.refl (s : State) : s.LaneFrame s := rfl

/-- Two such changes are one. -/
theorem State.LaneFrame.trans {s s1 s2 : State} (h : s.LaneFrame s1) (k : s1.LaneFrame s2) : s.LaneFrame s2 := by
  unfold State.LaneFrame at h k ⊢
  rw [k, h]

/-- A run of such changes is one. -/
theorem laneFrame_foldl {α : Type} {f : State → α → State} (each : ∀ (s : State) x, s.LaneFrame (f s x)) :
    ∀ (l : List α) (s : State), s.LaneFrame (l.foldl f s)
  | [], s => .refl s
  | x :: l, s => (each s x).trans (laneFrame_foldl each l (f s x))

/-- A lane that lands changes its thread and its core. -/
theorem laneFrame_landLane (s : State) (vt slot : Nat) : s.LaneFrame (s.landLane vt slot) := by
  unfold State.landLane
  split
  · exact .refl s
  · rfl
  · rfl

/-- A thread's lanes that land change threads and cores alone. -/
theorem laneFrame_landThread (s : State) (vt slot : Nat) : s.LaneFrame (s.landThread vt slot) :=
  laneFrame_foldl (fun s _ => laneFrame_landLane s vt slot) _ s

/-- Lanes that land change threads and cores alone. -/
theorem laneFrame_landWhere (s : State) (f : Thread → Bool) : s.LaneFrame (s.landWhere f) :=
  laneFrame_foldl (α := Thread) (fun s t => laneFrame_landThread s t.vt t.slot) _ s

@[simp] theorem clk_landFor (s : State) (vt slot : Nat) (body : Bool) : (s.landFor vt slot body).clk = s.clk := by
  rw [State.landFor, laneFrame_landWhere s _]
@[simp] theorem qcmd_landAll (s : State) : s.landAll.qcmd = s.qcmd := by
  rw [State.landAll, laneFrame_landWhere s _]
@[simp] theorem fw_landAll (s : State) : s.landAll.fw = s.fw := by
  rw [State.landAll, laneFrame_landWhere s _]

end Sys2Proof.Machine
end

section
/-! PROOFS. The turn of a scalar stream (07 R124-R126): what its request leaves of the thread, what its bundle gives, and what becomes of the turn. -/

namespace Sys2Proof.Machine

/-! A request. -/

/-- A request changes a thread's buffer and its request alone. -/
theorem request_eq (t : Thread) (clk : Nat) : ∃ q, t.request clk =
    { t with fbuf := t.fbuf.filter fun b =>
               (b.addr == bundleOf t.pc && !(b.ahead && b.fault.isSome)) || b.addr == (bundleOf t.pc + 32) % 2 ^ 64
             freq := q } := by
  unfold Thread.request
  dsimp only
  split
  · exact ⟨_, rfl⟩
  · split
    · exact ⟨_, rfl⟩
    · exact ⟨_, rfl⟩
  · exact ⟨_, rfl⟩

@[simp] theorem request_pc (t : Thread) (clk : Nat) : (t.request clk).pc = t.pc := by obtain ⟨_, h⟩ := request_eq t clk; rw [h]
@[simp] theorem request_st (t : Thread) (clk : Nat) : (t.request clk).st = t.st := by obtain ⟨_, h⟩ := request_eq t clk; rw [h]

/-- A request leaves the thread its place. -/
theorem request_place (t : Thread) (clk : Nat) : (t.request clk).vt = t.vt ∧ (t.request clk).slot = t.slot := by
  obtain ⟨_, h⟩ := request_eq t clk
  rw [h]
  exact ⟨rfl, rfl⟩

/-- A thread that finds no bundle at its PC after its request had no head before it. -/
theorem hasHead_of_request {t : Thread} {clk : Nat} (none' : (t.request clk).buffered (bundleOf t.pc) = none) : t.hasHead = false := by
  obtain ⟨q, h⟩ := request_eq t clk
  rw [h] at none'
  simp only [Thread.buffered, List.find?_eq_none, List.mem_filter] at none'
  unfold Thread.hasHead Thread.buffered
  cases found : t.fbuf.find? fun b => b.addr == bundleOf t.pc with
  | none => rfl
  | some b =>
    have mem := List.mem_of_find?_eq_some found
    have here : (b.addr == bundleOf t.pc) = true := by simpa using List.find?_some found
    cases good : !(b.ahead && b.fault.isSome) with
    | false => simp [Option.filter, good]
    | true => exact absurd here (none' b ⟨mem, by rw [here, good]; rfl⟩)

/-- A thread whose buffer lacks the bundle at its PC asks for it (07 R124). -/
theorem request_asks {t : Thread} (lacks : t.buffered (bundleOf t.pc) = none) (clk : Nat) :
    (t.request clk).freq.map (·.addr) = some (bundleOf t.pc) := by
  have still : ({ t with fbuf := t.fbuf.filter fun b => (b.addr == bundleOf t.pc && !(b.ahead && b.fault.isSome)) ||
      b.addr == (bundleOf t.pc + 32) % 2 ^ 64 } : Thread).buffered (bundleOf t.pc) = none := by
    unfold Thread.buffered at lacks ⊢
    exact List.find?_eq_none.2 fun b mem => List.find?_eq_none.1 lacks b (List.mem_filter.1 mem).1
  unfold Thread.request
  dsimp only
  rw [still, Option.isNone_none, if_pos rfl]
  cases t.freq with
  | none => rfl
  | some r =>
    dsimp only
    split
    next same => exact congrArg some same
    next => rfl

/-! What the bundle gives. -/

section Fetched
variable {t : Thread}

/-- Without its bundle the thread waits. -/
theorem fetched_of_missing (lacks : t.buffered (bundleOf t.pc) = none) : t.fetched = .waits := by rw [Thread.fetched, lacks]

variable {b : Bundle} (found : t.buffered (bundleOf t.pc) = some b)
include found

/-- A fetch that met a fault gives it, at the PC (07 R126). -/
theorem fetched_of_fault {e : FaultInfo} (bad : b.fault = some e) : t.fetched = .fault { e with addr := t.pc } := by
  simp only [Thread.fetched, found, bad]

/-- A bundle gives what its bytes decode to at the PC (06 R113). -/
theorem fetched_of_decoded (good : b.fault = none) {d : Decoded} (dec : decodeAt b.bytes (t.pc.toNat % 32) = d) :
    t.fetched = .ofDecoded t d := by
  simp only [Thread.fetched, found, good, dec]

end Fetched

/-! The turn. -/

/-- A thread that may issue is there and in RUN. -/
theorem issues_thread {s : State} {vt slot : Nat} (h : s.issues vt slot = true) : ∃ t, s.thread? vt slot = some t ∧ t.st = .run := by
  unfold State.issues at h
  split at h
  next t v here _ =>
    simp only [Bool.and_eq_true, beq_iff_eq] at h
    exact ⟨t, here, h.1.1⟩
  next => cases h

/-- A fault met where an instruction would have been is taken where one would be carried out. -/
theorem issueFault_of_issues {s : State} {t : Thread} (h : s.Issues t (Form.beside 8 Pred.always)) (e : FaultInfo) :
    s.issueFault e = s.faults t (Form.beside 8 Pred.always) e := issue_of_issues h _

section Turn
variable {s : State} {vt slot : Nat}

/-- The thread at its issue: its request stands. -/
theorem thread?_atIssue {t : Thread} (here : s.thread? vt slot = some t) :
    (s.atIssue vt slot false).thread? vt slot = some (t.request (s.clk + 1)) := by
  have moved := thread?_modThread (s := { s.tick 1 with cur := { vt := vt, slot := slot, body := false } }) (vt := vt) (slot := slot)
    (fun t => request_place t (s.clk + 1))
  exact moved.trans (congrArg (Option.map fun t => Thread.request t (s.clk + 1)) here)

/-- A thread that may not issue lets a clk pass. -/
theorem issueTurn_of_closed (h : s.issues vt slot = false) : s.issueTurn vt slot = .next (s.tick 1) := by
  rw [State.issueTurn, h]; rfl

/-- A thread that may not issue notes none. -/
theorem noteIssue_of_closed (h : s.issues vt slot = false) (body : Bool) (s' : State) : s.noteIssue vt slot body (.next s') = .next s' := by
  simp [State.noteIssue, State.issuedHead, h]

/-- A thread without a head notes no issue. -/
theorem noteIssue_of_headless (h : (s.thread vt slot).hasHead = false) (s' : State) : s.noteIssue vt slot false (.next s') = .next s' := by
  simp [State.noteIssue, State.issuedHead, h]

section Open
variable (h : s.issues vt slot = true) {s1 : State} (at' : s.atIssue vt slot false = s1)
include h at'

/-- A thread that may issue runs the instruction at its PC. -/
theorem issueTurn_of_ok {i : Instr} (f : (s1.thread vt slot).fetched = .ok i) : s.issueTurn vt slot = exec i s1 := by
  rw [State.issueTurn, h, at', f]; rfl

/-- A fault met where an instruction would have been freezes a thread that nothing else stands against. -/
theorem issueTurn_of_fault {e : FaultInfo} (f : (s1.thread vt slot).fetched = .fault e) (calm : (s1.thread vt slot).pend = false)
    (quiet : (s1.thread vt slot).asyncF = none) :
    s.issueTurn vt slot = .next (s1.freeze vt slot e (s1.thread vt slot).pc false) := by
  obtain ⟨u, here, run⟩ := issues_thread h
  have now : s1.thread? vt slot = some (u.request (s.clk + 1)) := at' ▸ thread?_atIssue here
  have cur : s1.cur = { vt := vt, slot := slot, body := false } := by rw [← at']; rfl
  rw [State.issueTurn, h, at', f]
  rw [thread_of_thread? now] at calm quiet ⊢
  have issued : s1.Issues (u.request (s.clk + 1)) (Form.beside 8 Pred.always) :=
    { here := by rw [State.curThread?, cur, now], run := by rw [request_st, run], calm := fun pend => absurd pend (by rw [calm]; decide),
      quiet := quiet, free := fun _ _ => rfl, able := nofun, pred := fun _ => BitVec.getLsbD_allOnes }
  change s1.issueFault e = _
  rw [issueFault_of_issues issued, State.faults, State.finish, cur]; rfl

/-- A thread without its bundle waits for it. -/
theorem noteIssue_of_missing (lacks : (s1.thread vt slot).buffered (bundleOf (s1.thread vt slot).pc) = none) :
    s.noteIssue vt slot false (s.issueTurn vt slot) = .next s1 := by
  obtain ⟨t, here, -⟩ := issues_thread h
  have now : s1.thread? vt slot = some (t.request (s.clk + 1)) := at' ▸ thread?_atIssue here
  have waits : s.issueTurn vt slot = .next s1 := by rw [State.issueTurn, h, at', fetched_of_missing lacks]; rfl
  rw [thread_of_thread? now, request_pc] at lacks
  rw [waits, noteIssue_of_headless (by rw [thread_of_thread? here, hasHead_of_request lacks])]

end Open

end Turn

/-! The turn of a sequencer (07 R144, R147). -/

/-- The sequencer's issue runs the instruction that is next in its body. -/
theorem bodyIssue_of_some {s : State} {vt slot : Nat} {body : Bool} {x : BodyInstr} (cur : s.cur = { vt := vt, slot := slot, body := body })
    (next : (s.thread vt slot).bodyInstr = some x) : s.bodyIssue = exec x.ins s := by
  rw [State.bodyIssue, cur, next]

section Body
variable {s : State} {vt slot : Nat} (h : s.issues vt slot = true) {s2 : State} (at' : s.atIssue vt slot true = s2)
include h at'

/-- A sequencer issues its next instruction. -/
theorem bodyTurn_of_ready {x : BodyInstr} (test : (s2.thread vt slot).seqTest = .ready) (next : (s2.thread vt slot).bodyInstr = some x) :
    s.bodyTurn vt slot = exec x.ins s2 := by
  have cur : s2.cur = { vt := vt, slot := slot, body := true } := by rw [← at']; rfl
  rw [State.bodyTurn, h, at', test]
  exact bodyIssue_of_some cur next

/-- A stream that is empty lets it wait. -/
theorem bodyTurn_of_wait (test : (s2.thread vt slot).seqTest = .wait) : s.bodyTurn vt slot = .next s2.bodyWait := by
  rw [State.bodyTurn, h, at', test]; rfl

/-- An EOS ends its run. -/
theorem bodyTurn_of_ended {u : Thread} (test : (s2.thread vt slot).seqTest = .ended u) :
    s.bodyTurn vt slot = .next (s2.modCur fun _ => u) := by
  rw [State.bodyTurn, h, at', test]; rfl

/-- A test that passes is followed by the instruction in the same turn. -/
theorem bodyTurn_of_passed {u : Thread} {x : BodyInstr} (test : (s2.thread vt slot).seqTest = .passed u)
    (next : ((s2.modCur fun _ => u).thread vt slot).bodyInstr = some x) :
    s.bodyTurn vt slot = exec x.ins (s2.modCur fun _ => u) := by
  have cur : (s2.modCur fun _ => u).cur = { vt := vt, slot := slot, body := true } := by rw [← at']; rfl
  rw [State.bodyTurn, h, at', test]
  exact bodyIssue_of_some cur next

end Body

end Sys2Proof.Machine
end

section
/-! PROOFS. The fetch port (07 R124, R125): whom it serves, and with what. -/

namespace Sys2Proof.Machine

/-- The thread asks a tile's port for the bundle at an address. -/
def Thread.asksFor (vt addr : Nat) (x : Thread) : Bool := x.vt == vt && x.freq.map (·.addr) == some addr

/-- The bundle that a line read at an address gives a thread: ahead of control where its PC is elsewhere (07 R125, R126). -/
def servedBundle (addr : Nat) (line : Except Nat CodeLine) (x : Thread) : Bundle :=
  match line with
  | .error e => { addr := addr, bytes := [], fault := some { transFault addr .fetch e with fetch := true }, ahead := addr != bundleOf x.pc }
  | .ok l => { addr := addr, bytes := l.bytes, fault := none, ahead := addr != bundleOf x.pc }

/-- The line that the port reads for a thread's request: one read after the last release among the gangs that ask (07 R125). -/
def State.servedLine (s : State) (vt addr : Nat) (u : Thread) : Except Nat CodeLine :=
  s.fetchLine (s.spaceOf u) (((s.threads.filter (Thread.asksFor vt addr)).map s.startOf).foldl max 0) addr

/-- Keeping a line changes the tile's cache alone. -/
theorem keepLine_eq (s : State) (vt : Nat) (line : Except Nat CodeLine) : ∃ v, s.keepLine vt line = { s with vtiles := v } := by
  cases line with
  | error e => exact ⟨_, rfl⟩
  | ok l => exact ⟨_, rfl⟩

/-- The port keeps the line of the oldest request and hands its bundle to every thread of the tile that asks for it. -/
theorem serveFetch_served {s : State} {vt : Nat} {u : Thread} {k : FetchReq} (oldest : s.nextServed vt = some u) (asked : u.freq = some k) :
    s.serveFetch vt =
      { s.keepLine vt (s.servedLine vt k.addr u) with
        lastServed := upsert (fun x => x.1 == vt) (vt, u.slot) (fun _ => (vt, u.slot)) s.lastServed
        threads := s.threads.map fun x =>
          if x.asksFor vt k.addr then
            ({ x with fbuf := x.fbuf ++ [servedBundle k.addr (s.servedLine vt k.addr u) x], freq := none } : Thread).request s.clk
          else x } := by
  have line : s.fetchLine (s.spaceOf u) ((s.threads.filter fun x => x.vt == vt && x.freq.map (·.addr) == some k.addr).foldl
      (fun n x => max n (s.startOf x)) 0) k.addr = s.servedLine vt k.addr u := by
    rw [State.servedLine, List.foldl_map]; rfl
  unfold State.serveFetch
  simp only [oldest, asked, State.fetchBundle, line]
  obtain ⟨v, kept⟩ := keepLine_eq s vt (s.servedLine vt k.addr u)
  rw [kept]
  cases s.servedLine vt k.addr u <;> rfl

/-- A bundle that does not translate. -/
theorem fetchLine_err {s : State} {sp : Space} {addr : Nat} {e : Nat} (bad : s.translate sp addr needFetch = .err e) (since : Nat) :
    s.fetchLine sp since addr = .error e := by rw [State.fetchLine, bad]

/-- A bundle that translates: the tile's cached line, or what memory holds. -/
theorem fetchLine_ok {s : State} {sp : Space} {addr : Nat} {m : Mapped} (good : s.translate sp addr needFetch = .ok m) (since : Nat) :
    s.fetchLine sp since addr = .ok ((s.codeLine sp m.pa since).getD { pa := m.pa, clk := s.clk, bytes := s.hbm.bytes m.pa 32 }) := by
  rw [State.fetchLine, good]

end Sys2Proof.Machine
end

section
/-! PROOFS. A step is the turn at the head of the agenda. -/

namespace Sys2Proof.Machine

/-- A step takes the first turn. -/
theorem step_of_agenda {s : State} {t : Turn} {r : List Turn} (h : s.agenda = t :: r) : step s = ({ s with agenda := r } : State).turn t := by
  rw [step, h]

/-- A port that picks the head named gives it its turn. -/
theorem portTurn_of_pick {s : State} {vt slot : Nat} {body : Bool} (pick : s.portPick vt slot body = (slot, body)) :
    s.portTurn vt slot body = s.headTurn vt slot body := by
  rw [State.portTurn, pick, ite_self]

/-- With no cap in force on a stack a tick moves the clk alone. -/
theorem tick_of_uncapped {s : State} (low : ∀ k ∈ s.hbmStacks, k.step < 2) (n : Nat) : s.tick n = { s with clk := s.clk + n } := by
  have none' : (s.hbmStacks.any fun x => 2 ≤ x.step) = false := by
    rw [List.any_eq_false]
    exact fun k mem cap => Nat.not_le.2 (low k mem) (of_decide_eq_true cap)
  rw [State.tick, none']; rfl

/-- A scalar stream's turn whose port picks it. -/
theorem step_issue {s : State} {r : List Turn} {vt slot : Nat} (first : s.agenda = .issue vt slot :: r)
    (pick : ({ s with agenda := r } : State).portPick vt slot false = (slot, false)) :
    step s = (({ s with agenda := r } : State).landFor vt slot false).noteIssue vt slot false
      ((({ s with agenda := r } : State).landFor vt slot false).issueTurn vt slot) := by
  rw [step_of_agenda first, State.turn, portTurn_of_pick pick]; rfl

/-- A sequencer's turn whose port picks it. -/
theorem step_body {s : State} {r : List Turn} {vt slot : Nat} (first : s.agenda = .body vt slot :: r)
    (pick : ({ s with agenda := r } : State).portPick vt slot true = (slot, true)) :
    step s = (({ s with agenda := r } : State).landFor vt slot true).noteIssue vt slot true
      ((({ s with agenda := r } : State).landFor vt slot true).bodyTurn vt slot) := by
  rw [step_of_agenda first, State.turn, portTurn_of_pick pick]; rfl

/-- Settles O55: a step is the turn at the head of the agenda; a scalar stream's turn runs what its bundle gives, a sequencer's what its test leaves, and the port serves the oldest request. -/
theorem stepRunsDecoded : Obligations.StepRunsDecoded := by
  intro s r vt slot n asid va on i b x u u0 k e w1 w2 a0 s0 b0 e0 s1 s2 t stamp
  have at' : s0.atIssue vt slot false = s1 := by
    have clk : s0.clk = s.clk := clk_landFor a0 vt slot false
    simp only [State.atIssue, s1, ← clk]
    rfl
  refine ⟨fun first pick => ?issue, fun first pick may => ?body, fun first event => ?event, fun first => ?elapse, fun first => ?lane, fun first => ?command,
    ⟨rfl, fun low => tick_of_uncapped low n⟩, fun first => ?saved, fun first => ?cache, fun first => ?uncache, fun first => ?evict,
    fun first port => ?retry, fun first => ?boot, fun first => ?store, ?serve, fun x c lacks => request_asks lacks c,
    fun sp since addr => ⟨fun e bad => fetchLine_err bad since, fun m good => fetchLine_ok good since⟩⟩
  case issue =>
    rw [step_issue first pick]
    change (s0.issues vt slot = false → s0.noteIssue vt slot false (s0.issueTurn vt slot) = _) ∧ _
    refine ⟨fun shut => ?_, fun may => ⟨fun lacks => ?_, fun found => ⟨fun good dec => ?_, fun bad calm quiet => ?_,
      fun good calm quiet => ⟨fun dec => ?_, fun dec => ?_⟩⟩⟩⟩
    · rw [issueTurn_of_closed shut, noteIssue_of_closed shut]
    · exact noteIssue_of_missing may at' lacks
    · rw [issueTurn_of_ok may at' (fetched_of_decoded found good dec)]; rfl
    · rw [issueTurn_of_fault may at' (fetched_of_fault found bad) calm quiet]; rfl
    · rw [issueTurn_of_fault may at' (fetched_of_decoded found good dec) calm quiet]; rfl
    · rw [issueTurn_of_fault may at' (fetched_of_decoded found good dec) calm quiet]; rfl
  case body =>
    rw [step_body first pick]
    refine ⟨fun test next => ?_, fun test => ?_, fun test => ?_, fun test next => ?_⟩
    · exact congrArg (b0.noteIssue vt slot true) (bodyTurn_of_ready may rfl test next)
    · exact congrArg (b0.noteIssue vt slot true) (bodyTurn_of_wait may rfl test)
    · exact congrArg (b0.noteIssue vt slot true) (bodyTurn_of_ended may rfl test)
    · exact congrArg (b0.noteIssue vt slot true) (bodyTurn_of_passed may rfl test next)
  case event =>
    rw [step_of_agenda first]
    change (if i.enc.isNone then exec i e0 else .next e0) = _
    rw [event]; rfl
  case elapse => rw [step_of_agenda first]; rfl
  case lane => rw [step_of_agenda first]; rfl
  case command =>
    have same : e0.qcmd = s.qcmd := qcmd_landAll a0
    rw [step_of_agenda first]
    change Host.Outcome.next e0.commandTurn = _
    rw [State.commandTurn, same]
  case saved => rw [step_of_agenda first]; rfl
  case cache => rw [step_of_agenda first]; rfl
  case uncache => rw [step_of_agenda first]; rfl
  case evict => rw [step_of_agenda first]; rfl
  case retry =>
    rw [step_of_agenda first]
    exact congrArg Host.Outcome.next (if_pos port)
  case boot => rw [step_of_agenda first]; rfl
  case store =>
    have same : e0.fw = s.fw := fw_landAll a0
    rw [step_of_agenda first]
    exact congrArg (fun x : Firmware => Host.Outcome.next { e0 with fw := { x with storeBad := on } }) same
  case serve =>
    intro a oldest asked asks since line bundle
    rw [exec_fetchRequestServe, execFetchRequestServe, show s.askFetch vt = a from rfl, serveFetch_served oldest asked]
    rfl

end Sys2Proof.Machine
end

section
/-! PROOFS. Scalar rows: an issued one writes its result and flags (08 R156), and the rows that only change a predicate register write it. -/

namespace Sys2Proof.Machine

section Issued
variable {s : State} {t : Thread} {f : Form} (h : s.Issues t f)
include h

/-- A scalar row writes what it computes from the thread that issues it. -/
theorem scalar_of_issues {d : SReg} {g : Thread → Word × FFlags} {v : Word} {fl : FFlags} (result : g t = (v, fl)) :
    s.scalar f d g = s.writesS t f d v fl := by
  rw [State.scalar, onThread_of_issues h, State.writesS]
  exact congrArg (s.completes t f · 1 0) (modCur_congr h.here (by rw [result]))

/-- A scalar row without flags. -/
theorem scalar_plain_of_issues {d : SReg} {g : Thread → Word} {v : Word} (result : g t = v) :
    (s.scalar f d fun t => plain (g t)) = s.writesS t f d v 0 := scalar_of_issues h (congrArg plain result)

/-- A row that only writes a predicate register. -/
theorem onThread_setP_of_issues {d : PReg} {g : Thread → BitVec 32} {v : BitVec 32} (result : g t = v) :
    (s.onThread f 1 fun t => t.setP d (g t)) = s.writesP t f d v := by
  rw [onThread_of_issues h, State.writesP]
  exact congrArg (s.completes t f · 1 0) (modCur_congr h.here (by rw [result]))

end Issued

/-- The low half of a word, as the statements write it. -/
theorem lo32_eq_setWidth (x : Word) : lo32 x = x.setWidth 32 := (BitVec.setWidth_eq_extractLsb' (by decide)).symm

end Sys2Proof.Machine
end

section
/-! PROOFS. Saturation, and `add`, `sub`, `mul` in every mode; `mulh`, `div` and `rem` (08 R158-R160). -/

namespace Sys2Proof.Machine

/-! Saturation (00 R10). -/

/-- A clamp saturates and flags where it acts. -/
theorem clamp_eq_saturate {lo hi : Int} (range : lo ≤ hi) (x : Int) : clamp x lo hi = (saturate lo hi x, satFlag lo hi x) := by
  simp only [clamp, saturate, satFlag]
  by_cases low : x < lo
  · rw [if_pos low, if_neg (by omega), show max lo (min hi x) = lo by omega]
  · by_cases high : hi < x
    · rw [if_neg low, if_pos high, if_neg (by omega), show max lo (min hi x) = hi by omega]
    · rw [if_neg low, if_neg high, if_pos (by omega), show max lo (min hi x) = x by omega]

theorem clampS_eq_saturate (w : Nat) (x : Int) :
    clampS w x = (saturate (-2 ^ (w - 1)) (2 ^ (w - 1) - 1) x, satFlag (-2 ^ (w - 1)) (2 ^ (w - 1) - 1) x) := by
  have pos : 0 < (2 : Int) ^ (w - 1) := Int.pow_pos (by decide)
  have range : -2 ^ (w - 1) ≤ (2 : Int) ^ (w - 1) - 1 := by omega
  rw [clampS, Int.natCast_pow]
  exact clamp_eq_saturate range x

theorem clampU_eq_saturate (w : Nat) (x : Int) : clampU w x = (saturate 0 (2 ^ w - 1) x, satFlag 0 (2 ^ w - 1) x) := by
  have range : 0 ≤ (2 : Int) ^ w - 1 := Int.sub_nonneg_of_le (Int.pow_pos (by decide))
  rw [clampU, Int.natCast_pow]
  exact clamp_eq_saturate range x

theorem saturate_mem {lo hi : Int} (range : lo ≤ hi) (x : Int) : lo ≤ saturate lo hi x ∧ saturate lo hi x ≤ hi := by
  rw [saturate]; omega

/-! A result of 32 bits in a register of 64. -/

/-- A value within 32 signed bits, sign-extended. -/
theorem signExtend_ofInt_of_range {x : Int} (low : -2 ^ 31 ≤ x) (high : x < 2 ^ 31) : (BitVec.ofInt 32 x).signExtend 64 = BitVec.ofInt 64 x :=
  congrArg (BitVec.ofInt 64) (BitVec.toInt_ofInt_eq_self (by decide) low high)

/-- A natural number below 2^32, as a pattern of 32 bits zero-extended. -/
theorem setWidth_ofNat_of_lt {n : Nat} (small : n < 2 ^ 32) : (BitVec.ofNat 32 n).setWidth 64 = BitVec.ofNat 64 n := by
  rw [← BitVec.ofNat_toNat, BitVec.toNat_ofNat, Nat.mod_eq_of_lt small]

/-- A value within 32 unsigned bits, zero-extended. -/
theorem setWidth_ofInt_of_range {x : Int} (low : 0 ≤ x) (high : x < 2 ^ 32) : (BitVec.ofInt 32 x).setWidth 64 = BitVec.ofInt 64 x := by
  obtain ⟨n, rfl⟩ := Int.eq_ofNat_of_zero_le low
  rw [BitVec.ofInt_natCast, BitVec.ofInt_natCast, setWidth_ofNat_of_lt (by omega)]

/-! `add`, `sub` and `mul`. -/

/-- The low 32 bits of `f`'s result depend on the low 32 bits of its operands alone. -/
def Narrows (f : Int → Int → Int) : Prop :=
  ∀ a b : Word, BitVec.ofInt 32 (f a.toInt b.toInt) = BitVec.ofInt 32 (f (a.setWidth 32).toInt (b.setWidth 32).toInt)

/-- The low 32 bits of a word, by its value. -/
theorem ofInt_toInt_narrow (a : Word) : BitVec.ofInt 32 a.toInt = BitVec.ofInt 32 (a.setWidth 32).toInt := by
  rw [BitVec.ofInt_toInt]; exact BitVec.signExtend_eq_setWidth_of_le a (by decide)

theorem narrows_add : Narrows (· + ·) := fun a b => by
  simp only [BitVec.ofInt_add, ofInt_toInt_narrow a, ofInt_toInt_narrow b]

theorem narrows_sub : Narrows (· - ·) := fun a b => by
  simp only [Int.sub_eq_add_neg, BitVec.ofInt_add, BitVec.ofInt_neg, ofInt_toInt_narrow a, ofInt_toInt_narrow b]

theorem narrows_mul : Narrows (· * ·) := fun a b => by
  simp only [BitVec.ofInt_mul, ofInt_toInt_narrow a, ofInt_toInt_narrow b]

/-- An operation in each mode, as R158's table gives it. -/
theorem aluOp_eq_aluResult {f : Int → Int → Int} (narrow : Narrows f) (m : AluMode) (a b : Word) : aluOp m f a b = aluResult m f a b := by
  cases m with
  | wrap => rfl
  | w => simp only [aluOp, aluResult, narrow a b]
  | ss => simp only [aluOp, aluResult, clampS_eq_saturate]
  | us => simp only [aluOp, aluResult, clampU_eq_saturate]
  | wss =>
    simp only [aluOp, aluResult, clampS_eq_saturate, lo32_eq_setWidth]
    obtain ⟨low, high⟩ := saturate_mem (by decide : (-2 ^ 31 : Int) ≤ 2 ^ 31 - 1) (f (a.setWidth 32).toInt (b.setWidth 32).toInt)
    rw [signExtend_ofInt_of_range low (by omega)]
  | wus =>
    simp only [aluOp, aluResult, clampU_eq_saturate, lo32_eq_setWidth]
    obtain ⟨low, high⟩ := saturate_mem (by decide : (0 : Int) ≤ 2 ^ 32 - 1) (f (a.setWidth 32).toNat (b.setWidth 32).toNat)
    rw [setWidth_ofInt_of_range low (by omega)]

/-! `mulh`, `div` and `rem`. -/

theorem mulHigh_uu (a b : Word) : mulHigh .uu a b = BitVec.ofNat 64 (a.toNat * b.toNat / 2 ^ 64) := BitVec.ofInt_natCast 64 (a.toNat * b.toNat / 2 ^ 64)

/-- The flag of a zero divisor: INVALID for a zero dividend too. -/
def zeroDivisorFlag (n : Nat) : FFlags := if n = 0 then flagInvalid else flagDivzero

section Divide
variable {w : Nat} {a b : BitVec w}

theorem divide_of_zero (sgn : Bool) (zero : b = 0) : divide sgn w a b = (BitVec.allOnes w, a, zeroDivisorFlag a.toNat) := by
  have same : a = 0 ↔ a.toNat = 0 := BitVec.toNat_inj (y := 0).symm
  simp only [divide, if_pos zero, zeroDivisorFlag, same]

theorem divide_signed (nonzero : b ≠ 0) :
    divide true w a b = (BitVec.ofInt w (a.toInt.tdiv b.toInt), BitVec.ofInt w (a.toInt - a.toInt.tdiv b.toInt * b.toInt), 0) := by
  rw [divide, if_neg nonzero, if_pos rfl, Int.tmod_def, Int.mul_comm]

theorem divide_unsigned (nonzero : b ≠ 0) :
    divide false w a b = (BitVec.ofNat w (a.toNat / b.toNat), BitVec.ofNat w (a.toNat % b.toNat), 0) := by
  rw [divide, if_neg nonzero, if_neg Bool.false_ne_true, ← BitVec.toNat_udiv, ← BitVec.toNat_umod, BitVec.ofNat_toNat, BitVec.ofNat_toNat,
    BitVec.setWidth_eq, BitVec.setWidth_eq]

end Divide

/-- `div` and `rem` of words. -/
theorem divOp_wide (sgn quot : Bool) (a b : Word) {r : Word × Word × FFlags} (parts : divide sgn 64 a b = r) :
    divOp sgn false quot a b = (if quot then r.1 else r.2.1, r.2.2) := by
  subst parts; rfl

/-- `div` and `rem` of the low halves. -/
theorem divOp_narrow (sgn quot : Bool) (a b : Word) {r : BitVec 32 × BitVec 32 × FFlags} (parts : divide sgn 32 (a.setWidth 32) (b.setWidth 32) = r) :
    divOp sgn true quot a b = (widen sgn (if quot then r.1 else r.2.1), r.2.2) := by
  subst parts; rw [← lo32_eq_setWidth, ← lo32_eq_setWidth]; rfl

/-- A remainder of signed 32-bit values, sign-extended. -/
theorem signExtend_remainder {a b : BitVec 32} (nonzero : b ≠ 0) :
    (BitVec.ofInt 32 (a.toInt - a.toInt.tdiv b.toInt * b.toInt)).signExtend 64 = BitVec.ofInt 64 (a.toInt - a.toInt.tdiv b.toInt * b.toInt) := by
  have divisor : b.toInt ≠ 0 := fun z => nonzero (BitVec.eq_of_toInt_eq (z.trans BitVec.toInt_zero.symm))
  have low := b.le_toInt
  have high := b.toInt_lt
  have size := Int.natAbs_tmod a.toInt b.toInt
  have smaller := Nat.mod_lt a.toInt.natAbs (Int.natAbs_pos.mpr divisor)
  rw [Int.mul_comm, ← Int.tmod_def]
  apply signExtend_ofInt_of_range <;> omega

/-- Settles O1: `add`, `sub` and `mul` by the table of modes, `mulh` by its kinds, `div` and `rem` by their width and whether the divisor is zero. -/
theorem scalarArithmetic : Obligations.ScalarArithmetic := by
  refine ⟨fun s t p m d a b i j => ⟨fun h => ⟨?add, ?sub, ?mul, ?addImm, ?subImm⟩, fun h => ⟨?addLong, ?subLong⟩⟩, fun s t p d a b h => ?_⟩
  case add => exact scalar_of_issues h (aluOp_eq_aluResult narrows_add ..)
  case sub => exact scalar_of_issues h (aluOp_eq_aluResult narrows_sub ..)
  case mul => exact scalar_of_issues h (aluOp_eq_aluResult narrows_mul ..)
  case addImm => exact scalar_of_issues h (aluOp_eq_aluResult narrows_add ..)
  case subImm => exact scalar_of_issues h (aluOp_eq_aluResult narrows_sub ..)
  case addLong => exact scalar_of_issues h (aluOp_eq_aluResult narrows_add ..)
  case subLong => exact scalar_of_issues h (aluOp_eq_aluResult narrows_sub ..)
  refine ⟨?ss, ?uu, ?su, fun zero => ?wideZero, fun nonzero => ?wide, fun zero => ?narrowZero, fun nonzero => ?narrow⟩
  case ss => exact scalar_plain_of_issues h rfl
  case uu => exact scalar_plain_of_issues h (mulHigh_uu ..)
  case su => exact scalar_plain_of_issues h rfl
  case wideZero =>
    exact ⟨scalar_of_issues h (divOp_wide true true _ _ (divide_of_zero true zero)), scalar_of_issues h (divOp_wide false true _ _ (divide_of_zero false zero)),
      scalar_of_issues h (divOp_wide true false _ _ (divide_of_zero true zero)), scalar_of_issues h (divOp_wide false false _ _ (divide_of_zero false zero))⟩
  case wide =>
    refine ⟨scalar_of_issues h (divOp_wide true true _ _ (divide_signed nonzero)), scalar_of_issues h (divOp_wide false true _ _ (divide_unsigned nonzero)),
      scalar_of_issues h (divOp_wide true false _ _ (divide_signed nonzero)), ?_⟩
    rw [← Nat.mod_eq_sub_div_mul]
    exact scalar_of_issues h (divOp_wide false false _ _ (divide_unsigned nonzero))
  case narrowZero =>
    exact ⟨scalar_of_issues h (divOp_narrow true true _ _ (divide_of_zero true zero)), scalar_of_issues h (divOp_narrow false true _ _ (divide_of_zero false zero)),
      scalar_of_issues h (divOp_narrow true false _ _ (divide_of_zero true zero)), scalar_of_issues h (divOp_narrow false false _ _ (divide_of_zero false zero))⟩
  case narrow =>
    refine ⟨scalar_of_issues h (divOp_narrow true true _ _ (divide_signed nonzero)), ?quotU, ?rem, ?remU⟩
    case quotU =>
      rw [← setWidth_ofNat_of_lt (Nat.lt_of_le_of_lt (Nat.div_le_self ..) (BitVec.isLt _))]
      exact scalar_of_issues h (divOp_narrow false true _ _ (divide_unsigned nonzero))
    case rem =>
      rw [← signExtend_remainder nonzero]
      exact scalar_of_issues h (divOp_narrow true false _ _ (divide_signed nonzero))
    case remU =>
      rw [← setWidth_ofNat_of_lt (Nat.lt_of_le_of_lt (Nat.mod_le ..) (BitVec.isLt _))]
      exact scalar_of_issues h (divOp_narrow false false _ _ (divide_unsigned nonzero))

end Sys2Proof.Machine
end

section
/-! PROOFS. Scalar minimum, maximum, absolute value, negation and logic (08 R161, R162). -/

namespace Sys2Proof.Machine

/-- The signed value of the word that a comparison picks is what the comparison picks of the values. -/
theorem ite_eq_ofInt (c : Prop) [Decidable c] (x y : Word) : (if c then x else y) = BitVec.ofInt 64 (if c then x.toInt else y.toInt) := by
  rw [apply_ite (BitVec.ofInt 64), BitVec.ofInt_toInt, BitVec.ofInt_toInt]

/-- The same, of values read unsigned. -/
theorem ite_eq_ofNat (c : Prop) [Decidable c] (x y : Word) : (if c then x else y) = BitVec.ofNat 64 (if c then x.toNat else y.toNat) := by
  rw [apply_ite (BitVec.ofNat 64), BitVec.ofNat_toNat, BitVec.ofNat_toNat, BitVec.setWidth_eq, BitVec.setWidth_eq]

/-- `abs` and `neg` under saturation. -/
theorem unarySat_true (x : Int) : unarySat true x = (BitVec.ofInt 64 (saturate (-2 ^ 63) (2 ^ 63 - 1) x), satFlag (-2 ^ 63) (2 ^ 63 - 1) x) := by
  rw [unarySat, if_pos rfl, clampS_eq_saturate]

/-- `neg` without saturation wraps. -/
theorem unarySat_false_neg (x : Word) : unarySat false (-x.toInt) = (-x, 0) := by
  rw [unarySat, if_neg Bool.false_ne_true, BitVec.ofInt_neg, BitVec.ofInt_toInt]

/-- Settles O2: a minimum or maximum is the one that the comparison of R161 picks, `abs` and `neg` narrow the exact value, and the logic rows are the bitwise operations on their operands. -/
theorem scalarMinMaxLogic : Obligations.ScalarMinMaxLogic := by
  intro s t p d a b i j
  refine ⟨fun h => ⟨?min, ?max, ?minU, ?maxU, ?abs, ?absSat, ?neg, ?negSat, ?logic⟩, fun h => ?logicLong⟩
  case min => exact scalar_plain_of_issues h (by rw [ite_eq_ofInt, Int.min_def])
  case max => exact scalar_plain_of_issues h (by rw [ite_eq_ofInt, Int.max_def])
  case minU => exact scalar_plain_of_issues h (by rw [ite_eq_ofNat, Nat.min_def])
  case maxU => exact scalar_plain_of_issues h (by rw [ite_eq_ofNat, Nat.max_def])
  case abs => exact scalar_of_issues h rfl
  case absSat => exact scalar_of_issues h (unarySat_true _)
  case neg => exact scalar_of_issues h (unarySat_false_neg _)
  case negSat => exact scalar_of_issues h (unarySat_true _)
  case logic =>
    have row {g : Thread → Word} := scalar_plain_of_issues h (d := d) (g := g) rfl
    exact ⟨row, row, row, row, row, row, row, row⟩
  case logicLong =>
    have row {g : Thread → Word} := scalar_plain_of_issues h (d := d) (g := g) rfl
    exact ⟨row, row, row⟩

end Sys2Proof.Machine
end

section
/-! PROOFS. Scalar shifts, bit fields and counts (08 R163, R166, R167). -/

namespace Sys2Proof.Machine

/-! Shifts and rotations. -/

/-- A shift at width `w` by `n`, as R163 gives it in numbers. -/
def shiftResult (op : ShiftOp) {w : Nat} (x : BitVec w) (n : Nat) : BitVec w :=
  match op with
  | .shl => BitVec.ofNat w (x.toNat * 2 ^ n)
  | .shr => BitVec.ofNat w (x.toNat / 2 ^ n)
  | .sar => BitVec.ofInt w (x.toInt / 2 ^ n)
  | .rot => BitVec.ofNat w (x.toNat / 2 ^ n + x.toNat * 2 ^ (w - n))

/-- A shift to the left multiplies. -/
theorem shiftLeft_eq_ofNat {w : Nat} (x : BitVec w) (n : Nat) : x <<< n = BitVec.ofNat w (x.toNat * 2 ^ n) := by
  apply BitVec.eq_of_toNat_eq
  rw [BitVec.toNat_shiftLeft, Nat.shiftLeft_eq, BitVec.toNat_ofNat]

/-- A rotation puts the low bits above the high ones: the two parts share no bit. -/
theorem rotateRight_eq_ofNat {w : Nat} (x : BitVec w) {n : Nat} (below : n < w) :
    x.rotateRight n = BitVec.ofNat w (x.toNat / 2 ^ n + x.toNat * 2 ^ (w - n)) := by
  have high : x.toNat / 2 ^ n < 2 ^ (w - n) := by
    rw [Nat.div_lt_iff_lt_mul (Nat.two_pow_pos n), ← Nat.pow_add, Nat.sub_add_cancel (Nat.le_of_lt below)]
    exact x.isLt
  apply BitVec.eq_of_toNat_eq
  rw [BitVec.toNat_rotateRight, Nat.mod_eq_of_lt below, BitVec.toNat_ofNat, Nat.add_comm, ← Nat.shiftLeft_eq,
    Nat.shiftLeft_add_eq_or_of_lt high, Nat.or_mod_two_pow, Nat.or_comm, Nat.shiftRight_eq_div_pow,
    Nat.mod_eq_of_lt (Nat.lt_of_le_of_lt (Nat.div_le_self ..) x.isLt)]

theorem shiftAt_eq_shiftResult (op : ShiftOp) {w : Nat} (x : BitVec w) {n : Nat} (below : n < w) : shiftAt op x n = shiftResult op x n := by
  cases op with
  | shl => exact shiftLeft_eq_ofNat x n
  | shr => rw [shiftAt, shiftResult, ← Nat.shiftRight_eq_div_pow, ← BitVec.toNat_ushiftRight, BitVec.ofNat_toNat, BitVec.setWidth_eq]
  | sar => rw [shiftAt, shiftResult, BitVec.sshiftRight, Int.shiftRight_eq_div_pow, Int.natCast_pow]; rfl
  | rot => exact rotateRight_eq_ofNat x below

section Amount
variable {n k : Nat} (x : Word)

/-- A shift of a word, its amount modulo 64. -/
theorem shiftOp_wide (op : ShiftOp) (amount : n % 64 = k) : shiftOp op false x n = shiftResult op x k := by
  rw [← amount]; exact shiftAt_eq_shiftResult op x (Nat.mod_lt _ (by decide))

variable (amount : n % 32 = k)
include amount

/-- A shift of a low half, its amount modulo 32; every result but that of `shr` is sign-extended. -/
theorem shiftOp_narrow {op : ShiftOp} (signed : op ≠ .shr) : shiftOp op true x n = (shiftResult op (x.setWidth 32) k).signExtend 64 := by
  rw [← amount, shiftOp, if_pos rfl, if_neg signed, lo32_eq_setWidth, shiftAt_eq_shiftResult op _ (Nat.mod_lt _ (by decide))]

/-- `shr` of a low half is its quotient, zero-extended. -/
theorem shiftOp_narrow_shr : shiftOp .shr true x n = BitVec.ofNat 64 ((x.setWidth 32).toNat / 2 ^ k) := by
  rw [← amount, shiftOp, if_pos rfl, if_pos rfl, lo32_eq_setWidth, shiftAt_eq_shiftResult .shr _ (Nat.mod_lt _ (by decide)), shiftResult,
    setWidth_ofNat_of_lt (Nat.lt_of_le_of_lt (Nat.div_le_self ..) (BitVec.isLt _))]

/-- `sar` of a low half is its quotient rounded down, which the sign extension keeps. -/
theorem shiftOp_narrow_sar : shiftOp .sar true x n = BitVec.ofInt 64 ((x.setWidth 32).toInt / 2 ^ k) := by
  have value : ((x.setWidth 32).sshiftRight k).toInt = (x.setWidth 32).toInt / 2 ^ k := by
    rw [BitVec.toInt_sshiftRight, Int.shiftRight_eq_div_pow, Int.natCast_pow]; rfl
  rw [shiftOp, if_pos rfl, lo32_eq_setWidth, amount, ← value]; rfl

end Amount

/-! Bit fields. -/

/-- The field of `bf.x`, by its value. -/
theorem field_eq_ofNat (x : Word) (pos n : Nat) : (x >>> pos).setWidth n = BitVec.ofNat n (x.toNat / 2 ^ pos) := by
  rw [← BitVec.ofNat_toNat, BitVec.toNat_ushiftRight, Nat.shiftRight_eq_div_pow]

theorem fieldOf_signed (x : Word) (pos lenm1 : BitVec 6) :
    fieldOf true x pos lenm1 = (BitVec.ofNat (lenm1.toNat + 1) (x.toNat / 2 ^ pos.toNat)).signExtend 64 := by
  rw [fieldOf, if_pos rfl, field_eq_ofNat]

theorem fieldOf_unsigned (x : Word) (pos lenm1 : BitVec 6) :
    fieldOf false x pos lenm1 = BitVec.ofNat 64 (x.toNat / 2 ^ pos.toNat % 2 ^ (lenm1.toNat + 1)) := by
  rw [fieldOf, if_neg Bool.false_ne_true, field_eq_ofNat, ← BitVec.ofNat_toNat, BitVec.toNat_ofNat]

/-- The bits of the mask of `bf.i` are those of its field. -/
theorem getLsbD_fieldMask (pos lenm1 : BitVec 6) {k : Nat} (inside : k < 64) :
    ((BitVec.allOnes (lenm1.toNat + 1)).setWidth 64 <<< pos.toNat).getLsbD k = decide (pos.toNat ≤ k ∧ k ≤ pos.toNat + lenm1.toNat) := by
  rw [BitVec.getLsbD_shiftLeft, BitVec.getLsbD_setWidth, BitVec.getLsbD_allOnes, Bool.eq_iff_iff]
  simp only [Bool.and_eq_true, Bool.not_eq_true', decide_eq_true_eq, decide_eq_false_iff_not]
  omega

/-- `bf.i` replaces the bits of its field and keeps the others. -/
theorem getLsbD_insertField (d x : Word) (pos lenm1 : BitVec 6) {k : Nat} (inside : k < 64) :
    (insertField d x pos lenm1).getLsbD k =
      if pos.toNat ≤ k ∧ k ≤ pos.toNat + lenm1.toNat then x.getLsbD (k - pos.toNat) else d.getLsbD k := by
  rw [insertField, BitVec.getLsbD_or, BitVec.getLsbD_and, BitVec.getLsbD_and, BitVec.getLsbD_not, getLsbD_fieldMask pos lenm1 inside]
  by_cases field : pos.toNat ≤ k ∧ k ≤ pos.toNat + lenm1.toNat
  · rw [decide_eq_true field, if_pos field, BitVec.getLsbD_shiftLeft, decide_eq_true inside, decide_eq_false (Nat.not_lt.mpr field.1)]
    simp only [Bool.not_true, Bool.not_false, Bool.and_false, Bool.and_true, Bool.true_and, Bool.false_or]
  · rw [decide_eq_false field, if_neg field, decide_eq_true inside]
    simp only [Bool.not_false, Bool.and_false, Bool.and_true, Bool.or_false]

/-! Counts. -/

/-- `clz` counts the zeros above the highest one among the low `w` bits. -/
theorem clzAt_spec (x : Word) (w : Nat) : clzAt x w ≤ w ∧ (∀ k < clzAt x w, x.getLsbD (w - 1 - k) = false) ∧
    (clzAt x w < w → x.getLsbD (w - 1 - clzAt x w) = true) := by
  induction w with
  | zero => exact ⟨Nat.le_refl 0, fun k h => absurd h (Nat.not_lt_zero k), fun h => absurd h (Nat.lt_irrefl 0)⟩
  | succ w ih =>
    obtain ⟨bound, zeros, one⟩ := ih
    by_cases top : x.getLsbD w = true
    · rw [clzAt, if_pos top]
      exact ⟨Nat.zero_le _, fun k h => absurd h (Nat.not_lt_zero k), fun _ => top⟩
    · rw [clzAt, if_neg top]
      refine ⟨by omega, fun k hk => ?_, fun hk => ?_⟩
      · cases k with
        | zero => exact Bool.eq_false_iff.mpr top
        | succ k => rw [show w + 1 - 1 - (k + 1) = w - 1 - k by omega]; exact zeros k (by omega)
      · rw [show w + 1 - 1 - (clzAt x w + 1) = w - 1 - clzAt x w by omega]; exact one (by omega)

/-- `ctz` counts the zeros below the lowest one among the `n` bits from `i` up. -/
theorem ctzFrom_spec (x : Word) (i n : Nat) : ctzFrom x i n ≤ n ∧ (∀ k < ctzFrom x i n, x.getLsbD (i + k) = false) ∧
    (ctzFrom x i n < n → x.getLsbD (i + ctzFrom x i n) = true) := by
  induction n generalizing i with
  | zero => exact ⟨Nat.le_refl 0, fun k h => absurd h (Nat.not_lt_zero k), fun h => absurd h (Nat.lt_irrefl 0)⟩
  | succ n ih =>
    obtain ⟨bound, zeros, one⟩ := ih (i + 1)
    by_cases first : x.getLsbD i = true
    · rw [ctzFrom, if_pos first]
      exact ⟨Nat.zero_le _, fun k h => absurd h (Nat.not_lt_zero k), fun _ => first⟩
    · rw [ctzFrom, if_neg first]
      refine ⟨by omega, fun k hk => ?_, fun hk => ?_⟩
      · cases k with
        | zero => exact Bool.eq_false_iff.mpr first
        | succ k => rw [← Nat.add_assoc, Nat.add_right_comm]; exact zeros k (by omega)
      · rw [← Nat.add_assoc, Nat.add_right_comm]; exact one (by omega)

/-- `popc` counts the ones among the low `w` bits. -/
theorem popAt_eq_countP (x : Word) (w : Nat) : popAt x w = (List.range w).countP fun k => x.getLsbD k := by
  induction w with
  | zero => rfl
  | succ w ih => rw [popAt, ih, List.range_succ, List.countP_append, List.countP_singleton, Nat.add_comm, b2n]

/-- Settles O3: shifts by their value at each width, an immediate amount being below it; fields by value or bit by bit; counts by their recursion. -/
theorem scalarShiftFieldCount : Obligations.ScalarShiftFieldCount := by
  intro s t p d a b n pos lenm1 w h
  have below64 : n.toNat % 64 = n.toNat := Nat.mod_eq_of_lt n.isLt
  refine ⟨?shl, ?shr, ?sar, ?rot, ?shlW, ?shrW, ?sarW, ?rotW, ?shlImm, ?shrImm, ?sarImm, ?rotImm, fun below => ?immW,
    fun inside => ⟨?bfX, ?bfXS, ?bfI⟩, ?clz, ?ctz, ?popc⟩
  case shl => exact scalar_plain_of_issues h (shiftOp_wide _ _ rfl)
  case shr => exact scalar_plain_of_issues h (shiftOp_wide _ _ rfl)
  case sar => exact scalar_plain_of_issues h (shiftOp_wide _ _ rfl)
  case rot => exact scalar_plain_of_issues h (shiftOp_wide _ _ rfl)
  case shlW => exact scalar_plain_of_issues h (shiftOp_narrow _ rfl (by decide))
  case shrW => exact scalar_plain_of_issues h (shiftOp_narrow_shr _ rfl)
  case sarW => exact scalar_plain_of_issues h (shiftOp_narrow_sar _ rfl)
  case rotW => exact scalar_plain_of_issues h (shiftOp_narrow _ rfl (by decide))
  case shlImm => exact scalar_plain_of_issues h (shiftOp_wide _ _ below64)
  case shrImm => exact scalar_plain_of_issues h (shiftOp_wide _ _ below64)
  case sarImm => exact scalar_plain_of_issues h (shiftOp_wide _ _ below64)
  case rotImm => exact scalar_plain_of_issues h (shiftOp_wide _ _ below64)
  case immW =>
    have below32 : n.toNat % 32 = n.toNat := Nat.mod_eq_of_lt below
    exact ⟨scalar_plain_of_issues h (shiftOp_narrow _ below32 (by decide)), scalar_plain_of_issues h (shiftOp_narrow_shr _ below32),
      scalar_plain_of_issues h (shiftOp_narrow_sar _ below32), scalar_plain_of_issues h (shiftOp_narrow _ below32 (by decide))⟩
  case bfX => exact scalar_plain_of_issues h (fieldOf_unsigned ..)
  case bfXS => exact scalar_plain_of_issues h (fieldOf_signed ..)
  case bfI => exact ⟨_, scalar_plain_of_issues h rfl, fun k => getLsbD_insertField _ _ pos lenm1⟩
  case clz => exact ⟨_, scalar_plain_of_issues h rfl, clzAt_spec ..⟩
  case ctz =>
    refine ⟨_, scalar_plain_of_issues h rfl, ?_⟩
    have spec := ctzFrom_spec (t.sreg s.cur.body a) 0 (countWidth w)
    simp only [Nat.zero_add] at spec
    exact spec
  case popc => exact scalar_plain_of_issues h (congrArg w64 (popAt_eq_countP ..))

end Sys2Proof.Machine
end

section
/-! PROOFS. Scalar compares, selections, addresses, constants, and the predicate registers (08 R164, R165, R168-R170). -/

namespace Sys2Proof.Machine

/-- The word of a compare: 1 where it holds, else 0 (08 R164). -/
theorem w64_b2n (c : Bool) : w64 (b2n c) = if c then 1 else 0 := by cases c <;> rfl

/-- Settles O4: each row writes what it computes from the thread that issues it, to a scalar or to a predicate register. -/
theorem scalarCompareSelectMove : Obligations.ScalarCompareSelectMove := by
  intro s t p cc d a b c q r u sh i j k
  refine ⟨fun h => ⟨?cmpP, ?cmpPImm, ?fromScalar⟩, fun h => ?cmpPLong, fun h => ⟨?cmpS, ?cmpSImm, ?selS, ?lea⟩, fun h => ⟨?cmpSLong, ?leaLong, ?leaPc, ?li⟩,
    fun h => ?liLong, fun h => ⟨?selP, ?toScalar⟩, fun h => ?pair, fun h => ?triple⟩
  case cmpP => exact onThread_setP_of_issues h rfl
  case cmpPImm => exact onThread_setP_of_issues h rfl
  case fromScalar => exact onThread_setP_of_issues h (lo32_eq_setWidth _)
  case cmpPLong => exact onThread_setP_of_issues h rfl
  case cmpS => exact scalar_plain_of_issues h (w64_b2n _)
  case cmpSImm => exact scalar_plain_of_issues h (w64_b2n _)
  case selS => exact scalar_plain_of_issues h (ite_not ..).symm
  case lea => exact scalar_plain_of_issues h (by rw [shiftLeft_eq_ofNat]; rfl)
  case cmpSLong => exact scalar_plain_of_issues h (w64_b2n _)
  case leaLong => exact scalar_plain_of_issues h (by rw [shiftLeft_eq_ofNat]; rfl)
  case leaPc => exact scalar_plain_of_issues h rfl
  case li => exact scalar_plain_of_issues h rfl
  case liLong => exact scalar_plain_of_issues h rfl
  case selP => exact scalar_plain_of_issues h rfl
  case toScalar => exact scalar_plain_of_issues h (BitVec.ofNat_toNat ..).symm
  case pair => exact ⟨onThread_setP_of_issues h rfl, onThread_setP_of_issues h rfl⟩
  case triple => exact ⟨onThread_setP_of_issues h rfl, onThread_setP_of_issues h rfl, onThread_setP_of_issues h rfl⟩

end Sys2Proof.Machine
end
